-- ==== Sys2Proof/Word.lean ====
section
/-!
DEFINITION. The word types of the Dalif and the sparse table that holds counters and marks by key.
-/

namespace Sys2Proof

/-- A host word, a register (R354). -/
abbrev Word := BitVec 16

/-- A queue position or a 48-bit count (R123, R194). -/
abbrev Pos := BitVec 48

/-- A slot as stored: 8 data bits in [7:0] and the M bit in [8] (R5). -/
abbrev Slot9 := BitVec 9

/-- One of the sixteen queues Q0 to Q15. -/
abbrev QId := Fin 16

/-- One of the four ports P0 to P3. -/
abbrev PId := Fin 4

/-- One of the two DRAM channels Y0 and Y1. -/
abbrev YId := Fin 2

/-- The two host paths (R354). -/
inductive Path where
  | a
  | b
  deriving DecidableEq, Repr

/-- The number a path has as an event instance and in DP:ERRCAP_INFO.PATH (R384, R387). -/
def Path.num : Path → Nat
  | .a => 0
  | .b => 1

/-- A table from natural keys to values, sorted by key; an absent key reads as a default. -/
abbrev Table (α : Type) := List (Nat × α)

/-- The value at a key, `d` where none is listed. -/
def Table.get {α : Type} (d : α) : Table α → Nat → α
  | [], _ => d
  | (k', v) :: t, k => if k' = k then v else Table.get d t k

/-- Writes a key, dropping an entry equal to the default, so that equal tables are equal lists. -/
def Table.put {α : Type} [DecidableEq α] (d : α) : Table α → Nat → α → Table α
  | [], k, v => if v = d then [] else [(k, v)]
  | (k', w) :: t, k, v =>
    if k' = k then (if v = d then t else (k, v) :: t)
    else if k < k' then (if v = d then (k', w) :: t else (k, v) :: (k', w) :: t)
    else (k', w) :: Table.put d t k v

/-- The canonical form: keys strictly rise and no entry equals the default. -/
def Table.wf {α : Type} [DecidableEq α] (d : α) : Table α → Bool
  | [] => true
  | (k, v) :: t =>
    (v ≠ d) && (match t with
      | [] => true
      | (k', _) :: _ => decide (k < k')) && Table.wf d t

end Sys2Proof
end

