-- ==== Sys2Proof/Syntax.lean ====
section
/-!
DEFINITION. The commands of the block: one constructor per row of spec/opcode_table.json, with the operand types they carry.
What the spec does not compute (pin levels, measurements, upsets, results of march tests) comes in as an operand.
-/

namespace Sys2Proof

/-- The supplies of Table 2.8. -/
inductive Supply where
  | vcore
  | vddio
  | vddq0
  | vddq1
  | vdda
  deriving DecidableEq, Repr

/-- The strap levels of Table 2.7. -/
structure Straps where
  caspos : BitVec 3
  wtwin : Bool
  maddr : BitVec 3
  boottrn : Bool
  hbwait : Bool
  deriving DecidableEq, Repr

/-- What an ECC check of one stave or one beat finds (R190, R191). -/
inductive Ecc where
  | clean
  | single
  | double
  deriving DecidableEq, Repr

/-- The resources that have a lock (R391). -/
inductive LockId where
  | config
  | time
  | dram
  deriving DecidableEq, Repr

/-- A voted word (R378). `queue q i`: word i of QCFG, QMAP_L, QMAP_H, QBASE_L, QBASE_H, QSIZE_L, QSIZE_H. -/
inductive VRef where
  | queue (q : QId) (i : Fin 7)
  | sortYard (e : Fin 64) (hi : Bool)
  | acfg
  | ainq
  | floor
  | ceil
  | margin
  | lock (l : LockId)
  | discMode
  | tset (ch : YId) (setB : Bool) (i : Fin 15)
  deriving DecidableEq, Repr

/-- Bits flipped in the three copies of a voted word before a compare. -/
structure Flips where
  m0 : Word
  m1 : Word
  m2 : Word
  deriving DecidableEq, Repr

/-- An upset of a voted word, found by the scrubber (R379). -/
structure Upset where
  ref : VRef
  flips : Flips
  deriving DecidableEq, Repr

/-- What the sweep measures on one byte lane of one rank (Table 9.3). -/
structure LaneMeas where
  /-- The first tap at which all 8 samples read 1 after a tap at which all 8 read 0, where there is one. -/
  wl : Option (BitVec 9)
  /-- First and last setting of the gate window of step 3, as COARSE × 128 + FINE. -/
  gate : Option (Nat × Nat)
  /-- Which RDDLY taps pass, from tap 0. -/
  rd : List Bool
  /-- Which WRDLY taps pass, from tap 0, in step 5. -/
  wr : List Bool
  /-- Width in taps of the lane's write eye at each even VrefDQ code from 0x00 to 0x32. -/
  eyes : List Nat
  /-- Which WRDLY taps pass, from tap 0, at the code that step 6 chooses. -/
  wr2 : List Bool
  /-- The final check of step 7 matches on the lane. -/
  final : Bool
  deriving DecidableEq, Repr

/-- A sweep's measurements: ten lanes of rank 0, then ten of rank 1. -/
structure SweepData where
  rank0 : List LaneMeas
  rank1 : List LaneMeas
  deriving DecidableEq, Repr

/-- One lane's phase moves of a DQS tracking update, each −1, 0 or +1 tap (R267). -/
structure TrackMove where
  rd : Int
  gate : Int
  deriving DecidableEq, Repr

/-- The trained-delay registers of YnPHY (R264). -/
inductive TapReg where
  | wldly
  | gate
  | rddly
  | wrdly
  | vref
  deriving DecidableEq, Repr

/-- The counters that only a written 0 clears (R453). -/
inductive ClearReg where
  | qevt (q : QId)
  | perrcnt (n : PId)
  | ptagmiss (n : PId)
  deriving DecidableEq, Repr

/-- Whether the staves fetched for an egress port suffice on an edge (R498): they do, the word is the last one fetched, or
none is fetched. -/
inductive Fetched where
  | enough
  | last
  | none
  deriving DecidableEq, Repr

/-- What the Yarder does with a rank's refresh (R237, R239). -/
inductive RefKind where
  | issue
  | postpone
  | early
  deriving DecidableEq, Repr

/-- A Landing stave in which an internal read finds an error: queue, stave number (position div 32), kind (R190). -/
structure StaveErr where
  q : QId
  stave : Nat
  ecc : Ecc
  deriving DecidableEq, Repr

/-- How a write word of path B ends (R363, R364): with its P as Table 12.4 has it, before its DH, or with a byte that no row
of the table has there. -/
inductive WordEnd where
  | stop
  | cut
  | astray
  deriving DecidableEq, Repr

/-- The two link ends of a device (R278). -/
inductive LinkEnd where
  | out
  | inn
  deriving DecidableEq, Repr

/-- The commands of the block, one constructor per row of the table. A default is the operand of the usual case. -/
inductive Instr where
  | porstLow (ns : Nat)
  | supplyFault (x : Supply)
  | startUp (st : Straps) (bad : BitVec 17)
  | warmDeviceReset (p : Path) (en : Bool) (heart : Bool) (bad : BitVec 17) (ups : List Upset := [])
  | pathAReset (ns : Nat)
  | msclLowTimeout
  | generalCallReset (cmd : BitVec 8 := 0x06)
  | refclkLoss
  | refclkReturn
  | sensorConversion (t0 t1 t2 t3 : Int)
  | voteScrub (ups : List Upset)
  | heartToggle (alive : Bool)
  | governorInterval (capac capdn : Word)
  | vcoreSample (mv : Word)
  | ingressWord (n : PId) (en : Bool) (d hi : BitVec 36) (qa : BitVec 4) (fr : BitVec 2)
  | steerSegment (n : PId)
  | staveCommit (n : PId)
  | creditGrant (n : PId) (q : QId)
  | egressRead (n : PId) (en : Bool) (qa : BitVec 4) (ecc : List Ecc) (fetch : Fetched := .enough)
  | flagCrossing (n : PId)
  | portNoclk (n : PId)
  | portClockResume (n : PId)
  | syncDepthMeasure (n : PId) (khz : Nat)
  | portEnable (p : Path) (n : PId)
  | portDisable (p : Path) (n : PId)
  | portReset (p : Path) (n : PId) (en : Bool)
  | captureArm (p : Path) (n : PId) (trig : Bool)
  | deviceEnable (p : Path) (en : Bool) (heart : Bool)
  | queueEnable (p : Path) (q : QId)
  | queueDisable (p : Path) (q : QId)
  | queueReset (p : Path) (q : QId) (en : Bool)
  | flush (p : Path) (q : QId) (en : Bool)
  | mark (p : Path) (q : QId) (en : Bool)
  | rewind (p : Path) (q : QId) (en : Bool) (idx : BitVec 2)
  | commit (p : Path) (q : QId) (en : Bool)
  | markApply (q : QId)
  | lookaheadSample
  | spillRequest (q : QId)
  | spillAck (ch : YId) (q : QId)
  | refillRequest (q : QId)
  | refillStaveArrival (ch : YId) (q : QId) (beats : List Ecc)
  | bankRotation (errs : List StaveErr)
  | rotationCopyEnd (errs : List StaveErr) (frames : List (QId × Nat) := [])
  | bankTestDone (fail : Bool)
  | fullTest (p : Path)
  | fullTestDone (bad : BitVec 17)
  | sweep (p : Path)
  | snapshotTake (p : Path) (view : Bool)
  | billetRequestStart (ch : YId) (q : QId) (cas : Bool := false)
  | burstIssue (ch : YId) (ok : BitVec 34) (ecc : List Ecc)
  | trackerWindowEnd (ch : YId)
  | tokenBucketTick (ch : YId)
  | refreshDue (ch : YId) (rank : Bool) (kind : RefKind)
  | thermalChange (ch : YId) (low : Bool)
  | selfRefreshEntry (ch : YId)
  | train (p : Path) (ch : YId)
  | freqsw (p : Path) (ch : YId)
  | resetkeep (p : Path) (ch : YId)
  | resetdrop (p : Path) (ch : YId)
  | drainWindow (ch : YId)
  | forcedDrain (ch : YId)
  | drainDone (ch : YId)
  | sweepStart (ch : YId)
  | sweepDone (ch : YId) (m : SweepData)
  | dqsTracking (ch : YId) (rank : Bool) (moves : List TrackMove)
  | zqCalibration (ch : YId)
  | hostTrainingHold (p : Path) (ch : YId)
  | holdRelease (p : Path) (ch : YId)
  | patternRun (p : Path) (ch : YId)
  | patternRunDone (ch : YId) (mism : List (BitVec 10)) (clean : Nat)
  | tapWrite (p : Path) (ch : YId) (r : TapReg) (v : Word)
  | ytregWrite (p : Path) (ch : YId) (base : BitVec 21) (len : BitVec 22)
  | timingSetWrite (p : Path) (ch : YId) (setB : Bool) (i : Fin 15) (v : Word)
  | yqosWrite (p : Path) (ch : YId) (cls : Fin 4) (rate burst lat : Word)
  | yctlWrite (p : Path) (ch : YId) (lo hi : Word)
  | hamWrite (p : Path) (ch : YId) (thresh space hits : Word)
  | staveFrame (ctl : BitVec 36) (data : List (BitVec 36))
  | keepalive (ctl : BitVec 36)
  | resync (ctl : BitVec 36)
  | restart (ctl : BitVec 36)
  | creditFrame (bits : BitVec 38)
  | staveSend (q : QId) (ecc : List Ecc)
  | linkCreditGrant (q : QId)
  | keepaliveSend
  | creditFrameSend
  | resyncRetry
  | linkLoss (e : LinkEnd)
  | linkTrainEntry (e : LinkEnd) (pattern : Bool := false)
  | linkUp (e : LinkEnd)
  | rstout (p : Path)
  | rstin (p : Path)
  | acfgWrite (p : Path) (v : Word)
  | ainqWrite (p : Path) (v : Word)
  | ppsEdge
  | ppsmissTimeout
  | timeCorrection (p : Path) (offs : BitVec 48) (offns : BitVec 30)
  | slewEnd
  | rateadjWrite (p : Path) (v : BitVec 32)
  | calCommit (p : Path)
  | calCancel (p : Path)
  | utcoffWrite (p : Path) (v : Word)
  | utcChangeArm (p : Path) (at48 : BitVec 48)
  | utccan (p : Path)
  | utcoffChange
  | tsoutWrite (p : Path) (v : Word)
  | tsOutPulse
  | windowCommit (p : Path) (j : Fin 16) (w0 w1 w2 w3 : Word)
  | windowEvaluate
  | windowClose (j : Fin 16)
  | registerWrite (p : Path) (word : BitVec 7) (v : Word)
  | postedWriteLand (p : Path)
  | wrstall (p : Path)
  | rdto (p : Path)
  | stallLimit
  | smbusWriteWord (word : BitVec 7) (v : Word) (pec : Option (BitVec 8)) (ending : WordEnd := .stop)
  | sequentialWrite (word : BitVec 7) (vals : List Word) (odd : Bool := false)
  | setPointer (cmd : Option (BitVec 8)) (astray : Bool := false)
  | alertResponse
  | lockWrite (p : Path) (l : LockId) (v : Word)
  | leaseExpiry (l : LockId)
  | sealWrite (p : Path) (v : Word)
  | slotidWrite (p : Path) (v : Word)
  | evcntClear (p : Path)
  | evackWrite (p : Path) (v : Word)
  | counterClear (p : Path) (r : ClearReg) (v : Word)
  | supplyReturn (x : Supply)
  | hrstRise
  | registerRead (p : Path) (word : BitVec 7) (seq : Bool) (flips : Flips)
  | wsyncChange (lines : BitVec 4)
  | refclkEdge
  | startupComplete
  | warmResetComplete
  | queueResetComplete (q : QId)
  | portResetComplete (n : PId)
  | freqswComplete (ch : YId)
  | tsOutPulseEnd
  | pageidlePrecharge (ch : YId) (bank : Fin 16)
  deriving DecidableEq, Repr

end Sys2Proof
end

