-- ==== Sys2Proof/Decode.lean ====
section
/-!
DEFINITION. Words to commands. The table gives no row any bits, so no word spells a command.
-/

namespace Sys2Proof

/-- The command a word spells by the table's bits: none, since every row of the table lists no bits. -/
def decodeTableWord (_nbits _w : Nat) : Option Instr := none

end Sys2Proof
end

