-- ==== Sys2Proof/Config.lean ====
section
/-!
DEFINITION. The values the spec leaves open after which the machine goes on: opaque constants, so that no proof sees them.
Each is applied to the state's free counter or to the operands it depends on (log 1).
-/

namespace Sys2Proof.Config

/-- PnD on a launching edge on which PnDV is low: it carries no meaning there (R102). -/
opaque idleData : Nat → BitVec 36

/-- PnFR on a launching edge on which PnDV is low: it carries no meaning there (R102). -/
opaque idleFrame : Nat → BitVec 2

/-- Slot `i` of a billet that holds training patterns: the index of the run or sweep, PGCTL.PAT (4 for a pattern of
Carding's own), the seed and the slot. The spec gives neither the PRBS polynomials nor where a walking one starts (R255,
R261). -/
opaque pattern : Nat → Nat → Word → Nat → Slot9

/-- Whether GOV:DEMAND, whose rounding to whole M staves/s the spec does not state, rounds a fraction up (R496). -/
opaque demandRoundsUp : Nat → Bool

end Sys2Proof.Config
end

