-- ==== Sys2Proof/Machine/State.lean ====
section
/-!
DEFINITION. The state of the Dalif as plain data, its reset value, and the reasons a step can stop.
A field names the rule that gives it; a field marked "model's own" is named in the assumption log.
-/

namespace Sys2Proof.Machine

/-- A voted word: three copies (R378), and whether a compare has found all three to differ (R380). -/
structure VWord where
  c0 : Word
  c1 : Word
  c2 : Word
  failed : Bool
  deriving DecidableEq, Repr

/-- A voted word whose three copies hold `w`. -/
def VWord.of (w : Word) : VWord := ⟨w, w, w, false⟩

/-- EVCNT and EVACK of one class and instance (R383). -/
structure EvCell where
  cnt : Word
  ack : Word
  deriving DecidableEq, Repr

/-- The level a pin shows (Table 2.11). -/
inductive Level where
  | low
  | high
  | z
  deriving DecidableEq, Repr

/-- S, N and TEPOCH taken together at one core instant (R322), with S − UTCOFF of that instant (R321). -/
structure Stamp where
  sec : BitVec 48
  ns : BitVec 30
  epoch : BitVec 8
  view : Int
  deriving DecidableEq, Repr

/-- Power, straps and whole-device reset (R38, R42, R57 to R78). -/
structure Boot where
  /-- Which supplies are within limits: VCORE, VDDIO, VDDQ0, VDDQ1, VDDA (R41). -/
  supplies : Vector Bool 5
  /-- Level of PORST# (R57). -/
  porst : Bool
  straps : Straps
  /-- Lowest start-up step not complete; 8 when complete (R60). -/
  stage : Nat
  /-- IDENT:RSTCAUSE (R78). -/
  rstCause : Word
  /-- A warm device reset is in progress (R74). -/
  warm : Bool
  /-- Start-up or a warm reset stopped at its Landing test (R64). -/
  halted : Bool
  /-- The banks that fail a march test of start-up or of a warm reset (R59, R64). -/
  badBanks : BitVec 17
  /-- The junction sensors have completed a first conversion since start-up step 2 (Table 3.1, step 3). -/
  sensed : Bool
  /-- Steps 5 and 6 of start-up run (R65). -/
  carding : Bool
  /-- Channels that step 6 has placed in self-refresh untrained (Table 3.1, BOOTTRN = 0). -/
  rested : BitVec 2
  /-- Steps 5 and 6 of start-up are over (R59). -/
  trained : Bool
  /-- Channels whose step 5 of the warm device reset in progress has begun (Table 3.2). -/
  warmed : Nat
  deriving DecidableEq, Repr

/-- A resource lock (R391, R394): its voted holder word, and the lease in REFCLK edges. -/
structure Lock where
  holder : VWord
  since : Nat
  len : Nat
  deriving DecidableEq, Repr

/-- The shared words of the direct page (R428). -/
structure Direct where
  en : Bool
  heartEn : Bool
  ready : Bool
  readySeen : Bool
  fatal : Bool
  lockCfg : Lock
  lockTime : Lock
  lockDram : Lock
  lease : Word
  errAddr : Word
  errInfo : Word
  sealV : Word
  sealDone : Bool
  slotId : Word
  slotDone : Bool
  temp : Word
  heart : Bool
  /-- The REFCLK instant, in 1/32 of a period, from which HEART may toggle next (R53). -/
  heartAt : Nat
  deriving DecidableEq, Repr

/-- The banks of Table 12.1. `yard hi`: SY0 or SY1; `tset c b`: set A or B of channel c. -/
inductive Bank where
  | queue (q : QId)
  | port (n : PId)
  | yard (hi : Bool)
  | chan (c : YId)
  | tset (c : YId) (setB : Bool)
  | phy (c : YId)
  | time
  | cal
  | win
  | azl
  | land
  | evt
  | gov
  | ident
  deriving DecidableEq, Repr

/-- A posted write that has completed on the bus and not landed (R368). `hi` is the staged word of the next higher
offset for the one posted register of two words, PGCTL (R376). `sel` is the BANKSEL of its access (R387). `quiet`: a
PATH reset has reset the BUSY that it set (R419). -/
structure Posted where
  bank : Bank
  off : Nat
  val : Word
  hi : Option Word
  sel : Nat
  quiet : Bool
  deriving DecidableEq, Repr

/-- What a snapshot holds of one queue (R198, R297). -/
structure QSnap where
  wcnt : Pos
  rcnt : Pos
  xcnt : Pos
  dcnt : Pos
  occ : Pos
  rdbl : Pos
  pend : Word
  asent : BitVec 32
  aack : BitVec 32
  acred : Word
  aresend : Word
  deriving DecidableEq, Repr

/-- What a snapshot holds of one channel (R198): ALLOC, LAND, BOOM, FLT. -/
structure YSnap where
  alloc : Nat
  land : Nat
  boom : Nat
  flt : Nat
  deriving DecidableEq, Repr

/-- What a snapshot holds of one port (R198): credits held and in flight. -/
structure PSnap where
  held : Nat
  inflight : Nat
  deriving DecidableEq, Repr

/-- A ledger snapshot (R198). -/
structure Snapshot where
  q : Vector QSnap 16
  y : Vector YSnap 2
  p : Vector PSnap 4
  time : Stamp
  deriving DecidableEq, Repr

/-- A latched multi-word value in a path's general holding part (R374): bank, offset of its lowest word, the queue that
AZL:ASEL named where the value is that queue's, whether a CAL value is the staging's, and the TNOW0 latch it was taken under
where it is the view's (R340), words. -/
structure Latch where
  bank : Bank
  off : Nat
  asel : BitVec 4
  staged : Bool
  stamp : Option Stamp
  words : List Word
  deriving DecidableEq, Repr

/-- A word staged by a path for a multi-word register (R375). -/
structure Staged where
  bank : Bank
  off : Nat
  val : Word
  deriving DecidableEq, Repr

/-- What exists once per path (R356, R374, R375, R483). -/
structure PathSt where
  bankSel : BitVec 6
  evSel : Word
  irq0 : Word
  irq1 : Word
  /-- Posted writes that have not landed, oldest first. -/
  posted : List Posted
  staging : List Staged
  holdTime : Option Stamp
  holdPps : Option (List Word)
  holdGen : Option Latch
  snapValid : Bool
  snapView : Bool
  snap : Snapshot
  asel : BitVec 4
  /-- A posted read that has not been answered: its bank and offset (R372). -/
  readWait : Option (Bank × Nat)
  /-- The path is held in a PATH reset (R361). -/
  inReset : Bool
  /-- The word last returned to the host. -/
  readData : Word
  /-- Path B's word address pointer (R363). -/
  ptr : BitVec 7
  /-- Path B's last acknowledge (R363, R364, R366). -/
  ack : Bool
  /-- Path B's last read was a sequential one, which carries no PEC (R364). -/
  readSeq : Bool
  /-- The address path B last returned to the alert response address (R366). -/
  alertByte : BitVec 8
  deriving DecidableEq, Repr

/-- The time base and its discipline (R317 to R336, R344). -/
structure Time where
  /-- REFCLK is present (R319). -/
  refclk : Bool
  /-- REFCLK rising edges so far, for the timers that run on REFCLK (model's own). -/
  ticks : Nat
  sec : BitVec 48
  ns : Nat
  /-- Fraction of a nanosecond, in units of 1/(25 · 2^32) ns (R318, R330). -/
  frac : Nat
  /-- The time base's own advance so far, trim and slew included, steps excluded, in the same units (R325, R350). -/
  adv : Nat
  epoch : BitVec 8
  rate : BitVec 32
  /-- What is left of a running slew, in the same units (R330). -/
  slew : Int
  disc : VWord
  arm : Bool
  stepth : Word
  ppsSec : BitVec 48
  ppsNs : Nat
  ppsEpoch : BitVec 8
  ppsSeq : BitVec 8
  /-- Own advance at the last accepted PPS edge (R325). -/
  ppsLast : Option Nat
  ppsMiss : Bool
  utcOff : Word
  utcNxt : Word
  utcAt : BitVec 48
  utcArmed : Bool
  tsout : Word
  /-- The TSOUT value that drives the output; a write acts at the next whole TAI second (R335). -/
  tsoutNow : Word
  /-- The TAI second in which an outstanding TSOUT write was made. -/
  tsoutPend : Option (BitVec 48)
  /-- TS_OUT is high in a pulse since this own advance. -/
  pulse : Option Nat
  /-- What the last edge passed by own advance: `some false` a whole second, `some true` half a second (R336). -/
  pass : Option Bool
  deriving DecidableEq, Repr

/-- The calendar staging registers, CAL:STS.VIEW and CAL:STS.BADDATE (R340, R342, R436). -/
structure Cal where
  year : Word
  mon : Word
  day : Word
  hmsL : Word
  hmsH : Word
  view : Bool
  bad : Bool
  deriving DecidableEq, Repr

/-- A release window (R346, R349, R350): its four words, the own advance at which the countdown ends while it is open,
and the day of the last occurrence that opened. -/
structure Window where
  w0 : Word
  w1 : Word
  w2 : Word
  w3 : Word
  closeAt : Option Nat
  record : Option Int
  deriving DecidableEq, Repr

/-- The governor (R432, R433, R438). -/
structure Gov where
  floor : VWord
  ceil : VWord
  margin : VWord
  mode : Word
  demand : Word
  capac : Word
  capdn : Word
  code : Nat
  /-- FLOOR, CEIL and MARGIN in force in the running interval (R439). -/
  useFloor : Word
  useCeil : Word
  useMargin : Word
  tsens : Vector Word 4
  vcoreMv : Word
  /-- Demand counted since the interval began, in eighths of a stave (R496). -/
  acc8 : Nat
  /-- REFCLK edge at which the running 50 µs interval began. -/
  tick : Nat
  deriving DecidableEq, Repr

/-- The queue map in use (R181), with RFAHEAD and CHAN as the queue uses them. -/
structure QMap where
  lshare : Nat
  chan : Nat
  spillat : Nat
  rfahead : Nat
  qbase : Nat
  qsize : Nat
  deriving DecidableEq, Repr

/-- ECC state of one stave of a queue: poisoned (R190, R191), an uncorrectable error in its Landing copy (R190), its Boom
copy written with inverted check bits (R192). -/
structure StaveEcc where
  poison : Bool
  ue : Bool
  bad : Bool
  deriving DecidableEq, Repr

/-- A slot taken from a queue: its nine bits, and whether its stave is poisoned (R193). -/
structure Slot where
  v : Slot9
  poison : Bool
  deriving DecidableEq, Repr

/-- Training patterns written over the first `slots` slots of a Boom copy (R255): PGCTL.PAT, or 4 for patterns of Carding's
own, the seed in use, and the index of its free values. -/
structure Overwrite where
  slots : Nat
  pat : Nat
  seed : Word
  ix : Nat
  deriving DecidableEq, Repr

/-- A segment in a queue: position of its first bark slot, stored length with its bark, all committed (R117, R416), and, of
one that came over the chain, the payload length that its bark states (R311). -/
structure Seg where
  start : Pos
  len : Nat
  complete : Bool
  stated : Nat
  deriving DecidableEq, Repr

/-- A billet of a queue between H and W (R184): in a Landing frame, with a Boom copy, lost, its spill in flight, the
staves that have arrived while its refill is in flight, and the patterns written over its Boom copy, newest first. -/
structure Billet where
  num : Nat
  frame : Bool
  boom : Bool
  lost : Bool
  spilling : Bool
  refill : Option Nat
  pats : List Overwrite
  deriving DecidableEq, Repr

/-- A pending mark command (R165). -/
inductive MarkCmd where
  | mark
  | rewind (i : Nat)
  deriving DecidableEq, Repr

/-- A queue (R123, R128, R159, R443). -/
structure Queue where
  en : Bool
  qcfg : VWord
  qmapL : VWord
  qmapH : VWord
  qbaseL : VWord
  qbaseH : VWord
  qsizeL : VWord
  qsizeH : VWord
  /-- The map latched at the last accepted enable (R181). -/
  map : Option QMap
  afon : Pos
  afoff : Pos
  aeon : Pos
  aeoff : Pos
  ffres : Word
  afmode : Word
  afttf : Word
  afalpha : Word
  /-- The Scaler's stored flags (R509). -/
  ef : Bool
  ae : Bool
  hf : Bool
  ff : Bool
  afth : Bool
  afla : Bool
  /-- The rate estimate in slots per µs with 8 fraction bits (R134). -/
  rate : Int
  /-- The apparent fill at the last sample (R134, R136). -/
  lastAfl : Int
  w : Pos
  r : Pos
  h : Pos
  f : Pos
  wcnt : Pos
  rcnt : Pos
  xcnt : Pos
  dcnt : Pos
  marks : List Pos
  markPend : Option MarkCmd
  /-- The slots from H to W, oldest first (R19, R123). -/
  held : List Slot9
  /-- ECC state by stave number (position div 32); a stave not listed has no error (R190 to R192). -/
  ecc : Table StaveEcc
  segs : List Seg
  /-- Segments committed since the last QUEUE reset, modulo 2^32 (Table 4.6). -/
  segSeq : BitVec 32
  /-- End of the segment whose bark header has been launched and that is not delivered to its end (R104). -/
  launched : Option Pos
  /-- The port that launched it (R450). -/
  launchPort : PId
  /-- Slot 1 of its bark header as launched (R177). -/
  bark1 : Slot9
  /-- W was last set by a flush or by the end of a segment (R292). -/
  tailCut : Bool
  billets : List Billet
  disc : Word
  resetting : Bool
  vfail : Bool
  /-- The stave (position div 32) the reader last read (R190). -/
  rdStave : Option Nat
  /-- The billet that the engine asks to spill, and to refill, with the stamp of the instant from which it may be handed over
  (R508, log 38). -/
  spillSince : Option (Nat × Nat)
  refillSince : Option (Nat × Nat)
  deriving DecidableEq, Repr

/-- The pins a port drives (Table 2.3). `dz`: PnD and PnFR are high-impedance. -/
structure Pins where
  fla : Level
  flb : Level
  err : Level
  dv : Level
  d : BitVec 36
  fr : BitVec 2
  dz : Bool
  deriving DecidableEq, Repr

/-- What the capture side of a segment-mode port is in (R109, R119). -/
inductive Fsm where
  | idle
  /-- Inside a lead word of several port words: its slots so far, and whether one had a parity error. -/
  | lead (got : List Slot9) (par : Bool)
  /-- Inside a segment: LEN in force where LENV holds, payload slots accepted so far. -/
  | body (len : Option Nat) (cnt : Nat)
  /-- Discarding up to and including the next 0b10 or 0b11 word. -/
  | skip
  deriving DecidableEq, Repr

/-- The Sort yard's answer to a lead word that has entered the core (R113, R152): its queue (none: dropped, R155), its
arrival stamp, and a stamp that orders the answers (model's own). -/
structure Steer where
  q : Option QId
  stamp : Stamp
  order : Nat
  deriving DecidableEq, Repr

/-- What the capture side hands to the core in order (R112); a lead word with the Sort yard's answer once it has one. -/
inductive Tok where
  | lead (tag : BitVec 6) (lenv crcin par : Bool) (ans : Option Steer)
  | pay (v : Slot9) (par : Bool)
  | fin (trunc : Bool) (discard : Bool)
  deriving DecidableEq, Repr

/-- The segment open on the core side of a port: its queue (none: dropped, R155), lead fields, arrival stamp, payload
length and CRCs so far, and the stave being filled, its 24 bark slots included (R507). -/
structure CurSeg where
  q : Option QId
  tag : BitVec 6
  lenv : Bool
  crcin : Bool
  par : Bool
  stamp : Stamp
  /-- The order of its steering among the open segments of a queue (R93, R99). -/
  order : Nat
  len : Nat
  crc : BitVec 32
  /-- CRC of the payload without its last four slots (R115). -/
  lag : BitVec 32
  /-- Data of the last four payload slots, oldest first. -/
  last4 : List (BitVec 8)
  /-- No stave of the segment has been completed yet. -/
  first : Bool
  /-- The stave being filled; empty when no credit is set aside for one. -/
  fill : List Slot9
  deriving DecidableEq, Repr

/-- What the last stave of a segment carries to its commit, for the bark header (Table 4.6). -/
structure Bark where
  tag : BitVec 6
  lenv : Bool
  crcin : Bool
  badcrc : Bool
  trunc : Bool
  par : Bool
  len : Nat
  crc : BitVec 32
  stamp : Stamp
  port : Nat
  deriving DecidableEq, Repr

/-- A completed stave that waits for its commit (R142): stream mode, or a stave of a segment, the first one holding 24
bark slots, the last one its header contents. `flush`: a flushed partial stave (R144). -/
structure DoneStave where
  q : QId
  slots : List Slot9
  segment : Bool
  first : Bool
  last : Option Bark
  flush : Bool
  deriving DecidableEq, Repr

/-- A port (R81, R92, R121, R455). -/
structure Port where
  en : Bool
  cfg : Word
  /-- PCFG as latched at the last enable or PORT reset (R82, R407). -/
  lcfg : Word
  flagq : Word
  perrcnt : Word
  ptagmiss : Word
  capTrig : Bool
  capArmed : Bool
  capDone : Bool
  /-- A capture taken whose PnERR# has not been launched yet (R461). -/
  capWait : Bool
  capt0 : Word
  capt1 : Word
  capt2 : Word
  noclk : Bool
  /-- No PnCLK edge has come since the clock stopped (R122). -/
  stopped : Bool
  /-- The last measured PnCLK frequency exceeds 200 MHz (R89). -/
  fast : Bool
  /-- Stave credits held at the port, per queue (R92), the set-aside ones included (R93). -/
  held : Vector Nat 16
  /-- Stave credits spent on staves not yet committed, per queue (R92). -/
  spent : Vector Nat 16
  /-- Stream-mode partial staves, per queue (R143). -/
  partials : Vector (List Slot9) 16
  done : List DoneStave
  fsm : Fsm
  staging : List Tok
  cur : Option CurSeg
  /-- The queue the flag pins show (R98). -/
  shown : QId
  /-- With FOLLOW = 1 in stream mode: an edge with PnEN# low has come since the enable or PORT reset (R98). -/
  followed : Bool
  /-- Per queue, FF and AF of an ingress port, EF and AE of an egress port, as they last crossed from the core or as the
  port's own action has asserted them since (R130, R460). -/
  crossed : Vector (Bool × Bool) 16
  pins : Pins
  /-- PnERR# is to be launched low on the next launching edge (R96, R106, R119). -/
  errNext : Bool
  /-- The last launching edge launched EF# low with a word of the flagged queue (R103). -/
  efEdge : Bool
  /-- The staves fetched for an egress port have run short, and EF# stays low (R498). -/
  starved : Bool
  resetting : Bool
  deriving DecidableEq, Repr

/-- The two kinds of billet request (R221). -/
inductive ReqKind where
  | spill
  | refill
  deriving DecidableEq, Repr

/-- A billet request handed to a channel (R222 to R224). `age` orders the handovers; `tick` is the REFCLK edge of the
handover; `orphan`: its queue was reset (R402) or H has passed the billet (R186); `frame`: a frame of the share waits for
its end; `arrived`: staves of a refill that have arrived; `ue`: staves of an orphan's billet known to read as uncorrectable,
in the Landing for a spill and in the Boom for a refill (R190, R192). -/
structure Req where
  kind : ReqKind
  q : QId
  cls : Nat
  num : Nat
  cb : Nat
  age : Nat
  tick : Nat
  started : Bool
  issued : Nat
  orphan : Bool
  frame : Bool
  arrived : Nat
  ue : List Nat
  deriving DecidableEq, Repr

/-- A source of bursts (Table 8.4): the engines of a queue, the cascade engine of a queue, the host path, the test engine. -/
inductive Src where
  | queue (q : QId)
  | cascade (q : QId)
  | host
  | test
  deriving DecidableEq, Repr

/-- A pattern run in progress (R261, R262): its channel billet, the bursts it writes and then reads, those issued, the order
stamp of its acceptance, and the pattern and seed it runs with. -/
structure Run where
  cb : Nat
  writes : Nat
  reads : Nat
  issued : Nat
  age : Nat
  pat : Nat
  seed : Word
  deriving DecidableEq, Repr

/-- One entry of the hot-row tracker (R233): bank index, row, activations. -/
structure HotRow where
  bank : Nat
  row : Nat
  count : Nat
  deriving DecidableEq, Repr

/-- A throttle of one source on one row (R234): REFCLK edge of its last activation, spacing in force at its start. -/
structure Throttle where
  src : Src
  bank : Nat
  row : Nat
  last : Nat
  space : Nat
  deriving DecidableEq, Repr

/-- Class QoS parameters (R228, R230). -/
structure Qos where
  rate : Word
  burst : Word
  lat : Word
  deriving DecidableEq, Repr

/-- The trained delays of one set, rank and lane (Table 9.2); `rdT` and `fineT` are the values of the last sweep or host
training, from which drift is measured (R270). -/
structure LaneTaps where
  wl : Word
  gate : Word
  rd : Word
  wr : Word
  rdT : Word
  fineT : Word
  deriving DecidableEq, Repr

/-- The channel states of Table 8.6. -/
inductive ChState where
  | untrained
  | active
  | selfref
  | freqsw
  | drain
  | reset
  | absent
  | failed
  deriving DecidableEq, Repr

/-- Why a sweep runs (Table 9.1). `final` is step 7 alone, after a host training hold (R265). -/
inductive SweepFor where
  | boot
  | train
  | retrain
  | freqsw
  | keep
  | drop
  | warm
  | final
  deriving DecidableEq, Repr

/-- A retrain or a host training request that waits for a drain (R270, R272): REFCLK edge of the request, limit in ms,
order stamp. -/
structure Pend where
  tick : Nat
  limit : Nat
  order : Nat
  deriving DecidableEq, Repr

/-- A frequency change in progress (R245): target set, state it came from, stamp of its acceptance; step 4 has completed,
so that the PHY clock runs again with the target set in force; the ranks whose tracking update of step 8 is done; REFCLK
edges since step 1 ended, until step 4 has completed. -/
structure Freq where
  toB : Bool
  came : ChState
  order : Nat
  locked : Bool
  upd : Vector Bool 2
  edges : Nat
  deriving DecidableEq, Repr

/-- A DRAM channel (chapters 8, 9 and 16). -/
structure Chan where
  st : ChState
  /-- The state before the drain, sweep, frequency change or reset in progress (R423). -/
  prior : ChState
  /-- The channel's cause of DP:GSTS.DEGRADED exists (R422). -/
  failed : Bool
  /-- YnRESET# has been released (Table 3.1, step 5). -/
  resetN : Bool
  setB : Bool
  carryA : Bool
  carryB : Bool
  tA : Vector VWord 15
  tB : Vector VWord 15
  ctlL : Word
  ctlH : Word
  hamThresh : Word
  hamSpace : Word
  hamHits : Word
  qos : Vector Qos 4
  /-- Token buckets in thousandths of a billet (R228). -/
  bucket : Vector Nat 4
  tregBase : BitVec 21
  tregLen : BitVec 22
  defermax : Word
  tapsel : Word
  /-- Index set × 20 + rank × 10 + lane. -/
  taps : Vector LaneTaps 40
  /-- VrefDQ codes, index set × 10 + rank × 5 + component. -/
  vref : Vector Word 20
  lfail0 : Word
  lfail1 : Word
  fstep : Word
  ttrain : Word
  hold : Bool
  heldHost : Bool
  pgctlL : Word
  pgctlH : Word
  pgseed : Word
  pgDone : Bool
  run : Option Run
  cmppass : Word
  cmperr : Word
  therm : Bool
  /-- Refreshes each rank is behind, or ahead where negative (R239). -/
  owed : Vector Int 2
  /-- REFCLK edge at which each rank's next refresh falls due (R237, R238). -/
  refAt : Vector Nat 2
  /-- The gap after a rank's last refresh is open, no burst having followed: REFCLK edge of that refresh (R267). -/
  gap : Vector (Option Nat) 2
  pend : Option Pend
  holdReq : Option Pend
  /-- In DRAIN: the drain is for a host hold. -/
  drainHold : Bool
  /-- The drain has completed or the operation needs no drain, and a sweep (or the hold, none) waits for its turn (R276). -/
  waiting : Option (Option SweepFor × Nat)
  sweeping : Option SweepFor
  /-- Bursts that the test engine has issued in the running sweep or read check, and the order stamp of its start (Table 8.4,
  Table 9.3 steps 5 to 7, Table 8.7 step 8). -/
  swept : Nat
  sweptAge : Nat
  /-- The retrain whose drain is in progress (R275). -/
  begun : Option Pend
  freq : Option Freq
  reqs : List Req
  hot : List HotRow
  throttles : List Throttle
  /-- Open row per bank, index rank × 8 + bank group × 4 + bank (R220). -/
  rows : Vector (Option Nat) 16
  /-- Per bank, REFCLK edge of its last burst, and the PAGEIDLE that this burst took (R220, R466). -/
  bankAt : Vector Nat 16
  bankUse : Vector Nat 16
  idleSince : Nat
  trackerTick : Nat
  bucketTick : Nat
  /-- REFCLK edge from which the next refresh of each rank carries a tracking update (R267, R268). -/
  trackAt : Vector Nat 2
  /-- A rank waits for the tracking update that goes before any request: after REFCLK returns, and in a warm device reset
  (R427, Table 3.2 step 5). -/
  must : Vector Bool 2
  zqTick : Nat
  phyClk : Bool
  /-- The channel was trained and out of a channel reset when REFCLK was lost, and has not been brought back (Table 13.6,
  R427). -/
  noRef : Bool
  deriving DecidableEq, Repr

/-- Azlin link end states (R281). -/
inductive LinkSt where
  | down
  | train
  | up
  deriving DecidableEq, Repr

/-- A stave in the resend buffer (R293, R303). `wait`: it waits to be sent again; `need`: that needs a new credit. -/
structure Resend where
  seq : BitVec 8
  q : QId
  slots : List Slot9
  poison : Bool
  wait : Bool
  need : Bool
  deriving DecidableEq, Repr

/-- The outbound link end, the sender (chapter 10). -/
structure OutLink where
  st : LinkSt
  fresh : Bool
  nseq : BitVec 8
  resend : List Resend
  cred : Vector Nat 16
  /-- CCNT last received per queue (R289). -/
  ccnt : Vector (BitVec 8) 16
  asent : Vector (BitVec 32) 16
  aack : Vector (BitVec 32) 16
  lastTx : Nat
  lastRx : Nat
  lastResync : Nat
  /-- A resync asked for by RQ = 0b01 is under way: no credit frame without it has arrived since (R288). -/
  episode : Bool
  /-- REFCLK edge at which RQ = 0b01 last arrived since the last RESYNC, no frame without it having come after (R288). -/
  rqAt : Option Nat
  /-- RESYNC or RESTART has been sent in this bring-up (Table 10.4, step 4). -/
  sync : Bool
  /-- It has been answered by a credit frame of step 5 (Table 10.4). -/
  answered : Bool
  /-- REFCLK edge of a declared loss; bring-up starts 100 µs after it (R300). -/
  lost : Option Nat
  /-- The frames last driven on AZOD, in order, each by its transfers (R282). -/
  tx : List (List (BitVec 36))
  deriving DecidableEq, Repr

/-- The inbound link end, the receiver (chapter 10). -/
structure InLink where
  st : LinkSt
  fresh : Bool
  e : BitVec 8
  ccnt : Vector (BitVec 8) 16
  /-- Credits of each queue granted and not yet returned (R291, R296). -/
  out : Vector Nat 16
  /-- Stave frames are discarded and RQ = 0b01 is sent until a RESYNC or RESTART (R287, R288). -/
  hold : Bool
  lastTx : Nat
  lastRx : Nat
  lost : Option Nat
  /-- A mismatch of R304 keeps the link in TRAIN. -/
  mism : Bool
  /-- A valid RESYNC or RESTART has come in this bring-up (Table 10.4, step 5). -/
  got : Bool
  /-- The queue the next credit frame in rotation carries (R305). -/
  rot : QId
  peerPos : BitVec 3
  peerTwin : Bool
  peerVal : Bool
  /-- The credit frames last sent on AZICRD, in order (R289). -/
  tx : List (BitVec 38)
  deriving DecidableEq, Repr

/-- The cascade (chapter 10). -/
structure Azl where
  acfg : VWord
  ainq : VWord
  out : OutLink
  inn : InLink
  /-- The WSYNC lines the twin partner drives low (R314), bit 3 FF, 2 AF, 1 EF, 0 AE. -/
  wsync : BitVec 4
  /-- The outbound and the inbound end of this twin have lost the partner and have not been brought up again (R55). -/
  lostOut : Bool
  lostIn : Bool
  deriving DecidableEq, Repr

/-- The Landing banks (R200 to R207). -/
structure Land where
  retired : BitVec 17
  /-- The resting bank, 0x1F while none rests. -/
  rest : Nat
  rotmin : Word
  restTick : Nat
  /-- Length of the present rest in ms (R484). -/
  restMs : Nat
  copying : Bool
  full : Bool
  /-- Rests left in a running sweep; 0 when none runs (R206). -/
  sweepLeft : Nat
  deriving DecidableEq, Repr

/-- A step that stops with a fault. No command of this block does: every behaviour the spec gives is a next state (R12). -/
inductive Fault where
  deriving DecidableEq, Repr

/-- A command that is refused. `notModelled` is raised by Dispatch.lean alone, for a command with no meaning; that is safe. -/
inductive Refusal where
  | notModelled (mnemonic : String)
  deriving DecidableEq, Repr

/-- The whole block. -/
structure State where
  boot : Boot
  dp : Direct
  pathA : PathSt
  pathB : PathSt
  events : Table EvCell
  time : Time
  cal : Cal
  wins : Vector Window 16
  gov : Gov
  queues : Vector Queue 16
  ports : Vector Port 4
  sy : Vector VWord 128
  chans : Vector Chan 2
  azl : Azl
  land : Land
  /-- REFCLK edge of the last lookahead sample (R134). -/
  sampleTick : Nat
  /-- Stamps that order handovers and triggers (model's own). -/
  order : Nat
  /-- Index into the opaque free values (model's own, DESIGN CHOICE). -/
  freeCtr : Nat
  /-- The commands that wait, first in first out. -/
  pending : List Instr
  deriving DecidableEq, Repr

/-- 0 s TAI. -/
def Stamp.zero : Stamp := ⟨0, 0, 0, 0⟩

/-- A snapshot before the first TAKE (DESIGN CHOICE, log 6). -/
def Snapshot.zero : Snapshot :=
  { q := Vector.replicate 16 ⟨0, 0, 0, 0, 0, 0, 0, 0, 0, 0, 0⟩
    y := Vector.replicate 2 ⟨0, 0, 0, 0⟩
    p := Vector.replicate 4 ⟨0, 0⟩
    time := Stamp.zero }

/-- A path after POR (Table 3.3). -/
def PathSt.reset : PathSt :=
  { bankSel := 0, evSel := 0, irq0 := 0, irq1 := 0, posted := [], staging := [], holdTime := none, holdPps := none
    holdGen := none, snapValid := false, snapView := false, snap := Snapshot.zero, asel := 0, readWait := none
    inReset := false, readData := 0, ptr := 0, ack := false, readSeq := false, alertByte := 0 }

/-- A free lock (R391). -/
def Lock.free : Lock := ⟨VWord.of 0, 0, 0⟩

/-- A queue after POR (R443 to R454, R509). -/
def Queue.reset : Queue :=
  { en := false, qcfg := VWord.of 0, qmapL := VWord.of 0, qmapH := VWord.of 0x2000, qbaseL := VWord.of 0
    qbaseH := VWord.of 0, qsizeL := VWord.of 0, qsizeH := VWord.of 0, map := none
    afon := 0xFFFFFFFFFFFF, afoff := 0xFFFFFFFFFFFF, aeon := 0, aeoff := 0, ffres := 0, afmode := 0, afttf := 0
    afalpha := 0x040, ef := true, ae := true, hf := false, ff := false, afth := false, afla := false
    rate := 0, lastAfl := 0, w := 0, r := 0, h := 0, f := 0, wcnt := 0, rcnt := 0, xcnt := 0, dcnt := 0, marks := []
    markPend := none, held := [], segs := [], segSeq := 0, launched := none, launchPort := 0, bark1 := 0, tailCut := false, billets := []
    disc := 0, resetting := false, vfail := false, rdStave := none, ecc := []
    spillSince := none, refillSince := none }

/-- Port pins in POR and while the port is disabled (R48, R71). -/
def Pins.off : Pins := ⟨.low, .low, .high, .z, 0, 0, true⟩

/-- A port after POR (R455 to R462). -/
def Port.reset : Port :=
  { en := false, cfg := 0, lcfg := 0, flagq := 0, perrcnt := 0, ptagmiss := 0, capTrig := false, capArmed := false
    capDone := false, capWait := false, capt0 := 0, capt1 := 0, capt2 := 0, noclk := false, stopped := false, fast := false
    held := Vector.replicate 16 0, spent := Vector.replicate 16 0, partials := Vector.replicate 16 [], done := []
    fsm := .idle, staging := [], cur := none, shown := 0, followed := false
    crossed := Vector.replicate 16 (true, true), pins := Pins.off, errNext := false, efEdge := false
    starved := false, resetting := false }

/-- A timing set at reset (Table 16.2). -/
def tsetReset : Vector VWord 15 :=
  #v[VWord.of 0x0030, VWord.of 0x090B, VWord.of 0x0B0B, VWord.of 0x271C, VWord.of 0x0605, VWord.of 0x0520,
     VWord.of 0x060C, VWord.of 0x0602, VWord.of 0x0226, VWord.of 0x0230, VWord.of 0x0818, VWord.of 0x0504,
     VWord.of 0x0255, VWord.of 0x0080, VWord.of 0x0200]

/-- A channel after POR (Tables 16.1 to 16.3). YnTHERM# reads high there, for whose level, the board's, the spec gives no reset
value (R238; DESIGN CHOICE, log 3). -/
def Chan.reset : Chan :=
  { st := .untrained, prior := .untrained, failed := false, resetN := false, setB := false, carryA := false, carryB := false, tA := tsetReset, tB := tsetReset
    ctlL := 0x4000, ctlH := 0x0064, hamThresh := 0x2000, hamSpace := 0x01, hamHits := 0
    qos := Vector.replicate 4 ⟨0, 8, 0⟩, bucket := Vector.replicate 4 8000, tregBase := 0, tregLen := 16
    defermax := 0x0A, tapsel := 0, taps := Vector.replicate 40 ⟨0, 0, 0, 0, 0, 0⟩, vref := Vector.replicate 20 0
    lfail0 := 0, lfail1 := 0, fstep := 0, ttrain := 0, hold := false, heldHost := false, pgctlL := 0x0100, pgctlH := 0
    pgseed := 1, pgDone := false, run := none, cmppass := 0, cmperr := 0, therm := false
    owed := Vector.replicate 2 0, refAt := Vector.replicate 2 0, gap := Vector.replicate 2 none, pend := none, holdReq := none, drainHold := false
    waiting := none, sweeping := none, swept := 0, sweptAge := 0, begun := none, freq := none, reqs := [], hot := [], throttles := []
    rows := Vector.replicate 16 none, bankAt := Vector.replicate 16 0, bankUse := Vector.replicate 16 0
    idleSince := 0, trackerTick := 0, bucketTick := 0, trackAt := Vector.replicate 2 0
    must := Vector.replicate 2 false, zqTick := 0, phyClk := false, noRef := false }

/-- The outbound link end after POR (R301, R480). -/
def OutLink.reset : OutLink :=
  { st := .down, fresh := true, nseq := 0, resend := [], cred := Vector.replicate 16 0, ccnt := Vector.replicate 16 0
    asent := Vector.replicate 16 0, aack := Vector.replicate 16 0, lastTx := 0, lastRx := 0, lastResync := 0
    episode := false, rqAt := none, sync := false, answered := false, lost := none, tx := [] }

/-- The inbound link end after POR (R301, R480). -/
def InLink.reset : InLink :=
  { st := .down, fresh := true, e := 0, ccnt := Vector.replicate 16 0, out := Vector.replicate 16 0, hold := false
    lastTx := 0, lastRx := 0, lost := none, mism := false, got := false, rot := 0, peerPos := 0, peerTwin := false
    peerVal := false, tx := [] }

/-- A window after POR (R346, R349). -/
def Window.reset : Window := ⟨0, 0, 0, 0, none, none⟩

/-- The time base after POR (R59, R428). -/
def Time.reset : Time :=
  { refclk := true, ticks := 0, sec := 0, ns := 0, frac := 0, adv := 0, epoch := 0, rate := 0, slew := 0
    disc := VWord.of 1, arm := false, stepth := 0x03E8, ppsSec := 0, ppsNs := 0, ppsEpoch := 0, ppsSeq := 0
    ppsLast := none, ppsMiss := true, utcOff := 0, utcNxt := 0, utcAt := 0, utcArmed := false, tsout := 0
    tsoutNow := 0, tsoutPend := none, pulse := none, pass := none }

/-- The direct page after POR (R428). -/
def Direct.reset : Direct :=
  { en := false, heartEn := true, ready := false, readySeen := false, fatal := false, lockCfg := Lock.free
    lockTime := Lock.free, lockDram := Lock.free, lease := 0x03E8, errAddr := 0, errInfo := 0, sealV := 0
    sealDone := false, slotId := 0, slotDone := false, temp := 0, heart := false, heartAt := 0 }

/-- The calendar staging after POR (R436). -/
def Cal.reset : Cal := ⟨0x07B2, 1, 1, 0, 0, false, false⟩

/-- The governor after POR (R428, R439). -/
def Gov.reset : Gov :=
  { floor := VWord.of 6, ceil := VWord.of 0xF, margin := VWord.of 8, mode := 0x00A0, demand := 0, capac := 0
    capdn := 0, code := 10, useFloor := 6, useCeil := 0xF, useMargin := 8, tsens := Vector.replicate 4 0, vcoreMv := 0, acc8 := 0, tick := 0 }

/-- The Landing after POR (R200, R484). -/
def Land.reset : Land :=
  { retired := 0, rest := 16, rotmin := 0x032, restTick := 0, restMs := 3200, copying := false, full := false
    sweepLeft := 0 }

/-- The cascade after POR (R480, R481). -/
def Azl.reset : Azl :=
  { acfg := VWord.of 0, ainq := VWord.of 0, out := OutLink.reset, inn := InLink.reset, wsync := 0, lostOut := false, lostIn := false }

/-- The part held in POR with its supplies within limits and PORST# low: every register at its reset value. -/
def State.reset : State :=
  { boot := { supplies := Vector.replicate 5 true, porst := false, straps := ⟨0, false, 0, false, false⟩, stage := 1
              rstCause := 1, warm := false, halted := false, badBanks := 0, sensed := false, carding := false, rested := 0
              trained := false, warmed := 0 }
    dp := Direct.reset
    pathA := PathSt.reset
    pathB := PathSt.reset
    events := []
    time := Time.reset
    cal := Cal.reset
    wins := Vector.replicate 16 Window.reset
    gov := Gov.reset
    queues := Vector.replicate 16 Queue.reset
    ports := Vector.replicate 4 Port.reset
    sy := Vector.replicate 128 (VWord.of 0)
    chans := Vector.replicate 2 Chan.reset
    azl := Azl.reset
    land := Land.reset
    sampleTick := 0
    order := 0
    freeCtr := 0
    pending := [] }

end Sys2Proof.Machine
end

