-- ==== Sys2Proof/Machine/Bits.lean ====
section
/-!
DEFINITION. Bit fields, slots, parity and the three cyclic codes of the spec.
-/

namespace Sys2Proof.Machine

/-- Bits [lo + n − 1 : lo] of a word as a number. -/
def fld (w : Word) (lo n : Nat) : Nat := (w.toNat / 2 ^ lo) % 2 ^ n

/-- Bit i of a word. -/
def bit (w : Word) (i : Nat) : Bool := w.getLsbD i

/-- A number placed at bit `lo` of a word. -/
def at' (n lo : Nat) : Word := BitVec.ofNat 16 (n * 2 ^ lo)

/-- A flag placed at bit `lo` of a word. -/
def flagAt (b : Bool) (lo : Nat) : Word := if b then at' 1 lo else 0

/-- A 16-bit count that adds `n` and saturates at 0xFFFF (R107, R156, R383). -/
def satAdd (w : Word) (n : Nat) : Word := BitVec.ofNat 16 (min 0xFFFF (w.toNat + n))

/-- The 48-bit value of three words, lowest first (R8). -/
def join3 (l m h : Word) : Pos := (h ++ m ++ l : BitVec 48)

/-- The 32-bit value of two words, lowest first (R8). -/
def join2 (l h : Word) : BitVec 32 := (h ++ l : BitVec 32)

/-- Word `i` of a wide value (R8). -/
def wordOf {n : Nat} (v : BitVec n) (i : Nat) : Word := BitVec.ofNat 16 (v.toNat / 2 ^ (16 * i))

/-- The eight data bits of a slot (R5). -/
def slotData (v : Slot9) : BitVec 8 := v.extractLsb' 0 8

/-- The M bit of a slot (R5). -/
def slotM (v : Slot9) : Bool := v.getLsbD 8

/-- A slot of data and M bit. -/
def mkSlot (d : BitVec 8) (m : Bool) : Slot9 := (BitVec.ofBool m ++ d : BitVec 9)

/-- Exclusive or of the low `n` bits. -/
def parityOf {m : Nat} (v : BitVec m) (n : Nat) : Bool :=
  (List.range n).foldl (fun b i => xor b (v.getLsbD i)) false

/-- A slot whose nine bits hold an odd number of ones (R106, R125). -/
def slotOdd (v : Slot9) : Bool := parityOf v 9

/-- The slot with its M bit replaced by odd parity of its data (R85). -/
def withParity (v : Slot9) : Slot9 := mkSlot (slotData v) (!parityOf (slotData v) 8)

/-- Slot k of port data lines (Table 2.3). -/
def lineSlot (d : BitVec 36) (k : Nat) : Slot9 := d.extractLsb' (9 * k) 9

/-- Up to four slots laid on 36 data lines, slot 0 lowest (R5, R283). -/
def packLines (vs : List Slot9) : BitVec 36 :=
  BitVec.ofNat 36 (vs.foldr (fun v acc => v.toNat + 512 * acc) 0)

/-- One byte into a running CRC-32C in reflected form (R114). -/
def crc32Byte (c : BitVec 32) (b : BitVec 8) : BitVec 32 :=
  (List.range 8).foldl (fun c _ => if c.getLsbD 0 then (c >>> 1) ^^^ 0x82F63B78#32 else c >>> 1)
    (c ^^^ b.zeroExtend 32)

/-- CRC-32C of bytes: initial value 0xFFFF_FFFF, final XOR 0xFFFF_FFFF (R114). -/
def crc32 (bs : List (BitVec 8)) : BitVec 32 := bs.foldl crc32Byte 0xFFFFFFFF#32 ^^^ 0xFFFFFFFF#32

/-- The `n` low bits of a value, highest first. -/
def bitsHigh {m : Nat} (v : BitVec m) (n : Nat) : List Bool := (List.range n).map fun i => v.getLsbD (n - 1 - i)

/-- CRC-16/CCITT-FALSE over bits in order (R285). -/
def crc16 (bits : List Bool) : BitVec 16 :=
  bits.foldl (fun c b => if xor (c.getLsbD 15) b then (c <<< 1) ^^^ 0x1021#16 else c <<< 1) 0xFFFF#16

/-- The SMBus CRC-8 over bytes (R364). -/
def crc8 (bs : List (BitVec 8)) : BitVec 8 :=
  (bs.flatMap fun b => bitsHigh b 8).foldl
    (fun c b => if xor (c.getLsbD 7) b then (c <<< 1) ^^^ 0x07#8 else c <<< 1) 0#8

/-- The four bytes of a 32-bit value, least significant first (R115, Table 4.6). -/
def bytes32 (v : BitVec 32) : List (BitVec 8) := (List.range 4).map fun i => v.extractLsb' (8 * i) 8

/-- `f` on every element of a vector, in a form that the kernel evaluates. -/
def vmap {α β : Type} {n : Nat} (f : α → β) (v : Vector α n) : Vector β n := Vector.ofFn fun i => f v[i.val]

/-- A two's complement word as an integer. -/
def sint (w : Word) : Int := w.toInt

end Sys2Proof.Machine
end

