-- ==== Sys2Proof/Machine/Ops.lean ====
section
/-!
DEFINITION. Named operations over the state: access to queues, ports, channels and paths, event counting and error
capture, voting, locks, and when the part runs at all.
-/

namespace Sys2Proof.Machine

/-! ### Access to the parts -/

def State.qu (s : State) (q : QId) : Queue := s.queues[q.val]
def State.setQu (s : State) (q : QId) (x : Queue) : State := { s with queues := s.queues.set q.val x }
def State.modQu (s : State) (q : QId) (f : Queue → Queue) : State := s.setQu q (f (s.qu q))
def State.po (s : State) (n : PId) : Port := s.ports[n.val]
def State.setPo (s : State) (n : PId) (x : Port) : State := { s with ports := s.ports.set n.val x }
def State.modPo (s : State) (n : PId) (f : Port → Port) : State := s.setPo n (f (s.po n))
def State.ch (s : State) (c : YId) : Chan := s.chans[c.val]
def State.setCh (s : State) (c : YId) (x : Chan) : State := { s with chans := s.chans.set c.val x }
def State.modCh (s : State) (c : YId) (f : Chan → Chan) : State := s.setCh c (f (s.ch c))
def State.path (s : State) : Path → PathSt
  | .a => s.pathA
  | .b => s.pathB
def State.setPath (s : State) (p : Path) (x : PathSt) : State :=
  match p with
  | .a => { s with pathA := x }
  | .b => { s with pathB := x }
def State.modPath (s : State) (p : Path) (f : PathSt → PathSt) : State := s.setPath p (f (s.path p))
def State.win (s : State) (j : Fin 16) : Window := s.wins[j.val]
def State.setWin (s : State) (j : Fin 16) (x : Window) : State := { s with wins := s.wins.set j.val x }

def allQ : List QId := List.finRange 16
def allP : List PId := List.finRange 4
def allY : List YId := List.finRange 2
def allW : List (Fin 16) := List.finRange 16

/-- A fresh order stamp. -/
def State.nextOrder (s : State) : State := { s with order := s.order + 1 }

/-- A core transfer: its demand in the running governor interval, in eighths of a stave (R496), and its order. -/
def State.demand (s : State) (n : Nat) : State :=
  { s with gov := { s.gov with acc8 := s.gov.acc8 + n }, order := s.order + 1 }

/-! ### When the part runs -/

/-- Every supply is within its limits (R42). -/
def State.supplied (s : State) : Bool := s.boot.supplies.toList.all id

/-- The part is out of POR: PORST# high and every supply within limits (R42, R57). -/
def State.powered (s : State) : Bool := s.boot.porst && s.supplied

/-- The host paths work: step 2 of start-up has completed and no warm device reset runs (R49, R61). -/
def State.hostOn (s : State) : Bool := s.powered && decide (3 ≤ s.boot.stage) && !s.boot.warm

/-- The blocks run: as the host paths, and not in FATAL (R423). -/
def State.running (s : State) : Bool := s.hostOn && !s.dp.fatal

/-- Ports may accept and deliver: READY, DP:GCTL.EN in effect, not in FATAL (R70). -/
def State.portsOn (s : State) : Bool := s.running && s.dp.ready && s.dp.en

/-! ### Events and error capture -/

namespace Ev
def worej : Nat := 0x01
def lockrej : Nat := 0x02
def lockbrk : Nat := 0x03
def wdrop : Nat := 0x04
def wrstall : Nat := 0x05
def rdto : Nat := 0x06
def votefix : Nat := 0x07
def pecerr : Nat := 0x08
def cfgrej : Nat := 0x10
def markrej : Nat := 0x11
def markovf : Nat := 0x12
def qparity : Nat := 0x13
def flushpad : Nat := 0x14
def poison : Nat := 0x15
def lce : Nat := 0x20
def lue : Nat := 0x21
def lbankfail : Nat := 0x22
def testrej : Nat := 0x23
def yce (c : YId) : Nat := 0x30 + c.val
def yue (c : YId) : Nat := 0x32 + c.val
def ylate (c : YId) : Nat := 0x34 + c.val
def yham (c : YId) : Nat := 0x36 + c.val
def ycmdrej : Nat := 0x38
def ytrain (c : YId) : Nat := 0x39 + c.val
def ydrift (c : YId) : Nat := 0x3B + c.val
def yfdrain (c : YId) : Nat := 0x3D + c.val
def azcrc : Nat := 0x40
def azdup : Nat := 0x41
def azresend : Nat := 0x42
def azqdrop : Nat := 0x43
def azpos : Nat := 0x44
def azloss : Nat := 0x45
def twinskew : Nat := 0x46
def ppsglitch : Nat := 0x50
def steprej : Nat := 0x51
def calrej : Nat := 0x52
def winmiss : Nat := 0x53
end Ev

/-- The event classes of Table 12.5. -/
def evCodes : List Nat :=
  [0x01, 0x02, 0x03, 0x04, 0x05, 0x06, 0x07, 0x08, 0x10, 0x11, 0x12, 0x13, 0x14, 0x15, 0x20, 0x21, 0x22, 0x23] ++
  [0x30, 0x31, 0x32, 0x33, 0x34, 0x35, 0x36, 0x37, 0x38, 0x39, 0x3A, 0x3B, 0x3C, 0x3D, 0x3E] ++
  [0x40, 0x41, 0x42, 0x43, 0x44, 0x45, 0x46, 0x50, 0x51, 0x52, 0x53]

/-- A queue class: its instance is a queue (R384). -/
def isQueueClass (c : Nat) : Bool := decide (0x10 ≤ c ∧ c ≤ 0x15)

/-- A path class: its instance is a path (R384). -/
def isPathClass (c : Nat) : Bool := decide (0x04 ≤ c ∧ c ≤ 0x06)

/-- Key of a class and instance in the event table. -/
def evKey (code inst : Nat) : Nat := code * 16 + inst

def EvCell.zero : EvCell := ⟨0, 0⟩

/-- The counters of a class and instance (R383). -/
def State.ev (s : State) (code inst : Nat) : EvCell := Table.get EvCell.zero s.events (evKey code inst)

def State.setEv (s : State) (code inst : Nat) (c : EvCell) : State :=
  { s with events := Table.put EvCell.zero s.events (evKey code inst) c }

/-- Counts `n` events of a class and instance, saturating (R383). -/
def State.countN (s : State) (code inst n : Nat) : State :=
  if n = 0 then s else
  let c := s.ev code inst
  s.setEv code inst { c with cnt := satAdd c.cnt n }

def State.count (s : State) (code inst : Nat) : State := s.countN code inst 1

/-- A bus access as the error capture sees it (R387). -/
structure Access where
  p : Path
  word : Nat
  sel : Nat
  deriving DecidableEq, Repr

namespace Reason
def general : Nat := 0x0
def lock : Nat := 0x1
def sealed : Nat := 0x2
def wonce : Nat := 0x3
def busy : Nat := 0x4
def nospare : Nat := 0x5
def mode : Nat := 0x6
def range : Nat := 0x7
def arm : Nat := 0x8
def date : Nat := 0x9
def check : Nat := 0xA
def state : Nat := 0xB
def inforce : Nat := 0xC
end Reason

/-- Overwrites DP:ERRCAP_ADDR and DP:ERRCAP_INFO (R387). -/
def State.capture (s : State) (acc : Access) (code reason : Nat) : State :=
  { s with dp := { s.dp with
      errAddr := at' (acc.word % 128) 0 ||| at' (acc.sel % 64) 8
      errInfo := at' code 0 ||| at' reason 8 ||| at' acc.p.num 12 } }

/-- Counts and captures a rejection (R387). -/
def State.reject (s : State) (acc : Access) (code inst reason : Nat) : State :=
  (s.count code inst).capture acc code reason

/-! ### Voting -/

/-- The majority of the three copies, none where all differ (R378). -/
def VWord.majority (v : VWord) : Option Word :=
  if v.c0 = v.c1 ∨ v.c0 = v.c2 then some v.c0 else if v.c1 = v.c2 then some v.c1 else none

/-- What a read of a voted word returns: 0x0000 while it is in VOTEFAIL (R378, R380). -/
def VWord.val (v : VWord) : Word := if v.failed then 0 else v.majority.getD 0

/-- FLOOR, CEIL and MARGIN come into force for the interval that begins (R439). -/
def Gov.renew (g : Gov) : Gov := { g with useFloor := g.floor.val, useCeil := g.ceil.val, useMargin := g.margin.val }

def VWord.flip (v : VWord) (f : Flips) : VWord :=
  { v with c0 := v.c0 ^^^ f.m0, c1 := v.c1 ^^^ f.m1, c2 := v.c2 ^^^ f.m2 }

def Queue.vword (x : Queue) (i : Fin 7) : VWord :=
  match i with
  | 0 => x.qcfg
  | 1 => x.qmapL
  | 2 => x.qmapH
  | 3 => x.qbaseL
  | 4 => x.qbaseH
  | 5 => x.qsizeL
  | 6 => x.qsizeH

def Queue.setVword (x : Queue) (i : Fin 7) (v : VWord) : Queue :=
  match i with
  | 0 => { x with qcfg := v }
  | 1 => { x with qmapL := v }
  | 2 => { x with qmapH := v }
  | 3 => { x with qbaseL := v }
  | 4 => { x with qbaseH := v }
  | 5 => { x with qsizeL := v }
  | 6 => { x with qsizeH := v }

def State.lock (s : State) : LockId → Lock
  | .config => s.dp.lockCfg
  | .time => s.dp.lockTime
  | .dram => s.dp.lockDram

def State.setLock (s : State) (l : LockId) (k : Lock) : State :=
  match l with
  | .config => { s with dp := { s.dp with lockCfg := k } }
  | .time => { s with dp := { s.dp with lockTime := k } }
  | .dram => { s with dp := { s.dp with lockDram := k } }

def syIdx (e : Fin 64) (hi : Bool) : Fin 128 := ⟨2 * e.val + (if hi then 1 else 0), by split <;> omega⟩

/-- A voted word by reference. -/
def State.vget (s : State) : VRef → VWord
  | .queue q i => (s.qu q).vword i
  | .sortYard e hi => s.sy[(syIdx e hi).val]
  | .acfg => s.azl.acfg
  | .ainq => s.azl.ainq
  | .floor => s.gov.floor
  | .ceil => s.gov.ceil
  | .margin => s.gov.margin
  | .lock l => (s.lock l).holder
  | .discMode => s.time.disc
  | .tset c b i => if b then (s.ch c).tB[i.val] else (s.ch c).tA[i.val]

def State.vset (s : State) (r : VRef) (v : VWord) : State :=
  match r with
  | .queue q i => s.modQu q fun x => x.setVword i v
  | .sortYard e hi => { s with sy := s.sy.set (syIdx e hi).val v }
  | .acfg => { s with azl := { s.azl with acfg := v } }
  | .ainq => { s with azl := { s.azl with ainq := v } }
  | .floor => { s with gov := { s.gov with floor := v } }
  | .ceil => { s with gov := { s.gov with ceil := v } }
  | .margin => { s with gov := { s.gov with margin := v } }
  | .lock l => s.setLock l { s.lock l with holder := v }
  | .discMode => { s with time := { s.time with disc := v } }
  | .tset c b i => s.modCh c fun x =>
      if b then { x with tB := x.tB.set i.val v } else { x with tA := x.tA.set i.val v }

/-- The references of a queue's voted words. -/
def queueRefs (q : QId) : List VRef := (List.finRange 7).map fun i => .queue q i

/-- Every voted word (R378). -/
def allRefs : List VRef :=
  (allQ.flatMap queueRefs) ++
  ((List.finRange 64).flatMap fun e => [.sortYard e false, .sortYard e true]) ++
  [.acfg, .ainq, .floor, .ceil, .margin, .lock .config, .lock .time, .lock .dram, .discMode] ++
  (allY.flatMap fun c => (List.finRange 15).flatMap fun i => [.tset c false i, .tset c true i])

/-- The set in force carries training (R259). -/
def Chan.trained (x : Chan) : Bool := if x.setB then x.carryB else x.carryA

/-- The state a channel rests in when its service is broken off (R242, R423). A drain, sweep, frequency change or channel
reset broken off leaves the channel as if it had never run: UNTRAINED, ABSENT or FAILED as before it, else SELFREF where the
set in force carries training and UNTRAINED where it does not (DESIGN CHOICE, log 64). -/
def Chan.rest (x : Chan) : ChState :=
  match x.st with
  | .active => .selfref
  | .selfref => .selfref
  | .untrained => .untrained
  | .absent => .absent
  | .failed => .failed
  | _ =>
    match x.prior with
    | .absent => .absent
    | .failed => .failed
    | .untrained => .untrained
    | _ => if x.trained then .selfref else .untrained

/-- A channel put in self-refresh, YnRESET# high, with every operation of Carding broken off (R74 step 2, R242, R423). -/
def Chan.breakOff (x : Chan) : Chan :=
  { x with st := x.rest, sweeping := none, waiting := none, begun := none, freq := none, holdReq := none, drainHold := false
           heldHost := false, run := none, rows := Vector.replicate 16 none, gap := Vector.replicate 2 none
           must := Vector.replicate 2 false, resetN := true }

/-! ### Ports and pairs -/

def lowerPort : PId → PId
  | 0 => 0
  | 1 => 0
  | 2 => 2
  | 3 => 2

def upperPort : PId → PId
  | 0 => 1
  | 1 => 1
  | 2 => 3
  | 3 => 3

/-- The lower port of `n`'s pair has PAIR latched (R81, R83). -/
def State.paired (s : State) (n : PId) : Bool := bit (s.po (lowerPort n)).lcfg 5

/-- The port that speaks for `n`: the lower port of its pair (R83, R448). -/
def State.master (s : State) (n : PId) : PId := if s.paired n then lowerPort n else n

/-- `n` is the upper port of a pair in effect. -/
def State.isUpper (s : State) (n : PId) : Bool := s.master n != n

/-- The direction of a port as latched: true is egress (Table 4.1). -/
def Port.egress (x : Port) : Bool := bit x.lcfg 0

/-- Port pins in FATAL (Table 2.11); the upper port of a pair shows those of its lower port (R27, R83). -/
def State.fatalPins (s : State) (n : PId) : Pins :=
  let x := s.po (s.master n)
  if x.egress && x.en then ⟨.low, .low, .high, .low, 0, 0, false⟩ else ⟨.low, .low, .high, .z, 0, 0, true⟩

def lockCarding : Word := 3
def lockRotation : Word := 4

/-- The governor's 50 µs intervals run: from start-up step 7 on, but for a warm device reset, in which it holds its code
(R59, R438, Table 3.2), and in FATAL (R423). -/
def State.govRuns (s : State) : Bool := s.dp.fatal || (decide (7 ≤ s.boot.stage) && !s.boot.warm)

/-- Entry into FATAL: ports stop, both channels go to self-refresh, the Azlin outputs and HEART go low (R423). A warm device
reset that runs goes on to its end, unless FATAL is entered at its step 3 (R74, R425, log 30). Carding frees DP:LOCKDRAM
with the sweep that ends there, but not in start-up steps 5 and 6, which FATAL does not end (R65, R395, log 63). The
governor's intervals begin there where they do not run already, with FLOOR, CEIL and MARGIN as they stand (R439). -/
def State.enterFatal (s : State) : State :=
  if s.dp.fatal then s else
  { s with
    gov := if s.govRuns then s.gov else { s.gov.renew with tick := s.time.ticks }
    dp := { s.dp with
      fatal := true, heart := false
      lockDram := if s.dp.lockDram.holder.val = lockCarding ∧ !s.boot.carding then ⟨VWord.of 0, 0, 0⟩ else s.dp.lockDram }
    ports := Vector.ofFn fun n => { s.po n with pins := s.fatalPins n, errNext := false, efEdge := false }
    chans := vmap Chan.breakOff s.chans
    azl := { s.azl with out := { s.azl.out with st := .down, tx := [] }, inn := { s.azl.inn with st := .down, tx := [] } } }

/-- What finding three disagreeing copies does: a queue field disables its queue, a global field enters FATAL (R380). -/
def State.voteFail (s : State) (r : VRef) : State :=
  match r with
  | .queue q _ => s.modQu q fun x => { x with en := false, vfail := true }
  | _ => s.enterFatal

/-- One compare of the copies of a voted word (R379, R380). -/
def State.compare (s : State) (r : VRef) : State :=
  let v := s.vget r
  if v.failed then s
  else match v.majority with
    | some m => if v.c0 = m ∧ v.c1 = m ∧ v.c2 = m then s else (s.vset r (VWord.of m)).count Ev.votefix 0
    | none => (s.vset r { v with failed := true }).voteFail r

/-- A read of voted words by the block that uses them compares their copies (R379; which reads do is log 82). -/
def State.compareAll (s : State) (refs : List VRef) : State := refs.foldl State.compare s

/-- FLOOR, CEIL and MARGIN are read, each compared, and come into force for the interval that begins (R379, R439). -/
def State.govRenew (s : State) : State :=
  let s := s.compareAll [.floor, .ceil, .margin]
  { s with gov := s.gov.renew }

/-! ### Locks (R391 to R396, R420) -/

def lockCode : Path → Word
  | .a => 1
  | .b => 2

/-- A path holds a lock. -/
def State.holds (s : State) (p : Path) (l : LockId) : Bool := (s.lock l).holder.val == lockCode p

/-- CONFIG is sealed (R397). -/
def State.sealed (s : State) : Bool := s.dp.sealV == 0x5EA1

/-- REFCLK periods in one ms (R318: 10 ns each). -/
def msTicks : Nat := 100000

/-- A lock set to a holder, its lease starting now (R394). -/
def State.takeLock (s : State) (l : LockId) (code : Word) : State :=
  s.setLock l ⟨VWord.of code, s.time.ticks, (max 1 s.dp.lease.toNat) * msTicks⟩

/-- A lock made free. A departure of LOCKTIME clears ARM (R332). -/
def State.freeLock (s : State) (l : LockId) : State :=
  let s := s.setLock l Lock.free
  match l with
  | .time => { s with time := { s.time with arm := false } }
  | _ => s

/-- A staged word belongs to the CONFIG resource (R393). -/
def Staged.isConfig (x : Staged) : Bool :=
  match x.bank with
  | .queue _ => decide (1 ≤ x.off ∧ x.off ≤ 7)
  | .yard _ => true
  | .azl => decide (x.off ≤ 1)
  | _ => false

end Sys2Proof.Machine
end

