-- ==== Sys2Proof/Machine/Flags.lean ====
section
/-!
DEFINITION. Queue quantities and flags: capacity, occupancy, PEND, frames in use, FREE, the deliverable count D, the
Scaler's evaluation of the flags, and what the registers and pins report of them.
-/

namespace Sys2Proof.Machine

/-! ### Ports -/

/-- Word width in slots (R5, Table 4.1). -/
def State.width (s : State) (n : PId) : Nat :=
  if s.paired n then 8 else
  match fld (s.po n).lcfg 3 2 with
  | 0 => 1
  | 1 => 2
  | _ => 4

/-- Stave credits a port has per queue (R92). -/
def State.creditLimit (s : State) (n : PId) : Nat := if s.paired n then 8 else 4

/-- Pn:PSTS.NOCLK of port `n`, or of the pair it belongs to (R121, R459). -/
def State.noclkAt (s : State) (n : PId) : Bool := (s.po (s.master n)).noclk

/-- No edge of the port's clock has come since NOCLK was set (R122). -/
def State.stoppedAt (s : State) (n : PId) : Bool := (s.po (s.master n)).stopped

/-- MODE of the latched configuration: segment mode (Table 4.1). -/
def Port.segMode (x : Port) : Bool := bit x.lcfg 6

/-- MPAR of the latched configuration (R85). -/
def Port.mpar (x : Port) : Bool := bit x.lcfg 7

/-- FOLLOW and QSEL of Pn:PFLAGQ (R98). -/
def Port.follow (x : Port) : Bool := bit x.flagq 4
def Port.qsel (x : Port) : QId := ⟨fld x.flagq 0 4, Nat.mod_lt _ (by decide)⟩

/-! ### Readers -/

/-- QCFG.RPORT as taken: 4 is the Azlin outbound link, 5 to 7 are taken as 0 (R448, QCFG table). -/
def Queue.chainRead (x : Queue) : Bool := fld x.qcfg.val 0 3 == 4

/-- The port that QCFG.RPORT names, after the pairing of R448. -/
def State.namedPort (s : State) (q : QId) : PId :=
  let rp := fld (s.qu q).qcfg.val 0 3
  s.master (if h : rp < 4 then ⟨rp, h⟩ else 0)

/-- The queue's reading port, none where R449 gives none or the reader is the Azlin link. DP:GCTL.EN = 0 leaves it: the
register flags keep its width, and a flush pads to it (DESIGN CHOICE, log 60). -/
def State.readPort (s : State) (q : QId) : Option PId :=
  if (s.qu q).chainRead then none
  else
    let n := s.namedPort q
    if (s.po n).en && (s.po n).egress then some n else none

/-- The width w of the register flags (R128, R448, R449). -/
def State.qWidth (s : State) (q : QId) : Nat :=
  match s.readPort q with
  | some n => s.width n
  | none => 1

/-- The queue is chain-fed (R278). -/
def State.chainFed (s : State) (q : QId) : Bool := s.azl.ainq.val.getLsbD q.val

/-- The queue is in segment mode: its reading port is; with no reading port, it holds segments from a port (log 20). -/
def State.qSeg (s : State) (q : QId) : Bool :=
  match s.readPort q with
  | some n => (s.po n).segMode
  | none => !(s.qu q).chainRead && !s.chainFed q && !(s.qu q).segs.isEmpty

/-! ### Windows (R347) -/

/-- Bit q of QMASK. -/
def Window.names (x : Window) (q : QId) : Bool := x.w0.getLsbD q.val

/-- Qn:WINMASKSTS (R347). -/
def State.winMask (s : State) (q : QId) : Word :=
  allW.foldl (fun acc j => acc ||| flagAt ((s.win j).closeAt.isSome && (s.win j).names q) j.val) 0

/-- QCFG.GATED. -/
def Queue.gated (x : Queue) : Bool := bit x.qcfg.val 5

/-- QCFG.MMODE. -/
def Queue.mmode (x : Queue) : Bool := bit x.qcfg.val 4

/-- The queue is open (R347). -/
def State.isOpen (s : State) (q : QId) : Bool :=
  !(s.qu q).gated || (s.qu q).chainRead || s.winMask q != 0

/-! ### Positions, billets and frames -/

def billetSlots : Nat := 8192

def Queue.occ (x : Queue) : Nat := (x.w - x.h).toNat
def Queue.rdbl (x : Queue) : Nat := (x.w - x.r).toNat

/-- A position as an offset from H. -/
def Queue.off (x : Queue) (p : Pos) : Nat := (p - x.h).toNat

/-- A position relative to H, negative for one below H. -/
def Queue.rel (x : Queue) (p : Pos) : Int := (p - x.h).toInt

/-- The place of H in its billet. -/
def Queue.base (x : Queue) : Nat := x.h.toNat % billetSlots

/-- CAP (R124), from the map latched at the last accepted enable (R181). -/
def Queue.cap (x : Queue) : Nat :=
  match x.map with
  | none => 0
  | some m => if m.qsize = 0 then m.lshare * billetSlots else (m.lshare + m.qsize - 1) * billetSlots

/-- Home channel of billet `b`, with its channel billet (R183); none for a queue that lives in the Landing alone. -/
def QMap.home (m : QMap) (b : Nat) : Option (YId × Nat) :=
  if m.qsize = 0 then none
  else
    let k := b % m.qsize
    if m.chan = 0 then some (0, m.qbase + k)
    else if m.chan = 1 then some (1, m.qbase + k)
    else some (if k % 2 = 0 then 0 else 1, m.qbase + k / 2)

def Queue.home (x : Queue) (b : Nat) : Option YId := (x.map.bind fun m => m.home b).map (·.1)

/-- The queue's map uses channel `c`. -/
def Queue.uses (x : Queue) (c : YId) : Bool :=
  match x.map with
  | none => false
  | some m => m.qsize != 0 && (decide (2 ≤ m.chan) || m.chan == c.val)

/-- A channel is held (Table 5.1), or without its REFCLK service (Table 13.6). -/
def Chan.isHeld (x : Chan) : Bool :=
  match x.st with
  | .active => x.noRef
  | .selfref => x.noRef || x.sweeping.isSome || x.waiting.isSome
  | _ => true

/-- Frames of the queue held by requests whose queue was reset, or by spills whose billet H has passed (R186, R402). -/
def State.orphans (s : State) (q : QId) : Nat :=
  (s.chans.toList.map fun x => (x.reqs.filter fun r => r.orphan && r.frame && r.q == q).length).sum

/-- L: frames in use by the queue (R180). -/
def State.frames (s : State) (q : QId) : Nat := ((s.qu q).billets.filter (·.frame)).length + s.orphans q

/-! ### PEND, FREE (Table 5.1) -/

/-- Payload slots of queue `q` among staged tokens, the first of which go on with a segment to `cur`. -/
def stagedFor (q : QId) : Option QId → List Tok → Nat
  | _, [] => 0
  | cur, .pay _ _ :: t => (if cur = some q then 1 else 0) + stagedFor q cur t
  | _, .lead _ _ _ _ ans :: t => stagedFor q (ans.bind (·.q)) t
  | _, .fin _ _ :: t => stagedFor q none t

/-- Slots of a stave that were accepted at a port: its bark slots are not (R507). -/
def DoneStave.accepted (d : DoneStave) : Nat := d.slots.length - (if d.segment && d.first then 24 else 0)

/-- Payload slots in the stave that the open segment fills. -/
def CurSeg.accepted (c : CurSeg) : Nat := c.fill.length - (if c.first then 24 else 0)

/-- Slots of queue `q` accepted at a port and not committed: of a segment, once its queue is known. -/
def Port.pend (x : Port) (q : QId) : Nat :=
  (x.partials[q.val]).length
  + ((x.done.filter fun d => d.q == q).map DoneStave.accepted).sum
  + (match x.cur with
     | some c => if c.q = some q then c.accepted else 0
     | none => 0)
  + stagedFor q (x.cur.bind (·.q)) x.staging

/-- PEND. -/
def State.pend (s : State) (q : QId) : Nat := (s.ports.toList.map fun x => x.pend q).sum

/-- RESV: slots reserved by credits granted and not yet spent (Table 5.2). -/
def State.resv (s : State) (q : QId) : Nat :=
  32 * ((s.ports.toList.map fun x => x.held[q.val]).sum + s.azl.inn.out[q.val])

/-- FFRES rounded up to a whole stave (Table 5.2). -/
def Queue.ffresSlots (x : Queue) : Nat := (x.ffres.toNat + 31) / 32 * 32

/-- The frame of a share that is kept for refills; a queue that lives in the Landing alone has none (R124, log 62). -/
def QMap.kept (m : QMap) : Nat := if m.qsize = 0 then 0 else 1

/-- The queue's spill is held (Table 5.1), or every frame of its share other than the one kept for refills is in use
(R189). -/
def State.spillHeld (s : State) (q : QId) : Bool :=
  let x := s.qu q
  allY.any (fun c => x.uses c && (s.ch c).isHeld)
  || (match x.map with
      | some m => decide (m.lshare ≤ s.frames q + m.kept)
      | none => false)

/-- The unused slots of the Landing share (R189). -/
def State.unusedShare (s : State) (q : QId) : Int :=
  let x := s.qu q
  let share : Int := match x.map with
    | some m => (m.lshare : Int) - m.kept
    | none => 0
  let tail : Int := if x.w.toNat % billetSlots = 0 then 0 else (billetSlots - x.w.toNat % billetSlots : Nat)
  max 0 (tail + 8192 * (share - s.frames q) - s.pend q)

/-- FREE. -/
def State.free (s : State) (q : QId) : Int :=
  let x := s.qu q
  let plain : Int := (x.cap : Int) - x.occ - s.pend q
  if s.spillHeld q then min plain (s.unusedShare q) else plain

/-- AFL: the apparent fill. -/
def State.afl (s : State) (q : QId) : Int := ((s.qu q).cap : Int) - s.free q

/-! ### The deliverable count D -/

/-- Slots of a billet that lie in the Landing, from its first slot. -/
def Billet.here (b : Billet) : Nat :=
  if b.frame then
    match b.refill with
    | none => billetSlots
    | some k => 32 * k
  else 0

/-- Slots in [r, w) that lie in the Landing before the first stave in the Boom; lost billets are passed over (R415). -/
def landed : List Billet → Nat → Nat → Nat → Nat
  | [], _, _, _ => 0
  | b :: bs, lo, r, w =>
    let hi := lo + billetSlots
    if hi ≤ r then landed bs hi r w
    else if b.lost then landed bs hi hi w
    else (min (lo + b.here) w - r) + (if b.here = billetSlots then landed bs hi hi w else 0)

/-- The end of the unbroken stretch of Landing slots from r. -/
def reach : List Billet → Nat → Nat → Nat
  | [], _, r => r
  | b :: bs, lo, r =>
    let hi := lo + billetSlots
    if hi ≤ r then reach bs hi r
    else if b.lost || b.here != billetSlots then max r (lo + b.here)
    else reach bs hi hi

/-- End of the deliverable slots of a segment-mode queue, relative to H, walking the segments from `r` (R117). -/
def segReach (x : Queue) (a w : Int) : List Seg → Int → Int
  | [], r => max r (min a w)
  | g :: gs, r =>
    let b := x.rel g.start
    let e := b + g.len
    if e ≤ r then segReach x a w gs r
    else if b < r then (if e ≤ a then segReach x a w gs e else max r (min a w))
    else if b ≤ a then (if g.complete && decide (e ≤ a) then segReach x a w gs e else b)
    else max r (min a w)

/-- D (Table 5.1, R128). -/
def State.deliverable (s : State) (q : QId) : Nat :=
  let x := s.qu q
  let r := x.off x.r
  let w := x.occ
  let o := s.isOpen q
  if s.qSeg q then
    let a := reach x.billets 0 (x.base + r) - x.base
    if o then (segReach x a w x.segs r - r).toNat
    else match x.launched with
      | some e => min a (x.off e) - r
      | none => 0
  else if o then landed x.billets 0 (x.base + r) (x.base + w)
  else 0

/-! ### The Scaler (R128 to R136) -/

/-- AEOFF and AFOFF as the Scaler uses them (R129). -/
def Queue.aeOffUsed (x : Queue) : Nat := max x.aeoff.toNat x.aeon.toNat
def Queue.afOffUsed (x : Queue) : Nat := min x.afoff.toNat x.afon.toNat

/-- A flag with hysteresis: keeps its value where neither condition holds (R128). -/
def hyst (assert deassert old : Bool) : Bool := if assert then true else if deassert then false else old

/-! ### Spill and refill engines (R185, R187, R508) -/

/-- Requests of a channel are at its limit of 8 in flight (R185, R224). -/
def Chan.full (x : Chan) : Bool := decide (8 ≤ x.reqs.length)

def Queue.setBillet (x : Queue) (num : Nat) (f : Billet → Billet) : Queue :=
  { x with billets := x.billets.map fun b => if b.num = num then f b else b }

/-- Index of the billet that holds R. -/
def Queue.headIdx (x : Queue) : Nat := (x.base + x.off x.r) / billetSlots

/-- The billet the refill engine requests next: the first of the head window that lies only in the Boom (R187). -/
def Queue.refillNext (x : Queue) (m : QMap) : Option Billet :=
  ((x.billets.drop x.headIdx).take (m.rfahead + 1)).find? fun b => !b.frame && b.boom && !b.lost && b.refill.isNone

/-- Slots that credits granted on the inbound link may still bring to a chain-fed queue (R291). -/
def State.linkDue (s : State) (q : QId) : Nat := if s.chainFed q then 32 * s.azl.inn.out[q.val] else 0

/-- Frames that `n` more slots would allocate. -/
def Queue.growth (x : Queue) (n : Nat) : Nat :=
  (x.base + x.occ + n + (billetSlots - 1)) / billetSlots - x.billets.length

/-- The frames that `n` more slots of queue `q` need are within its share, those for staves under way on the inbound link
kept (R180, log 76). -/
def State.frameFor (s : State) (q : QId) (n : Nat) : Bool :=
  match (s.qu q).map with
  | some m =>
    let k := (s.qu q).growth (n + s.linkDue q)
    k == 0 || decide (s.frames q + k ≤ m.lshare)
  | none => true

/-- The refill that queue `q` asks for: billet number, channel, channel billet. It needs a frame within the share (R187)
beside those that staves under way on the inbound link will take, which cannot wait (R180, log 76), and none is asked for
while the home channel is being reset (Table 13.3, step 6). -/
def State.refillWant (s : State) (q : QId) : Option (Nat × YId × Nat) :=
  match (s.qu q).map with
  | none => none
  | some m =>
    match (s.qu q).refillNext m with
    | none => none
    | some b =>
      match m.home b.num with
      | none => none
      | some (c, cb) => if s.frames q + (s.qu q).growth (s.linkDue q) < m.lshare ∧ (s.ch c).st ≠ .reset then some (b.num, c, cb) else none

/-- The refill that queue `q` may hand over now: its channel is below its limit as well (R187). -/
def State.refillReady (s : State) (q : QId) : Option (Nat × YId × Nat) :=
  (s.refillWant q).filter fun t => !(s.ch t.2.1).full

/-- Spill candidates in the order of R185, which is the order of the queue. -/
def Queue.candidates (x : Queue) (m : QMap) : List Billet :=
  (x.billets.zipIdx.filter fun (b, i) =>
    decide ((i + 1) * billetSlots ≤ x.base + x.occ) && b.frame && !b.boom && !b.spilling && !b.lost && b.refill.isNone
    && (decide (i < x.headIdx) || decide (x.headIdx + m.rfahead < i))).map (·.1)

/-- Spills of the queue in flight. -/
def State.spillsOut (s : State) (q : QId) : Nat :=
  (s.chans.toList.map fun x => (x.reqs.filter fun r => r.q == q && r.kind == .spill).length).sum

/-- The spill that queue `q` asks for: its first candidate homed on a channel that is not held (R185). -/
def State.spillWant (s : State) (q : QId) : Option (Nat × YId × Nat) :=
  match (s.qu q).map with
  | none => none
  | some m =>
    if m.qsize = 0 ∨ s.frames q ≤ m.spillat + s.spillsOut q then none
    else
      ((s.qu q).candidates m).filterMap (fun b => (m.home b.num).map fun h => (b.num, h.1, h.2))
        |>.find? (fun t => !(s.ch t.2.1).isHeld)

/-- The spill that queue `q` may hand over now: its channel is below its limit as well (R185). -/
def State.spillReady (s : State) (q : QId) : Option (Nat × YId × Nat) :=
  (s.spillWant q).filter fun t => !(s.ch t.2.1).full

/-- The present instant as a stamp: it grows at every REFCLK edge and with every command that hands a request over, moves
slots or changes what an engine may ask for. -/
def State.instant (s : State) : Nat := s.time.ticks + s.order

/-- What an engine asks for, with the instant since which it may be handed over: another billet is another request (R508). -/
def since (old : Option (Nat × Nat)) (now : Nat) (want : Option Nat) : Option (Nat × Nat) :=
  want.map fun n => match old with
    | some (m, t) => (n, if m = n then t else now)
    | none => (n, now)

/-- What the Scaler reads of a queue, and the billets that its engines ask to spill and to refill at the instant `now`. -/
structure ScaleIn where
  d : Nat
  w : Nat
  seg : Bool
  isOpen : Bool
  free : Int
  resv : Int
  spill : Option Nat
  refill : Option Nat
  now : Nat
  deriving DecidableEq, Repr

def State.scaleIn (s : State) (q : QId) : ScaleIn :=
  ⟨s.deliverable q, s.qWidth q, s.qSeg q, s.isOpen q, s.free q, s.resv q, (s.spillWant q).map (·.1),
    (s.refillWant q).map (·.1), s.instant⟩

/-- EF by its condition (Table 5.2). -/
def ScaleIn.efNow (i : ScaleIn) : Bool := if i.seg then i.d == 0 else decide (i.d < i.w)

/-- FF by its condition (Table 5.2). -/
def ScaleIn.ffNow (i : ScaleIn) (x : Queue) : Bool := decide (i.free - x.ffresSlots - i.resv < 32)

/-- One evaluation of the stored flags, the lookahead part left as it is (Table 5.2, R509), and of the instants from which
the queue's engines have had a request to hand over (R508, log 38). -/
def Queue.scale (x : Queue) (i : ScaleIn) : Queue :=
  let afl : Int := x.cap - i.free
  let half := (x.cap + 1) / 2
  { x with
    ef := i.efNow
    ae := hyst (decide (x.rdbl ≤ x.aeon.toNat) || !i.isOpen) (decide (x.aeOffUsed < x.rdbl) && i.isOpen) x.ae
    hf := decide (0 < x.cap) && decide ((half : Int) ≤ afl)
    ff := i.ffNow x
    afth := hyst (decide ((x.afon.toNat : Int) ≤ afl)) (decide (afl < (x.afOffUsed : Int))) x.afth
    spillSince := since x.spillSince i.now i.spill
    refillSince := since x.refillSince i.now i.refill }

/-- Evaluates the flags of one queue. -/
def State.scale (s : State) (q : QId) : State := s.setQu q ((s.qu q).scale (s.scaleIn q))

/-- Evaluates the flags of every queue. -/
def State.scaleAll (s : State) : State := allQ.foldl State.scale s

/-- AF from its parts (R133). -/
def Queue.af (x : Queue) : Bool :=
  match fld x.afmode 0 2 with
  | 0 => x.afth
  | 1 => x.afla
  | _ => x.afth || x.afla

/-- The queue's flags are forced to 1 (R127). -/
def Queue.forced (x : Queue) : Bool := !x.en || x.resetting

/-- Register flags of this device alone (R127, R509). -/
def Queue.efReg (x : Queue) : Bool := x.forced || x.ef
def Queue.aeReg (x : Queue) : Bool := x.forced || x.ae
def Queue.afReg (x : Queue) : Bool := x.forced || x.af
def Queue.ffReg (x : Queue) : Bool := x.forced || x.ff

/-- α × 256 (R134). -/
def Queue.alpha (x : Queue) : Nat := min 256 (max 1 (x.afalpha.toNat % 512))

/-- One lookahead sample at apparent fill `afl` with `room` = FREE − FFRES (R134, R135). -/
def Queue.sample (x : Queue) (afl room : Int) : Queue :=
  let rate := x.rate + Int.fdiv (x.alpha * ((afl - x.lastAfl) * 256 - x.rate)) 256
  let ttf : Int := x.afttf.toNat
  let up := decide (0 < rate) && ttf != 0 && decide (room * 256 ≤ rate * ttf)
  let down := decide (rate ≤ 0) || ttf == 0 || decide (2 * rate * ttf < room * 256)
  { x with rate := rate, lastAfl := afl, afla := hyst up down x.afla }

/-- R̂ and the lookahead part set to 0, the next sample starting from here (R136). -/
def State.clearLookahead (s : State) (q : QId) : State :=
  let a := s.afl q
  s.modQu q fun x => { x with rate := 0, afla := false, lastAfl := a }

/-! ### What registers and pins show -/

/-- WTWIN = 1. -/
def State.twin (s : State) : Bool := s.boot.straps.wtwin

/-- WTWIN and CASPOS are a setting that R40 allows. -/
def State.strapsBad (s : State) : Bool := s.boot.straps.wtwin && decide (2 ≤ s.boot.straps.caspos.toNat)

/-- The lowest-numbered enabled port of a direction (R314). -/
def State.twinPort (s : State) (egress : Bool) : Option PId :=
  allP.find? fun n => !s.isUpper n && (s.po n).en && (s.po n).egress == egress

/-- WSYNC lines this device drives low: bit 3 FF, 2 AF, 1 EF, 0 AE (R40, R55, R314); all in POR, during a warm device reset
and in FATAL (Table 2.11), none without VDDIO. -/
def State.wsyncOwn (s : State) : BitVec 4 :=
  if !s.boot.supplies[1] then 0
  else if !s.powered || s.boot.warm || s.dp.fatal then 0xF#4
  else if !s.twin then 0
  else if s.azl.lostOut || s.azl.lostIn || s.strapsBad then 0xF#4
  else
    let f (egress : Bool) (a b : Queue → Bool) : BitVec 2 :=
      match s.twinPort egress with
      | some n => let x := s.qu (s.po n).shown
                  BitVec.ofBool (a x) ++ BitVec.ofBool (b x)
      | none => 0
    f false Queue.ffReg Queue.afReg ++ f true Queue.efReg Queue.aeReg

/-- WSYNC lines sampled low. -/
def State.wsyncLow (s : State) : BitVec 4 := if s.twin then s.wsyncOwn ||| s.azl.wsync else 0

/-- Port `n` is a twin port (R314). -/
def State.isTwinPort (s : State) (n : PId) : Bool := s.twin && s.twinPort (s.po n).egress == some n

/-- The queue is shown by a twin port of a direction, so its pair flag counts (R314, R451). -/
def State.pairShown (s : State) (q : QId) (egress : Bool) : Bool :=
  s.twin && (match s.twinPort egress with
    | some n => (s.po n).shown == q
    | none => false)

/-- DP:QFLAGS bits of a queue (R314, R428). -/
def State.ffQ (s : State) (q : QId) : Bool := (s.qu q).ffReg || (s.pairShown q false && s.wsyncLow.getLsbD 3)
def State.afQ (s : State) (q : QId) : Bool := (s.qu q).afReg || (s.pairShown q false && s.wsyncLow.getLsbD 2)
def State.efQ (s : State) (q : QId) : Bool := (s.qu q).efReg || (s.pairShown q true && s.wsyncLow.getLsbD 1)
def State.aeQ (s : State) (q : QId) : Bool := (s.qu q).aeReg || (s.pairShown q true && s.wsyncLow.getLsbD 0)

/-- An active-low flag pin: low while its flag is asserted. -/
def Level.ofFlag (asserted : Bool) : Level := if asserted then .low else .high

/-- The port that delivers the queue's words: the one that has begun a segment of it and still runs in segment mode, else
its reading port (R101, R450). The upper port of a pair runs no more (R83). -/
def State.holder (s : State) (q : QId) : Option PId :=
  let x := s.qu q
  let p := s.po x.launchPort
  if x.launched.isSome && p.en && p.egress && p.segMode && !s.isUpper x.launchPort then some x.launchPort else s.readPort q

/-- The queue shows other than empty to port `n` (R101, R450). -/
def State.readsQ (s : State) (n : PId) (q : QId) : Bool := s.readPort q == some n && s.holder q == some n

/-- Set-aside credits of a port for a queue: one for its partial stave, one for the stave its open segment fills (R93). -/
def Port.aside (x : Port) (q : QId) : Nat :=
  (if (x.partials[q.val]).isEmpty then 0 else 1) +
  (match x.cur with
   | some c => if c.q = some q ∧ !c.fill.isEmpty then 1 else 0
   | none => 0)

/-- The stave of queue `q` that the port's words go on filling: a partial stave, or the one of its open segment. -/
def Port.filling (x : Port) (q : QId) : List Slot9 :=
  if x.segMode then
    match x.cur with
    | some c => if c.q = some q then c.fill else []
    | none => []
  else x.partials[q.val]

/-- Room for one more word of `w` slots of queue `q`: a credit other than a set-aside one, or room for the whole word in
the stave that the port fills (R94). -/
def Port.wordRoom (x : Port) (q : QId) (w : Nat) : Bool :=
  let p := (x.filling q).length
  decide (x.aside q < x.held[q.val]) || (p != 0 && decide (p + w ≤ 32))

/-- Slots a token takes in the staging: a lead word has four; one of a dropped segment is discarded with it (R155). -/
def Tok.staged : Tok → Nat
  | .lead _ _ _ _ ans => if ans.any (·.q.isNone) then 0 else 4
  | .pay _ _ => 1
  | .fin _ _ => 0

/-- Slots of a port between capture and commit, its stream-mode partial staves apart (R112, Table 7.4). -/
def Port.waiting (x : Port) : Nat :=
  (x.done.map DoneStave.accepted).sum
  + (match x.cur with
     | some c => c.accepted
     | none => 0)
  + (match x.fsm with
     | .lead got _ => got.length
     | _ => 0)
  + (x.staging.map Tok.staged).sum

/-- One more word fits the 64 slots between capture and commit, 128 for a pair (R112, R197): in stream mode a word may
complete a stave of 32. -/
def State.stageRoom (s : State) (n : PId) : Bool :=
  let x := s.po n
  decide (x.waiting + (if x.segMode then s.width n else 32) ≤ 16 * s.creditLimit n)

/-- What the core's values give port `n` for queue `q` when they have crossed: FF where R127 forces it and AF at an
ingress port, EF and AE at an egress port; for the shown queue of a twin port the pair's lines as well (R94, R101, R130,
R314). -/
def State.coreFlags (s : State) (n : PId) (q : QId) : Bool × Bool :=
  let y := s.qu q
  let t := s.isTwinPort n && (s.po n).shown == q
  if (s.po n).egress then
    if s.readsQ n q then (y.efReg || (t && s.wsyncLow.getLsbD 1), y.aeReg || (t && s.wsyncLow.getLsbD 0))
    else (true, true)
  else (y.forced || (t && s.wsyncLow.getLsbD 3), y.afReg || (t && s.wsyncLow.getLsbD 2))

end Sys2Proof.Machine
end

