-- ==== Sys2Proof/Machine/QueueOps.lean ====
section
/-!
DEFINITION. Operations on a queue: commit, the hold point, lost billets, delivery with its ECC reads, marks, flush, the
bark header, and the QUEUE reset.
-/

namespace Sys2Proof.Machine

/-! ### Commit -/

/-- Billets for every slot up to W: a billet's frame is allocated at the commit of its first slot (Table 7.2). -/
def Queue.grow (x : Queue) : Queue :=
  let need := (x.base + x.occ + (billetSlots - 1)) / billetSlots
  let have' := x.billets.length
  { x with billets := x.billets ++ (List.range (need - have')).map fun i =>
      ⟨(x.h.toNat / billetSlots + have' + i) % 2 ^ 35, true, false, false, false, none, []⟩ }

/-! ### ECC state of staves (R190 to R193) -/

def StaveEcc.clean : StaveEcc := ⟨false, false, false⟩

/-- ECC state of one stave (position div 32). -/
def Queue.eccOf (x : Queue) (stave : Nat) : StaveEcc := Table.get StaveEcc.clean x.ecc stave

def Queue.setEcc (x : Queue) (stave : Nat) (e : StaveEcc) : Queue := { x with ecc := Table.put StaveEcc.clean x.ecc stave e }

/-- The staves that `n` slots from W on lie in. -/
def Queue.tailStaves (x : Queue) (n : Nat) : List Nat :=
  (List.range ((x.w.toNat % 32 + n + 31) / 32)).map fun i => (x.w.toNat / 32 + i) % 2 ^ 43

/-- The staves that a commit of `n` slots writes from their first slot on. -/
def Queue.newStaves (x : Queue) (n : Nat) : List Nat :=
  if x.w.toNat % 32 = 0 then x.tailStaves n else (x.tailStaves n).tail

/-- Slots committed at W (R123, R194). A stave written from its first slot on is written with its check bits, so what reads
had found there is gone (R190). -/
def Queue.push (x : Queue) (vs : List Slot9) (cut : Bool) : Queue :=
  let y := (x.newStaves vs.length).foldl (fun y st => y.setEcc st StaveEcc.clean) x
  { y with held := x.held ++ vs, w := x.w + BitVec.ofNat 48 vs.length
           wcnt := x.wcnt + BitVec.ofNat 48 vs.length, tailCut := cut }.grow

/-- The queue `y` with the staves of the `n` slots just committed at W of `x` poisoned, where they arrived so. -/
def Queue.poisonFrom (x : Queue) (poison : Bool) (n : Nat) (y : Queue) : Queue :=
  if poison then (x.tailStaves n).foldl (fun y st => y.setEcc st { y.eccOf st with poison := true }) y else y

/-- The billet that a stave lies in. -/
def billetOf (stave : Nat) : Nat := stave / 256

/-- The Landing copies of billets are gone: what was found in them goes with them (R190). -/
def Queue.dropLanding (x : Queue) (nums : List Nat) : Queue :=
  { x with ecc := x.ecc.foldl (fun t (k, e) =>
      Table.put StaveEcc.clean t k (if billetOf k ∈ nums then { e with poison := false, ue := false } else e)) [] }

/-- Billets are gone whole. -/
def Queue.dropEcc (x : Queue) (nums : List Nat) : Queue := { x with ecc := x.ecc.filter fun p => !nums.contains (billetOf p.1) }

/-! ### Requests whose queue no longer waits for them -/

/-- Staves of a request's billet known to read as uncorrectable where it reads them: in the Landing for a spill, in the Boom
for a refill (R190, R192). -/
def Queue.ueStaves (x : Queue) (r : Req) : List Nat :=
  (x.ecc.filter fun (k, e) => billetOf k == r.num &&
    (match r.kind with
     | .spill => e.ue
     | .refill => e.bad && !(x.billets.any fun b => b.num == r.num && b.pats.any fun o => decide (32 * (k % 256) < o.slots)))).map
    fun (k, _) => k % 256

/-- A request of queue `x` becomes an orphan. -/
def Req.leave (r : Req) (x : Queue) (frame : Bool) : Req :=
  if r.orphan then r else { r with orphan := true, frame := frame, ue := x.ueStaves r }

/-- Requests for billets that H or R has passed: the frame of a spill waits for its end, the frame of a refill is freed at
once (R186, Table 7.2). -/
def Chan.orphan (q : QId) (y : Queue) (nums : List Nat) (x : Chan) : Chan :=
  { x with reqs := x.reqs.map fun r => if r.q = q ∧ r.num ∈ nums then r.leave y (r.kind == .spill) else r }

/-- Requests at a QUEUE reset: unstarted ones are withdrawn, started ones run on as orphans with their frames (R400, R402).
The idle time of a channel left without requests starts there (R240). -/
def Chan.resetQueue (q : QId) (y : Queue) (tick : Nat) (x : Chan) : Chan :=
  let left := (x.reqs.filter fun r => !(r.q == q && !r.started)).map fun r => if r.q = q then r.leave y true else r
  { x with reqs := left, idleSince := if left.isEmpty && !x.reqs.isEmpty then tick else x.idleSince }

/-! ### The hold point (R123, R173, Table 7.2) -/

/-- Billets with a Boom copy and a frame that R has passed. -/
def Queue.passed (x : Queue) : List Billet :=
  let r := x.base + x.off x.r
  (x.billets.zipIdx.filter fun (b, i) => b.frame && b.boom && decide ((i + 1) * billetSlots ≤ r)).map (·.1)

/-- Frees the frames of billets with a Boom copy that R has passed (R173), that of a refill in flight too (Table 7.2). -/
def Queue.freePassed (x : Queue) : Queue :=
  let nums := x.passed.map (·.num)
  if nums.isEmpty then x
  else ({ x with billets := x.billets.map fun b =>
    if b.num ∈ nums then { b with frame := false, refill := none } else b } : Queue).dropLanding nums

/-- H set to the oldest mark, or to R without one; what it has passed is freed. Refills whose billet H has passed, or R with
a Boom copy left, run on as orphans (Table 7.2). -/
def State.settle (s : State) (q : QId) : State :=
  let x := s.qu q
  let h := x.marks.headD x.r
  let k := x.off h
  let n := (x.base + k) / billetSlots
  let gone := x.billets.take n
  let nums := (gone.filter fun b => b.spilling || b.refill.isSome).map (·.num)
  let y := if gone.isEmpty then x else x.dropEcc (gone.map (·.num))
  let x' := { y with
    h := h
    held := x.held.drop k
    billets := x.billets.drop n
    segs := x.segs.filter fun g => !(g.complete && decide (x.rel g.start + g.len ≤ k)) }
  let nums := nums ++ (x'.passed.filter fun b => b.refill.isSome).map (·.num)
  let s := s.setQu q x'.freePassed
  if nums.isEmpty then s else { s with chans := vmap (Chan.orphan q x nums) s.chans }

/-! ### Lost billets (R195, R414 to R418) -/

/-- The slot at offset `o` from H lies in a lost billet. -/
def Queue.lostAt (x : Queue) (o : Nat) : Bool :=
  match x.billets[(x.base + o) / billetSlots]? with
  | some b => b.lost
  | none => false

/-- Number of consecutive lost billets at the head of a list. -/
def lostRun : List Billet → Nat
  | [] => 0
  | b :: bs => if b.lost then 1 + lostRun bs else 0

/-- Offset of the end of the run of lost billets that holds offset `o`. -/
def Queue.runEnd (x : Queue) (o : Nat) : Nat :=
  let i := (x.base + o) / billetSlots
  (i + lostRun (x.billets.drop i)) * billetSlots - x.base

/-- A segment has a slot in a lost billet (R416); its part below H lies in no billet any more. -/
def Queue.segLost (x : Queue) (g : Seg) : Bool :=
  let b := (x.base + x.rel g.start).toNat
  let e := (x.base + x.rel g.start + g.len).toNat
  let i := b / billetSlots
  ((x.billets.drop i).take ((e - 1) / billetSlots + 1 - i)).any (·.lost)

/-- Walks past consecutive committed segments that have a slot in a lost billet (R416). -/
def Queue.walkLost (x : Queue) : List Seg → Int → Int
  | [], o => o
  | g :: gs, o => if x.rel g.start = o ∧ x.segLost g ∧ g.complete then x.walkLost gs (o + g.len) else o

/-- Where R jumps to, as an offset from H (R414 to R417). -/
def Queue.jumpTo (x : Queue) (seg : Bool) : Option Nat :=
  let r := x.off x.r
  let past : Option Nat := if x.lostAt r then some (x.runEnd r) else none
  if !seg then past
  else
    match x.segs.dropWhile (fun g => g.complete && decide (x.rel g.start + g.len ≤ r)) with
    | [] => past
    | g :: gs =>
      let b := x.rel g.start
      if b < r then (if x.lostAt r then some (x.walkLost gs (b + g.len)).toNat else none)
      else if b = r then
        let t := (x.walkLost (g :: gs) r).toNat
        if t = r then none else some t
      else past.map fun e => min e b.toNat

/-- R, and F where it is behind, moved forward to an offset from H, counting in DCNT what F passes (R195). A segment in
progress that a lost billet cuts ends here (R417); no rule says when a MARK or REWIND that waits for its last word is
applied then, and the model leaves it to the next MARK_APPLY (DESIGN CHOICE, log 77). R goes neither back nor past W
(R123). -/
def Queue.jump (x : Queue) (t : Nat) : Queue :=
  let t := max (x.off x.r) (min t (min x.held.length (2 ^ 48 - 1)))
  let p := x.h + BitVec.ofNat 48 t
  let x := { x with r := p, launched := none, rdStave := none }
  if x.off x.f < t then { x with f := p, dcnt := x.dcnt + (p - x.f) } else x

def State.jumpN : Nat → State → QId → State
  | 0, s, _ => s
  | n + 1, s, q =>
    match (s.qu q).jumpTo (s.qSeg q) with
    | none => s
    | some t => State.jumpN n ((s.modQu q fun x => x.jump t).settle q) q

/-- Jumps R and F past lost billets they have reached (R414, R416). -/
def State.jumpLost (s : State) (q : QId) : State := s.jumpN ((s.qu q).segs.length + 2) q

/-! ### ECC reads of the Landing (R190) -/

/-- One internal read of a Landing stave: a single-bit error is corrected (LCE), a double-bit error poisons (LUE) and
stays, so every later read finds it again (R190). -/
def State.readStave (s : State) (q : QId) (stave : Nat) (e : Ecc) : State :=
  let k := (s.qu q).eccOf stave
  if k.ue || e == .double then
    (s.modQu q fun x => x.setEcc stave { k with poison := true, ue := true }).count Ev.lue 0
  else if e = .single then s.count Ev.lce 0
  else s

/-- The reader enters a stave: it reads it once as it passes (R190), one stave of demand (R496). -/
def State.enterStave (s : State) (q : QId) (stave : Nat) (ecc : List Ecc) : State × List Ecc :=
  if (s.qu q).rdStave = some stave then (s, ecc)
  else (((s.readStave q stave (ecc.headD .clean)).modQu q fun x => { x with rdStave := some stave }).demand 8, ecc.tail)

/-! ### Delivery (R102, R147, R160) -/

/-- R past one slot: counted in RCNT at F, which it advances, and in XCNT below it (R160); R is never above F. -/
def Queue.advance (x : Queue) : Queue :=
  if x.r = x.f then { x with r := x.r + 1, f := x.r + 1, rcnt := x.rcnt + 1 }
  else { x with r := x.r + 1, xcnt := x.xcnt + 1 }

/-- The slot at offset `o` from H; positions count modulo 2^48, so a queue holds fewer than that (R123). -/
def Queue.slotAt (x : Queue) (o : Nat) : Option Slot9 := if o + 1 < 2 ^ 48 then x.held[o]? else none

/-- Takes up to `n` slots from R in order, past lost billets (R415), reading each stave as it is entered. -/
def State.takeSlots : Nat → State → QId → List Ecc → List Slot × List Ecc × State
  | 0, s, _, ecc => ([], ecc, s)
  | n + 1, s, q, ecc =>
    let s := s.jumpLost q
    let (s, ecc) := s.enterStave q ((s.qu q).r.toNat / 32) ecc
    let x := s.qu q
    match x.slotAt (x.off x.r) with
    | none => ([], ecc, s)
    | some v =>
      let p := (x.eccOf (x.r.toNat / 32)).poison
      let (vs, ecc, s) := State.takeSlots n (s.setQu q x.advance) q ecc
      (⟨v, p⟩ :: vs, ecc, s)

/-! ### Marks (R159 to R178) -/

/-- A MARK or REWIND carried out (Table 6.4). -/
def Queue.applyMark (x : Queue) (c : MarkCmd) : Queue :=
  match c with
  | .mark => { x with marks := x.marks ++ [x.r], markPend := none }
  | .rewind i =>
    { x with r := x.marks.getD i x.r, marks := x.marks.take (i + 1), markPend := none, launched := none, rdStave := none }

/-- The flags of a queue reach its reading port by the port's own handshake with the core, asserted and deasserted alike
(R166). -/
def State.crossReader (s : State) (q : QId) : State :=
  match s.readPort q with
  | none => s
  | some n => s.modPo n fun x => { x with crossed := x.crossed.set q.val (s.coreFlags n q) }

/-- The pending command of a queue carried out at this instant (R166, R172, R414). -/
def State.applyPend (s : State) (q : QId) : State :=
  match (s.qu q).markPend with
  | none => s
  | some c => ((((s.nextOrder.modQu q fun x => x.applyMark c).settle q).jumpLost q).scale q).crossReader q

/-- The oldest mark removed: H rises to the next mark, or to R (R164, R172). -/
def State.commitMark (s : State) (q : QId) : State :=
  ((s.nextOrder.modQu q fun x => { x with marks := x.marks.tail }).settle q).scale q

/-- A segment of the queue is in progress: its bark header has been launched, and its reading port, where one is enabled, is
not in stream mode (Table 6.3). -/
def State.midSegment (s : State) (q : QId) : Bool :=
  (s.qu q).launched.isSome &&
  (match s.readPort q with
   | some n => (s.po n).segMode
   | none => true)

/-- A MARK or REWIND may be applied at the core instant of its write: no running reading port and no segment in progress
(Table 6.3, R430, R449). -/
def State.markAtOnce (s : State) (q : QId) : Bool :=
  !s.midSegment q &&
  (match s.readPort q with
   | none => true
   | some n => (s.po n).noclk || !s.dp.en)

/-- QCTL.MARK (R161 to R171, R310). -/
def State.markCmd (s : State) (q : QId) : State :=
  let x := s.qu q
  if x.resetting || x.chainRead || x.markPend.isSome then s.count Ev.markrej q.val
  else if x.marks.length = 4 then s.count Ev.markovf q.val
  else
    let s := s.setQu q { x with markPend := some .mark }
    if s.markAtOnce q then s.applyPend q else s

/-- QCTL.REWIND with RWIDX (R161 to R171, R310). -/
def State.rewindCmd (s : State) (q : QId) (i : Nat) : State :=
  let x := s.qu q
  if x.resetting || x.chainRead || x.markPend.isSome || decide (x.marks.length ≤ i) then s.count Ev.markrej q.val
  else
    let s := s.setQu q { x with markPend := some (.rewind i) }
    if s.markAtOnce q then s.applyPend q else s

/-- A REWIND is pending. -/
def Queue.rewindPending (x : Queue) : Bool :=
  match x.markPend with
  | some (.rewind _) => true
  | _ => false

/-- QCTL.COMMIT (R161 to R171). -/
def State.commitCmd (s : State) (q : QId) : State :=
  let x := s.qu q
  if x.resetting || x.rewindPending || x.marks.isEmpty then s.count Ev.markrej q.val
  else s.commitMark q

/-! ### Segments at the ports -/

/-- The port has begun a stave of a segment to `q` that is not committed whole. -/
def Port.segBegun (x : Port) (q : QId) : Bool :=
  (match x.cur with
   | some c => c.q == some q && (!c.first || !c.fill.isEmpty)
   | none => false) || x.done.any fun d => d.segment && d.q == q

/-- The order stamp of the port's open segment, where it goes to `q`. -/
def Port.segOrder (x : Port) (q : QId) : Option Nat :=
  match x.cur with
  | some c => if c.q = some q then some c.order else none
  | none => none

/-- Another port's segment to `q` is open and holds the queue against port `n` (R93, R99): one that has begun, or the one
steered first where none has (log 22). -/
def State.segBlocks (s : State) (n : PId) (q : QId) : Bool :=
  allP.any fun m => m != n &&
    ((s.po m).segBegun q ||
      (match (s.po m).segOrder q, (s.po n).segOrder q with
       | some k, some j => !(s.po n).segBegun q && decide (k < j)
       | some _, none => !(s.po n).segBegun q
       | none, _ => false))

/-! ### The bark header (Table 4.6, R115, R507) -/

def byteOf (n : Nat) : BitVec 8 := BitVec.ofNat 8 n

/-- The 24 slots of a bark header, each with odd parity, REPLAY as 0 until launch (Table 4.6, R177). -/
def barkSlots (b : Bark) (q : QId) (seq : BitVec 32) : List Slot9 :=
  let bytes : List (BitVec 8) :=
    [ byteOf (b.tag.toNat + (if b.lenv then 64 else 0)),
      byteOf ((if b.badcrc then 1 else 0) + (if b.trunc then 2 else 0) + (if b.par then 4 else 0)
        + (if b.crcin then 8 else 0)),
      byteOf b.len, byteOf (b.len / 256) ] ++
    bytes32 b.crc ++ [b.stamp.epoch] ++ bytes32 (b.stamp.ns.zeroExtend 32) ++
    ((List.range 6).map fun i => b.stamp.sec.extractLsb' (8 * i) 8) ++
    [byteOf (b.port + 4 * q.val)] ++ bytes32 seq
  bytes.map fun d => withParity (mkSlot d false)

/-- The bark slots written into the segment that begins at `b` relative to H, as far as they are still held. -/
def Queue.fillBark (x : Queue) (b : Int) (vs : List Slot9) : Queue :=
  let o := b.toNat
  let vs := vs.drop (-b).toNat
  { x with held := x.held.take o ++ ((x.held.drop o).zipIdx.map fun (v, i) => (vs[i]?).getD v) }

/-! ### Committing staves (R125, R142, R507) -/

/-- QPARITY of a committed stave in a queue of parity mode (R125). -/
def State.checkParity (s : State) (q : QId) (vs : List Slot9) : State :=
  if !(s.qu q).mmode && vs.any (fun v => !slotOdd v) then s.count Ev.qparity q.val else s

/-- The stave's part in the queue's list of segments. -/
def Queue.addSeg (x : Queue) (d : DoneStave) (start : Pos) : Queue :=
  let n := d.slots.length
  if d.first then { x with segs := x.segs ++ [⟨start, n, d.last.isSome, 0⟩] }
  else
    match x.segs.reverse with
    | g :: gs => { x with segs := (({ g with len := g.len + n, complete := d.last.isSome } : Seg) :: gs).reverse }
    | [] => x

/-- The segment's last word is committed: the core fills in its bark header (R507). -/
def Queue.closeSeg (x : Queue) (q : QId) (b : Bark) : Queue :=
  match x.segs.getLast? with
  | some g => { x.fillBark (x.rel g.start) (barkSlots b q x.segSeq) with segSeq := x.segSeq + 1 }
  | none => x

/-- One stave committed to its queue; a bark header still to be filled in is written before the parity check. -/
def State.commitDone (s : State) (d : DoneStave) : State :=
  let q := d.q
  let start := (s.qu q).w
  let s := (s.demand 8).modQu q fun x =>
    let x := x.push d.slots (d.last.isSome || d.flush)
    if d.segment then
      let x := x.addSeg d start
      match d.last with
      | some b => x.closeSeg q b
      | none => x
    else x
  ((s.checkParity q (if d.segment && d.first then d.slots.drop 24 else d.slots)).jumpLost q).scale q

/-- The credit of a committed stave returns to the core (R93). -/
def Port.returnCredit (x : Port) (q : QId) : Port :=
  { x with spent := x.spent.set q.val (x.spent[q.val] - 1) }

/-- Part of a segment of this port to `q` is committed and part is not. -/
def Port.segPart (x : Port) (q : QId) : Bool :=
  match x.done.find? (fun d => d.segment && d.q == q) with
  | some d => !d.first
  | none => match x.cur with
    | some c => c.q == some q && !c.first
    | none => false

/-- A completed stave at port `n` may be committed: no other port's segment holds the queue, a stave of no segment does
not go between two of a segment, and the queue has a frame for it (R99, R100, R180). -/
def State.mayCommit (s : State) (n : PId) (d : DoneStave) : Bool :=
  !s.segBlocks n d.q && (d.segment || !(s.po n).segPart d.q) && s.frameFor d.q d.slots.length

/-- The first stave of a list that may go and that no earlier one of its queue holds back: each port's own order is kept
(R18, R100), but that a stave of no segment lets the rest of an open segment past, which it may not divide (R99). -/
def firstFree (ok : DoneStave → Bool) (part : QId → Bool) : List DoneStave → List DoneStave → Option DoneStave
  | _, [] => none
  | before, d :: ds =>
    if ok d && before.all (fun e => e.q != d.q || (!e.segment && d.segment && part d.q)) then some d
    else firstFree ok part (before ++ [d]) ds

/-- The first stave that waits at port `n` and may be committed. -/
def State.nextDone (s : State) (n : PId) : Option DoneStave :=
  firstFree (s.mayCommit n) (s.po n).segPart [] (s.po n).done

/-- One waiting stave of port `n` leaves it for its queue. -/
def State.commitStave (s : State) (n : PId) (d : DoneStave) : State :=
  (s.modPo n fun x => { x.returnCredit d.q with done := x.done.erase d }).commitDone d

/-- Commits the next waiting stave of port `n`. -/
def State.commitNext (s : State) (n : PId) : State :=
  match s.nextDone n with
  | none => s
  | some d => s.commitStave n d

/-! ### Flush (R144, R145) -/

/-- Commits every stave of queue `q` that waits at port `n` and may be committed, in order. -/
def State.commitWaiting : Nat → State → PId → QId → State
  | 0, s, _, _ => s
  | k + 1, s, n, q =>
    match firstFree (fun d => d.q == q && s.mayCommit n d) (s.po n).segPart [] (s.po n).done with
    | none => s
    | some d => State.commitWaiting k (s.commitStave n d) n q

/-- Pad slots up to the next multiple of the width: zero data with M = 1 (R144). -/
def padTo (w : Nat) (vs : List Slot9) : List Slot9 :=
  vs ++ List.replicate ((w - vs.length % w) % w) (mkSlot 0 true)

/-- The partial stave of queue `q` at port `n` padded, to the width of the reading port, or 1 without one or when
chain-read (R144), and committed under its set-aside credit unless an open segment holds the queue (R99). -/
def State.flushPort (s : State) (q : QId) (n : PId) : State :=
  let x := s.po n
  let p := x.partials[q.val]
  if p.isEmpty then s
  else
    let d : DoneStave := ⟨q, padTo (s.qWidth q) p, false, false, none, true⟩
    let x := { x with partials := x.partials.set q.val [], held := x.held.set q.val (x.held[q.val] - 1)
                      spent := x.spent.set q.val (x.spent[q.val] + 1), done := x.done ++ [d] }
    let s := (s.setPo n x).count Ev.flushpad q.val
    s.commitWaiting x.done.length n q

/-- QCTL.FLUSH: every partial stave of the queue, in order of ascending port. -/
def State.flush (s : State) (q : QId) : State := (allP.foldl (fun s n => s.flushPort q n) s).scale q

/-! ### What the flag pins show of a port's own state (R94, R130) -/

/-- A stave of queue `q` waits at port `n` for another port's segment, or for a frame. -/
def State.staveWaits (s : State) (n : PId) (q : QId) : Bool := (s.po n).done.any fun d => d.q == q && !s.mayCommit n d

/-- An ingress port cannot take one more word of queue `q`, by what it holds itself (R94, R112). Where the staging is full, a
segment-mode port takes no word at all, and a stream-mode port none of a queue whose staves wait there (R99, log 61). -/
def State.fullFor (s : State) (n : PId) (q : QId) : Bool :=
  !(s.po n).wordRoom q (s.width n) || (!s.stageRoom n && ((s.po n).segMode || s.staveWaits n q))

/-- The flag pins of port `n` from flags `f` of the shown queue: FF# is low too where the port's own state allows no more
words (R94). -/
def State.pinLevels (s : State) (n : PId) (f : Bool × Bool) : Level × Level :=
  (Level.ofFlag (f.1 || (!(s.po n).egress && s.fullFor n (s.po n).shown)), Level.ofFlag f.2)

/-- FF#, AF# or EF#, AE# as port `n` launches them: from what has crossed and from its own state (R130). -/
def State.flagPins (s : State) (n : PId) : Level × Level := s.pinLevels n (s.po n).crossed[(s.po n).shown.val]

/-- FF#, AF# or EF#, AE# of port `n` as they settle when every crossing is complete (R94, R130, R314). -/
def State.settledPins (s : State) (n : PId) : Level × Level := s.pinLevels n (s.coreFlags n (s.po n).shown)

end Sys2Proof.Machine
end

