-- ==== Sys2Proof/Machine/Azlin.lean ====
section
/-!
DEFINITION. The Azlin link: frames, credits, acknowledgement and resend, bring-up, loss, and the effects of the AZL bank.
-/

namespace Sys2Proof.Machine

/-! ### Frames (R282 to R289) -/

/-- CRC-16 of a frame: control bits [19:0], then the data transfers (R285). -/
def frameCrc (ctl : BitVec 36) (data : List (BitVec 36)) : BitVec 16 :=
  crc16 (bitsHigh ctl 20 ++ data.flatMap fun d => bitsHigh d 36)

/-- A control transfer with its CRC (Table 10.2). -/
def withCrc (low : Nat) (data : List (BitVec 36)) : BitVec 36 :=
  let c : BitVec 36 := BitVec.ofNat 36 (low % 2 ^ 20)
  c ||| ((frameCrc c data).zeroExtend 36 <<< 20)

def ctlSeq (c : BitVec 36) : BitVec 8 := c.extractLsb' 0 8
def ctlType (c : BitVec 36) : Nat := (c.extractLsb' 12 2).toNat
def ctlSub (c : BitVec 36) : Nat := (c.extractLsb' 14 2).toNat
def ctlQueue (c : BitVec 36) : QId := ⟨(c.extractLsb' 8 4).toNat, (c.extractLsb' 8 4).isLt⟩
def ctlPos (c : BitVec 36) : BitVec 3 := c.extractLsb' 8 3
def ctlTwin (c : BitVec 36) : Bool := c.getLsbD 11
def ctlPoison (c : BitVec 36) : Bool := c.getLsbD 14
def ctlCrc (c : BitVec 36) : BitVec 16 := c.extractLsb' 20 16

/-- A link frame of SUB `sub` with its sender's position (Table 10.2). -/
def State.linkFrame (s : State) (sub : Nat) (seq : BitVec 8) : BitVec 36 :=
  withCrc (seq.toNat + 256 * s.boot.straps.caspos.toNat + (if s.boot.straps.wtwin then 2048 else 0) + 8192 + 16384 * sub) []

/-- The eight data transfers of a stave: a partial one carries its count in slot 31 (R283, R286). -/
def staveData (vs : List Slot9) : List (BitVec 36) :=
  let n := vs.length
  let full := vs ++ List.replicate (32 - n) 0
  let full := if n < 32 then full.set 31 (BitVec.ofNat 9 n) else full
  (List.range 8).map fun i => packLines ((full.drop (4 * i)).take 4)

/-- A stave frame (R282, R284). -/
def staveFrame (seq : BitVec 8) (q : QId) (vs : List Slot9) (poison : Bool) : List (BitVec 36) :=
  let d := staveData vs
  withCrc (seq.toNat + 256 * q.val + (if vs.length < 32 then 4096 else 0) + (if poison then 16384 else 0)) d :: d

/-- The slots a stave frame carries (R283, R286). -/
def frameSlots (part : Bool) (data : List (BitVec 36)) : List Slot9 :=
  let all := data.flatMap fun d => (List.range 4).map (lineSlot d)
  if part then all.take (((all.getD 31 0).toNat) % 32) else all

/-- A credit frame (Table 10.3). -/
def creditBits (rq : Nat) (ack : BitVec 8) (q : QId) (ccnt : BitVec 8) : BitVec 38 :=
  let hi : Nat := 4194304 + rq * 1048576 + ack.toNat * 4096 + q.val * 256 + ccnt.toNat
  let top : BitVec 23 := BitVec.ofNat 23 hi
  top ++ ((crc16 (bitsHigh top 22)).extractLsb' 0 15 : BitVec 15)

def creditOk (b : BitVec 38) : Bool :=
  b.getLsbD 37 && ((crc16 (bitsHigh (b.extractLsb' 15 22) 22)).extractLsb' 0 15 == b.extractLsb' 0 15)

/-! ### Enabled ends (R40, R278, R281) -/

def State.outEnabled (s : State) : Bool := bit s.azl.acfg.val 0 && !s.strapsBad
/-- INEN is ignored on the head of a depth chain. -/
def State.inEnabled (s : State) : Bool :=
  bit s.azl.acfg.val 1 && !s.strapsBad && (s.boot.straps.wtwin || s.boot.straps.caspos != 0)

def State.setOut (s : State) (x : OutLink) : State := { s with azl := { s.azl with out := x } }
def State.setIn (s : State) (x : InLink) : State := { s with azl := { s.azl with inn := x } }

/-! ### The receiver -/

/-- Segment boundaries of a chain-fed queue, slot by slot: the first slot after a QUEUE reset or a segment's end is bark
slot 0, and the length in bark slots 2 and 3 gives its end (R311). -/
def Queue.parseOne (x : Queue) (p : Pos) (v : Slot9) : Queue :=
  match x.segs.getLast? with
  | some g =>
    if g.complete then { x with segs := x.segs ++ [⟨p, 1, false, 0⟩] }
    else
      let n := g.len + 1
      let d := (slotData v).toNat
      let t := if n = 3 then d else if n = 4 then g.stated + 256 * d else g.stated
      { x with segs := x.segs.dropLast ++ [⟨g.start, n, decide (4 ≤ n) && n == 24 + t, t⟩] }
  | none => { x with segs := [⟨p, 1, false, 0⟩] }

/-- The slots `vs` that have just been committed from position `w` on, parsed. W counts as set by the end of a segment where
one ends with the last of them (R292, R311; log 70). -/
def Queue.parse (x : Queue) (w : Pos) (vs : List Slot9) (part : Bool) : Queue :=
  let y := vs.zipIdx.foldl (fun y (v, i) => y.parseOne (w + BitVec.ofNat 48 i) v) x
  { y with tailCut := part || (y.segs.getLast?.map (·.complete)).getD false }

/-- Chain arrivals committed to their queue (R125, R294). -/
def State.chainCommit (s : State) (q : QId) (vs : List Slot9) (poison part : Bool) : State :=
  let s := (s.demand 8).modQu q fun x => (x.poisonFrom poison vs.length (x.push vs part)).parse x.w vs part
  ((s.checkParity q vs).jumpLost q).scale q

/-- A frame that fails its check, or whose SEQ is out of place (R287, R294). -/
def State.frameDiscard (s : State) : State :=
  (s.setIn { s.azl.inn with hold := true }).count Ev.azcrc 0

/-- A credit of the link returns to the receiver's core (R295, R299). -/
def InLink.park (x : InLink) (q : QId) : InLink := { x with out := x.out.set q.val (x.out[q.val] - 1) }

/-- A stave frame arrives on an inbound link that is UP (R287, R294, R299). -/
def State.rxStave (s : State) (ctl : BitVec 36) (data : List (BitVec 36)) : State :=
  let x := s.azl.inn
  if !(s.running && s.inEnabled && x.st == .up) then s
  else if ctlCrc ctl != frameCrc ctl data || decide (2 ≤ ctlType ctl) then s.frameDiscard
  else
    let x := { x with lastRx := s.time.ticks }
    let s := s.setIn x
    if x.hold then s
    else if ctlSeq ctl = x.e then
      let q := ctlQueue ctl
      let s := s.setIn { (x.park q) with e := x.e + 1 }
      let y := s.qu q
      if s.chainFed q && y.en && !y.resetting then
        s.chainCommit q (frameSlots (ctlType ctl == 1) data) (ctlPoison ctl) (ctlType ctl == 1)
      else (s.count Ev.azqdrop 0).scale q
    else if (x.e - ctlSeq ctl).toNat ≤ 64 then s.count Ev.azdup 0
    else s.frameDiscard

def execStaveFrame (ctl : BitVec 36) (data : List (BitVec 36)) (s : State) : Host.Outcome State Fault Refusal :=
  .next (s.rxStave ctl data)

/-- CASPOS and WTWIN of the sender do not fit (R304). -/
def State.posMismatch (s : State) (ctl : BitVec 36) : Bool :=
  let st := s.boot.straps
  if st.wtwin then ctlPos ctl == st.caspos
  else ctlPos ctl != st.caspos - 1 || ctlTwin ctl != st.wtwin

/-- What a valid link frame shows of the neighbour, and the check of R304: one that does not fit keeps the end in TRAIN, where
what it carries is not taken. -/
def State.peerSeen (s : State) (ctl : BitVec 36) : State :=
  let x := { s.azl.inn with peerPos := ctlPos ctl, peerTwin := ctlTwin ctl, peerVal := true, lastRx := s.time.ticks }
  if s.posMismatch ctl then (s.setIn { x with mism := true, got := false, st := .train }).count Ev.azpos 0
  else s.setIn { x with mism := false }

/-- E and the credits start afresh (R289, R302). -/
def InLink.restart (x : InLink) (seq : BitVec 8) : InLink :=
  { x with e := seq, ccnt := Vector.replicate 16 0, out := Vector.replicate 16 0, fresh := false, hold := false
           got := true }

/-- A link frame arrives on an inbound link that is not DOWN (R284, R287, R302, R304). -/
def State.rxLink (s : State) (sub : Nat) (ctl : BitVec 36) : State :=
  let x := s.azl.inn
  if !(s.running && s.inEnabled && x.st != .down) then s
  else if ctlCrc ctl != frameCrc ctl [] || ctlType ctl != 2 || ctlSub ctl == 3 then s.frameDiscard
  else if ctlSub ctl ≠ sub then s
  else
    let s := s.peerSeen ctl
    let x := s.azl.inn
    if x.mism then s
    else match sub with
    | 1 => (s.setIn (if x.fresh then x.restart (ctlSeq ctl) else { x with hold := false, got := true })).scaleAll
    | 2 => (s.setIn (x.restart (ctlSeq ctl))).scaleAll
    | _ => s

def execKeepalive (ctl : BitVec 36) (s : State) : Host.Outcome State Fault Refusal := .next (s.rxLink 0 ctl)
def execResync (ctl : BitVec 36) (s : State) : Host.Outcome State Fault Refusal := .next (s.rxLink 1 ctl)
def execRestart (ctl : BitVec 36) (s : State) : Host.Outcome State Fault Refusal := .next (s.rxLink 2 ctl)

/-- The receiver grants a credit of queue `q`, for whose stave a frame is kept (R128, R180, R291; log 76). -/
def State.linkGrant (s : State) (q : QId) : State :=
  let x := s.azl.inn
  let y := s.qu q
  if s.running && s.inEnabled && x.st == .up && s.chainFed q && y.en && !y.resetting
      && decide (x.out[q.val] < 32) && decide (x.out.sum < 64)
      && decide (32 ≤ s.free q - y.ffresSlots - s.resv q) && s.frameFor q 32 then
    (s.setIn { x with out := x.out.set q.val (x.out[q.val] + 1), ccnt := x.ccnt.set q.val (x.ccnt[q.val] + 1) }).scale q
  else s

def execLinkCreditGrant (q : QId) (s : State) : Host.Outcome State Fault Refusal := .next (s.linkGrant q)

/-- RQ of the credit frames a receiver sends: until a valid RESYNC or RESTART of this bring-up has come it asks for one
(R288, Table 10.4). -/
def InLink.rq (x : InLink) : Nat := if x.fresh then 2 else if x.hold || (x.st == .train && !x.got) then 1 else 0

/-- The credit frame of a queue (Table 10.3). -/
def InLink.frame (x : InLink) (q : QId) : BitVec 38 := creditBits x.rq (x.e - 1) q x.ccnt[q.val]

/-- The next chain-fed queue in rotation after `q`; `q` itself where none is chain-fed (R305, log 31). -/
def State.nextFed (s : State) (q : QId) : QId :=
  match (List.range 16).find? fun i => s.chainFed (q + 1 + Fin.ofNat 16 i) with
  | some i => q + 1 + Fin.ofNat 16 i
  | none => q

/-- A credit frame goes out: after 1 µs without one, or at once while a resync is asked for or in bring-up (R288, R305). -/
def State.creditSend (s : State) : State :=
  let x := s.azl.inn
  if s.running && s.inEnabled && x.st != .down
      && (!s.time.refclk || decide (x.lastTx + 100 ≤ s.time.ticks) || x.hold || x.st == .train) then
    let q := s.nextFed x.rot
    s.setIn { x with rot := q, lastTx := s.time.ticks, tx := [x.frame q] }
  else s

def execCreditFrameSend (s : State) : Host.Outcome State Fault Refusal := .next s.creditSend

/-! ### The sender -/

/-- SEQ of the oldest unacknowledged stave, or of the next new one (R288, R300). -/
def OutLink.first (x : OutLink) : BitVec 8 := (x.resend.head?.map (·.seq)).getD x.nseq

/-- Drops the staves that ACKSEQ acknowledges (R288, R295). -/
def OutLink.ack (x : OutLink) (a : BitVec 8) : OutLink :=
  let gone := x.resend.filter fun r => decide ((a - r.seq).toNat < 128)
  { x with
    resend := x.resend.filter fun r => !decide ((a - r.seq).toNat < 128)
    aack := gone.foldl (fun v r => v.set r.q.val (v[r.q.val] + 1)) x.aack }

/-- Credits granted since the last count (R289, R290). -/
def OutLink.takeCcnt (x : OutLink) (q : QId) (c : BitVec 8) : OutLink :=
  { x with cred := x.cred.set q.val (x.cred[q.val] + (c - x.ccnt[q.val]).toNat), ccnt := x.ccnt.set q.val c }

/-- RESYNC sent, or RESTART while the sender's own state is fresh; every stave of the buffer waits to be sent again
(R288, R300, R303). -/
def State.sendResync (s : State) (need : Bool) : State :=
  let x := s.azl.out
  s.setOut { x with
    tx := [[s.linkFrame (if x.fresh then 2 else 1) x.first]]
    lastTx := s.time.ticks, lastResync := s.time.ticks, rqAt := none, sync := true, answered := false
    resend := x.resend.map fun r => { r with wait := true, need := r.need || need } }

/-- Resends waiting staves in SEQ order, each with its original credit or a new one (R298, R303). Answers the entries after
it, the credits left and the frames that go out, in order. -/
def resendLoop : List Resend → Vector Nat 16 → List Resend × Vector Nat 16 × List (List (BitVec 36))
  | [], cred => ([], cred, [])
  | r :: rs, cred =>
    if !r.wait then
      let (l, c, f) := resendLoop rs cred
      (r :: l, c, f)
    else if r.need && cred[r.q.val] == 0 then (r :: rs, cred, [])
    else
      let cred := if r.need then cred.set r.q.val (cred[r.q.val] - 1) else cred
      let (l, c, f) := resendLoop rs cred
      ({ r with wait := false, need := false } :: l, c, staveFrame r.seq r.q r.slots r.poison :: f)

/-- Resends what may go while UP, after the frames `before` that the same row has sent, counting AZRESEND. -/
def State.drainResend (s : State) (before : List (List (BitVec 36))) : State :=
  let x := s.azl.out
  if x.st != .up then s
  else
    let (l, c, f) := resendLoop x.resend x.cred
    if f.isEmpty then s
    else ((s.setOut { x with resend := l, cred := c, tx := before ++ f, lastTx := s.time.ticks }).demand
      (8 * f.length)).countN Ev.azresend 0 f.length

/-- RESYNC or RESTART, then the resends that may go (R288, R303). -/
def State.resync (s : State) (need : Bool) : State := let s := s.sendResync need; s.drainResend s.azl.out.tx

/-- The sender takes ACKSEQ and CCNT of a frame. A fresh sender, whose RESTART makes the receiver count from 0, takes them
once that has been answered by a frame with RQ = 0b00 (R289, R296, R302; log 43). -/
def OutLink.counts (x : OutLink) (rq : Nat) : Bool := !x.fresh || (x.sync && rq == 0)

/-- A credit frame arrives (R288, R290, R295, R303). -/
def State.rxCredit (s : State) (b : BitVec 38) : State :=
  let x := s.azl.out
  if !(s.running && s.outEnabled && x.st != .down && b.getLsbD 37) then s
  else if !creditOk b then s.count Ev.azcrc 0
  else
    let rq := (b.extractLsb' 35 2).toNat
    let ackSeq : BitVec 8 := b.extractLsb' 27 8
    let q : QId := ⟨(b.extractLsb' 23 4).toNat, (b.extractLsb' 23 4).isLt⟩
    let ccnt : BitVec 8 := b.extractLsb' 15 8
    let x := { x with lastRx := s.time.ticks }
    if 2 ≤ rq then
      let x := { x with cred := Vector.replicate 16 0, ccnt := Vector.replicate 16 0 }
      (s.setOut (x.takeCcnt q ccnt)).resync true
    else
      let x := if x.counts rq then (x.ack ackSeq).takeCcnt q ccnt else x
      if rq = 0 then (s.setOut { x with episode := false, rqAt := none, answered := x.sync }).drainResend []
      else if x.episode && x.st == .up then (s.setOut { x with rqAt := some s.time.ticks }).drainResend []
      else (s.setOut { x with episode := true }).resync false

def execCreditFrame (bits : BitVec 38) (s : State) : Host.Outcome State Fault Refusal := .next (s.rxCredit bits)

/-- Slots from R that a sender may read, and whether they end where a flush or a segment's end last set W (R292). On a device
whose ports write the queue, a segment not committed to its end is not read, its bark header still to be filled in (R507,
log 71). -/
def State.sendable (s : State) (q : QId) : Nat × Bool :=
  let x := s.qu q
  match (if s.chainFed q then none else x.segs.find? fun g => !g.complete) with
  | some g => (min x.rdbl (x.rel g.start - x.off x.r).toNat, true)
  | none => (x.rdbl, x.tailCut)

/-- Slots of the next stave of a chain-read queue: 32, or the fewer readable ones where they end so (R292); 0 where none may
go. -/
def State.sendSize (s : State) (q : QId) : Nat :=
  let (r, cut) := s.sendable q
  let n := min 32 r
  if (n = 32 ∨ cut) ∧ n ≤ s.deliverable q then n else 0

/-- A sender sends a stave of a chain-read queue (R292, R293, R297). -/
def State.staveSend (s : State) (q : QId) (ecc : List Ecc) : State :=
  let x := s.azl.out
  let n := s.sendSize q
  if s.running && s.time.refclk && s.outEnabled && x.st == .up && !s.twin && (s.qu q).chainRead && (s.holder q).isNone && !(s.qu q).forced
      && decide (0 < x.cred[q.val]) && x.resend.all (fun r => !r.wait) && n != 0 then
    let acc8 := s.gov.acc8
    let (vs, _, s) := s.takeSlots n q ecc
    let s := (({ s with gov := { s.gov with acc8 := acc8 } }).demand 8).settle q
    let slots := vs.map (·.v)
    let poison := vs.any (·.poison)
    let s := s.setOut { x with
      cred := x.cred.set q.val (x.cred[q.val] - 1), asent := x.asent.set q.val (x.asent[q.val] + 1)
      nseq := x.nseq + 1, resend := x.resend ++ [⟨x.nseq, q, slots, poison, false, false⟩]
      tx := [staveFrame x.nseq q slots poison], lastTx := s.time.ticks }
    (s.jumpLost q).scale q
  else s

def execStaveSend (q : QId) (ecc : List Ecc) (s : State) : Host.Outcome State Fault Refusal := .next (s.staveSend q ecc)

/-- A sender that has sent no frame for 1 µs sends KEEPALIVE (R305). -/
def execKeepaliveSend (s : State) : Host.Outcome State Fault Refusal :=
  .next (
    let x := s.azl.out
    if s.running && s.time.refclk && s.outEnabled && x.st == .up && decide (x.lastTx + 100 ≤ s.time.ticks) then
      s.setOut { x with tx := [[s.linkFrame 0 x.nseq]], lastTx := s.time.ticks }
    else s)

/-- RQ = 0b01 still arriving 2 µs after the last RESYNC: one has come within the 1 µs at which a receiver repeats its credit
frames, and none without it since (R288, R305; log 72). -/
def State.resyncAgain (s : State) : State :=
  let x := s.azl.out
  let still := match x.rqAt with
    | some t => decide (s.time.ticks ≤ t + 100)
    | none => false
  if s.running && s.time.refclk && s.outEnabled && x.st == .up && still && decide (x.lastResync + 200 ≤ s.time.ticks) then
    s.resync false
  else s

def execResyncRetry (s : State) : Host.Outcome State Fault Refusal := .next s.resyncAgain

/-! ### Link states (R300, R301, R306) -/

/-- A link end enters TRAIN with its link state kept, or goes DOWN; its bring-up begins afresh (R300, R301). -/
def OutLink.toTrain (x : OutLink) : OutLink :=
  { x with st := .train, lost := none, episode := false, rqAt := none, sync := false, answered := false, tx := [] }
def OutLink.toDown (x : OutLink) (lost : Option Nat) : OutLink :=
  { x with st := .down, lost := lost, episode := false, rqAt := none, sync := false, answered := false, tx := [] }
def InLink.toTrain (x : InLink) : InLink := { x with st := .train, lost := none, got := false, tx := [] }
def InLink.toDown (x : InLink) (lost : Option Nat) : InLink := { x with st := .down, lost := lost, got := false, tx := [] }

/-- No valid frame for 100 µs while UP (R306); a twin drives its WSYNC lines low until that end is UP again (R55). -/
def State.linkLoss (s : State) (e : LinkEnd) : State :=
  let far (rx : Nat) : Bool := !s.time.refclk || decide (rx + 10000 ≤ s.time.ticks)
  match e with
  | .out =>
    let x := s.azl.out
    if s.running && x.st == .up && far x.lastRx then
      ({ s with azl := { s.azl with out := x.toDown (some s.time.ticks), lostOut := s.twin } }).count Ev.azloss 0
    else s
  | .inn =>
    let x := s.azl.inn
    if s.running && x.st == .up && far x.lastRx then
      ({ s with azl := { s.azl with inn := x.toDown (some s.time.ticks), lostIn := s.twin } }).count Ev.azloss 0
    else s

def execLinkLoss (e : LinkEnd) (s : State) : Host.Outcome State Fault Refusal := .next (s.linkLoss e)

/-- 100 µs have passed since a declared loss (R300). -/
def State.lossOver (s : State) (lost : Option Nat) : Bool :=
  match lost with
  | none => true
  | some t => !s.time.refclk || decide (t + 10000 ≤ s.time.ticks)

/-- A link end enters TRAIN: from DOWN, enabled with its clock and 100 µs after a loss, or on the training pattern from the
other end, which it has seen for 1 µs (R300). -/
def State.linkTrain (s : State) (e : LinkEnd) (pattern : Bool) : State :=
  let may (st : LinkSt) (lost : Option Nat) : Bool := st != .train && (pattern || (st == .down && s.lossOver lost))
  match e with
  | .out =>
    if s.running && s.time.refclk && s.outEnabled && may s.azl.out.st s.azl.out.lost then s.setOut s.azl.out.toTrain else s
  | .inn => if s.running && s.inEnabled && may s.azl.inn.st s.azl.inn.lost then s.setIn s.azl.inn.toTrain else s

def execLinkTrainEntry (e : LinkEnd) (s : State) (pattern : Bool := false) : Host.Outcome State Fault Refusal :=
  .next (s.linkTrain e pattern)

/-- The chain-fed queues. -/
def State.fedQueues (s : State) : List QId := allQ.filter s.chainFed

/-- Bring-up ends with the link UP (Table 10.4): a sender has sent its RESYNC or RESTART of this bring-up, which a credit frame
of step 5 has answered, and resends what waits; a receiver has taken one whose position fits (R302, R304), and sends a credit frame for every chain-fed queue. -/
def State.linkUp (s : State) (e : LinkEnd) : State :=
  match e with
  | .out =>
    let x := s.azl.out
    if s.running && s.time.refclk && s.outEnabled && x.st == .train && x.answered then
      let o : OutLink := { x with
        st := .up, fresh := false, episode := false, rqAt := none, lastRx := s.time.ticks, lastTx := s.time.ticks
        resend := x.resend.map fun r => { r with wait := true } }
      State.drainResend { s with azl := { s.azl with out := o, lostOut := false } } []
    else s
  | .inn =>
    let x := s.azl.inn
    if s.running && s.inEnabled && x.st == .train && x.got && !x.mism then
      let n : InLink := { x with
        st := .up, lastRx := s.time.ticks, lastTx := s.time.ticks, rot := (s.fedQueues.getLast?).getD x.rot
        tx := s.fedQueues.map x.frame }
      { s with azl := { s.azl with inn := n, lostIn := false } }
    else s

def execLinkUp (e : LinkEnd) (s : State) : Host.Outcome State Fault Refusal := .next (s.linkUp e)

/-- A link reset: an enabled end goes to TRAIN with its state kept (R300, R301, R482). -/
def State.linkReset (s : State) (out inn : Bool) : State :=
  let s := if out && s.outEnabled && s.running then s.setOut s.azl.out.toTrain else s
  if inn && s.inEnabled && s.running then s.setIn s.azl.inn.toTrain else s

/-- A commit of AZL:ACFG (R480). -/
def State.acfgCommit (s : State) (v : Word) : State :=
  let old := s.azl.acfg.val
  let s := { s with azl := { s.azl with acfg := VWord.of (v &&& 0x33) } }
  let s := if !s.outEnabled then s.setOut (s.azl.out.toDown none)
    else if bit old 0 && min 2 (fld old 4 2) != min 2 (fld v 4 2) && s.azl.out.st == .up then s.setOut s.azl.out.toTrain
    else s
  if !s.inEnabled then s.setIn (s.azl.inn.toDown none) else s

/-- A commit of AZL:AINQ (R481). -/
def State.ainqCommit (s : State) (v : Word) : State :=
  ({ s with azl := { s.azl with ainq := VWord.of v } }).scaleAll

/-- The twin partner drives or releases its WSYNC lines (R314). -/
def execWsyncChange (lines : BitVec 4) (s : State) : Host.Outcome State Fault Refusal :=
  .next (if s.powered then { s with azl := { s.azl with wsync := lines } } else s)

end Sys2Proof.Machine
end

