-- ==== Sys2Proof/Machine/ChanOps.lean ====
section
/-!
DEFINITION. Operations on a DRAM channel shared by the Yarder and Carding: geometry, addresses, the request engines,
burst choice, hot rows, retrain triggers, drains, sweeps and channel resets.
-/

namespace Sys2Proof.Machine

/-! ### Timing set in force, geometry and addresses (R210, R212, R217) -/

def Chan.tset (x : Chan) (b : Bool) : Vector VWord 15 := if b then x.tB else x.tA
def Chan.carry (x : Chan) (b : Bool) : Bool := if b then x.carryB else x.carryA
def Chan.setCarry (x : Chan) (b v : Bool) : Chan := if b then { x with carryB := v } else { x with carryA := v }

/-- Word i of a timing set as read. -/
def Chan.tword (x : Chan) (b : Bool) (i : Fin 15) : Word := (x.tset b)[i.val].val

def Chan.dens (x : Chan) : Bool := bit (x.tword x.setB 0) 4
def Chan.ranks (x : Chan) : Bool := bit (x.tword x.setB 0) 5

/-- Billets of the channel (Table 8.1). -/
def Chan.billets (x : Chan) : Nat := 524288 * (if x.dens then 2 else 1) * (if x.ranks then 2 else 1)

/-- Bank index (rank × 8 + bank group × 4 + bank) of a channel billet (Table 8.3). -/
def Chan.bankOf (x : Chan) (cb : Nat) : Fin 16 :=
  let bg := cb % 2
  let ba := cb / 2 % 4
  let rk := if x.ranks then cb / 8 % 2 else 0
  ⟨(rk * 8 + bg * 4 + ba) % 16, Nat.mod_lt _ (by decide)⟩

/-- Row of a channel billet (Table 8.3). -/
def Chan.rowOf (x : Chan) (cb : Nat) : Nat :=
  (if x.ranks then cb / 16 else cb / 8) % (if x.dens then 131072 else 65536)

/-- The ranks the set in force names (R212). -/
def Chan.hasRank (x : Chan) (rank : Bool) : Bool := !rank || x.ranks

/-! ### YCTL and QoS -/

def Chan.latMode (x : Chan) : Bool := bit x.ctlL 0
def Chan.ref2x (x : Chan) : Bool := bit x.ctlL 1
def Chan.pageIdle (x : Chan) : Nat := fld x.ctlL 8 8
def Chan.srIdle (x : Chan) : Nat := fld x.ctlH 0 12

/-- Bucket cap of a class in thousandths (R228). -/
def Qos.cap (k : Qos) : Nat := max 1 (fld k.burst 0 8) * 1000
def Qos.ratePerMs (k : Qos) : Nat := fld k.rate 0 12
def Qos.latUs (k : Qos) : Nat := fld k.lat 0 10

/-- Every token bucket filled (R227). -/
def Chan.fillBuckets (x : Chan) : Chan := { x with bucket := vmap Qos.cap x.qos }

/-- One tick of the token buckets (R228). -/
def Chan.tickBuckets (x : Chan) : Chan :=
  { x with bucket := x.bucket.mapFinIdx fun i b h => min (x.qos[i]).cap (b + (x.qos[i]).ratePerMs) }

/-! ### Idle, wake, requests -/

/-- tREFI in REFCLK periods: 7.8 µs, or 3.9 µs while YnTHERM# is low or REF2X = 1 (R237). -/
def Chan.refInt (x : Chan) : Nat := if x.therm || x.ref2x then 390 else 780

/-- No billet request waiting or in flight, no Carding operation and no refresh owed (R240). A tracking update breaks no idle
time: it runs every 1 ms of service, and SRIDLE counts up to 4,095 µs (log 66). -/
def Chan.idle (x : Chan) : Bool :=
  x.reqs.isEmpty && x.sweeping.isNone && x.waiting.isNone && !x.heldHost && x.run.isNone
    && x.owed.toList.all (fun n => decide (n ≤ 0))

/-- No tracking update that goes before any request is outstanding (R427, Table 3.2 step 5). -/
def Chan.tracked (x : Chan) : Bool := x.must.toList.all (!·)

/-- A drain window is open (R272); a channel that rests in self-refresh has one (R242). -/
def Chan.drainWindow (x : Chan) : Bool :=
  match x.st with
  | .active => x.idle && x.tracked
  | .selfref | .untrained | .absent | .failed => true
  | _ => false

/-- The channel starts requests (R224, R427, Table 13.6). -/
def Chan.serving (x : Chan) : Bool := x.st == .active && !x.noRef && x.sweeping.isNone && x.tracked

/-- The DRAM leaves self-refresh: refreshes are due from here, rank 1 half an interval after rank 0, and the first of each
rank in service carries a tracking update (R237, R268). -/
def Chan.startRefresh (x : Chan) (tick : Nat) : Chan :=
  { x with
    owed := Vector.replicate 2 0, gap := Vector.replicate 2 none
    refAt := #v[tick + x.refInt, tick + x.refInt + x.refInt / 2], trackAt := Vector.replicate 2 tick }

/-- A channel out of self-refresh and in service. -/
def Chan.rouse (x : Chan) (tick : Nat) : Chan := { (x.startRefresh tick) with st := .active, idleSince := tick }

/-- The channel issues every refresh that it may issue early and enters self-refresh (R240). -/
def Chan.rested (x : Chan) : Chan :=
  { x with st := .selfref, rows := Vector.replicate 16 none, gap := Vector.replicate 2 none
           owed := #v[-4, if x.ranks then -4 else 0] }

/-- A request takes a channel out of self-refresh (R241). -/
def Chan.wake (x : Chan) (tick : Nat) : Chan :=
  if x.st = .selfref ∧ !x.noRef ∧ x.sweeping = none ∧ x.waiting = none then x.rouse tick else x

/-- A channel that a sweep or a frequency change leaves out of self-refresh: ACTIVE with the refreshes it owes, or SELFREF
when no request waits (R239, R259, Table 8.7, Table 13.3). -/
def Chan.serve (x : Chan) (tick : Nat) : Chan :=
  if x.reqs.isEmpty then x.rested else { x with st := .active, idleSince := tick }

/-- A tracking update of every rank of the set in force goes before any request (R427, Table 3.2 step 5). -/
def Chan.owe (x : Chan) : Chan := { x with must := #v[true, x.ranks] }

/-- The class of queue `q`'s requests (Table 8.4); 4 for a queue read by the Azlin link. -/
def State.reqClass (s : State) (q : QId) : Nat := if (s.qu q).chainRead then 4 else (s.namedPort q).val

/-- Hands a request over to a channel (R222, R241). -/
def State.handOver (s : State) (k : ReqKind) (q : QId) (num : Nat) (c : YId) (cb : Nat) : State :=
  let r : Req := ⟨k, q, s.reqClass q, num, cb, s.order, s.time.ticks, false, 0, false, true, 0, []⟩
  (s.modCh c fun x => { (x.wake s.time.ticks) with reqs := x.reqs ++ [r] }).nextOrder

/-- Removes a request that has completed; the idle time starts with the last (R240). A late one counts (R232). -/
def State.finishReq (s : State) (c : YId) (r : Req) : State :=
  let x := s.ch c
  let left := x.reqs.filter fun t => t.age != r.age
  let s := s.setCh c { x with reqs := left, idleSince := if left.isEmpty then s.time.ticks else x.idleSince }
  let lat := if h : r.cls < 4 then (x.qos[r.cls]).latUs else 0
  if x.latMode && lat != 0 && decide (lat ≤ (s.time.ticks - r.tick) / 100) then s.count (Ev.ylate c) 0 else s

/-! ### Sources (R221, R223, Table 8.4) -/

/-- The source of a request: the cascade engine asks for the refills of a chain-read queue. -/
def Req.src (r : Req) : Src := if r.kind == .refill && r.cls == 4 then .cascade r.q else .queue r.q

/-- A source's place in the operand of BURST_ISSUE (log 12). -/
def Src.idx : Src → Nat
  | .queue q => q.val
  | .cascade q => 16 + q.val
  | .host => 32
  | .test => 33

/-- The queue number of a source in the last tie-break of R225. -/
def Src.num : Src → Nat
  | .queue q => q.val
  | .cascade q => q.val
  | .host => 0
  | .test => 0

/-- Every earlier request of `r`'s source on the channel has completed: those of one source complete in order (R223). -/
def Chan.oldest (x : Chan) (r : Req) : Bool := (x.reqs.find? fun t => t.src == r.src).map (·.age) == some r.age

/-- Every burst of a pattern run. -/
def Run.bursts (k : Run) : Nat := k.writes + k.reads

/-- The oldest unissued burst of one source: its age, class and channel billet, and its billet request, none for the host
path's pattern run and the test engine (R225). -/
structure Burst where
  src : Src
  cls : Nat
  age : Nat
  cb : Nat
  req : Option Req
  deriving DecidableEq, Repr

def Req.burst (r : Req) : Burst := ⟨r.src, r.cls, r.age, r.cb, some r⟩

/-- The host path's burst: class 5 (R262, Table 8.4). -/
def Run.burst (k : Run) : Burst := ⟨.host, 5, k.age, k.cb, none⟩

/-- Every started request of the channel has completed. -/
def Chan.noneStarted (x : Chan) : Bool := x.reqs.all fun r => !r.started

/-- The channel moves no burst: its started requests and its pattern run have completed. -/
def Chan.quiet (x : Chan) : Bool := x.noneStarted && x.run.isNone

/-- The updates of step 8 are done on every rank of the target set. -/
def Chan.updated (x : Chan) (f : Freq) : Bool := f.locked && f.upd[0] && (f.upd[1] || !x.ranks)

/-- Step 8 of a frequency change to a set that carries training has come: its updates run (Table 8.7). -/
def Chan.stepEight (x : Chan) : Option Freq :=
  if x.st = .freqsw ∧ x.quiet then x.freq.filter fun f => x.carry f.toB else none

/-- The read check of step 8 runs, its updates done. -/
def Chan.readCheck (x : Chan) : Bool := x.stepEight.any x.updated

/-- The test engine's next burst: class 6, one burst per bank and rank of Yn:YTREG in turn (Table 8.4, Table 9.3; log 12). -/
def Chan.testBurst (x : Chan) : Burst :=
  ⟨.test, 6, x.sweptAge, x.tregBase.toNat + x.swept % (if x.ranks then 16 else 8), none⟩

/-- The sources of billet requests. -/
def queueSrcs : List Src := allQ.flatMap fun q => [.queue q, .cascade q]

/-- The oldest unissued burst of each source: of its first started request with bursts left, of the pattern run, or of the
test engine in a sweep and in the read check of a frequency change (R221, R223, R262). -/
def Chan.heads (x : Chan) : List Burst :=
  (queueSrcs.filterMap fun k => (x.reqs.find? fun r => r.src == k && r.started && decide (r.issued < 128)).map Req.burst)
  ++ ((x.run.toList.filter fun k => decide (k.issued < k.bursts)).map Run.burst)
  ++ (if x.sweeping.isSome || x.readCheck then [x.testBurst] else [])

/-! ### Choice of the next burst (R225, R230, R231) -/

/-- Urgency of a waiting request in latency mode (R230). -/
def Chan.urgency (x : Chan) (tick : Nat) (r : Req) : Nat :=
  if h : r.cls < 4 then
    let lat := (x.qos[r.cls]).latUs
    let w := (tick - r.tick) / 100
    if lat = 0 then 0 else if 4 * lat ≤ 4 * w then 3 else if 3 * lat ≤ 4 * w then 2 else if 2 * lat ≤ 4 * w then 1 else 0
  else 0

/-- The urgency of a burst; classes 4 to 6 are never urgent (R227). -/
def Chan.burstUrgency (x : Chan) (tick : Nat) (b : Burst) : Nat :=
  match b.req with
  | some r => if x.latMode then x.urgency tick r else 0
  | none => 0

/-- The burst's row is open. -/
def Chan.rowHit (x : Chan) (b : Burst) : Bool := x.rows[(x.bankOf b.cb).val] == some (x.rowOf b.cb)

/-- The source is throttled on the row and its spacing has not passed (R234). -/
def Chan.throttled (x : Chan) (tick : Nat) (b : Burst) : Bool :=
  !x.rowHit b && x.throttles.any fun t =>
    t.src == b.src && t.bank == (x.bankOf b.cb).val && t.row == x.rowOf b.cb && decide (tick < t.last + 100 * t.space)

/-- Rank of a channel billet. -/
def Chan.rankOf (x : Chan) (cb : Nat) : Fin 2 := ⟨(x.bankOf cb).val / 8, by have := (x.bankOf cb).isLt; omega⟩

/-- The rank takes no burst: a tracking update is due in its open gap (R267), or a fifth refresh would fall due (R239). -/
def Chan.rankBlocked (x : Chan) (tick : Nat) (rank : Fin 2) : Bool :=
  (match x.gap[rank] with
   | some t => decide (x.trackAt[rank] ≤ t) && x.st == .active
   | none => false)
  || x.must[rank] || (decide (4 ≤ x.owed[rank]) && decide (x.refAt[rank] ≤ tick))

/-- `a` goes before `b` (R225; R231 in latency mode). -/
def Chan.before (x : Chan) (tick : Nat) (a b : Burst) : Bool :=
  let u := x.burstUrgency tick a
  let v := x.burstUrgency tick b
  if u ≠ v then decide (v < u)
  else if x.rowHit a != x.rowHit b then x.rowHit a
  else if a.age ≠ b.age then decide (a.age < b.age)
  else if a.cls ≠ b.cls then decide (a.cls < b.cls)
  else decide (a.src.num < b.src.num)

/-- The burst that goes next among those whose DDR4 timing allows it, by the places of their sources in `ok`. -/
def Chan.pick (x : Chan) (tick : Nat) (ok : BitVec 34) : Option Burst :=
  (x.heads.filter fun b => ok.getLsbD b.src.idx && !x.throttled tick b && !x.rankBlocked tick (x.rankOf b.cb)).foldl
    (fun acc r => match acc with
      | none => some r
      | some a => if x.before tick r a then some r else some a) none

/-! ### Hot rows (R233, R234) -/

/-- One activation in the tracker. -/
def trackRow (bank row : Nat) (hot : List HotRow) : List HotRow × Nat :=
  match hot.find? (fun e => e.bank == bank && e.row == row) with
  | some e => (hot.map fun t => if t.bank = bank ∧ t.row = row then { t with count := t.count + 1 } else t, e.count + 1)
  | none =>
    if hot.length < 1024 then (hot ++ [⟨bank, row, 1⟩], 1)
    else
      let m := (hot.map (·.count)).foldl min ((hot.head?.map (·.count)).getD 0)
      let i := hot.findIdx (fun e => e.count == m)
      (hot.set i ⟨bank, row, m + 1⟩, m + 1)

def Chan.thresh (x : Chan) : Nat := max 1 x.hamThresh.toNat
def Chan.space (x : Chan) : Nat := max 1 (fld x.hamSpace 0 8)

/-- Opens the row of a burst, counting the activation; true where a throttle starts. -/
def Chan.activate (x : Chan) (tick : Nat) (a : Burst) : Chan × Bool :=
  let b := x.bankOf a.cb
  let row := x.rowOf a.cb
  let (hot, n) := trackRow b.val row x.hot
  let x := { x with
    rows := x.rows.set b.val (some row), hot := hot
    throttles := x.throttles.map fun t =>
      if t.src = a.src ∧ t.bank = b.val ∧ t.row = row then { t with last := tick } else t }
  if x.thresh ≤ n ∧ !(x.throttles.any fun t => t.bank == b.val && t.row == row) then
    ({ x with throttles := x.throttles ++ [⟨a.src, b.val, row, tick, x.space⟩], hamHits := satAdd x.hamHits 1 }, true)
  else (x, false)

/-- A burst issued: counted at its request or run; its bank's idle time starts with the PAGEIDLE of this burst, and the
rank's refresh gap is over (R220, R223, R267, R466). -/
def Chan.issue (x : Chan) (tick : Nat) (b : Burst) : Chan :=
  let k := x.bankOf b.cb
  let x := { x with
    bankAt := x.bankAt.set k.val tick, bankUse := x.bankUse.set k.val x.pageIdle
    gap := x.gap.set (x.rankOf b.cb).val none }
  match b.req with
  | some r => { x with reqs := x.reqs.map fun t => if t.age = r.age then { t with issued := t.issued + 1 } else t }
  | none =>
    if b.src = .host then { x with run := x.run.map fun k => { k with issued := k.issued + 1 } }
    else { x with swept := x.swept + 1 }

/-- The DRAM of the channel is out of self-refresh, so that the channel takes refreshes, bursts and precharges: ACTIVE, in a
drain of a channel that was ACTIVE, in a sweep and a hold, and in steps 1 and 5 to 8 of a frequency change (R220, R237, R239,
Table 8.7). -/
def Chan.awake (x : Chan) : Bool :=
  !x.noRef &&
  (match x.st with
   | .active => true
   | .drain => x.prior == .active || x.sweeping.isSome || x.heldHost
   | .freqsw => x.freq.any fun f => f.locked || (f.came == .active && !x.quiet)
   | .reset => x.sweeping.isSome
   | _ => false)

/-- One burst goes out: its row is opened and counted where it is not open (R225, R233, R234). -/
def State.playBurst (s : State) (c : YId) (b : Burst) : State :=
  let x := s.ch c
  let (y, ham) := if x.rowHit b then (x, false) else x.activate s.time.ticks b
  let s := s.setCh c (y.issue s.time.ticks b)
  if ham then s.count (Ev.yham c) 0 else s

/-- `n` bursts of the test engine. -/
def State.testBursts : Nat → State → YId → State
  | 0, s, _ => s
  | n + 1, s, c => State.testBursts n (s.playBurst c (s.ch c).testBurst) c

/-! ### Patterns over Boom copies (R255, R261) -/

/-- Patterns written over the first `slots` slots of the channel billets from `lo` to `hi` − 1. -/
def State.overwrite (s : State) (c : YId) (lo hi slots pat : Nat) (seed : Word) : State :=
  let o : Overwrite := ⟨slots, pat, seed, s.freeCtr⟩
  let lay (x : Queue) (b : Billet) : Billet :=
    match x.map.bind fun m => m.home b.num with
    | some (d, cb) => if d = c ∧ lo ≤ cb ∧ cb < hi ∧ b.boom then { b with pats := o :: b.pats } else b
    | none => b
  { s with
    queues := vmap (fun (x : Queue) => { x with billets := x.billets.map (lay x) }) s.queues
    freeCtr := s.freeCtr + 1 }

/-- Every billet of Yn:YTREG left with patterns of Carding's own, by a sweep or a read check (R255). -/
def State.scratch (s : State) (c : YId) : State :=
  let x := s.ch c
  s.overwrite c x.tregBase.toNat (x.tregBase.toNat + x.tregLen.toNat) billetSlots 4 0

/-! ### Temperature and retrain triggers (R270, R271) -/

/-- The junction temperature has moved by 20 °C or more since the last training. -/
def State.tempMoved (s : State) (c : YId) : Bool :=
  decide (80 ≤ (sint s.dp.temp - sint (s.ch c).ttrain).natAbs)

/-- A trigger of Table 9.4, handled by the channel's state (R271). -/
def State.trigger (s : State) (c : YId) : State :=
  let x := s.ch c
  let set : State := (s.setCh c { x with pend := some ⟨s.time.ticks, fld x.defermax 0 8, s.order⟩ }).nextOrder
  if x.pend.isSome || x.holdReq.isSome || x.heldHost || x.sweeping.isSome then s
  else
    match x.st with
    | .active | .selfref => set
    | .freqsw =>
      match x.freq with
      | some f => if x.carry f.toB then set else s
      | none => s
    | _ => s

/-! ### Turns between the channels (R276) -/

def otherCh : YId → YId
  | 0 => 1
  | 1 => 0

/-- The channel drains, trains or is held for training. -/
def Chan.busy (x : Chan) : Bool := x.st == .drain || x.sweeping.isSome || x.heldHost

/-- DP:LOCKDRAM is free. -/
def State.dramFree (s : State) : Bool := (s.lock .dram).holder.val == 0

/-- The deferral of a pending request has run out (R272). -/
def State.due (s : State) (p : Pend) : Bool := decide (p.tick + p.limit * msTicks ≤ s.time.ticks)

/-- What waits on a channel for a drain: true for a host hold, with its stamp. A retrain waits for the lock, and one that
falls due while a hold is pending is merged into the hold (R275). -/
def State.nextDrain (s : State) (c : YId) : Option (Bool × Pend) :=
  let x := s.ch c
  match x.holdReq with
  | some b => some (true, b)
  | none => if s.dramFree then x.pend.map fun a => (false, a) else none

/-- The stamps of what waits to begin on a channel: a sweep that waits for its turn, and what waits for a drain and may
begin one now, its drain window open or its deferral run out (R272, R276). -/
def State.contenders (s : State) (c : YId) : List Nat :=
  let x := s.ch c
  (match x.waiting with
   | some (_, o) => [o]
   | none => []) ++
  (match s.nextDrain c with
   | some (_, p) =>
     if (x.drainWindow || (x.st == .active && s.due p)) && x.freq.isNone && x.waiting.isNone then [p.order] else []
   | none => [])

/-- It is the turn of what was asked at stamp `o` on channel `c` (R276). -/
def State.turn (s : State) (c : YId) (o : Nat) : Bool :=
  !(s.ch (otherCh c)).busy && (s.contenders (otherCh c)).all fun p => decide (o < p)

/-- Carding takes DP:LOCKDRAM when it is free (R275). -/
def State.cardingLock (s : State) : State := if s.dramFree then s.takeLock .dram lockCarding else s

/-- Carding frees DP:LOCKDRAM when it holds it, no sweep runs and start-up steps 5 and 6 are over (R65, R275, R395). -/
def State.cardingFree (s : State) : State :=
  if (s.lock .dram).holder.val = lockCarding ∧ allY.all (fun c => (s.ch c).sweeping.isNone) ∧ !s.boot.carding then
    s.freeLock .dram
  else s

/-- The channel enters a drain, a sweep, a frequency change or a reset; the state before it is kept (log 64). -/
def Chan.enter (x : Chan) (st : ChState) : Chan :=
  { x with
    st := st
    prior := match x.st with
      | .drain | .freqsw | .reset => x.prior
      | p => p }

/-- The channel is out of self-refresh from here on; refreshes that it owes stay owed (R237, R239). -/
def Chan.roused (x : Chan) (was : Bool) (tick : Nat) : Chan := if was then x else x.startRefresh tick

/-- A hardware sweep begins (R256, R275). A sweep inside a stall leaves its STATE (log 25). -/
def State.beginSweep (s : State) (c : YId) (k : SweepFor) : State :=
  let s := s.cardingLock
  s.modCh c fun x =>
    let y := match k with
      | .freqsw | .keep | .drop => x
      | _ => x.enter .drain
    { (y.roused x.awake s.time.ticks) with
      sweeping := some k, swept := 0, sweptAge := s.order, waiting := none, begun := none
      rows := Vector.replicate 16 none, gap := Vector.replicate 2 none }

/-- Carding works: powered, out of the early start-up steps, not in FATAL, with REFCLK (Table 13.6). -/
def State.cardingOn (s : State) : Bool := s.powered && decide (3 ≤ s.boot.stage) && !s.dp.fatal && s.time.refclk

/-- Sweeps, drains and holds that a command or a trigger asks for begin once start-up steps 5 and 6 are over: no rule says how
a Yn:YCMD or HOLD that a path has written in step 3 meets them (DESIGN CHOICE, log 78). -/
def State.sweepsOn (s : State) : Bool := s.cardingOn && s.boot.trained

/-- Step 6 of start-up ends: step 7 begins, where the governor takes control; a start-up that its Landing test has stopped
stays in step 4, and Carding frees DP:LOCKDRAM (R59, R64, R65). -/
def State.cardingOver (s : State) : State :=
  let s := { s with boot := { s.boot with carding := false, trained := true } }
  if s.boot.halted then s.cardingFree
  else
    let s := { s with boot := { s.boot with stage := max s.boot.stage 7 } }
    let s := s.govRenew
    { s with gov := { s.gov with tick := s.time.ticks } }

/-! ### Drains (R272, R273) -/

/-- A drain starts: a retrain begun is no longer pending; a retrain pending at a hold is merged into it (R270, R275). -/
def Chan.startDrain (x : Chan) (isHold : Bool) : Chan :=
  let x := x.enter .drain
  if isHold then { x with drainHold := true, holdReq := none, pend := none, begun := none }
  else { x with drainHold := false, pend := none, begun := x.pend }

/-- A drain is withdrawn: the channel is in service again, or in self-refresh as before it (R265, R266, R275). -/
def Chan.undrain (x : Chan) (tick : Nat) : Chan :=
  match x.prior with
  | .active => { x with st := .active, idleSince := tick }
  | _ => if x.reqs.isEmpty then { x with st := .selfref } else x.rouse tick

/-- Full-side flags and EF of every queue, and what the engines may ask for, follow a change of a channel's state. -/
def State.chanChanged (s : State) : State := s.nextOrder.scaleAll

/-! ### Sweep results (Table 9.3, R257, R258) -/

/-- Widest run of passing taps, the lowest on a tie: first tap and length. -/
def widestRun (taps : List Bool) : Nat × Nat :=
  let step := fun (acc : Nat × Nat × Nat × Nat) (p : Bool) =>
    -- index, start of the running run, best start, best length
    let (i, st, bs, bl) := acc
    if p then
      let len := i + 1 - st
      if bl < len then (i + 1, st, st, len) else (i + 1, st, bs, bl)
    else (i + 1, i + 1, bs, bl)
  let (_, _, bs, bl) := taps.foldl step (0, 0, 0, 0)
  (bs, bl)

/-- The centre of a run (R257). -/
def runCentre (r : Nat × Nat) : Nat := (r.1 + (r.1 + r.2 - 1)) / 2

def gateWidth (g : Option (Nat × Nat)) : Nat :=
  match g with
  | some (a, b) => b + 1 - a
  | none => 0

/-- The step in which a lane fails, 0 where it passes; steps 2 to 7 (R258). -/
def laneFail (m : LaneMeas) : Nat :=
  if m.wl.isNone then 2
  else if gateWidth m.gate < 24 then 3
  else if (widestRun m.rd).2 < 24 then 4
  else if (widestRun m.wr).2 < 24 then 5
  else if m.eyes.all (fun e => decide (e < 24)) then 6
  else if !m.final then 7
  else 0

/-- The index of the VrefDQ code a component takes: the widest narrower eye, the middle of ties (Table 9.3 step 6). -/
def vrefPick (a b : LaneMeas) : Nat :=
  let e := (a.eyes.zip b.eyes).map fun (x, y) => min x y
  let best := e.foldl max 0
  let tied := (e.zipIdx.filter fun (v, _) => v == best).map (·.2)
  tied.getD ((tied.length - 1) / 2) 0

/-- A lane with no measurement: nothing passes. -/
def noLane : LaneMeas := ⟨.none, .none, [], [], [], [], false⟩

/-- Lane k of a rank's measurements. -/
def laneOf (l : List LaneMeas) (k : Nat) : LaneMeas := l.getD k noLane

/-- The first step in which a lane of the given ranks fails; 0 when all pass. -/
def sweepStep (m : SweepData) (two : Bool) : Nat :=
  let steps := ((List.range 10).map fun k => laneFail (laneOf m.rank0 k)) ++
    (if two then (List.range 10).map fun k => laneFail (laneOf m.rank1 k) else [])
  (steps.filter (· != 0)).foldl (fun acc n => if acc = 0 then n else min acc n) 0

/-- LFAIL of a rank: the lanes that fail in step `f`. -/
def lfailOf (l : List LaneMeas) (f : Nat) : Word :=
  (List.range 10).foldl (fun acc k => acc ||| flagAt (laneFail (laneOf l k) == f) k) 0

/-- The trained delays of a lane after a passing sweep. -/
def laneTaps (m : LaneMeas) : LaneTaps :=
  let g := match m.gate with
    | some (a, b) => (a + b) / 2
    | .none => 0
  let rd := at' (runCentre (widestRun m.rd)) 0
  let wr := if (widestRun m.wr2).2 = 0 then widestRun m.wr else widestRun m.wr2
  let gate := at' (g / 128 % 16) 8 ||| at' (g % 128) 0
  { wl := match m.wl with
      | some t => t.zeroExtend 16
      | .none => 0
    gate := gate, rd := rd, wr := at' (runCentre wr) 0, rdT := rd, fineT := at' (g % 128) 0 }

/-- The taps and codes of a set written from a passing sweep (R252, R256). -/
def Chan.takeTaps (x : Chan) (m : SweepData) : Chan :=
  let b := if x.setB then 1 else 0
  let rk (r : Nat) := if r = 0 then m.rank0 else m.rank1
  let used (r : Nat) := r = 0 || x.ranks
  { x with
    taps := x.taps.mapFinIdx fun i t _ =>
      if i / 20 = b ∧ used (i / 10 % 2) then laneTaps (laneOf (rk (i / 10 % 2)) (i % 10)) else t
    vref := x.vref.mapFinIdx fun i v _ =>
      if i / 10 = b ∧ used (i / 5 % 2) then
        at' (2 * vrefPick (laneOf (rk (i / 5 % 2)) (2 * (i % 5))) (laneOf (rk (i / 5 % 2)) (2 * (i % 5) + 1))) 0
      else v }

/-- The trained values from which drift is measured, taken from the taps in force (R270). -/
def Chan.markTrained (x : Chan) : Chan :=
  let b := if x.setB then 1 else 0
  { x with taps := x.taps.mapFinIdx fun i t _ =>
      if i / 20 = b then { t with rdT := t.rd, fineT := at' (fld t.gate 0 7) 0 } else t }

/-- The outcome of a sweep on the channel itself (R66, R256, R258, R259, R478). The channel's cause of DP:GSTS.DEGRADED ends
only with a passing sweep (Table 13.5). -/
def Chan.sweepResult (x : Chan) (k : SweepFor) (m : SweepData) (temp : Word) (tick : Nat) : Chan × Bool :=
  let two := x.ranks
  let f :=
    if k = .final then
      (if ((List.range 10).all fun i => (laneOf m.rank0 i).final)
          && (!two || (List.range 10).all fun i => (laneOf m.rank1 i).final) then 0 else 7)
    else sweepStep m two
  let x := { x with sweeping := none, heldHost := false, drainHold := false, freq := none, fstep := at' f 0 }
  if f = 0 then
    let x := if k = .final then x.markTrained else x.takeTaps m
    let x := { x.setCarry x.setB true with lfail0 := 0, lfail1 := 0, ttrain := temp, noRef := false, failed := false }
    (x.serve tick, true)
  else
    let bad (l : List LaneMeas) : Word :=
      if k = .final then (List.range 10).foldl (fun acc i => acc ||| flagAt (!(laneOf l i).final) i) 0 else lfailOf l f
    let l0 := bad m.rank0
    let l1 := if two then bad m.rank1 else 0
    ({ x.setCarry x.setB false with
        lfail0 := l0, lfail1 := l1, pend := none, st := if l0 = 0x3FF then .absent else .failed
        failed := x.failed || l0 != 0x3FF }, false)

/-! ### Channel reset (Table 13.3) -/

/-- A queue's billets when a channel's requests abort: spills stay candidates, refills lose their frames with what was
found in them (R186, Table 13.3 step 2). -/
def Queue.abortOn (x : Queue) (q : QId) (reqs : List Req) : Queue :=
  let hit (k : ReqKind) (b : Billet) : Bool := reqs.any fun r => r.q == q && r.num == b.num && !r.orphan && r.kind == k
  ({ x with billets := x.billets.map fun b =>
      if hit .spill b then { b with spilling := false }
      else if hit .refill b then { b with refill := none, frame := false }
      else b } : Queue).dropLanding ((x.billets.filter (hit .refill)).map (·.num))

/-- Billets of a queue whose home is `c` lose their Boom copies; those only in the Boom are lost (Table 13.3 step 3). -/
def Queue.loseOn (x : Queue) (c : YId) : Queue :=
  { x with billets := x.billets.map fun b =>
      if x.home b.num = some c then { b with lost := b.lost || (b.boom && !b.frame), boom := false } else b }

/-- Every request of a channel aborted, the queues' billets following. -/
def State.abortReqs (s : State) (c : YId) : State :=
  let reqs := (s.ch c).reqs
  let s := allQ.foldl (fun s q => s.modQu q fun x => x.abortOn q reqs) s
  s.modCh c fun x => { x with reqs := [] }

/-- Steps 1 to 4 of a channel reset; the sweep of step 5 waits for its turn (R411 to R413). A reset drops the mark of a
REFCLK loss, since STATE reads RESET until step 6. -/
def State.chanReset (s : State) (c : YId) (drop : Bool) : State :=
  let s := s.abortReqs c
  let s := (s.modCh c fun x => { x.enter .reset with
    pend := none, hot := [], throttles := [], rows := Vector.replicate 16 none
    owed := Vector.replicate 2 0, gap := Vector.replicate 2 none, must := Vector.replicate 2 false
    run := none, noRef := false, begun := none, resetN := x.resetN && !drop
    waiting := some (some (if drop then .drop else .keep), s.order) }).nextOrder
  let s := if drop then allQ.foldl (fun s q => (s.modQu q fun x => x.loseOn c).jumpLost q) s else s
  s.chanChanged

/-! ### A lock that leaves a path (R266, R332, Table 13.4) -/

/-- HOLD clears on a channel; one that still drains for the hold serves again (R266). -/
def Chan.clearHold (x : Chan) (tick : Nat) : Chan :=
  if !x.hold then x
  else
    let y := { x with hold := false, holdReq := none, drainHold := false, heldHost := false }
    if x.st = .drain ∧ x.drainHold ∧ !x.heldHost then y.undrain tick else y

/-- Host holds end when LOCKDRAM leaves its path holder; a held channel is swept at once, Carding taking the lock that has
just become free (R266, R275). A pattern run in progress goes on beside the sweep, by R225. -/
def State.dropHold (s : State) (c : YId) : State :=
  let held := (s.ch c).hold && (s.ch c).heldHost
  let s := s.modCh c fun x => x.clearHold s.time.ticks
  if held then s.beginSweep c .retrain else s

/-- What follows when a lock leaves a path by lease expiry or by a reset of the path (R266, R332, Table 13.4). -/
def State.lockLeaves (s : State) (l : LockId) (p : Path) : State :=
  let s := s.freeLock l
  match l with
  | .config => s.modPath p fun x => { x with staging := x.staging.filter fun e => !e.isConfig }
  | .time => s
  | .dram => (s.dropHold 0).dropHold 1

end Sys2Proof.Machine
end

