-- ==== Sys2Proof/Machine/Spill.lean ====
section
/-!
DEFINITION. The spill and refill engines of the queues: SPILL_REQUEST, SPILL_ACK, REFILL_REQUEST, REFILL_STAVE_ARRIVAL.
-/

namespace Sys2Proof.Machine

/-- The instant since which an engine's request may be handed over. -/
def sinceAt (a : Option (Nat × Nat)) : Nat := (a.map (·.2)).getD 0

/-- A request of queue `k`, eligible since `b`, goes before one of queue `q`, eligible since `a`: the longer wait, then the
lower queue number (R508). -/
def goesBefore (a : Option (Nat × Nat)) (q : QId) (b : Option (Nat × Nat)) (k : QId) : Bool :=
  decide (sinceAt b < sinceAt a) || (sinceAt b == sinceAt a && decide (k < q))

/-- Queue `q` is the one whose refill channel `c` takes next (R508). -/
def State.refillTurn (s : State) (q : QId) (c : YId) : Bool :=
  allQ.all fun k => k == q || !((s.refillReady k).any fun t => t.2.1 == c)
    || !goesBefore (s.qu q).refillSince q (s.qu k).refillSince k

/-- Queue `q` is the one whose spill channel `c` takes next: no refill waits for the channel (R508). -/
def State.spillTurn (s : State) (q : QId) (c : YId) : Bool :=
  allQ.all fun k => !((s.refillReady k).any fun t => t.2.1 == c) &&
    (k == q || !((s.spillReady k).any fun t => t.2.1 == c) || !goesBefore (s.qu q).spillSince q (s.qu k).spillSince k)

/-- The spill engine of queue `q` hands its oldest candidate over (R185, R187, R508); nothing where none may be requested. -/
def State.spillRequest (s : State) (q : QId) : State :=
  match s.spillReady q with
  | none => s
  | some (num, c, cb) =>
    if !s.running || (s.refillReady q).isSome || !s.spillTurn q c then s
    else
      let s := s.modQu q fun x => { x.setBillet num fun b => { b with spilling := true } with spillSince := none }
      (s.handOver .spill q num c cb).scale q

def execSpillRequest (q : QId) (s : State) : Host.Outcome State Fault Refusal := .next (s.spillRequest q)

/-- The request of queue `q` on channel `c` that completes next: a spill with every burst issued, every earlier request of
its source complete (R223). -/
def Chan.acked (x : Chan) (q : QId) : Option Req :=
  x.reqs.find? fun r => r.q == q && r.kind == .spill && r.started && r.issued == 128 && x.oldest r

/-- The DRAM acknowledges the last write of a spill: its frame is freed and the billet lies only in the Boom; the frame
of an orphan is freed with its data (R186, R402). -/
def State.spillAck (s : State) (c : YId) (q : QId) : State :=
  match (s.ch c).acked q with
  | none => s
  | some r =>
    let s := (s.finishReq c r).nextOrder
    let s := if r.orphan then s
      else s.modQu q fun x => (x.setBillet r.num fun b =>
        { b with spilling := false, frame := false, boom := true, pats := [] }).dropLanding [r.num]
    s.scale q

def execSpillAck (ch : YId) (q : QId) (s : State) : Host.Outcome State Fault Refusal := .next (s.spillAck ch q)

/-- The refill engine requests the next head-window billet that lies only in the Boom (R187, R508). -/
def State.refillRequest (s : State) (q : QId) : State :=
  match s.refillReady q with
  | none => s
  | some (num, c, cb) =>
    if !s.running || !s.refillTurn q c then s
    else
      let s := s.modQu q fun x =>
        { x.setBillet num fun b => { b with frame := true, refill := some 0 } with refillSince := none }
      (s.handOver .refill q num c cb).scale q

/-- The refills that channel `c` may take are requested again at once, in the order of R508 (Table 13.3, step 6). -/
def State.reask : Nat → State → YId → State
  | 0, s, _ => s
  | n + 1, s, c =>
    match allQ.find? fun q => ((s.refillReady q).any fun t => t.2.1 == c) && s.refillTurn q c with
    | some q => State.reask n (s.refillRequest q) c
    | none => s

def execRefillRequest (q : QId) (s : State) : Host.Outcome State Fault Refusal := .next (s.refillRequest q)

/-- The refill of queue `q` on channel `c` whose staves arrive: its first started one. -/
def Chan.arriving (x : Chan) (q : QId) : Option Req :=
  x.reqs.find? fun r => r.q == q && r.kind == .refill && r.started

/-- The slot that training patterns have left at slot `i` of a Boom copy (R255, R261). PGSEED repeated on every beat is the
one pattern that the spec gives whole; the others are free values. -/
def patternSlot (o : Overwrite) (i : Nat) : Slot9 :=
  if o.pat = 3 then
    BitVec.ofNat 9 ((List.range 9).map fun j => if o.seed.getLsbD ((9 * (i % 8) + j) % 16) then 2 ^ j else 0).sum
  else Config.pattern o.ix o.pat o.seed i

/-- Slot `i` of a billet as its Boom copy holds it, `v` where no pattern lies over it. -/
def Billet.boomSlot (b : Billet) (i : Nat) (v : Slot9) : Slot9 :=
  match b.pats.find? fun o => decide (i < o.slots) with
  | some o => patternSlot o i
  | none => v

/-- The slots of one stave as the Boom holds them. -/
def Queue.landStave (x : Queue) (b : Billet) (k : Nat) : Queue :=
  if b.pats.isEmpty then x
  else { x with held := x.held.mapIdx fun i v =>
    let p := (x.h + BitVec.ofNat 48 i).toNat
    if p / 32 = b.num * 256 + k then b.boomSlot (p % billetSlots) v else v }

/-- Beats that an ECC check corrects and does not. -/
def beatErrs (bad : Bool) (beats : List Ecc) : Nat × Nat :=
  if bad then (0, 4)
  else (((beats.take 4).filter (· == .single)).length, ((beats.take 4).filter (· == .double)).length)

/-- The counts of a stave's four beats (R191). -/
def State.countBeats (s : State) (c : YId) (e : Nat × Nat) : State := (s.countN (Ev.yce c) 0 e.1).countN (Ev.yue c) 0 e.2

/-- Stave `k` of billet `b` arrives with its four beats checked (R191): a stave written with inverted check bits reads as
uncorrectable on every beat (R192), unless patterns have been written over it. -/
def State.checkBeats (s : State) (c : YId) (q : QId) (b : Billet) (k : Nat) (beats : List Ecc) : State :=
  let stave := b.num * 256 + k
  let m := (s.qu q).eccOf stave
  let e := beatErrs (m.bad && !(b.pats.any fun o => decide (32 * k < o.slots))) beats
  (s.modQu q fun x => (x.landStave b k).setEcc stave { m with poison := decide (0 < e.2), ue := false }).countBeats c e

/-- One more stave of a refill has arrived. -/
def Chan.arrive (x : Chan) (r : Req) : Chan :=
  { x with reqs := x.reqs.map fun t => if t.age = r.age then { t with arrived := t.arrived + 1 } else t }

/-- A stave of an orphan refill arrives: its transfer is counted, and its beats are checked and counted, like those of any
other; its data is discarded (R186, R402; that the beats are counted is a DESIGN CHOICE, log 62). -/
def State.orphanArrival (s : State) (c : YId) (q : QId) (r : Req) (beats : List Ecc) : State :=
  if r.issued ≤ r.arrived / 2 || (r.arrived == 255 && !(s.ch c).oldest r) then s
  else
    let s := (s.demand 1).countBeats c (beatErrs (r.ue.contains r.arrived) beats)
    if r.arrived < 255 then s.modCh c fun x => x.arrive r else (s.finishReq c r).scale q

/-- A stave of a refill arrives in the Landing (R188); the last one completes the refill, after every earlier request of
its source (R223). -/
def State.staveArrival (s : State) (c : YId) (q : QId) (beats : List Ecc) : State :=
  match (s.ch c).arriving q with
  | none => s
  | some r =>
    if r.orphan then s.orphanArrival c q r beats
    else
      match (s.qu q).billets.find? (fun b => b.num == r.num) with
      | none => s
      | some b =>
        match b.refill with
        | none => s
        | some k =>
          if r.issued ≤ k / 2 || (k == 255 && !(s.ch c).oldest r) then s
          else
            let s := ((s.demand 1).checkBeats c q b k beats).modCh c fun x => x.arrive r
            if k + 1 < 256 then (s.modQu q fun x => x.setBillet r.num fun b => { b with refill := some (k + 1) }).scale q
            else
              let s := s.finishReq c r
              (s.modQu q fun x => (x.setBillet r.num fun b => { b with refill := none }).freePassed).scale q

def execRefillStaveArrival (ch : YId) (q : QId) (beats : List Ecc) (s : State) : Host.Outcome State Fault Refusal :=
  .next (s.staveArrival ch q beats)

end Sys2Proof.Machine
end

