-- ==== Sys2Proof/Machine/Yarder.lean ====
section
/-!
DEFINITION. The Yarder's own events: request starts, burst issue with hot rows and the Landing reads of a spill, tracker
windows, token buckets, refresh, self-refresh entry and idle precharge.
-/

namespace Sys2Proof.Machine

/-- The next request of a source to start: its oldest unstarted one (R223). -/
def Chan.toStart (x : Chan) (k : Src) : Option Req := x.reqs.find? fun r => r.src == k && !r.started

/-- The class is regulated on the channel (R228). -/
def Chan.regulated (x : Chan) (cls : Nat) : Bool :=
  if h : cls < 4 then !x.latMode && (x.qos[cls]).ratePerMs != 0 else false

/-- The token bucket lets a request of the class start (R228). -/
def Chan.tokenOk (x : Chan) (cls : Nat) : Bool :=
  !x.regulated cls || (if h : cls < 4 then decide (1000 ≤ x.bucket[cls]) else true)

def Chan.takeToken (x : Chan) (cls : Nat) : Chan :=
  if x.regulated cls then (if h : cls < 4 then { x with bucket := x.bucket.set cls (x.bucket[cls] - 1000) } else x) else x

/-- A handed-over request starts (R224). -/
def State.startRequest (s : State) (c : YId) (k : Src) : State :=
  let x := s.ch c
  match x.toStart k with
  | none => s
  | some r =>
    if s.running && s.time.refclk && x.serving && x.tokenOk r.cls then
      s.setCh c { (x.takeToken r.cls) with reqs := x.reqs.map fun t => if t.age = r.age then { t with started := true } else t }
    else s

/-- The engine of queue `q`, or with `cas` its cascade engine, is the source (Table 8.4). -/
def srcOf (q : QId) (cas : Bool) : Src := if cas then .cascade q else .queue q

def execBilletRequestStart (ch : YId) (q : QId) (s : State) (cas : Bool := false) : Host.Outcome State Fault Refusal :=
  .next (s.startRequest ch (srcOf q cas))

/-- An orphan spill's read of one stave: an error found in it before is found again (R190). -/
def State.orphanRead (s : State) (r : Req) (stave : Nat) (e : Ecc) : State :=
  if r.ue.contains stave || e == .double then s.count Ev.lue 0
  else if e = .single then s.count Ev.lce 0
  else s

/-- The two staves that burst `j` of a spill reads; a poisoned one is written with inverted check bits (R190, R192, R219). -/
def State.spillRead (s : State) (r : Req) (ecc : List Ecc) : State :=
  if r.orphan then
    (s.orphanRead r (2 * r.issued) (ecc.getD 0 .clean)).orphanRead r (2 * r.issued + 1) (ecc.getD 1 .clean)
  else
    let st := r.num * 256 + 2 * r.issued
    let mark (st : Nat) (x : Queue) : Queue := x.setEcc st { x.eccOf st with bad := (x.eccOf st).poison }
    ((s.readStave r.q st (ecc.getD 0 .clean)).readStave r.q (st + 1) (ecc.getD 1 .clean)).modQu r.q fun x =>
      mark (st + 1) (mark st x)

/-- One burst issued at a command slot (R225, R231, R233, R234). -/
def State.burstIssue (s : State) (c : YId) (ok : BitVec 34) (ecc : List Ecc) : State :=
  let x := s.ch c
  if !(s.running && s.time.refclk && x.awake) then s
  else
    match x.pick s.time.ticks ok with
    | none => s
    | some b =>
      let s := s.playBurst c b
      match b.req with
      | some r => if r.kind = .spill then (s.demand 2).spillRead r ecc else s
      | none => s

def execBurstIssue (ch : YId) (ok : BitVec 34) (ecc : List Ecc) (s : State) : Host.Outcome State Fault Refusal :=
  .next (s.burstIssue ch ok ecc)

/-- A tracker window of 64 ms ends: entries and throttles go (R233, R234, R236). -/
def State.trackerEnd (s : State) (c : YId) : State :=
  let x := s.ch c
  if s.time.refclk && decide (x.trackerTick + 6400000 ≤ s.time.ticks) then
    s.setCh c { x with hot := [], throttles := [], trackerTick := x.trackerTick + 6400000 }
  else s

def execTrackerWindowEnd (ch : YId) (s : State) : Host.Outcome State Fault Refusal := .next (s.trackerEnd ch)

/-- A token bucket tick every 100 REFCLK periods (R228). -/
def State.bucketTick (s : State) (c : YId) : State :=
  let x := s.ch c
  if s.time.refclk && decide (x.bucketTick + 100 ≤ s.time.ticks) then
    s.setCh c { x.tickBuckets with bucketTick := x.bucketTick + 100 }
  else s

def execTokenBucketTick (ch : YId) (s : State) : Host.Outcome State Fault Refusal := .next (s.bucketTick ch)

/-- Closes the rows of a rank. -/
def Chan.closeRank (x : Chan) (rank : Bool) : Chan :=
  { x with rows := x.rows.mapFinIdx fun i r _ => if i / 8 = (if rank then 1 else 0) then none else r }

/-- Index of a rank. -/
def rankIdx (rank : Bool) : Fin 2 := if rank then 1 else 0

/-- A burst waits for the channel billet's rank. -/
def Chan.rankWaits (x : Chan) (rank : Bool) : Bool := x.heads.any fun b => x.rankOf b.cb == rankIdx rank

/-- The instant after `refAt` at which the rank's next refresh falls due. Rank 1 stays half an interval from rank 0 (R237);
the interval is the one in force when the refresh is scheduled (R238). -/
def Chan.nextRef (x : Chan) (rank : Bool) : Nat :=
  let i := x.refInt
  if rank then
    let c := x.refAt[0] + i / 2
    if x.refAt[1] + i < c then c - i else if x.refAt[1] < c then c else c + i
  else x.refAt[0] + i

/-- The rank is refreshed, its rows closed first; its gap opens. A channel that owed refreshes is not idle before (R240). -/
def Chan.refresh (x : Chan) (rank : Bool) (tick : Nat) (owed : Int) : Chan :=
  let i := rankIdx rank
  { (x.closeRank rank) with
    owed := x.owed.set i.val owed, gap := x.gap.set i.val (some tick)
    idleSince := if 0 < x.owed[i] ∧ owed ≤ 0 then tick else x.idleSince }

/-- A rank's refresh (R237 to R239). `issue`: one falls due, and it is issued with what is owed. `postpone`: it falls due and
is postponed: the rank is ahead, or bursts wait and fewer than four are owed; step 1 of a frequency change postpones none (Table
8.7). `early`: one is issued between due times: an owed
one, or ahead of time while the rank is idle, up to four. -/
def Chan.takeRefresh (x : Chan) (rank : Bool) (kind : RefKind) (tick : Nat) : Chan :=
  let i := rankIdx rank
  let n := x.owed[i]
  match kind with
  | .issue =>
    if x.refAt[i] ≤ tick then { x.refresh rank tick (min 0 n) with refAt := x.refAt.set i.val (x.nextRef rank) } else x
  | .postpone =>
    if x.refAt[i] ≤ tick ∧ (n < 0 ∨ (x.rankWaits rank ∧ n < 4 ∧ x.st ≠ .freqsw)) then
      { x with owed := x.owed.set i.val (n + 1), refAt := x.refAt.set i.val (x.nextRef rank) }
    else x
  | .early => if 0 < n ∨ (!x.rankWaits rank ∧ -4 < n) then x.refresh rank tick (n - 1) else x

def State.refreshDue (s : State) (c : YId) (rank : Bool) (kind : RefKind) : State :=
  let x := s.ch c
  if s.running && s.time.refclk && x.awake && x.hasRank rank then s.setCh c (x.takeRefresh rank kind s.time.ticks) else s

def execRefreshDue (ch : YId) (rank : Bool) (kind : RefKind) (s : State) : Host.Outcome State Fault Refusal :=
  .next (s.refreshDue ch rank kind)

/-- YnTHERM# as sampled through its synchronizer (R238). -/
def execThermalChange (ch : YId) (low : Bool) (s : State) : Host.Outcome State Fault Refusal :=
  .next (if s.powered && s.time.refclk then s.modCh ch fun x => { x with therm := low } else s)

/-- Step 6 of start-up with BOOTTRN = 0 places a channel in self-refresh, untrained; with the second one the step ends
(Table 3.1). A start-up that its Landing test has stopped frees DP:LOCKDRAM there (R65). -/
def State.bootRest (s : State) (c : YId) : State :=
  let b := s.boot
  let r := b.rested ||| (1#2 <<< c.val)
  if r = 3 then ({ s with boot := { b with rested := r } }).cardingOver
  else { s with boot := { b with rested := r } }

/-- A channel idle for SRIDLE enters self-refresh (R240, R242); in step 6 of start-up with BOOTTRN = 0 each channel does. -/
def State.selfRefresh (s : State) (c : YId) : State :=
  let x := s.ch c
  if s.cardingOn && s.boot.carding && !s.boot.straps.boottrn then s.bootRest c
  else if s.running && s.time.refclk && x.st == .active && !x.noRef && x.idle && x.tracked && x.srIdle != 0
      && decide (x.idleSince + 100 * x.srIdle ≤ s.time.ticks) then
    s.setCh c x.rested
  else s

def execSelfRefreshEntry (ch : YId) (s : State) : Host.Outcome State Fault Refusal := .next (s.selfRefresh ch)

/-- A burst that waits at the head of its source targets the bank's open row. -/
def Chan.rowWanted (x : Chan) (bank : Fin 16) : Bool := x.heads.any fun b => x.bankOf b.cb == bank && x.rowHit b

/-- Data rate of the set in force in MT/s (Table 8.5). -/
def Chan.rate (x : Chan) : Nat :=
  match fld (x.tword x.setB 0) 0 3 with
  | 0 => 1600
  | 1 => 1866
  | 2 => 2133
  | 3 => 2400
  | 4 => 2666
  | 5 => 2933
  | _ => 3200

/-- The bank has had no burst for the PAGEIDLE that its last burst took: n DRAM clocks of 2000 / RATE ns, against REFCLK
periods of 10 ns (log 12). -/
def Chan.pageOver (x : Chan) (bank : Fin 16) (tick : Nat) : Bool :=
  decide (x.bankUse[bank] * 200 < (tick + 1 - x.bankAt[bank]) * x.rate)

/-- A bank idle for PAGEIDLE is precharged; with PAGEIDLE = 0 as soon as no waiting burst targets its row (R220). -/
def State.precharge (s : State) (c : YId) (bank : Fin 16) : State :=
  let x := s.ch c
  if s.running && s.time.refclk && x.awake
      && (if x.bankUse[bank] = 0 then !x.rowWanted bank else x.pageOver bank s.time.ticks) then
    s.setCh c { x with rows := x.rows.set bank.val none }
  else s

def execPageidlePrecharge (ch : YId) (bank : Fin 16) (s : State) : Host.Outcome State Fault Refusal :=
  .next (s.precharge ch bank)

end Sys2Proof.Machine
end

