-- ==== Sys2Proof/Machine/Carding.lean ====
section
/-!
DEFINITION. Carding: drains, sweeps, frequency changes, tracking, ZQ calibration, pattern runs, host training, and the
effects of Yn:YCMD and of the YnPHY commands on a channel.
-/

namespace Sys2Proof.Machine

/-! ### Drains -/

/-- A pending retrain or hold starts draining at a drain window (R272, R273, R275, R276). A channel that rests in
self-refresh untrained has nothing to drain and is held at once (log 27). -/
def State.drainWindow (s : State) (c : YId) : State :=
  match s.nextDrain c with
  | none => s
  | some (isHold, p) =>
    if s.sweepsOn && s.running && (s.ch c).drainWindow && (s.ch c).freq.isNone && (s.ch c).waiting.isNone && s.turn c p.order
    then (s.modCh c fun x =>
        let now := isHold && !(x.st == .active || x.st == .selfref)
        { (x.startDrain isHold).roused (!now) s.time.ticks with heldHost := now }).chanChanged
    else s

def execDrainWindow (ch : YId) (s : State) : Host.Outcome State Fault Refusal := .next (s.drainWindow ch)

/-- DEFERMAX expires with no drain window: the channel is drained by force (R272). -/
def State.forcedDrain (s : State) (c : YId) : State :=
  match s.nextDrain c with
  | none => s
  | some (isHold, p) =>
    if s.sweepsOn && s.running && (s.ch c).st == .active && !(s.ch c).drainWindow && (s.ch c).waiting.isNone && s.due p
        && s.turn c p.order
    then ((s.modCh c fun x => x.startDrain isHold).count (Ev.yfdrain c) 0).chanChanged
    else s

def execForcedDrain (ch : YId) (s : State) : Host.Outcome State Fault Refusal := .next (s.forcedDrain ch)

/-- The last started request of a draining channel completes: the hold or the sweep begins (R273). A retrain whose lock a path
has taken during the drain does not begin: it stays pending, and the channel is in service until the lock is free (R275, R431;
log 65). -/
def State.drainDone (s : State) (c : YId) : State :=
  let x := s.ch c
  if !(s.cardingOn && s.running && x.st == .drain && x.sweeping.isNone && x.waiting.isNone && !x.heldHost && x.quiet) then s
  else if x.drainHold then
    s.setCh c { (x.roused x.awake s.time.ticks) with
      heldHost := true, rows := Vector.replicate 16 none, gap := Vector.replicate 2 none }
  else if s.dramFree then s.beginSweep c .retrain
  else (s.setCh c { (x.undrain s.time.ticks) with pend := x.begun, begun := none }).chanChanged

def execDrainDone (ch : YId) (s : State) : Host.Outcome State Fault Refusal := .next (s.drainDone ch)

/-! ### Sweeps -/

/-- A waiting sweep may begin: its turn has come, and what its kind asks for holds (R245, R275, R276). -/
def State.sweepReady (s : State) (c : YId) (k : SweepFor) (o : Nat) : Bool :=
  let x := s.ch c
  (if k = .warm then s.cardingOn else s.sweepsOn) && s.turn c o && x.sweeping.isNone &&
  (match k with
   | .freqsw => x.quiet
   | .train => x.freq.isNone
   | _ => true)

/-- Step 4 of a frequency change completes: the target set is in force, the PHY clock runs, and a channel in the stall leaves
self-refresh (Table 8.7, steps 4 and 5; R247). -/
def Chan.lockSet (x : Chan) (f : Freq) (tick : Nat) : Chan :=
  if f.locked then x
  else { (if x.st = .freqsw then x.startRefresh tick else x) with setB := f.toB, freq := some { f with locked := true } }

/-- A deferred sweep begins (R276). At step 4 of a frequency change the target set comes into force first (Table 8.7). -/
def State.sweepStart (s : State) (c : YId) : State :=
  match (s.ch c).waiting with
  | some (some k, o) =>
    if !s.sweepReady c k o then s
    else
      let s := match k, (s.ch c).freq with
        | .freqsw, some f => s.modCh c fun x => x.lockSet f s.time.ticks
        | _, _ => s.modCh c fun x => { x with resetN := true }
      (s.beginSweep c k).chanChanged
  | _ => s

/-- Channel billets that one round of the test engine visits: one per bank and rank. -/
def Chan.testRound (x : Chan) : Nat := if x.ranks then 16 else 8

/-- The sweep has come to its write training, steps 5 to 7, and has left its patterns (R255, Table 9.3). -/
def Chan.wrote (x : Chan) : Bool := x.fstep == 0 || decide (5 ≤ x.fstep.toNat)

/-- A sweep ends with the given measurements (R66, R255, R258, R259, R478). Its write training has issued at least one burst
per bank and rank, which the tracker counts (R233, Table 9.3 step 5). At start-up the sweep of Y1 follows that of Y0; after a
channel reset, refills are requested again (Table 13.3, step 6). Carding frees the lock it took for the sweep, but with
start-up complete or stopped: before that it holds it to step 8 (R275, R395, log 14). -/
def State.sweepDone (s : State) (c : YId) (m : SweepData) : State :=
  match (s.ch c).sweeping with
  | none => s
  | some k =>
    if !s.cardingOn then s
    else
      let (x, pass) := (s.ch c).sweepResult k m s.dp.temp s.time.ticks
      let s := if x.wrote then s.testBursts ((s.ch c).testRound - (s.ch c).swept) c else s
      let x := { x with hot := (s.ch c).hot, throttles := (s.ch c).throttles, hamHits := (s.ch c).hamHits }
      let s := s.setCh c x
      let s := if x.wrote then s.scratch c else s
      let s := if pass then s.count (Ev.ytrain c) 0 else s
      let s := if k ≠ .boot then s else if c = 0 then s.beginSweep 1 .boot else s.cardingOver
      let s := if pass && (k == .keep || k == .drop) then (s.chanChanged).reask 8 c else s
      (if s.boot.stage = 8 ∨ s.boot.halted then s.cardingFree else s).chanChanged

/-! ### Tracking, ZQ (R267 to R269) -/

/-- A tap moved by at most one, kept inside 0 to 127 (log 26). -/
def moveTap (n : Nat) (d : Int) : Nat :=
  if d < 0 then n - 1 else if 0 < d then min 127 (n + 1) else n

/-- One lane's update. -/
def LaneTaps.track (t : LaneTaps) (m : TrackMove) : LaneTaps :=
  { t with rd := at' (moveTap (fld t.rd 0 7) m.rd) 0
           gate := at' (fld t.gate 8 4) 8 ||| at' (moveTap (fld t.gate 0 7) m.gate) 0 }

/-- A lane has moved 8 taps or more from its trained values (Table 9.4). -/
def LaneTaps.drifted (t : LaneTaps) : Bool :=
  decide (8 ≤ ((fld t.rd 0 7 : Int) - fld t.rdT 0 7).natAbs) || decide (8 ≤ ((fld t.gate 0 7 : Int) - fld t.fineT 0 7).natAbs)

/-- Index of a lane's delays (Table 9.2). -/
def tapIdx (setB rank : Bool) (lane : Nat) : Nat :=
  (if setB then 20 else 0) + (if rank then 10 else 0) + min 9 lane

/-- One tracking update of a rank of the set in force (R267): each lane moved. -/
def Chan.track (x : Chan) (rank : Bool) (moves : List TrackMove) : Chan :=
  let lo := tapIdx x.setB rank 0
  { x with taps := x.taps.mapFinIdx fun k t _ =>
      if lo ≤ k ∧ k < lo + 10 then t.track (moves.getD (k - lo) ⟨0, 0⟩) else t }

/-- The lanes of a rank of the set in force that have drifted (Table 9.4). -/
def Chan.drifts (x : Chan) (rank : Bool) : List Nat :=
  (List.range 10).filter fun k => (x.taps.getD (tapIdx x.setB rank k) ⟨0, 0, 0, 0, 0, 0⟩).drifted

/-- A tracking update done on a rank: a drift trigger may arise, counted where a lane drifts newly (R267, R270). -/
def State.trackRank (s : State) (c : YId) (rank : Bool) (moves : List TrackMove) : State :=
  let x := s.ch c
  let y := x.track rank moves
  let s := s.setCh c y
  let s := if (y.drifts rank).any fun k => !(x.drifts rank).contains k then s.count (Ev.ydrift c) 0 else s
  if (y.drifts rank).isEmpty then s else s.trigger c

/-- A rank's tracking update may run now: the one that goes before any request, or one in the gap of a refresh issued since
an update fell due (R267, R268, R427). -/
def Chan.trackDue (x : Chan) (rank : Bool) : Bool :=
  let i := rankIdx rank
  x.st == .active && (x.must[i] ||
    (match x.gap[i] with
     | some t => decide (x.trackAt[i] ≤ t)
     | none => false))

/-- A tracking update of a rank: in service, one every 1 ms (R267); in step 8 of a frequency change, one on each rank and no
more (Table 8.7, R250). The next in service falls due 1 ms after this one fell due; after REFCLK's return, 1 ms from here (log 66). -/
def State.dqsTracking (s : State) (c : YId) (rank : Bool) (moves : List TrackMove) : State :=
  let i := rankIdx rank
  if !(s.cardingOn && !(s.ch c).noRef && (s.ch c).sweeping.isNone) then s
  else
    match (s.ch c).stepEight with
    | some f =>
      if f.upd[i] then s
      else
        let s := s.modCh c fun x =>
          { x.lockSet f s.time.ticks with freq := some { f with locked := true, upd := f.upd.set i.val true } }
        if (s.ch c).hasRank rank then s.trackRank c rank moves else s
    | none =>
      if !((s.ch c).hasRank rank && (s.ch c).trackDue rank) then s
      else
        (s.modCh c fun x => { x with
          must := x.must.set i.val false
          trackAt := x.trackAt.set i.val ((if x.must[i] then s.time.ticks else x.trackAt[i]) + msTicks) }).trackRank c rank moves

/-- ZQCS on each rank and the PHY's own recalibration every 128 ms; the ZQCS is skipped in self-refresh (R269). -/
def execZqCalibration (ch : YId) (s : State) : Host.Outcome State Fault Refusal :=
  .next (
    let x := s.ch ch
    if s.cardingOn && decide (x.zqTick + 128 * msTicks ≤ s.time.ticks) then s.setCh ch { x with zqTick := x.zqTick + 128 * msTicks } else s)

/-! ### Frequency change (R244 to R248, R277, R469) -/

/-- The ranges of Table 8.5 by word: the field's low bit, its width, its least and greatest value. -/
def tsetRanges : List (Fin 15 × List (Nat × Nat × Nat × Nat)) :=
  [ (0, [(0, 3, 0, 6)]), (1, [(0, 5, 9, 24), (8, 5, 9, 20)]), (2, [(0, 6, 8, 32), (8, 6, 8, 32)]),
    (3, [(0, 7, 20, 80), (8, 7, 28, 112)]), (4, [(0, 5, 4, 16), (8, 5, 4, 16)]), (5, [(0, 7, 16, 64), (8, 4, 5, 12)]),
    (6, [(0, 6, 10, 32), (8, 5, 4, 16)]), (7, [(0, 4, 2, 8), (8, 5, 4, 16)]) ] ++
  [ (8, [(0, 10, 160, 1023)]), (9, [(0, 11, 170, 1100)]), (10, [(0, 6, 24, 40), (8, 5, 8, 16)]),
    (11, [(0, 5, 3, 16), (8, 5, 4, 16)]), (12, [(0, 11, 597, 1024)]), (13, [(0, 9, 64, 256)]), (14, [(0, 11, 256, 1024)]) ]

/-- Every field of a set is within its range and its tXS is long enough (R469). -/
def Chan.setInRange (x : Chan) (b : Bool) : Bool :=
  (tsetRanges.all fun (i, fs) => fs.all fun (lo, n, mn, mx) =>
    let v := fld (x.tword b i) lo n
    decide (mn ≤ v ∧ v ≤ mx))
  && decide (fld (x.tword b 8) 0 10 + 10 ≤ fld (x.tword b 9) 0 11)

/-- The reason a FREQSW is refused, none where it is accepted (R244, R277, R469). A TRAIN that still waits for its turn counts
as running, which R244 does not say (DESIGN CHOICE, log 79). -/
def State.freqswRefusal (s : State) (c : YId) : Option Nat :=
  let x := s.ch c
  let b := !x.setB
  if x.freq.isSome || x.sweeping.isSome || x.waiting.isSome || x.st == .drain || x.st == .reset || x.st == .freqsw then
    some Reason.state
  else if !x.carry b && (s.ch (otherCh c)).busy then some Reason.state
  else if (x.st == .active || x.st == .selfref || x.st == .failed)
      && (fld (x.tword b 0) 4 2 != fld (x.tword x.setB 0) 4 2) then some Reason.general
  else if !x.setInRange b then some Reason.range
  else none

/-- The voted words of both timing sets of a channel. -/
def setRefs (c : YId) : List VRef := (List.finRange 15).flatMap fun i => [.tset c false i, .tset c true i]

/-- Yn:YCMD.FREQSW (R244, R245, R247). Carding reads both timing sets, whose copies are compared (R379); where that enters
FATAL, the write is one that FATAL meets (R424). -/
def State.freqsw (s : State) (acc : Access) (c : YId) : State :=
  let s := s.compareAll (setRefs c)
  if s.dp.fatal then s.reject acc Ev.lockrej 0 Reason.state
  else
  match s.freqswRefusal c with
  | some r => s.reject acc Ev.ycmdrej 0 r
  | none =>
    let x := s.ch c
    let f : Freq := ⟨!x.setB, x.st, s.order, false, Vector.replicate 2 false, 0⟩
    if x.st = .active ∨ x.st = .selfref then
      let x := { x.enter .freqsw with
        freq := some f, swept := 0, sweptAge := s.order, must := Vector.replicate 2 false, owed := vmap (min 0) x.owed }
      let x := if x.carry f.toB then x else { x with waiting := some (some .freqsw, s.order) }
      (s.setCh c x).nextOrder.chanChanged
    else s.setCh c { x with freq := some f }

/-- REFCLK edges of step 2 of a frequency change, 1 µs, where the channel goes through it, and of steps 3 and 4, 700 µs, by
their bounds (Table 8.7, R247). -/
def Freq.stepTwo (f : Freq) : Nat := if f.came = .active then 100 else 0
def Freq.stepFour (f : Freq) : Nat := f.stepTwo + 70000

/-- The PHY clock of the channel runs: a frequency change stops it in its steps 3 and 4 (R369, Table 8.7, Table 13.6; log
75). -/
def Chan.phyOn (x : Chan) : Bool :=
  x.phyClk && (match x.freq with
    | some f => f.locked || !x.quiet || decide (f.edges < f.stepTwo)
    | none => true)

/-- One REFCLK edge of a frequency change whose started bursts are done: step 4 completes at its bound, where no row of a later
step has come before (Table 8.7; log 75). -/
def Chan.freqEdge (tick : Nat) (x : Chan) : Chan :=
  match x.freq with
  | some f =>
    if f.locked || !x.quiet || x.noRef then x
    else
      let f := { f with edges := f.edges + 1 }
      if f.edges < f.stepFour then { x with freq := some f } else x.lockSet f tick
  | none => x

/-- A deferral that starts now (R271). -/
def Pend.restart (p : Pend) (t : Nat) : Pend := ⟨t, p.limit, p.order⟩

/-- Bursts of the read check of step 8: one per byte lane (Table 8.7). -/
def readCheckBursts : Nat := 10

/-- A frequency change completes with the target set in force and, where step 8 was an update, its read check done (Table
8.7, R233, R247, R255); the deferral of a retrain that a trigger asked for during the change starts now (R271). Table 8.7 gives
a read check that finds a mismatch no outcome: the change completes whatever it finds (DESIGN CHOICE, log 79). -/
def State.freqswComplete (s : State) (c : YId) : State :=
  let x := s.ch c
  match x.freq with
  | none => s
  | some f =>
    if !(s.cardingOn && s.running && x.sweeping.isNone && x.quiet && !x.noRef) then s
    else if x.st = .freqsw then
      (if x.carry f.toB && x.updated f then
        let s := s.testBursts (readCheckBursts - x.swept) c
        let x := { s.ch c with freq := none, rows := Vector.replicate 16 none
                               pend := x.pend.map fun (p : Pend) => if f.order < p.order then p.restart s.time.ticks else p }
        ((s.scratch c).setCh c (x.serve s.time.ticks)).chanChanged
      else s)
    else s.setCh c { x with setB := f.toB, freq := none }

/-! ### Yn:YCMD (R411, R467, R468) -/

/-- Yn:YCMD.TRAIN (R271, R275, R276, R468). -/
def State.train (s : State) (c : YId) : State :=
  let x := s.ch c
  if x.st = .untrained ∨ x.st = .absent ∨ x.st = .failed then
    (if x.sweeping.isSome || x.waiting.isSome || x.holdReq.isSome then s
     else if x.freq.isNone && s.sweepsOn && s.turn c s.order then (s.beginSweep c .train).nextOrder.chanChanged
     else (s.setCh c { x with waiting := some (some .train, s.order) }).nextOrder)
  else s.trigger c

/-- Yn:YCMD.RESETKEEP and RESETDROP (R411). -/
def State.ychanReset (s : State) (acc : Access) (c : YId) (drop : Bool) : State :=
  let x := s.ch c
  if x.st == .freqsw || x.freq.isSome || x.st == .drain || x.st == .reset || x.heldHost || x.sweeping.isSome then
    s.reject acc Ev.ycmdrej 0 Reason.state
  else s.chanReset c drop

/-- A write of Yn:YCMD (R467). -/
def State.ycmd (s : State) (acc : Access) (c : YId) (v : Word) : State :=
  match fld v 0 4 with
  | 0 => s
  | 1 => s.train c
  | 2 => s.freqsw acc c
  | 4 => s.ychanReset acc c false
  | 8 => s.ychanReset acc c true
  | _ => s.reject acc Ev.ycmdrej 0 Reason.general

/-! ### Host training and the firmware helpers (R261 to R265, R477, R479) -/

/-- HTCTL.HOLD written to 1 (R263). -/
def State.holdSet (s : State) (c : YId) : State :=
  let x := s.ch c
  if x.hold then s
  else (s.setCh c { x with hold := true, holdReq := some ⟨s.time.ticks, fld x.defermax 0 8, s.order⟩ }).nextOrder

/-- HTCTL.HOLD written to 0 (R265). A pattern run in progress goes on beside the final check, by R225. -/
def State.holdClear (s : State) (c : YId) : State :=
  let x := s.ch c
  if !x.hold then s
  else if x.heldHost then
    s.setCh c { x with hold := false, heldHost := false, drainHold := false, sweeping := some .final, swept := 0, sweptAge := s.order }
  else if x.st = .drain ∧ x.drainHold then (s.setCh c (x.clearHold s.time.ticks)).chanChanged
  else s.setCh c { x with hold := false, holdReq := none }

def State.htctl (s : State) (c : YId) (v : Word) : State := if bit v 0 then s.holdSet c else s.holdClear c

/-- The set, rank and lane that TAPSEL names. -/
def Chan.selSet (x : Chan) : Bool := bit x.tapsel 0
def Chan.selRank (x : Chan) : Bool := bit x.tapsel 4
def Chan.selLane (x : Chan) : Nat := min 9 (fld x.tapsel 8 4)
def Chan.selTap (x : Chan) : Nat := tapIdx x.selSet x.selRank x.selLane
def Chan.selVref (x : Chan) : Nat := (if x.selSet then 10 else 0) + (if x.selRank then 5 else 0) + x.selLane / 2

def noTaps : LaneTaps := ⟨0, 0, 0, 0, 0, 0⟩

/-- A tap register as TAPSEL shows it (R252). -/
def Chan.readTap (x : Chan) (r : TapReg) : Word :=
  let t := x.taps.getD x.selTap noTaps
  match r with
  | .wldly => t.wl
  | .gate => t.gate
  | .rddly => t.rd
  | .wrdly => t.wr
  | .vref => x.vref.getD x.selVref 0

def Chan.writeTap (x : Chan) (r : TapReg) (v : Word) : Chan :=
  let put (f : LaneTaps → LaneTaps) : Chan := { x with taps := x.taps.setIfInBounds x.selTap (f (x.taps.getD x.selTap noTaps)) }
  match r with
  | .wldly => put fun t => { t with wl := v &&& 0x1FF }
  | .gate => put fun t => { t with gate := v &&& 0xF7F }
  | .rddly => put fun t => { t with rd := v &&& 0x7F }
  | .wrdly => put fun t => { t with wr := v &&& 0xFF }
  | .vref => { x with vref := x.vref.setIfInBounds x.selVref (v &&& 0x3F) }

/-- A write to a trained delay (R264, R477). -/
def State.tapWrite (s : State) (acc : Access) (c : YId) (r : TapReg) (v : Word) : State :=
  let x := s.ch c
  if !(x.heldHost && x.selSet == x.setB) then s.reject acc Ev.ycmdrej 0 Reason.state
  else if r = .vref ∧ 0x32 < fld v 0 6 then s.reject acc Ev.ycmdrej 0 Reason.range
  else s.setCh c (x.writeTap r v)

/-- The run that PGCTL and PGSEED ask for: NBURST of 0 is taken as 1 and above 128 as 128, a MODE of 0b11 as 0b00, and a
PRBS seed of 0 as 1 (R261, R479, Table 9.5). -/
def Chan.runAsked (x : Chan) (age : Nat) : Run :=
  let n := min 128 (max 1 (fld x.pgctlL 8 8))
  let pat := fld x.pgctlL 0 2
  { cb := x.tregBase.toNat + x.pgctlH.toNat
    writes := if fld x.pgctlL 2 2 = 1 then 0 else n
    reads := if fld x.pgctlL 2 2 = 2 then 0 else n
    issued := 0, age := age, pat := pat
    seed := if pat < 2 ∧ x.pgseed = 0 then 1 else x.pgseed }

/-- PGCMD.RUN (R261, R262, R479). -/
def State.patternRun (s : State) (acc : Access) (c : YId) : State :=
  let x := s.ch c
  if x.run.isSome || !((x.st == .active && !x.noRef) || x.heldHost) then s.reject acc Ev.ycmdrej 0 Reason.state
  else if x.tregLen.toNat ≤ x.pgctlH.toNat then s.reject acc Ev.ycmdrej 0 Reason.range
  else (s.setCh c { x with pgDone := false, run := some (x.runAsked s.order), cmppass := 0x3FF, cmperr := 0 }).nextOrder

/-- CMPPASS and CMPERR of the beats that a run has read, from the lanes that mismatch on each (Table 9.5). -/
def Chan.compared (x : Chan) (beats : List (BitVec 10)) : Chan :=
  { x with
    cmppass := (~~~(beats.foldl (· ||| ·) 0#10)).zeroExtend 16
    cmperr := at' (min 0xFFFF (beats.filter (· != 0)).length) 0 }

/-- A pattern run completes once its bursts are issued: `mism` gives the lanes that mismatch on each beat read, and what it
wrote stays in its billet (R255, R261, R479). -/
def State.patternDone (s : State) (c : YId) (mism : List (BitVec 10)) : State :=
  let x := s.ch c
  match x.run with
  | none => s
  | some k =>
    if !(s.cardingOn && s.running && !x.noRef && k.issued == k.bursts) then s
    else
      let x := { x.compared (mism.take (8 * k.reads)) with pgDone := true, run := none, idleSince := s.time.ticks }
      let s := s.setCh c x
      if k.writes = 0 then s else s.overwrite c k.cb (k.cb + 1) (64 * k.writes) k.pat k.seed

/-- The first `clean` beats read match on every lane, the others as `mism` says. -/
def execPatternRunDone (ch : YId) (mism : List (BitVec 10)) (clean : Nat) (s : State) : Host.Outcome State Fault Refusal :=
  .next (s.patternDone ch (List.replicate clean 0#10 ++ mism))

/-! ### Yn:YCTL, YnHAM, YQOS, YTREG, timing sets (R216, R227, R229, R253, R254, R466, R470, R472, R475) -/

def State.yctl (s : State) (c : YId) (lo hi : Word) : State :=
  s.modCh c fun x =>
    let y := { x with ctlL := lo &&& 0xFF03, ctlH := hi &&& 0x0FFF }
    if y.latMode = x.latMode then y else y.fillBuckets

def State.yham (s : State) (c : YId) (t sp h : Word) : State :=
  s.modCh c fun x => { x with hamThresh := t, hamSpace := sp &&& 0xFF, hamHits := if h = 0 then 0 else x.hamHits }

def State.yqos (s : State) (c : YId) (cls : Fin 4) (rate burst lat : Word) : State :=
  s.modCh c fun x =>
    let k : Qos := ⟨rate &&& 0xFFF, burst &&& 0xFF, lat &&& 0x3FF⟩
    { x with qos := x.qos.set cls.val k, bucket := x.bucket.set cls.val (min k.cap (x.bucket[cls.val])) }

/-- The billets of a queue's ring on channel `c`: first and count (R183). -/
def QMap.ring (m : QMap) (c : YId) : Nat × Nat :=
  if m.qsize = 0 then (0, 0)
  else if m.chan = 0 then (if c = 0 then (m.qbase, m.qsize) else (0, 0))
  else if m.chan = 1 then (if c = 1 then (m.qbase, m.qsize) else (0, 0))
  else (m.qbase, m.qsize / 2)

/-- Two ranges of billets share one. -/
def overlap (a b : Nat × Nat) : Bool := decide (0 < a.2 ∧ 0 < b.2 ∧ a.1 < b.1 + b.2 ∧ b.1 < a.1 + a.2)

/-- The ring of an enabled queue on channel `c`. -/
def Queue.ringOn (x : Queue) (c : YId) : Nat × Nat :=
  match x.map with
  | some m => if x.en then m.ring c else (0, 0)
  | none => (0, 0)

/-- Why a commit of Yn:YTREG is refused, with the reason of its capture (R254, R472). -/
def State.ytregRefusal (s : State) (c : YId) (base : BitVec 21) (len : BitVec 22) : Option Nat :=
  let x := s.ch c
  let reg := (base.toNat, len.toNat)
  if x.run.isSome || x.sweeping.isSome || x.st == .drain || x.heldHost then some Reason.state
  else if base.toNat % 16 ≠ 0 ∨ len.toNat < 16 then some Reason.range
  else if allQ.any fun q => overlap reg ((s.qu q).ringOn c) then some Reason.check
  else if x.billets < base.toNat + len.toNat then some Reason.range
  else none

/-- A commit of Yn:YTREG (R253, R254, R472). -/
def State.ytreg (s : State) (acc : Access) (c : YId) (base : BitVec 21) (len : BitVec 22) : State :=
  match s.ytregRefusal c base len with
  | some r => s.reject acc Ev.ycmdrej 0 r
  | none => s.modCh c fun x => { x with tregBase := base, tregLen := len }

/-- The bits of a timing set word that hold a field (Table 16.2). -/
def tsetMask (i : Fin 15) : Word :=
  match tsetRanges.find? (fun t => t.1 == i) with
  | some (_, fs) => (fs.foldl (fun acc (lo, n, _, _) => acc ||| at' (2 ^ n - 1) lo) 0) ||| (if i = 0 then 0x30 else 0)
  | none => 0

/-- A write to a timing set lands (R216, R474, R475). -/
def State.tsetWrite (s : State) (acc : Access) (c : YId) (b : Bool) (i : Fin 15) (v : Word) : State :=
  let x := s.ch c
  if x.freq.isSome || b == x.setB then s.reject acc Ev.ycmdrej 0 Reason.inforce
  else if ((x.tset b)[i.val]).failed then s
  else s.vset (.tset c b i) (VWord.of (v &&& tsetMask i))

end Sys2Proof.Machine
end

