-- ==== Sys2Proof/Machine/Governor.lean ====
section
/-!
DEFINITION. The governor, the sensors, HEART and the vote scrubber.
-/

namespace Sys2Proof.Machine

/-- A conversion held between −55 °C and +175 °C (R432). -/
def clampTemp (t : Int) : Int := max (-220) (min 700 t)

def tempWord (t : Int) : Word := BitVec.ofInt 16 (clampTemp t)

/-- Four conversions: TSENS, TEMP, FATAL at 155 °C, and the retrain trigger of a 20 °C move (R270, R432, R503). -/
def State.sense (s : State) (t0 t1 t2 t3 : Int) : State :=
  if !(s.powered && decide (3 ≤ s.boot.stage)) then s
  else
    let m := max (max (clampTemp t0) (clampTemp t1)) (max (clampTemp t2) (clampTemp t3))
    let s := { s with
      boot := { s.boot with sensed := true }
      dp := { s.dp with temp := BitVec.ofInt 16 m }
      gov := { s.gov with tsens := #v[tempWord t0, tempWord t1, tempWord t2, tempWord t3] } }
    if 620 ≤ m then s.enterFatal.scaleAll
    else if s.boot.warm || s.dp.fatal then s
    else allY.foldl (fun s c => if s.tempMoved c then s.trigger c else s) s

/-- VCORE_MV over the latest 10 µs, from the end of start-up step 3 (R433). -/
def execVcoreSample (mv : Word) (s : State) : Host.Outcome State Fault Refusal :=
  .next (if s.powered && decide (4 ≤ s.boot.stage) then { s with gov := { s.gov with vcoreMv := mv } } else s)

/-- The scrubber compares every voted word, the upsets of the operand having come about first (R379, R380). -/
def State.scrub (s : State) (ups : List Upset) : State :=
  (allRefs.foldl State.compare (ups.foldl (fun s (u : Upset) => s.vset u.ref ((s.vget u.ref).flip u.flips)) s)).scaleAll

def execVoteScrub (ups : List Upset) (s : State) : Host.Outcome State Fault Refusal :=
  .next (if s.powered && decide (3 ≤ s.boot.stage) then s.scrub ups else s)

/-! ### HEART (R53) -/

/-- Half a period of 4.096 kHz in 1/32 of a REFCLK period: 122.0703125 µs. -/
def heartHalf : Nat := 390625

/-- HEART may toggle: READY has been 1, HEARTEN, no FATAL, REFCLK, no reset, and R427 has completed (R53, Table 13.6). -/
def State.heartOn (s : State) : Bool :=
  s.powered && s.dp.readySeen && s.dp.heartEn && !s.dp.fatal && s.time.refclk && !s.boot.warm
    && allY.all fun c => !(s.ch c).noRef && (s.ch c).must.toList.all (!·)

/-- A half-period ends: HEART toggles where the core has answered in it (`alive`), else it is low. A half-period never ends
before its time; a row that comes more than one late begins them afresh (log 68). -/
def State.heartBeat (s : State) (alive : Bool) : State :=
  let now := 32 * s.time.ticks
  if s.dp.heartAt ≤ now then
    let next := s.dp.heartAt + heartHalf
    { s with dp := { s.dp with
        heart := s.heartOn && alive && !s.dp.heart, heartAt := if next ≤ now then now + heartHalf else next } }
  else s

def execHeartToggle (alive : Bool) (s : State) : Host.Outcome State Fault Refusal := .next (s.heartBeat alive)

/-! ### The governor (R20, R36 to R38, R423, R438 to R440, R496) -/

/-- The effective floor and ceiling of the running interval (R439). -/
def Gov.effFloor (g : Gov) : Nat := max (fld g.useFloor 0 4) 3
def Gov.effCeil (g : Gov) : Nat := max (fld g.useCeil 0 4) g.effFloor

/-- 64 + GOV:MARGIN. -/
def Gov.weight (g : Gov) : Nat := 64 + fld g.useMargin 0 6

/-- GOV:CAPAC < T, without the division (R438). -/
def Gov.lacks (g : Gov) : Bool := decide (64 * g.capac.toNat < g.demand.toNat * g.weight)

/-- GOV:CAPDN ≥ T. -/
def Gov.spare (g : Gov) : Bool := decide (g.demand.toNat * g.weight ≤ 64 * g.capdn.toNat)

/-- MODE = FIXED; 0b10 and 0b11 act as AUTO. -/
def Gov.fixed (g : Gov) : Bool := fld g.mode 0 2 == 1

/-- One code toward a target. -/
def stepToward (code target : Nat) : Nat := if code < target then code + 1 else if target < code then code - 1 else code

/-- The code after one interval of service (R438, R440). -/
def Gov.nextCode (g : Gov) : Nat :=
  if g.code < g.effFloor then g.code + 1
  else if g.effCeil < g.code then g.code - 1
  else if g.fixed then stepToward g.code (max g.effFloor (min g.effCeil (fld g.mode 4 4)))
  else if g.lacks && decide (g.code < g.effCeil) then g.code + 1
  else if g.spare && decide (g.effFloor < g.code) then g.code - 1
  else g.code

/-- GOV:DEMAND of an interval: eighths of a stave over 50 µs, in M staves/s; the spec does not say how a fraction is
rounded (R496, log 1). -/
def demandWord (acc8 free : Nat) : Word :=
  BitVec.ofNat 16 (min 0xFFFF (acc8 / 400 + (if acc8 % 400 != 0 && Config.demandRoundsUp free then 1 else 0)))

/-- The measurements of an interval that ends, published (R438, R496). At code 3, CAPDN is CAPAC. -/
def Gov.measured (g : Gov) (capac capdn : Word) (free : Nat) : Gov :=
  { g with demand := demandWord g.acc8 free, capac := capac, capdn := if g.code = 3 then capac else capdn }

/-- The code at the end of an interval: in service by R438, in FATAL toward the effective floor (R423, R440). -/
def State.codeNext (s : State) (g : Gov) : Nat := if s.dp.fatal then stepToward g.code g.effFloor else g.nextCode

/-- A 50 µs interval ends, its counts published and the code moved. -/
def State.intervalEnd (s : State) (capac capdn : Word) : State :=
  let g := s.gov.measured capac capdn s.freeCtr
  { s with gov := { g with code := s.codeNext g, acc8 := 0, tick := s.time.ticks }, freeCtr := s.freeCtr + 1 }

/-- A 50 µs interval ends and the next begins, with FLOOR, CEIL and MARGIN read for it, while the governor runs (R59,
Table 3.2); a row that comes late begins the next interval at its own instant, so that the code never moves twice in 50 µs
(R36, R438, R439; log 68). -/
def State.interval (s : State) (capac capdn : Word) : State :=
  if s.powered && s.govRuns && s.time.refclk && decide (s.gov.tick + 5000 ≤ s.time.ticks) then
    (s.intervalEnd capac capdn).govRenew
  else s

def execGovernorInterval (capac capdn : Word) (s : State) : Host.Outcome State Fault Refusal :=
  .next (s.interval capac capdn)

end Sys2Proof.Machine
end

