-- ==== Sys2Proof/Machine/PortOps.lean ====
section
/-!
DEFINITION. Operations on a port shared by its commands: whether it runs, what its pins show, configuration latching and
pairing, the diagnostic capture, the drain of staged segment words into staves, enable, disable and the PORT reset.
-/

namespace Sys2Proof.Machine

/-! ### Running, pins and pairs -/

/-- The port accepts or delivers words: enabled, not resetting, not the upper port of a pair (R27, R70, R83, R406). -/
def State.portActive (s : State) (n : PId) : Bool :=
  s.portsOn && (s.po n).en && !(s.po n).resetting && !s.isUpper n

/-- The data lines that a width uses on one port (R28). -/
def usedLines (w : Nat) (d : BitVec 36) : BitVec 36 := BitVec.ofNat 36 (d.toNat % 2 ^ (9 * min w 4))

/-- R27: the upper port of a pair drives its flags, PnERR#, PnDV and PnFR as the lower port does. `hi` are its data lines. -/
def State.mirror (s : State) (n : PId) (hi : BitVec 36) : State :=
  if s.paired n && n == lowerPort n then
    let p := (s.po n).pins
    s.modPo (upperPort n) fun x => { x with pins := { p with d := if p.dz then 0 else hi } }
  else s

/-- PnDV low, PnD and PnFR as they carry no meaning (R102): free values on the lines the port drives. -/
def State.idlePins (s : State) (n : PId) : State :=
  let x := s.po n
  let f := if x.segMode then Config.idleFrame s.freeCtr else 0
  let s := s.setPo n { x with pins := { x.pins with
    dv := .low, d := usedLines (s.width n) (Config.idleData s.freeCtr), fr := f, dz := false, err := .high } }
  ({ s with freeCtr := s.freeCtr + 2 }).mirror n (Config.idleData (s.freeCtr + 1))

/-- The flag pins launched from what has crossed and from the port's own state (R130). -/
def State.showFlags (s : State) (n : PId) : State :=
  let f := s.flagPins n
  (s.modPo n fun x => { x with pins := { x.pins with fla := f.1, flb := f.2 } }).mirror n (s.po (upperPort n)).pins.d

/-- A port whose flags start asserted for every queue until the first crossing, showing QSEL (R72, R98). -/
def Port.freshFlags (x : Port) : Port :=
  { x with shown := x.qsel, followed := false, crossed := Vector.replicate 16 (true, true), errNext := false
           efEdge := false, starved := false }

/-- The pins of a port whose running state has changed: off, held in a reset, or started with its flags asserted until
the first crossing (R48, R71, R72, R98, R406). -/
def State.startPins (s : State) (n : PId) : State :=
  if s.isUpper n then s
  else
    let x := (s.po n).freshFlags
    if !(s.portsOn && x.en) then
      let s := s.setPo n { x with pins := if s.dp.fatal then s.fatalPins n else Pins.off }
      s.mirror n 0
    else
      let s := s.setPo n { x with pins := Pins.off }
      if x.egress then s.idlePins n else s.mirror n 0

/-- The pins of every port follow a change of DP:GCTL.EN or of READY. -/
def State.startAllPins (s : State) : State := allP.foldl State.startPins s

/-- A pair pools its two ports' credits (R91): what the upper port holds free moves to the lower. What is set aside for
staves in the upper port's Bucker, and what it has spent, stays there and counts for the pair (R92). -/
def State.poolCredits (s : State) (lo up : PId) : State :=
  let u := s.po up
  let give (q : QId) : Nat := u.held[q.val] - u.aside q
  let x := s.po lo
  let room (q : QId) : Nat := 8 - x.spent[q.val] - u.spent[q.val] - (u.held[q.val] - give q)
  let s := s.setPo lo { x with held := x.held.mapFinIdx fun i h hi => min (h + give ⟨i, hi⟩) (room ⟨i, hi⟩) }
  s.setPo up { u with held := u.held.mapFinIdx fun i h hi => h - give ⟨i, hi⟩ }

/-- Credits of queue `q` that port `n`, or the pair it belongs to, holds or has spent on staves not committed (R91). -/
def State.creditsOut (s : State) (n : PId) (q : QId) : Nat :=
  let f (m : PId) : Nat := (s.po m).held[q.val] + (s.po m).spent[q.val]
  if s.paired n then f (lowerPort n) + f (upperPort n) else f n

/-- A port that is no longer a pair keeps at most its own 4 credits per queue; the others return to the core (R91). -/
def Port.cutCredits (x : Port) : Port :=
  { x with held := x.held.mapFinIdx fun i h hi => max (x.aside ⟨i, hi⟩) (min h (4 - x.spent[i])) }

/-- Pn:PSTS.S3: three synchronizer stages in use (R89). -/
def Port.s3 (x : Port) : Bool := x.fast || bit x.lcfg 2

/-! ### Diagnostic capture (R461, R462) -/

/-- PCAPT_0 to PCAPT_2 of one edge. -/
def Port.record (x : Port) (d : BitVec 36) (qa : BitVec 4) (fr : BitVec 2) (acc err : Bool) : Port :=
  { x with
    capt0 := wordOf d 0, capt1 := wordOf d 1
    capt2 := at' (d.toNat / 2 ^ 32) 0 ||| at' qa.toNat 4 ||| at' fr.toNat 8 ||| flagAt acc 10 ||| flagAt err 11 }

/-- A port with an armed capture that this edge triggers. -/
def Port.captures (x : Port) (err : Bool) : Bool := x.capArmed && !x.capDone && !x.capWait && (!x.capTrig || err)

/-- An ingress edge: its inputs recorded; ERR and DONE wait for the word's PnERR#. -/
def Port.captureIn (x : Port) (d : BitVec 36) (qa : BitVec 4) (fr : BitVec 2) (acc err : Bool) : Port :=
  if x.captures err then { x.record d qa fr acc false with capWait := true, capArmed := false } else x

/-- PnERR# of the captured word is launched: ERR is filled in and DONE becomes 1. -/
def Port.captureErr (x : Port) (err : Bool) : Port :=
  if x.capWait then { x with capWait := false, capDone := true, capt2 := x.capt2 ||| flagAt err 11 } else x

/-- An egress edge with the word launched in answer. -/
def Port.captureOut (x : Port) (d : BitVec 36) (qa : BitVec 4) (fr : BitVec 2) (dv err : Bool) : Port :=
  if x.captures err then { x.record d qa fr dv err with capDone := true, capArmed := false } else x

/-- PCAPT_C.ARM: arms a capture, rearming while armed. -/
def Port.arm (x : Port) : Port := { x with capArmed := true, capDone := false, capWait := false }

/-- A write of Pn:PCAPT_C lands: TRIG is set, and a written ARM arms the port. The upper port of a pair follows its lower
port in both, so that the two record the same edge (R462). -/
def State.pcaptWrite (s : State) (n : PId) (v : Word) : State :=
  let f (x : Port) : Port :=
    let x := { x with capTrig := bit v 1 }
    if bit v 0 then x.arm else x
  let s := s.modPo n f
  if s.paired n && n == lowerPort n then s.modPo (upperPort n) f else s

/-! ### Staged segment words into staves (R99, R112 to R115, R142, R146, R507) -/

/-- The end of a segment as its last stave carries it (Table 4.6, R115): a payload of fewer than four slots carries no
CRC to match. -/
def CurSeg.bark (c : CurSeg) (port : PId) (trunc : Bool) : Bark :=
  let fin (v : BitVec 32) : BitVec 32 := v ^^^ 0xFFFFFFFF#32
  { tag := c.tag, lenv := c.lenv, crcin := c.crcin
    badcrc := c.crcin && (decide (c.last4.length < 4) || c.last4 != bytes32 (fin c.lag))
    trunc := trunc, par := c.par, len := c.len, crc := fin c.crc, stamp := c.stamp, port := port.val }

/-- One payload slot added to the running CRCs and the stave being filled. -/
def CurSeg.add (c : CurSeg) (v : Slot9) (par : Bool) : CurSeg :=
  let d := slotData v
  let fill := if c.fill.isEmpty && c.first then List.replicate 24 0 else c.fill
  { c with
    par := c.par || par, len := c.len + 1, crc := crc32Byte c.crc d
    lag := if c.last4.length < 4 then c.lag else crc32Byte c.lag (c.last4.headD 0)
    last4 := if c.last4.length < 4 then c.last4 ++ [d] else c.last4.tail ++ [d]
    fill := fill ++ [v] }

/-- A held credit spent on a completed stave (R93). -/
def Port.spend (x : Port) (q : QId) : Port :=
  { x with held := x.held.set q.val (x.held[q.val] - 1), spent := x.spent.set q.val (x.spent[q.val] + 1) }

/-- The last stave that waits for the segment to `q`, marked as its last. -/
def closeDone (q : QId) (b : Bark) (ds : List DoneStave) : Option (List DoneStave) :=
  match ds.reverse with
  | [] => none
  | d :: t =>
    if d.segment && d.q == q && d.last.isNone then some (({ d with last := some b } : DoneStave) :: t).reverse
    else match t.findIdx? (fun e => e.segment && e.q == q && e.last.isNone) with
      | none => none
      | some i => some (d :: t.modify i fun e => { e with last := some b }).reverse

/-- A segment whose every stave is committed ends: the core fills in its bark header (R117, R507). -/
def State.closeNow (s : State) (q : QId) (b : Bark) : State :=
  let s := s.modQu q fun x =>
    match x.segs.reverse with
    | g :: gs =>
      ({ x with segs := (({ g with complete := true } : Seg) :: gs).reverse, tailCut := true } : Queue).closeSeg q b
    | [] => x
  (s.jumpLost q).scale q

/-- The open segment on the core side ends. -/
def State.endSeg (s : State) (n : PId) (c : CurSeg) (q : QId) (trunc : Bool) : State :=
  let b := c.bark n trunc
  let x := { s.po n with cur := none }
  if c.fill.isEmpty then
    match closeDone q b x.done with
    | some ds => s.setPo n { x with done := ds }
    | none => (s.setPo n x).closeNow q b
  else
    s.setPo n { (x.spend q) with done := x.done ++ [⟨q, c.fill, true, c.first, some b, false⟩] }

/-- A credit of `q` is free at port `n` for a new stave of its open segment. -/
def Port.creditFor (x : Port) (q : QId) : Bool :=
  decide ((if (x.partials[q.val]).isEmpty then 0 else 1) < x.held[q.val])

/-- A segment opens in the Bucker as the Sort yard has answered its lead word (R113, R152). -/
def CurSeg.start (tag : BitVec 6) (lenv crcin par : Bool) (k : Steer) : CurSeg :=
  ⟨k.q, tag, lenv, crcin, par, k.stamp, k.order, 0, 0xFFFFFFFF, 0xFFFFFFFF, [], true, []⟩

/-- Takes the next staged token of port `n` into the Bucker; none where it must wait: for the Sort yard, for a credit, for
another port's segment, or for a stopped clock (R99, R112, R122). -/
def State.drainOne (s : State) (n : PId) : Option State :=
  let x := s.po n
  if s.stoppedAt n then none
  else match x.cur, x.staging with
  | none, .lead tag lenv crcin par (some k) :: ts =>
    some (s.setPo n { x with staging := ts, cur := some (CurSeg.start tag lenv crcin par k) })
  | some c, t :: ts =>
    match t with
    | .lead _ _ _ _ _ => none
    | .pay v par =>
      match c.q with
      | none => some (s.setPo n { x with staging := ts })
      | some q =>
        if c.fill.isEmpty && (s.segBlocks n q || !x.creditFor q) then none
        else
          let c := c.add v par
          if c.fill.length = 32 then
            some (s.setPo n { (x.spend q) with
              staging := ts, cur := some { c with fill := [], first := false }
              done := x.done ++ [⟨q, c.fill, true, c.first, none, false⟩] })
          else some (s.setPo n { x with staging := ts, cur := some c })
    | .fin trunc discard =>
      match c.q with
      | none => some (s.setPo n { x with staging := ts, cur := none })
      | some q =>
        let s := s.setPo n { x with staging := ts }
        if discard || c.len == 0 then some (s.modPo n fun x => { x with cur := none })
        else some (s.endSeg n c q trunc)
  | _, _ => none

def State.drainN : Nat → State → PId → State
  | 0, s, _ => s
  | k + 1, s, n =>
    match s.drainOne n with
    | none => s
    | some t => State.drainN k t n

/-- Staged words move on until they meet a lead word without its answer, or a stave that has no credit or whose queue
another port's segment holds. -/
def State.drain (s : State) (n : PId) : State := s.drainN (s.po n).staging.length n

/-- Every port's staged words for a queue move on, after a grant or a commit. -/
def State.drainAll (s : State) : State := allP.foldl State.drain s

/-! ### Enable, disable and reset (R82, R84, R406 to R410, R457) -/

/-- The capture side closes what is open at a PCTL.EN clear (R84): the open segment ends with TRUNC, and a lead word not
complete goes. A discard in progress (Table 4.7) ends there too, which no rule says (DESIGN CHOICE, log 60). A segment that has
no payload slot yet has no bark header to carry TRUNC (R84): it is dropped, with no framing error and no PnERR#, since no word
of Table 4.7 has come (DESIGN CHOICE, log 60). -/
def Port.closeOpen (x : Port) : Port :=
  match x.fsm with
  | .body _ cnt => { x with fsm := .idle, staging := x.staging ++ [.fin true (cnt == 0)] }
  | _ => { x with fsm := .idle }

/-- The port latches Pn:PCFG (R82, R407); a lower port forms or leaves its pair (R83). No rule says what becomes of a segment
open at the upper port as its pair forms: it ends there as at a PCTL.EN clear, with TRUNC, an incomplete lead word goes, and
staged words and partial staves stay (DESIGN CHOICE, log 18). -/
def State.latchPort (s : State) (n : PId) : State :=
  let was := s.paired n
  let s := s.modPo n fun x => { x with lcfg := x.cfg }
  if n = lowerPort n then
    (if s.paired n && !was then
      ((s.poolCredits n (upperPort n)).modPo (upperPort n) fun x => x.closeOpen.freshFlags).drain (upperPort n)
     else if was && !s.paired n then (s.modPo n Port.cutCredits).startPins (upperPort n)
     else s)
  else s

/-- Pending marks of the queues that port `n` reads are applied where it does not run (Table 6.3, R168). -/
def State.applyIdleMarks (s : State) (n : PId) : State :=
  allQ.foldl (fun s q =>
    if !s.midSegment q && !(s.qu q).chainRead && s.namedPort q == n then s.applyPend q else s) s

/-- The port starts: PCFG is latched and the pins come up with their flags asserted. -/
def State.enablePort (s : State) (n : PId) : State :=
  (((s.latchPort n).modPo n fun x => { x with en := true }).startPins n).scaleAll

/-- The port stops (R84, Table 13.2). -/
def State.disablePort (s : State) (n : PId) : State :=
  let s := s.modPo n fun x => if x.egress then x else x.closeOpen
  let s := s.modPo n fun x => { x with en := false }
  ((((s.drain n).startPins n).applyIdleMarks n).drainAll).scaleAll

/-- Slots of each queue that a PORT reset discards are counted in QEVT.DISC (R401, R408). -/
def State.countDisc (s : State) (n : PId) : State :=
  let x := s.po n
  allQ.foldl (fun s q => s.modQu q fun y => { y with disc := satAdd y.disc (x.pend q) }) s

/-- The end that the segment to `q` partly committed from this port would carry: it is the first such segment of the
waiting staves, or the one still open. -/
def Port.barkOf (x : Port) (n : PId) (q : QId) : Option Bark :=
  match (x.done.find? fun d => d.segment && d.q == q && d.last.isSome).bind (·.last) with
  | some b => some b
  | none => match x.cur with
    | some c => if c.q = some q then some (c.bark n true) else none
    | none => none

/-- A segment closed at its last committed slot with TRUNC (R408): its length and CRCs are those of what is stored. -/
def Queue.cutBark (y : Queue) (g : Seg) (b : Bark) : Bark :=
  let pay := ((y.held.drop (y.rel g.start + 24).toNat).take (g.len - 24)).map slotData
  let k := pay.length - 4
  { b with
    trunc := true, len := g.len - 24, crc := crc32 pay
    badcrc := b.crcin && (decide (pay.length < 4) || pay.drop k != bytes32 (crc32 (pay.take k))) }

/-- The segments of port `n` that are partly committed close there (R408). -/
def State.cutSegs (s : State) (n : PId) : State :=
  let x := s.po n
  allQ.foldl (fun s q =>
    match x.segPart q, x.barkOf n q, (s.qu q).segs.getLast? with
    | true, some b, some g => s.closeNow q ((s.qu q).cutBark g b)
    | _, _, _ => s) s

/-- The port's own state after a PORT reset: staging, partial staves and credits gone, its PORT-class registers cleared,
PCFG and PCTL.EN kept (R406 to R409, Table 3.3). -/
def Port.cleared (x : Port) : Port :=
  { x with
    perrcnt := 0, ptagmiss := 0, capTrig := false, capArmed := false, capDone := false, capWait := false
    capt0 := 0, capt1 := 0, capt2 := 0, held := Vector.replicate 16 0, spent := Vector.replicate 16 0
    partials := Vector.replicate 16 [], done := [], fsm := .idle, staging := [], cur := none, errNext := false
    efEdge := false, starved := false }

/-- A PORT reset: PCFG latched anew while the port is enabled, its own state cleared, flags low (R406 to R408). -/
def State.resetPort (s : State) (n : PId) : State :=
  let s := (s.countDisc n).cutSegs n
  let s := if (s.po n).en then s.latchPort n else s
  let s := s.modPo n fun x => { x.cleared with resetting := true }
  let s := if s.paired n && n == lowerPort n then
      s.modPo (upperPort n) fun x => { x with
        capTrig := false, capArmed := false, capDone := false, capWait := false, capt0 := 0, capt1 := 0, capt2 := 0 }
    else s
  ((s.startPins n).drainAll).scaleAll

/-- A write of Pn:PCTL lands: EN first, then RST (R457). A PCFG latched by the enable is the one the reset latches. The
upper port of a pair keeps the value alone (R83): where its EN is set so, no edge of EN lets it latch PCFG when the pair ends,
and it runs with the one it latched before (the spec does not say; DESIGN CHOICE, log 18). -/
def State.pctlWrite (s : State) (n : PId) (v : Word) : State :=
  let en := bit v 0
  if s.isUpper n then s.modPo n fun x => { x with en := en }
  else
    let s := if en && !(s.po n).en then s.enablePort n else if !en && (s.po n).en then s.disablePort n else s
    if bit v 1 then s.resetPort n else s

/-- The Sort yard's answer for the last lead word of a staging, where one is staged. -/
def lastLead : List Tok → Option (Option Steer)
  | [] => none
  | .lead _ _ _ _ ans :: t => some ((lastLead t).getD ans)
  | _ :: t => lastLead t

/-- Where the segment open on the capture side of an ingress port goes, once the Sort yard has answered: its queue, or
none where it is dropped (R112, R155). -/
def Port.openTo (x : Port) : Option (Option QId) :=
  match x.fsm with
  | .body _ _ => match lastLead x.staging with
    | some ans => ans.map (·.q)
    | none => x.cur.map (·.q)
  | _ => none

/-- The queue of the open segment, where it is known. -/
def Port.openQ (x : Port) : Option QId := x.openTo.join

/-- The segment open on the capture side is a dropped one (R155). -/
def Port.dropping (x : Port) : Bool := x.openTo == some none

/-- The queue whose segment port `n` has launched and not ended, the one just read first. -/
def State.launchedAt (s : State) (n : PId) (q : QId) : Option QId :=
  (q :: allQ).find? fun k => (s.qu k).launched.isSome && (s.qu k).launchPort == n

/-- The queue the flag pins show (R98); `q` is the queue just addressed on an egress port. -/
def State.showNow (s : State) (n : PId) (q : QId) : QId :=
  let x := s.po n
  if !x.follow then x.qsel
  else if !x.segMode then (if x.followed then x.shown else x.qsel)
  else if x.egress then (s.launchedAt n q).getD x.qsel
  else x.openQ.getD x.qsel

/-- A write of Pn:PFLAGQ lands: from the next launching edge on the pins show the queue it names (R98, R460). Until then the
queue flagged on the last edge decides over words (R95, R96). -/
def State.pflagqWrite (s : State) (n : PId) (v : Word) : State := s.modPo n fun x => { x with flagq := v &&& 0x1F }

/-! ### QUEUE reset (Table 13.1) -/

/-- A staged segment to `q` is dropped: its lead word's answer becomes none, and its words go (R155, R400). `cur`: the
segment that the first tokens go on with is dropped. Answers the segments dropped. -/
def dropStaged (q : QId) : Bool → List Tok → List Tok × Nat
  | _, [] => ([], 0)
  | _, .lead tag lenv crcin par (some k) :: t =>
    let r := dropStaged q (k.q == some q) t
    if k.q = some q then (.lead tag lenv crcin par (some { k with q := none }) :: r.1, r.2 + 1)
    else (.lead tag lenv crcin par (some k) :: r.1, r.2)
  | cur, .pay v par :: t => let r := dropStaged q cur t; (if cur then r.1 else .pay v par :: r.1, r.2)
  | _, x :: t => let r := dropStaged q false t; (x :: r.1, r.2)

/-- Step 2 at one port: credits cancelled, uncommitted words discarded, an open segment dropped, the queue's flags asserted
(R400, R401). Answers the slots discarded. -/
def Port.resetQueue (x : Port) (q : QId) : Port × Nat :=
  let st := dropStaged q (x.cur.any fun c => c.q == some q) x.staging
  let cur := x.cur.map fun c => if c.q = some q then { c with q := none, fill := [] } else c
  let n := st.2 + (match x.cur with
    | some c => if c.q = some q then 1 else 0
    | none => 0)
  ({ x with
      held := x.held.set q.val 0, spent := x.spent.set q.val 0, partials := x.partials.set q.val []
      done := x.done.filter fun d => d.q != q
      cur := cur, staging := st.1, ptagmiss := satAdd x.ptagmiss n
      crossed := x.crossed.set q.val (true, true) }, x.pend q)

/-- The queue emptied, its configuration kept (Table 13.1, steps 1 and 3, R509). -/
def Queue.cleared (x : Queue) : Queue :=
  { x with
    w := 0, r := 0, h := 0, f := 0, wcnt := 0, rcnt := 0, xcnt := 0, dcnt := 0, marks := [], markPend := none
    held := [], segs := [], segSeq := 0, launched := none, tailCut := false, billets := [], rdStave := none, ecc := []
    spillSince := none, refillSince := none
    ef := true, ae := true, hf := false, ff := false, afth := false, afla := false }

/-- The flag pins of a running port that show queue `q` are launched anew; the upper port of a pair follows (R27). -/
def State.showReset (q : QId) (s : State) (n : PId) : State :=
  if s.portActive n && !s.stoppedAt n && (s.po n).shown == q then s.showFlags n else s

/-- Steps 1 to 3 of a QUEUE reset. -/
def State.clearQueue (s : State) (q : QId) : State :=
  let disc := (s.ports.toList.map fun x => (x.resetQueue q).2).sum
  let s := { s with
    ports := vmap (fun x => (Port.resetQueue x q).1) s.ports
    chans := vmap (Chan.resetQueue q (s.qu q) s.time.ticks) s.chans }
  let s := s.modQu q fun x => { x.cleared with disc := satAdd 0 disc, resetting := true }
  (allP.foldl (State.showReset q) (s.clearLookahead q)).drainAll

/-- QCTL.RST (R400, R445). -/
def State.resetQueue (s : State) (q : QId) : State := if (s.qu q).resetting then s else s.clearQueue q

end Sys2Proof.Machine
end

