-- ==== Sys2Proof/Machine/Calendar.lean ====
section
/-!
DEFINITION. The proleptic Gregorian calendar, the calendar view, and the occurrences of release windows.
-/

namespace Sys2Proof.Machine

/-- Leap years (R337). -/
def leap (y : Nat) : Bool := (y % 4 == 0 && y % 100 != 0) || y % 400 == 0

/-- Length of a month. -/
def monthLen (y m : Nat) : Nat :=
  if m = 2 then (if leap y then 29 else 28)
  else if m = 4 ∨ m = 6 ∨ m = 9 ∨ m = 11 then 30 else 31

/-- Days from 1970-01-01 to a date of the year 1970 or later. -/
def daysOf (y m d : Nat) : Nat :=
  let y' := if m ≤ 2 then y - 1 else y
  let era := y' / 400
  let yoe := y' % 400
  let mp := (m + 9) % 12
  let doy := (153 * mp + 2) / 5 + d - 1
  era * 146097 + (yoe * 365 + yoe / 4 - yoe / 100 + doy) - 719468

/-- Year, month and day of a day count since 1970-01-01. -/
def dateOf (n : Nat) : Nat × Nat × Nat :=
  let z := n + 719468
  let era := z / 146097
  let doe := z % 146097
  let yoe := (doe - doe / 1460 + doe / 36524 - doe / 146096) / 365
  let doy := doe - (365 * yoe + yoe / 4 - yoe / 100)
  let mp := (5 * doy + 2) / 153
  let d := doy - (153 * mp + 2) / 5 + 1
  let m := if mp < 10 then mp + 3 else mp - 9
  let y := yoe + era * 400 + (if m ≤ 2 then 1 else 0)
  (y, m, d)

/-- Day of the week, 1 Monday to 7 Sunday (R339). -/
def dowOf (n : Nat) : Nat := (n + 3) % 7 + 1

/-- Seconds of 9999-12-31T23:59:59 UTC since 1970. -/
def viewMax : Nat := 253402300799

/-- The view's second, held between its limits (R338). -/
def clampView (v : Int) : Nat := if v < 0 then 0 else min viewMax v.toNat

/-- The view lies outside its limits (R338). -/
def viewRange (v : Int) : Bool := decide (v < 0) || decide ((viewMax : Int) < v)

/-- The CAL date and time registers of a view: YEAR, MON, DAY, HMS_L, HMS_H (Table 11.3). -/
def calWords (v : Int) : Word × Word × Word × Word × Word :=
  let t := clampView v
  let (y, m, d) := dateOf (t / 86400)
  let s := t % 86400
  (at' y 0, at' m 0, at' d 0, at' (s % 60) 0 ||| at' (s / 60 % 60) 8, at' (s / 3600) 0)

/-- The staged date or time is impossible (R342). -/
def Cal.impossible (c : Cal) : Bool :=
  let y := c.year.toNat
  let m := c.mon.toNat
  let d := c.day.toNat
  decide (y < 1970) || decide (9999 < y) || m == 0 || decide (12 < m) || d == 0 || decide (monthLen y m < d)
    || decide (23 < fld c.hmsH 0 5) || decide (59 < fld c.hmsL 8 6) || decide (59 < fld c.hmsL 0 6)

/-- UTC seconds of the staged date and time. -/
def Cal.seconds (c : Cal) : Nat :=
  daysOf c.year.toNat c.mon.toNat c.day.toNat * 86400 + fld c.hmsH 0 5 * 3600 + fld c.hmsL 8 6 * 60 + fld c.hmsL 0 6

/-! ### Windows (Table 11.5, R348) -/

def Window.start (x : Window) : Nat := x.w1.toNat + 65536 * fld x.w3 0 1
def Window.dur (x : Window) : Nat := min 86400 (x.w2.toNat + 65536 * fld x.w3 1 1)
def Window.rule (x : Window) : Nat := fld x.w3 2 2
def Window.days (x : Window) : Nat := fld x.w3 4 7
def Window.en (x : Window) : Bool := bit x.w3 15

/-- The window can open at all: enabled, START within the day, DUR not 0. -/
def Window.live (x : Window) : Bool := x.en && decide (x.start < 86400) && x.dur != 0

/-- The rule selects day `d` (R348). -/
def Window.selects (x : Window) (d : Nat) : Bool :=
  match x.rule with
  | 0 => true
  | 1 => x.days.testBit (dowOf d - 1)
  | 2 =>
    let n := x.days % 32
    let (y, m, dd) := dateOf d
    if n = 0 then dd == monthLen y m else dd == n
  | _ => false

/-- Day `d` is later than the window's record (R349). -/
def Window.fresh (x : Window) (d : Nat) : Bool :=
  match x.record with
  | none => true
  | some r => decide (r < (d : Int))

/-- The day of the occurrence whose interval contains the view's second `v`, if one may open (R348, R349). -/
def Window.hit (x : Window) (v : Nat) : Option Nat :=
  if x.live && decide (x.start ≤ v) then
    let d := (v - x.start) / 86400
    if (v - x.start) % 86400 < x.dur && x.selects d && x.fresh d then some d else none
  else none

/-- The first selected day of at most 62 from `d`: every rule that selects days at all selects one of them. -/
def Window.firstDay (x : Window) (d : Nat) : Option Nat :=
  ((List.range 62).map (d + ·)).find? fun k => x.selects k

/-- A move of the view from `v0` to `v1` passes the whole interval of an unopened occurrence (R352), of an open window too. -/
def Window.missed (x : Window) (v0 v1 : Nat) : Bool :=
  if x.live && decide (v0 < v1) then
    let d0 := if v0 < x.start then 0 else (v0 - x.start) / 86400 + 1
    let d0 := match x.record with
      | some r => max d0 (r + 1).toNat
      | none => d0
    match x.firstDay d0 with
    | some d => decide (d * 86400 + x.start + x.dur ≤ v1)
    | none => false
  else false

end Sys2Proof.Machine
end

