-- ==== Sys2Proof/Machine/Time.lean ====
section
/-!
DEFINITION. The time base, its corrections, the PPS capture, UTC changes, TS_OUT and the window engine.
-/

namespace Sys2Proof.Machine

/-- Units of 1/(25 · 2^32) ns in one nanosecond. -/
def unitsNs : Nat := 107374182400

def nsSec : Nat := 1000000000

/-- Units in one second and in one µs. -/
def unitsSec : Nat := unitsNs * nsSec
def unitsUs : Nat := unitsNs * 1000

/-- The time base in units since 1970 TAI. -/
def Time.total (t : Time) : Nat := (t.sec.toNat * nsSec + t.ns) * unitsNs + t.frac

/-- The time base set to a total. -/
def Time.setTotal (t : Time) (n : Nat) : Time :=
  { t with sec := BitVec.ofNat 48 (n / unitsSec), ns := n / unitsNs % nsSec, frac := n % unitsNs }

/-- RATEADJ within its limits (R320). -/
def Time.trim (t : Time) : Int := max (-4294967) (min 4294967 t.rate.toInt)

/-- What a slew adds at one edge: 0.005 ns, or the remainder (R330). -/
def Time.slewInc (t : Time) : Int :=
  if t.slew < 0 then max t.slew (-536870912) else min t.slew 536870912

/-- The advance of one edge (R318, R330). -/
def Time.edgeInc (t : Time) : Nat := (1073741824000 + 250 * t.trim + t.slewInc).toNat

/-- Point passed by own advance: `some false` a whole second, `some true` half a second. The state's `tsoutPend` and
pulse rules use it through `Time.passed`. -/
def Time.passed (t : Time) (inc : Nat) : Option Bool :=
  let p := t.ns * unitsNs + t.frac
  let h := 500000000 * unitsNs
  if p < inc then some false
  else if h ≤ p ∧ p < h + inc then some true
  else none

/-- One REFCLK edge (R318, R330). A TSOUT write acts as a new second begins (R335). -/
def Time.edge (t : Time) : Time :=
  let inc := t.edgeInc
  let t' := { (t.setTotal (t.total + inc)) with
    ticks := t.ticks + 1, adv := t.adv + inc, slew := t.slew - t.slewInc }
  let t' := if t'.sec ≠ t.sec then { t' with tsoutNow := t'.tsout, tsoutPend := none } else t'
  { t' with pass := t'.passed inc }

/-- The time base runs: from step 2 of start-up, while REFCLK is present (R59, R319). -/
def State.timeOn (s : State) : Bool := s.powered && decide (3 ≤ s.boot.stage) && s.time.refclk

/-! ### Stamps and the view -/

/-- S − UTCOFF (R337). -/
def State.view (s : State) : Int := (s.time.sec.toNat : Int) - sint s.time.utcOff

/-- A timestamp of this instant (R322). -/
def State.stamp (s : State) : Stamp := ⟨s.time.sec, BitVec.ofNat 30 s.time.ns, s.time.epoch, s.view⟩

/-! ### Windows (R349 to R353) -/

/-- Time of this instant on the view's scale, in units. -/
def State.viewUnits (s : State) : Nat := clampView s.view * unitsSec + s.time.ns * unitsNs + s.time.frac

/-- One window evaluated: it may open (R349). -/
def Window.eval (x : Window) (v now adv : Nat) : Window :=
  if x.closeAt.isSome then x
  else
    match x.hit v with
    | some d => { x with record := some d, closeAt := some (adv + ((d * 86400 + x.start + x.dur) * unitsSec - now)) }
    | none => x

/-- Every window evaluated, the flags following (R353). -/
def State.evalWindows (s : State) : State :=
  let v := clampView s.view
  let now := s.viewUnits
  ({ s with wins := vmap (fun (x : Window) => x.eval v now s.time.adv) s.wins }).scaleAll

/-- Counts WINMISS for each window whose unopened occurrence a move of the view passed (R352). -/
def State.countMissed (s : State) (v0 : Nat) : State :=
  let v1 := clampView s.view
  s.countN Ev.winmiss 0 (s.wins.toList.filter fun x => x.missed v0 v1).length

/-! ### UTCOFF (R344, R345, R434, R435) -/

/-- A new UTCOFF in force, the windows following. -/
def State.setUtcOff (s : State) (v : Word) : State :=
  let v0 := clampView s.view
  (({ s with time := { s.time with utcOff := v } }).countMissed v0).evalWindows

/-- The armed change falls due once S has reached UTCAT. -/
def State.utcDue (s : State) : Bool := s.time.utcArmed && decide (s.time.utcAt ≤ s.time.sec)

def State.applyUtc (s : State) : State :=
  if s.utcDue then ({ s with time := { s.time with utcArmed := false } }).setUtcOff s.time.utcNxt else s

def execUtcoffChange (s : State) : Host.Outcome State Fault Refusal := .next (if s.powered then s.applyUtc else s)

/-- The windows evaluated at this instant, a change of UTCOFF that has fallen due being in force (R344, R349). -/
def State.windowsNow (s : State) : State := s.applyUtc.evalWindows

def execWindowEvaluate (s : State) : Host.Outcome State Fault Refusal := .next (if s.timeOn then s.windowsNow else s)

/-- A window's countdown reaches 0: it closes and every window is evaluated (R350, R353). -/
def execWindowClose (j : Fin 16) (s : State) : Host.Outcome State Fault Refusal :=
  .next (
    match (s.win j).closeAt with
    | none => s
    | some t => if t ≤ s.time.adv then (s.setWin j { s.win j with closeAt := none }).windowsNow else s)

/-- A commit of window j (R346, R350, R353). -/
def State.winCommit (s : State) (j : Fin 16) (w0 w1 w2 w3 : Word) : State :=
  (s.applyUtc.setWin j ⟨w0, w1, w2, w3 &&& 0x87FF, none, none⟩).evalWindows

/-- A write of UTCOFF: one that meets a change falling due is applied first, and the change to its result (R344, the code
SW>HW of R15). Where none is due, the windows are evaluated by the view that has stood until now, since an edge may have
brought it into an occurrence (R349). -/
def State.utcoffWrite (s : State) (v : Word) : State :=
  ((if s.utcDue then s else s.evalWindows).setUtcOff v).applyUtc

/-- A write of UTCAT_L arms a change; one that is due takes effect first (R435), and an armed one whose UTCAT S has reached
already takes effect at once (R344). -/
def State.utcArm (s : State) (at48 : BitVec 48) : State :=
  let s := s.applyUtc
  State.applyUtc { s with time := { s.time with utcAt := at48, utcArmed := true } }

def State.setUtcNxt (s : State) (v : Word) : State :=
  let s := s.applyUtc
  { s with time := { s.time with utcNxt := v } }

/-- DISC.UTCCAN (R434). -/
def State.utcCancel (s : State) : State :=
  let s := s.applyUtc
  { s with time := { s.time with utcArmed := false } }

/-! ### Corrections (R328 to R334) -/

/-- The TAI seconds of 10000-01-01T00:00:00 UTC under UTCOFF (R333). -/
def State.timeLimit (s : State) : Int := (253402300800 + sint s.time.utcOff) * unitsSec

/-- A step by an offset; a change of UTCOFF that it makes due takes effect at the same instant (R323, R331, R344). The windows
are evaluated by the view before it too, since the last edge may have brought that into an occurrence (R349). A point
that the last edge passed by own advance keeps its pulse (R336). -/
def State.stepTime (s : State) (off : Int) : State :=
  let s := s.evalWindows
  let v0 := clampView s.view
  let t := s.time.setTotal ((s.time.total : Int) + off).toNat
  let t := { t with slew := 0, epoch := if off < 0 then t.epoch + 1 else t.epoch }
  let t := if t.utcArmed ∧ t.utcAt ≤ t.sec then { t with utcOff := t.utcNxt, utcArmed := false } else t
  (({ s with time := t }).countMissed v0).evalWindows

/-- Why a correction is rejected, in the order of R334; none where it is committed. -/
def State.correctionRefusal (s : State) (off : Int) (badNs : Bool) : Option Nat :=
  let r := (s.time.total : Int) + off
  if fld s.time.disc.val 0 2 = 0 then some Reason.mode
  else if badNs || decide (r < 0) || decide (s.timeLimit ≤ r) then some Reason.range
  else if off < -(3600 * unitsSec : Int) ∧ !s.time.arm then some Reason.arm
  else none

/-- A correction commit: slewed, stepped or rejected; every commit clears ARM (R330 to R334). A change of UTCOFF that has
fallen due took effect before (R344). It reads MODE, whose copies are compared (R379); where that enters FATAL, the write is
one that FATAL meets (R424). -/
def State.correct (s : State) (acc : Access) (off : Int) (badNs : Bool) : State :=
  let s := s.applyUtc.compare .discMode
  if s.dp.fatal then s.reject acc Ev.lockrej 0 Reason.state
  else
  let r := s.correctionRefusal off badNs
  let s := { s with time := { s.time with arm := false } }
  match r with
  | some k => s.reject acc Ev.steprej 0 k
  | none =>
    if off.natAbs ≤ s.time.stepth.toNat * unitsUs then { s with time := { s.time with slew := off } } else s.stepTime off

/-- The offset that OFFSET_0 to OFFSET_4 spell (R329). -/
def offsetUnits (offs : BitVec 48) (offns : BitVec 30) : Int := (offs.toInt * nsSec + offns.toNat) * unitsNs

def State.correctOffset (s : State) (acc : Access) (offs : BitVec 48) (offns : BitVec 30) : State :=
  s.correct acc (offsetUnits offs offns) (decide (nsSec ≤ offns.toNat))

/-- CAL:COMMIT (R341, R342). -/
def State.calCommit (s : State) (acc : Access) : State :=
  let s := s.applyUtc
  if s.cal.impossible then ({ s with cal := { s.cal with bad := true } }).reject acc Ev.calrej 0 Reason.date
  else s.correct acc (((s.cal.seconds : Int) + sint s.time.utcOff) * unitsSec - s.time.total) false

/-- CAL:CANCEL reloads the staging from the live view (R343). -/
def State.calCancel (s : State) : State :=
  let s := s.applyUtc
  let (y, m, d, l, h) := calWords s.view
  { s with cal := { s.cal with year := y, mon := m, day := d, hmsL := l, hmsH := h, bad := false } }

/-! ### PPS (R324, R325) -/

/-- An edge of PPS_IN: captured 20 ns before its detection, or a glitch within 500 ms of the last accepted one. -/
def State.ppsEdge (s : State) : State :=
  if !s.timeOn then s
  else
    let t := s.time
    let glitch := match t.ppsLast with
      | some a => decide (t.adv < a + 500000 * unitsUs)
      | none => false
    if glitch then s.count Ev.ppsglitch 0
    else
      let c := t.total - 20 * unitsNs
      { s with time := { t with
          ppsSec := BitVec.ofNat 48 (c / unitsSec), ppsNs := c / unitsNs % nsSec, ppsEpoch := t.epoch
          ppsSeq := t.ppsSeq + 1, ppsLast := some t.adv, ppsMiss := false } }

def execPpsEdge (s : State) : Host.Outcome State Fault Refusal := .next s.ppsEdge

/-- No edge accepted in 1.5 s of own advance (R325). -/
def execPpsmissTimeout (s : State) : Host.Outcome State Fault Refusal :=
  .next (
    if s.timeOn && decide (s.time.ppsLast.getD 0 + 1500000 * unitsUs ≤ s.time.adv) then
      { s with time := { s.time with ppsMiss := true } }
    else s)

/-! ### TS_OUT (R335, R336) -/

/-- MODE, WIDTH in µs and WINSEL of the TSOUT value that drives the output. -/
def Time.tsMode (t : Time) : Nat := fld t.tsoutNow 0 2
def Time.tsWidth (t : Time) : Nat := max 1 (fld t.tsoutNow 2 8)
def Time.tsWin (t : Time) : Fin 16 := ⟨fld t.tsoutNow 10 4, Nat.mod_lt _ (by decide)⟩

/-- The level of TS_OUT. -/
def State.tsOut (s : State) : Bool :=
  s.time.tsoutPend.isNone &&
  (match s.time.tsMode with
   | 0 => false
   | 3 => (s.win s.time.tsWin).closeAt.isSome
   | _ => s.time.pulse.isSome)

/-- A write of TSOUT: the output is low until the next whole TAI second (R335). -/
def State.tsoutWrite (s : State) (v : Word) : State :=
  { s with time := { s.time with tsout := v &&& 0x3FFF, tsoutPend := some s.time.sec, pulse := none } }

/-- The time base has passed the selected point by its own advance: a pulse starts (R336). -/
def execTsOutPulse (s : State) : Host.Outcome State Fault Refusal :=
  .next (
    let t := s.time
    if s.timeOn && t.tsoutPend.isNone
        && ((t.tsMode == 1 && t.pass == some false) || (t.tsMode == 2 && t.pass == some true)) then
      { s with time := { t with pulse := some t.adv } }
    else s)

/-- WIDTH µs after it began, the pulse ends. -/
def execTsOutPulseEnd (s : State) : Host.Outcome State Fault Refusal :=
  .next (
    match s.time.pulse with
    | none => s
    | some a =>
      if a + s.time.tsWidth * unitsUs ≤ s.time.adv then { s with time := { s.time with pulse := none } } else s)

end Sys2Proof.Machine
end

