-- ==== Sys2Proof/Machine/Ports.lean ====
section
/-!
DEFINITION. The commands of the ports: ingress words and framing, steering, stave commit, credits, egress reads, flag
crossings and the port clock.
-/

namespace Sys2Proof.Machine

/-! ### Ingress framing (R109 to R111, R119, Table 4.7) -/

/-- What one accepted segment word does on the capture side: the framing state after it, the tokens it stages, parity
errors and framing errors. -/
structure Framed where
  fsm : Fsm
  toks : List Tok
  par : Nat
  framing : Nat
  deriving DecidableEq, Repr

/-- Slots with a parity error where the port checks them (R106). -/
def oddErrs (mpar : Bool) (vs : List Slot9) : Nat := if mpar then (vs.filter fun v => !slotOdd v).length else 0

/-- The valid slots of a word by its code, and whether the code is an end; a bad count of a 0b11 word makes it 0b10
(R110, Table 4.7). -/
def validSlots (w : Nat) (fr : BitVec 2) (vs : List Slot9) : List Slot9 × Bool × Bool :=
  if fr = 3 then
    let k := (vs.getLastD 0).toNat % 8
    if w ≤ 1 ∨ k = 0 ∨ w ≤ k then (vs, true, true) else (vs.take k, true, false)
  else (vs, fr == 2, false)

/-- The lead word taken whole: its token, the body that follows, and 1 for a LEN out of range (R111, Table 4.7). -/
def leadDone (got : List Slot9) (par : Bool) : Tok × Fsm × Nat :=
  let b (i : Nat) : BitVec 8 := slotData (got.getD i 0)
  let lenv := (b 0).getLsbD 6
  let n := (b 1).toNat + 256 * (b 2).toNat
  let ok := decide (1 ≤ n ∧ n ≤ 16360)
  (.lead ((b 0).extractLsb' 0 6) lenv ((b 0).getLsbD 7) par none, .body (if lenv && ok then some n else none) 0,
    if lenv && !ok then 1 else 0)

/-- More slots of a lead word. -/
def leadWord (mpar : Bool) (got : List Slot9) (par : Bool) (vs : List Slot9) : Framed :=
  let part := vs.take (4 - got.length)
  let e := oddErrs mpar part
  let got := got ++ part
  let par := par || decide (0 < e)
  if got.length < 4 then ⟨.lead got par, [], e, 0⟩
  else
    let (t, f, k) := leadDone got par
    ⟨f, [t], e, k⟩

/-- A payload word inside a segment of which `cnt` slots have been accepted. An end word that carries more valid slots than
LEN, or 16,360, leaves is in no row of Table 4.7: it is cut there with TRUNC, counts one framing error and ends the
segment (DESIGN CHOICE, log 60). -/
def bodyWord (mpar : Bool) (w : Nat) (len : Option Nat) (cnt : Nat) (fr : BitVec 2) (vs : List Slot9) : Framed :=
  let (v, isEnd, bad) := validSlots w fr vs
  let limit := len.getD 16360
  let take := v.take (limit - cnt)
  let e := oddErrs mpar v
  let cnt' := cnt + take.length
  let toks := take.map fun x => Tok.pay x (mpar && !slotOdd x)
  let k := if bad then 1 else 0
  if isEnd then
    let trunc := decide (take.length < v.length) || (len.isSome && decide (cnt' < limit))
    ⟨.idle, toks ++ [.fin trunc false], e, k + (if trunc then 1 else 0)⟩
  else if limit ≤ cnt' then ⟨.skip, toks ++ [.fin true false], e, k + 1⟩
  else ⟨.body len cnt', toks, e, k⟩

/-- One word of a segment-mode port under Table 4.7. Each case of the table that the word shows counts (log 28), a bad
count of a 0b11 word outside a segment's body too. -/
def frameWord (mpar : Bool) (w : Nat) (f : Fsm) (fr : BitVec 2) (vs : List Slot9) : Framed :=
  let (v, isEnd, bad) := validSlots w fr vs
  let k := if bad then 1 else 0
  let after : Fsm := if isEnd then .idle else .skip
  match f with
  | .idle => if fr = 1 then leadWord mpar [] false vs else ⟨.idle, [], oddErrs mpar v, 1 + k⟩
  | .lead got par => if fr = 0 then leadWord mpar got par vs else ⟨after, [], oddErrs mpar v, 1 + k⟩
  | .skip => ⟨after, [], oddErrs mpar v, k⟩
  | .body len cnt =>
    if fr = 1 then
      let g := leadWord mpar [] false vs
      { g with toks := .fin true (cnt == 0) :: g.toks, framing := g.framing + 1 + (if cnt = 0 then 1 else 0) }
    else bodyWord mpar w len cnt fr vs

/-! ### INGRESS_WORD (R91 to R98, R106, R112, R142) -/

/-- The slots of a captured word: PnD of the port, and of the upper port of a pair (R26). -/
def wordSlots (w : Nat) (d hi : BitVec 36) : List Slot9 :=
  ((List.range 4).map (lineSlot d) ++ (List.range 4).map (lineSlot hi)).take w

/-- A stream word placed in the Bucker; a completed stave waits for its commit under the credit set aside (R93, R142). -/
def Port.place (x : Port) (q : QId) (vs : List Slot9) : Port :=
  let p := x.partials[q.val] ++ vs
  if p.length < 32 then { x with partials := x.partials.set q.val p }
  else { (x.spend q) with
    partials := x.partials.set q.val (p.drop 32), done := x.done ++ [⟨q, p.take 32, false, false, none, false⟩] }

/-- A word for a known queue: of the queue flagged on the edge before it follows FF# as launched there (R95); of another
queue it needs room there, and a disabled queue admits none (R96, Table 13.2). -/
def State.admits (s : State) (n : PId) (q : QId) : Bool :=
  let x := s.po n
  if q = x.shown then x.pins.fla == .high else !(s.qu q).forced && !s.fullFor n q

/-- A segment-mode word is accepted: in a dropped segment always (R155), in a segment whose queue is known by that queue,
and until then as long as the staging has room (R112, log 21). -/
def State.segAccepts (s : State) (n : PId) : Bool :=
  match (s.po n).openTo with
  | some none => true
  | some (some q) => s.admits n q
  | none => s.stageRoom n

/-- Errors of the word counted in PERRCNT, each of parity and of framing (R106, R107, R119). -/
def Port.countErrs (x : Port) (n : Nat) : Port := { x with perrcnt := satAdd x.perrcnt n, errNext := decide (0 < n) }

/-- Waiting staves of port `n` reach the core before its staging would pass the slots that R112 and Table 7.4 allow. -/
def State.pressCommit : Nat → State → PId → State
  | 0, s, _ => s
  | k + 1, s, n =>
    if s.stageRoom n then s
    else match s.nextDone n with
      | none => s
      | some d => State.pressCommit k (s.commitStave n d).drainAll n

/-- A payload slot. -/
def Tok.isPay : Tok → Bool
  | .pay _ _ => true
  | _ => false

/-- The word taken into the port; the words of a dropped segment are discarded (R155). -/
def State.acceptWord (s : State) (n : PId) (q : QId) (fr : BitVec 2) (vs : List Slot9) : State :=
  let x := s.po n
  let s := if x.segMode then
      let f := frameWord x.mpar (s.width n) x.fsm fr vs
      let toks := if x.dropping then f.toks.filter fun t => !t.isPay else f.toks
      let s := s.setPo n { (x.countErrs (f.par + f.framing)) with fsm := f.fsm, staging := x.staging ++ toks }
      (s.drain n).scaleAll
    else (s.setPo n ((x.countErrs (oddErrs x.mpar vs)).place q vs)).scale q
  s.pressCommit (s.po n).done.length n

/-- The word refused: PnERR# follows where its queue is not the flagged one (R96), and a twin counts it (R315). -/
def State.refuseWord (s : State) (n : PId) (q : Option QId) : State :=
  let s := s.modPo n fun x => { x with errNext := q.any (· != x.shown) }
  if s.twin then s.count Ev.twinskew 0 else s

/-- AF# asserts on the edge of the word that makes it true (R137). -/
def State.ownFull (s : State) (n : PId) (q : QId) : State :=
  s.modPo n fun x => { x with
    crossed := x.crossed.set q.val ((x.crossed[q.val]).1, (x.crossed[q.val]).2 || (s.coreFlags n q).2) }

/-- The flag pins launched on an edge: the queue that R98 shows, from what has crossed and from the port's own state. -/
def State.showEdge (s : State) (n : PId) (shown : QId) : State :=
  (s.modPo n fun x => { x with shown := shown }).showFlags n

/-- An edge of the port's clock has come: a port whose clock had stopped goes on with what it holds (R122). NOCLK reads 1
until sixteen of them have come (R121). -/
def State.edgeCame (s : State) (n : PId) : State :=
  if (s.po n).stopped then ((s.modPo n fun x => { x with stopped := false }).drain n).scaleAll else s

/-- One capturing edge of an ingress port. -/
def State.ingressWord (s : State) (n : PId) (en : Bool) (d hi : BitVec 36) (qa : BitVec 4) (fr : BitVec 2) : State :=
  if !(s.portActive n) || (s.po n).egress then s
  else
    let s := s.edgeCame n
    let x := s.po n
    -- PnERR# of the word before is launched on this edge.
    let s := (s.setPo n { (x.captureErr x.errNext) with
      errNext := false, pins := { x.pins with err := Level.ofFlag x.errNext } })
    let s := if s.paired n then s.modPo (upperPort n) (Port.captureErr · x.errNext) else s
    if !en then s.showEdge n (s.showNow n x.shown)
    else
      let q : QId := ⟨qa.toNat, qa.isLt⟩
      let dst : Option QId := if x.segMode then x.openQ else some q
      let vs := wordSlots (s.width n) d hi
      let ok := if x.segMode then s.segAccepts n else s.admits n q
      let s := if ok then s.acceptWord n q fr vs else s.refuseWord n dst
      let err := (s.po n).errNext
      let s := s.modPo n (Port.captureIn · d qa fr ok err)
      let s := if s.paired n then s.modPo (upperPort n) (Port.captureIn · hi qa fr ok err) else s
      let s := match ok, dst with
        | true, some q => s.ownFull n q
        | _, _ => s
      let s := s.modPo n fun x => { x with followed := true }
      s.showEdge n (if x.follow && !x.segMode then q else s.showNow n x.shown)

def execIngressWord (n : PId) (en : Bool) (d hi : BitVec 36) (qa : BitVec 4) (fr : BitVec 2) (s : State) :
    Host.Outcome State Fault Refusal := .next (s.ingressWord n en d hi qa fr)

/-! ### STEER_SEGMENT (R113, R148 to R156, R464) -/

/-- The QUEUE and PRI of an entry that matches (R149); an entry in VOTEFAIL reads 0 and takes no part (R464). -/
def State.entryMatch (s : State) (n : PId) (tag : BitVec 6) (e : Fin 64) : Option (QId × Nat) :=
  let lo := (s.vget (.sortYard e false)).val
  let hi := (s.vget (.sortYard e true)).val
  if bit lo 15 && bit hi (8 + n.val) && ((tag.toNat ^^^ fld lo 0 6) &&& fld lo 8 6) == 0 then
    some (⟨fld hi 0 4, Nat.mod_lt _ (by decide)⟩, fld hi 4 2)
  else none

/-- The winner among the matching entries: the highest PRI, then the lowest index (R151). -/
def State.winner (s : State) (n : PId) (tag : BitVec 6) : Option (QId × Nat) :=
  (List.finRange 64).foldl (fun acc e =>
    match s.entryMatch n tag e, acc with
    | none, _ => acc
    | some x, none => some x
    | some x, some y => if y.2 < x.2 then some x else some y) none

/-- The queue of a segment, none where it is dropped (R153, R154). -/
def State.steer (s : State) (n : PId) (tag : BitVec 6) : Option QId :=
  let x := s.po n
  let q : Option QId := match s.winner n tag with
    | some (q, _) => some q
    | none => if bit x.lcfg 12 then some ⟨fld x.lcfg 8 4, Nat.mod_lt _ (by decide)⟩ else none
  q.filter fun q => (s.qu q).en && !(s.qu q).resetting

/-- The tag of the first staged lead word that the Sort yard has not answered. -/
def unsteered : List Tok → Option (BitVec 6)
  | [] => none
  | .lead tag _ _ _ none :: _ => some tag
  | _ :: t => unsteered t

/-- A segment's words before the next end or lead word go (R155). -/
def dropPays : List Tok → List Tok
  | .pay _ _ :: t => dropPays t
  | t => t

/-- The Sort yard's answer for that lead word; the words staged of a segment that it drops go. -/
def answerLead (k : Steer) : List Tok → List Tok
  | [] => []
  | .lead tag lenv crcin par none :: t => .lead tag lenv crcin par (some k) :: (if k.q.isNone then dropPays t else t)
  | x :: t => x :: answerLead k t

/-- The words of every Sort yard entry. -/
def yardRefs : List VRef := (List.finRange 64).flatMap fun e => [.sortYard e false, .sortYard e true]

/-- The oldest lead word not yet answered enters the core, behind a waiting segment too: its arrival stamp (R113), its
queue, or its drop. The Sort yard reads its entries, whose copies are compared (R379). While the port's clock is stopped the
lead word stays as it is (R122). -/
def State.steerSegment (s : State) (n : PId) : State :=
  match unsteered (s.po n).staging with
  | none => s
  | some tag =>
    if !s.running || s.stoppedAt n then s
    else
      let s := s.compareAll yardRefs
      if s.dp.fatal then s
      else
      let q := s.steer n tag
      let s' := s.modPo n fun x => { x with
        staging := answerLead ⟨q, s.stamp, s.order⟩ x.staging
        ptagmiss := if q.isNone then satAdd x.ptagmiss 1 else x.ptagmiss }
      (s'.nextOrder.drain n).scaleAll

def execSteerSegment (n : PId) (s : State) : Host.Outcome State Fault Refusal := .next (s.steerSegment n)

/-! ### STAVE_COMMIT, CREDIT_GRANT -/

/-- The next completed stave of port `n` is committed; words that waited for its segment's end move on (R99, R142). -/
def execStaveCommit (n : PId) (s : State) : Host.Outcome State Fault Refusal :=
  .next (if s.running && !(s.po n).resetting then (s.commitNext n).drainAll.scaleAll else s)

/-- Port `n` takes credits: it runs as an ingress port, or words it has accepted wait for one, whatever it has become since
(R84, R112); not in a PORT reset (R408) and not while its clock is stopped (R122). -/
def State.takesCredits (s : State) (n : PId) : Bool :=
  let x := s.po n
  s.running && !x.resetting && !s.stoppedAt n && ((s.portActive n && !x.egress) || !x.staging.isEmpty)

/-- The core may grant port `n` a credit of `q` (R92, R93, R127, R128). -/
def State.mayGrant (s : State) (n : PId) (q : QId) : Bool :=
  let y := s.qu q
  s.takesCredits n && y.en && !y.resetting
  && decide (s.creditsOut n q < s.creditLimit n)
  && !s.segBlocks n q
  && decide (32 ≤ s.free q - y.ffresSlots - s.resv q)

/-- One credit granted; staged words that waited for it move on (R93, R112). -/
def execCreditGrant (n : PId) (q : QId) (s : State) : Host.Outcome State Fault Refusal :=
  .next (
    if s.mayGrant n q then
      ((s.modPo n fun x => { x with held := x.held.set q.val (x.held[q.val] + 1) }).drain n).scaleAll
    else s)

/-! ### EGRESS_READ (R101 to R105, R110, R116, R117, R147, R158, R177, R193, R410, R417) -/

/-- A word to launch: how many slots it takes from R, its code, and whether it carries the end count. -/
structure Launch where
  take : Nat
  fr : BitVec 2
  part : Bool
  deriving DecidableEq, Repr

/-- The Landing slots from R without a break, as far as a limit. -/
def Queue.landedTo (x : Queue) (limit : Nat) : Nat :=
  let r := x.off x.r
  min limit (reach x.billets 0 (x.base + r) - x.base - r)

/-- A word of the rest of a segment that ends `rest` slots on; `avail` of them can be delivered, and a lost billet follows
them where `cut` (R110, R410, R417). -/
def segWord (w rest avail : Nat) (cut first : Bool) : Option Launch :=
  let n := min w rest
  let fr0 : BitVec 2 := if first then 1 else 0
  if n ≤ avail then
    (if n = rest then some ⟨n, if n = w then 2 else 3, n != w⟩ else some ⟨n, fr0, false⟩)
  else if 0 < avail ∧ cut then some ⟨avail, 0, false⟩
  else none

/-- Slots from R to the next segment boundary, none where no segment lies ahead: the start of the next segment, or the
end of the one that R lies in. -/
def Queue.boundary (x : Queue) : List Seg → Option Nat
  | [] => none
  | g :: gs =>
    let r : Int := x.off x.r
    let b := x.rel g.start
    if r < b then some (b - r).toNat
    else if r < b + g.len ∧ b < r then some (b + g.len - r).toNat
    else x.boundary gs

/-- What port `n` launches of queue `q` in segment mode. The last part says that it begins a segment, with its end. Fewer
than `w` stream slots are launched at once as a short word, coded 0b00 with zeros behind them, where a segment or a lost
billet follows and where nothing does: R147 lets slots wait for more in stream mode alone (DESIGN CHOICE, log 33). -/
def State.segLaunch (s : State) (q : QId) (w : Nat) : Option (Launch × Option Pos) :=
  let x := s.qu q
  match x.launched with
  | some e =>
    let rest := (e - x.r).toNat
    let avail := x.landedTo rest
    (segWord w rest avail (x.lostAt (x.off x.r + avail)) false).map fun l => (l, none)
  | none =>
    let d := s.deliverable q
    match x.segs.find? (fun g => g.start == x.r) with
    | some g =>
      if g.complete && decide (g.len ≤ d) && s.isOpen q then
        (segWord w g.len d false true).map fun l => (l, some (x.r + BitVec.ofNat 48 g.len))
      else none
    | none =>
      let lim := (x.boundary x.segs).getD d
      if w ≤ d ∧ w ≤ lim then some (⟨w, 0, false⟩, none)
      else if 0 < lim ∧ lim < w ∧ lim ≤ d then some (⟨lim, 0, false⟩, none)
      else none

/-- What port `n` launches in answer to a read of queue `q`, if anything (R101 to R104, R127, R147). -/
def State.launch (s : State) (n : PId) (q : QId) : Option (Launch × Option Pos) :=
  let w := s.width n
  if s.holder q != some n || (s.qu q).forced || (s.po n).efEdge then none
  else if (s.po n).segMode then s.segLaunch q w
  else if w ≤ s.deliverable q then some (⟨w, 0, false⟩, none)
  else none

/-- Slot 1 of a bark header as launched: REPLAY and BADCRC of this launch (R117, R177). -/
def Queue.launchSlot1 (x : Queue) (g : Seg) : Slot9 :=
  let o := x.off g.start
  let b := (slotData (x.held.getD (o + 1) 0)).toNat % 16
  let st := g.start.toNat / 32
  let ue := (List.range ((g.start.toNat % 32 + g.len + 31) / 32)).any fun i => (x.eccOf ((st + i) % 2 ^ 43)).poison
  let bad := if ue && b % 2 == 0 then 1 else 0
  let rep := if x.off g.start < x.off x.f then 16 else 0
  withParity (mkSlot (BitVec.ofNat 8 (b + bad + rep)) false)

/-- The slots of the launched bark header's slot 1 replaced as launched. -/
def patch1 (vs : List Slot) (o : Option Nat) (b1 : Slot9) : List Slot :=
  match o with
  | some i => vs.modify i fun v => { v with v := b1 }
  | none => vs

/-- The port words of a launch: invalid slots 0, the count in the highest slot of a partial word (R110). -/
def launchWord (w : Nat) (l : Launch) (vs : List Slot9) : List Slot9 :=
  let full := vs ++ List.replicate (w - vs.length) 0
  if l.part then full.set (w - 1) (BitVec.ofNat 9 l.take) else full

/-- Launches a word of queue `q` at port `n`. -/
def State.deliver (s : State) (n : PId) (q : QId) (l : Launch) (begin' : Option Pos) (ecc : List Ecc) : State :=
  let w := s.width n
  let mpar := (s.po n).mpar
  let s := match begin', (s.qu q).segs.find? (fun g => g.start == (s.qu q).r) with
    | some e, some g => s.modQu q fun x => { x with launched := some e, launchPort := n, bark1 := x.launchSlot1 g }
    | _, _ => s
  let x := s.qu q
  -- Where slot 1 of the launched bark header lies in this word; with no mark, H and R are past slot 0 after an x9 word.
  let i1 : Option Nat := match x.segs.find? (fun g => some (g.start + BitVec.ofNat 48 g.len) == x.launched) with
    | some g =>
      let o := (g.start + 1 - x.r).toNat
      if o < l.take then some o else none
    | none => none
  let (vs, _, s) := s.takeSlots l.take q ecc
  let poison := vs.any (·.poison)
  let vs := (patch1 vs i1 x.bark1).map (·.v)
  let vs := launchWord w l (if mpar then vs.map withParity else vs)
  let s := if poison then s.count Ev.poison q.val else s
  let s := ((s.settle q).jumpLost q).scale q
  let s := s.modPo n fun x => { x with pins := { x.pins with
    dv := .high, d := usedLines w (packLines (vs.take 4)), fr := l.fr, dz := false, err := Level.ofFlag poison } }
  s.mirror n (packLines (vs.drop 4))

/-- The end of a launched segment of queue `q`: a pending mark command is applied at the core instant of the delivery of
the last word, and the flags at its R are launched from the next edge on (R166, Table 6.3). -/
def State.endLaunch (s : State) (q : QId) : State :=
  match (s.qu q).launched with
  | some e =>
    if (s.qu q).off e ≤ (s.qu q).off (s.qu q).r then (s.modQu q fun x => { x with launched := none }).applyPend q else s
  | none => s

/-- EF# stays low while the staves fetched for the port are short (R498). -/
def State.holdLow (s : State) (n : PId) : State :=
  if (s.po n).starved then
    (s.modPo n fun x => { x with pins := { x.pins with fla := .low } }).mirror n (s.po (upperPort n)).pins.d
  else s

/-- The flag pins on the edge that launches the answer: EF# and AE# assert at once by the port's own delivery (R98, R137).
EF# launched low with a word of the flagged queue keeps the next edge from launching any word (R103). `short`: the staves
fetched for the port have run short, and EF# is launched low on this edge and held so (R498). -/
def State.egressPins (s : State) (n : PId) (q shown : QId) (sent short : Bool) : State :=
  let f := s.coreFlags n q
  let s := s.modPo n fun x => { x with
    crossed := if sent then x.crossed.set q.val ((x.crossed[q.val]).1 || f.1, (x.crossed[q.val]).2 || f.2) else x.crossed
    efEdge := sent && q == shown && ((s.qu q).efReg || short), starved := short }
  (s.showEdge n shown).holdLow n

/-- One launching edge of an egress port. Where the staves fetched for it have run short (R498), EF# is low from this edge
on until the core has caught up. The first such edge launches the last word fetched, or none where none was left; while EF# is
held low so, none is launched (log 83). -/
def State.egressRead (s : State) (n : PId) (en : Bool) (qa : BitVec 4) (fetch : Fetched) (ecc : List Ecc) : State :=
  if !(s.portActive n) || !(s.po n).egress then s
  else
    let q : QId := ⟨qa.toNat, qa.isLt⟩
    let s := s.edgeCame n
    let x := s.po n
    let short := fetch != .enough
    if !en then (s.idlePins n).egressPins n q (s.showNow n x.shown) false short
    else
      let s := if s.twin && x.pins.fla == .low then s.count Ev.twinskew 0 else s
      let s := if s.holder q == some n then s.jumpLost q else s
      let go := if fetch = .none || x.starved then none else s.launch n q
      let s := match go with
        | some (l, b) => s.deliver n q l b ecc
        | none => s.idlePins n
      let p := (s.po n).pins
      let hi := (s.po (upperPort n)).pins.d
      let dv := p.dv == .high
      let err := p.err == .low
      let s := s.modPo n fun x => { x.captureOut p.d qa p.fr dv err with followed := true }
      let s := if s.paired n then s.modPo (upperPort n) (Port.captureOut · hi qa p.fr dv err) else s
      (s.egressPins n q (if x.follow && !x.segMode then q else s.showNow n q) go.isSome short).endLaunch q

def execEgressRead (n : PId) (en : Bool) (qa : BitVec 4) (ecc : List Ecc) (s : State) (fetch : Fetched := .enough) :
    Host.Outcome State Fault Refusal := .next (s.egressRead n en qa fetch ecc)

/-! ### FLAG_CROSSING, the port clock, PORT_RESET_COMPLETE -/

/-- Every crossing to port `n` has completed: the flags of every queue are there as settled, and the pins launch them with
the queue that R98 shows from this edge on (R130, R138, R460). -/
def State.crossFlags (s : State) (n : PId) : State :=
  if s.portActive n then
    ((s.modPo n fun x => { x with crossed := Vector.ofFn (s.coreFlags n) }).showEdge n (s.showNow n (s.po n).shown)).holdLow n
  else s

def execFlagCrossing (n : PId) (s : State) : Host.Outcome State Fault Refusal := .next (s.crossFlags n)

/-- PnCLK has stopped: NOCLK is set, and what waits for a running port is applied at the core (R121, Table 6.3). -/
def execPortNoclk (n : PId) (s : State) : Host.Outcome State Fault Refusal :=
  .next (if s.powered && decide (3 ≤ s.boot.stage) then (s.modPo n fun x => { x with noclk := true, stopped := true }).applyIdleMarks n else s)

/-- PnCLK runs again: NOCLK returns to 0, and the port goes on with what it has staged (R121, R122). -/
def State.clockResume (s : State) (n : PId) : State :=
  if s.powered && decide (3 ≤ s.boot.stage) then
    ((s.modPo n fun x => { x with noclk := false, stopped := false }).drain (s.master n)).scaleAll
  else s

/-- 256 PnCLK edges measured against REFCLK (R89); suspended while REFCLK is absent (Table 13.6). -/
def execSyncDepthMeasure (n : PId) (khz : Nat) (s : State) : Host.Outcome State Fault Refusal :=
  .next (
    if s.powered && decide (3 ≤ s.boot.stage) && s.time.refclk then
      s.modPo n fun x => { x with fast := decide (200000 < khz) }
    else s)

/-- A PORT reset completes: the port runs again as after its enable (R406). -/
def execPortResetComplete (n : PId) (s : State) : Host.Outcome State Fault Refusal :=
  .next (
    if s.running && (s.po n).resetting then
      ((s.modPo n fun x => { x with resetting := false }).startPins n).scaleAll
    else s)

end Sys2Proof.Machine
end

