-- ==== Sys2Proof/Machine/Queues.lean ====
section
/-!
DEFINITION. Queue control: the enable checks of Table 7.1, Qn:QCTL, pending marks, the lookahead sample and the end of a
QUEUE reset.
-/

namespace Sys2Proof.Machine

/-! ### The queue map (R181, R182, Table 7.1) -/

/-- Frames available: 64 for each bank that carries data, at most 16 of them (R205, R485). -/
def State.lavail (s : State) : Nat :=
  64 * min 16 (17 - ((List.range 17).filter fun b => s.land.retired.getLsbD b).length)

/-- QMAP, QBASE and QSIZE as an enable would latch them. -/
def Queue.mapNow (x : Queue) : QMap :=
  { lshare := fld x.qmapL.val 0 11
    chan := min 2 (fld x.qmapL.val 12 2)
    spillat := fld x.qmapH.val 0 11
    rfahead := max 1 (fld x.qmapH.val 12 3)
    qbase := x.qbaseL.val.toNat + 65536 * fld x.qbaseH.val 0 5
    qsize := x.qsizeL.val.toNat + 65536 * fld x.qsizeH.val 0 7 }

/-- The effective map: SPILLAT, RFAHEAD and CHAN are left out when QSIZE = 0. -/
def QMap.effective (m : QMap) : QMap :=
  if m.qsize = 0 then { m with spillat := 0, rfahead := 0, chan := 0 } else m

/-- LSHARE that an enabled queue holds. -/
def Queue.shareHeld (x : Queue) : Nat := if x.en then (x.map.map (·.lshare)).getD 0 else 0

/-- The Ring fits check: the last billet of each channel used. -/
def State.ringFits (s : State) (m : QMap) : Bool :=
  allY.all fun c => (m.ring c).2 == 0 || decide ((m.ring c).1 + (m.ring c).2 ≤ (s.ch c).billets)

/-- The Ring is free check. -/
def State.ringFree (s : State) (q : QId) (m : QMap) : Bool :=
  allY.all fun c =>
    !overlap (m.ring c) ((s.ch c).tregBase.toNat, (s.ch c).tregLen.toNat)
    && allQ.all fun k => k == q || !overlap (m.ring c) ((s.qu k).ringOn c)

/-- The queue holds slots and its map would change. -/
def State.mapChanged (s : State) (q : QId) (m : QMap) : Bool :=
  decide (0 < (s.qu q).occ + s.pend q) &&
  (match (s.qu q).map with
   | some old => m.effective != old.effective
   | none => false)

/-- Every check of Table 7.1 passes. -/
def State.mapOk (s : State) (q : QId) (m : QMap) : Bool :=
  m.lshare != 0
  && decide (m.lshare + ((allQ.filter (· != q)).map fun k => (s.qu k).shareHeld).sum ≤ s.lavail)
  && (m.qsize == 0 ||
      (decide (m.rfahead + 4 ≤ m.lshare) && decide (m.rfahead + 2 ≤ m.spillat ∧ m.spillat + 2 ≤ m.lshare)
       && !(m.chan == 2 && m.qsize % 2 == 1)))
  && s.ringFits m && s.ringFree q m && !s.mapChanged q m

/-- Why a write of 1 to QCTL.EN is refused (R182, R395, R446), once its configuration words are compared; none where it is
accepted. -/
def State.enableRefusal (s : State) (q : QId) : Option Nat :=
  if s.land.full then some Reason.busy
  else if (s.qu q).vfail then some Reason.check
  else if s.mapOk q (s.qu q).mapNow then none
  else some Reason.check

/-! ### Qn:QCTL (R127, R136, R161, R162, R445) -/

/-- QCTL.EN goes from 0 to 1: the map is latched and the lookahead starts afresh (R136, R181). -/
def State.enableQueue (s : State) (q : QId) : State :=
  ((s.nextOrder.modQu q fun x => { x with en := true, map := some x.mapNow }).clearLookahead q).scale q

/-- QCTL.EN goes from 1 to 0: contents, marks and counters stay (R127, Table 13.2). -/
def State.disableQueue (s : State) (q : QId) : State :=
  (s.nextOrder.modQu q fun x => { x with en := false }).scale q

/-- The EN field of a QCTL write; a queue already enabled latches nothing. An enable reads the queue's configuration words,
which compares their copies (R379): three that differ put the queue in VOTEFAIL, and the enable is refused (R380, R446). -/
def State.qctlEn (s : State) (acc : Access) (q : QId) (en : Bool) : State :=
  if en && !(s.qu q).en then
    let s := s.compareAll (queueRefs q)
    match s.enableRefusal q with
    | some r => s.reject acc Ev.cfgrej q.val r
    | none => s.enableQueue q
  else if !en && (s.qu q).en then s.disableQueue q
  else s

/-- MARK, REWIND and COMMIT of one write: more than one of them carries out none (R162). -/
def State.qctlMarks (s : State) (q : QId) (v : Word) : State :=
  match bit v 4, bit v 5, bit v 6 with
  | false, false, false => s
  | true, false, false => s.markCmd q
  | false, true, false => s.rewindCmd q (fld v 8 2)
  | false, false, true => s.commitCmd q
  | _, _, _ => s.count Ev.markrej q.val

/-- A write of Qn:QCTL: EN, RST, FLUSH, then the mark commands; RST discards those after it (R445). -/
def State.qctl (s : State) (acc : Access) (q : QId) (v : Word) : State :=
  let s := s.qctlEn acc q (bit v 0)
  if bit v 1 then (s.resetQueue q).scale q
  else
    let s := if bit v 2 then s.flush q else s
    s.qctlMarks q v

/-! ### Events -/

/-- The queue's reading port, if any, is in a PORT reset. -/
def State.readerResets (s : State) (q : QId) : Bool :=
  match s.readPort q with
  | some n => (s.po n).resetting
  | none => false

/-- The reading port's handshake applies the pending MARK or REWIND; inside a segment of a segment-mode port it waits for the segment's end, and
in a PORT reset of the port until it runs again (R165, R166, R168, Table 6.3). EF# and AE# of that port follow on its next
launching edge. -/
def State.markApply (s : State) (q : QId) : State :=
  if s.running && !s.midSegment q && !s.readerResets q then
    s.applyPend q
  else s

def execMarkApply (q : QId) (s : State) : Host.Outcome State Fault Refusal := .next (s.markApply q)

/-- One lookahead sample of every queue, 100 REFCLK periods after the last (R134, R135). -/
def State.sampleAll (s : State) : State :=
  allQ.foldl (fun s q => s.modQu q fun x => x.sample (s.afl q) (s.free q - x.ffresSlots)) s

/-- The Scaler samples in service. In FATAL the sample stands still: R50 stops the pins and R423 does not say whether
sampling goes on (DESIGN CHOICE, log 74). -/
def execLookaheadSample (s : State) : Host.Outcome State Fault Refusal :=
  .next (
    if s.running && s.time.refclk && decide (s.sampleTick + 100 ≤ s.time.ticks) then
      { s.sampleAll with sampleTick := s.sampleTick + 100 }
    else s)

/-- Step 4 of a QUEUE reset: credits are granted again and the flags follow Table 5.2 (R400). -/
def execQueueResetComplete (q : QId) (s : State) : Host.Outcome State Fault Refusal :=
  .next (
    if s.running && (s.qu q).resetting then (s.modQu q fun x => { x with resetting := false }).scale q else s)

end Sys2Proof.Machine
end

