-- ==== Sys2Proof/Machine/Landing.lean ====
section
/-!
DEFINITION. The Landing's rotation and tests, LAND:TCMD, and the ledger snapshot of the Tally.
-/

namespace Sys2Proof.Machine

/-! ### Rotation (R200 to R203, R206) -/

/-- ROTMIN as used, in ms (R200). -/
def Land.rotMs (x : Land) : Nat := max 50 (fld x.rotmin 0 12)

/-- Length of the next rest in ms: ROTMIN in a sweep, 64 times that in normal service. -/
def Land.nextRestMs (x : Land) : Nat := if x.sweepLeft = 0 then 64 * x.rotMs else x.rotMs

/-- The staves in which an internal read finds an error (R190). -/
def State.readErrs (s : State) (errs : List StaveErr) : State :=
  errs.foldl (fun s e => s.readStave e.q e.stave e.ecc) s

/-- A rest has run its length and may end. -/
def State.restOver (s : State) : Bool :=
  s.running && s.time.refclk && decide (s.land.rest < 17) && s.land.retired == 0 && !s.land.full && !s.land.copying
  && decide (s.land.restTick + s.land.restMs * msTicks ≤ s.time.ticks)

/-- The rest ends and the copy begins; a sweep counts its rests. The bank that rested keeps its number in TSTS.REST until the
copy ends (R201), and the next rest is counted from here (log 67). -/
def State.bankRotation (s : State) (errs : List StaveErr) : State :=
  if s.restOver then
    let x := { s.land with sweepLeft := s.land.sweepLeft - 1 }
    ({ s with land := { x with restTick := s.time.ticks, restMs := x.nextRestMs, copying := true } }).readErrs errs
  else s

def execBankRotation (errs : List StaveErr) (s : State) : Host.Outcome State Fault Refusal := .next (s.bankRotation errs)

/-- The staves of billets `frames` in which an uncorrectable error has been found before and that `errs` does not list: a
copy finds it again (R190). -/
def State.foundAgain (s : State) (frames : List (QId × Nat)) (errs : List StaveErr) : List StaveErr :=
  frames.flatMap fun (q, num) =>
    ((s.qu q).ecc.filter fun (k, e) => billetOf k == num && e.ue && !(errs.any fun t => t.q == q && t.stave == k)).map
      fun (k, _) => ⟨q, k, .clean⟩

/-- The rotation copy ends: all addressing moves to the bank that leaves rest, and the bank that has been copied rests
(R200, R201). `frames` are the billets whose frames lie in that bank; `errs` are the errors that the copy's reads find
(R190). -/
def State.copyEnd (s : State) (frames : List (QId × Nat)) (errs : List StaveErr) : State :=
  if s.running && s.land.copying then
    (({ s with land := { s.land with copying := false, rest := (s.land.rest + 1) % 17 } }).readErrs
      (s.foundAgain frames errs)).readErrs errs
  else s

def execRotationCopyEnd (errs : List StaveErr) (s : State) (frames : List (QId × Nat) := []) : Host.Outcome State Fault Refusal :=
  .next (s.copyEnd frames errs)

/-- The test of the resting bank ends; a failing bank is retired and rotation stops (R203). A sweep that runs ends with it:
R203 does not name the sweep (DESIGN CHOICE, log 80). -/
def execBankTestDone (fail : Bool) (s : State) : Host.Outcome State Fault Refusal :=
  .next (
    if s.running && decide (s.land.rest < 17) && !s.land.copying && !s.land.full && fail then
      ({ s with land := { s.land with
          retired := s.land.retired ||| (1#17 <<< s.land.rest), rest := 31, sweepLeft := 0 } }).count Ev.lbankfail 0
    else s)

/-! ### LAND:TCMD (R204 to R207, R484) -/

/-- A queue is enabled. -/
def State.busyQ (s : State) : Bool := allQ.any fun q => (s.qu q).en

/-- A full test or a sweep runs. -/
def State.testRuns (s : State) : Bool := s.land.full || s.land.sweepLeft != 0

/-- DP:GSTS.NOSPARE. -/
def State.noSpare (s : State) : Bool := s.land.retired != 0

/-- The full test begins: queues that hold slots are emptied as by a QUEUE reset, the rotation engine takes DP:LOCKCFG, and
every bank is cleared, with what reads had found in it (R190, R204, R395). A rotation copy that runs is dropped and the bank
that rested stays at rest, which R204 does not settle (DESIGN CHOICE, log 80). -/
def State.startFull (s : State) : State :=
  let s := allQ.foldl (fun s q => if 0 < (s.qu q).occ + s.pend q then (s.resetQueue q).scale q else s) s
  let s := if (s.lock .config).holder.val = 0 then s.takeLock .config lockRotation else s
  { s with queues := vmap (fun x => { x with ecc := [] }) s.queues, land := { s.land with full := true, copying := false } }

/-- TCMD.FULL (R204, R207). -/
def State.fullTest (s : State) (acc : Access) : State :=
  if s.busyQ || s.testRuns then s.reject acc Ev.testrej 0 Reason.busy
  else if s.holds .a .config || s.holds .b .config then s.reject acc Ev.testrej 0 Reason.lock
  else s.startFull

/-- TCMD.SWEEP: seventeen rests of ROTMIN (R206, R207). -/
def State.landSweep (s : State) (acc : Access) : State :=
  if s.testRuns then s.reject acc Ev.testrej 0 Reason.busy
  else if s.noSpare then s.reject acc Ev.testrej 0 Reason.nospare
  else { s with land := { s.land with sweepLeft := 17, restTick := s.time.ticks, restMs := s.land.rotMs } }

/-- A write of LAND:TCMD. -/
def State.tcmd (s : State) (acc : Access) (v : Word) : State :=
  match bit v 0, bit v 1 with
  | false, false => s
  | true, true => s.reject acc Ev.testrej 0 Reason.general
  | true, false => s.fullTest acc
  | false, true => s.landSweep acc

/-- Banks newly found failing are retired, each counting LBANKFAIL; no bank rests once one is retired (R64, R203, R205). -/
def State.retire (s : State) (bad : BitVec 17) : State :=
  let fresh := (List.range 17).filter fun b => bad.getLsbD b && !s.land.retired.getLsbD b
  let r := s.land.retired ||| bad
  ({ s with land := { s.land with
      retired := r
      rest := if r = 0 then s.land.rest else 31
      sweepLeft := if r = 0 then s.land.sweepLeft else 0 } }).countN Ev.lbankfail 0 fresh.length

/-- The rotation engine frees DP:LOCKCFG. -/
def State.rotationFree (s : State) : State :=
  if (s.lock .config).holder.val = lockRotation then s.freeLock .config else s

/-- The full test ends (R205). The rest it stood over begins anew, of the length it had (DESIGN CHOICE, log 80). -/
def execFullTestDone (bad : BitVec 17) (s : State) : Host.Outcome State Fault Refusal :=
  .next (
    if s.running && s.land.full then
      (({ s with land := { s.land with full := false, restTick := s.time.ticks } }).retire bad).rotationFree
    else s)

/-! ### The ledger (R194 to R199, Table 7.3) -/

/-- The billets of a queue that hold a slot between H and W. -/
def Queue.holding (x : Queue) : List Billet := if x.occ = 0 then [] else x.billets

/-- The billets of enabled queues homed on a channel that hold a slot and are not lost (Table 7.3). -/
def State.homed (s : State) (c : YId) : List Billet :=
  allQ.flatMap fun q =>
    if (s.qu q).en then (s.qu q).holding.filter fun b => (s.qu q).home b.num == some c && !b.lost else []

def Billet.inLand (b : Billet) : Bool := b.frame && b.refill.isNone
def Billet.inFlight (b : Billet) : Bool := b.refill.isSome
def Billet.inBoom (b : Billet) : Bool := !b.frame && b.refill.isNone

/-- A channel's four counts (Table 7.3). -/
def State.chanCounts (s : State) (c : YId) : YSnap :=
  let h := s.homed c
  ⟨h.length, (h.filter Billet.inLand).length, (h.filter Billet.inBoom).length, (h.filter Billet.inFlight).length⟩

/-- PEND as Qn:PEND reads it. -/
def State.pendReg (s : State) (q : QId) : Word := BitVec.ofNat 16 (min 0xFFFF (s.pend q))

/-- AZL:ACRED and AZL:ARESEND of a queue. -/
def State.acred (s : State) (q : QId) : Word :=
  at' (min 63 s.azl.out.cred[q.val]) 0 ||| at' (min 127 s.azl.out.cred.sum) 8
def State.aresend (s : State) (q : QId) : Word :=
  at' (s.azl.out.resend.filter fun r => r.q == q).length 0 ||| at' s.azl.out.resend.length 8

/-- What a snapshot takes of one queue. -/
def State.queueSnap (s : State) (q : QId) : QSnap :=
  let x := s.qu q
  { wcnt := x.wcnt, rcnt := x.rcnt, xcnt := x.xcnt, dcnt := x.dcnt, occ := x.w - x.h, rdbl := x.w - x.r
    pend := s.pendReg q, asent := s.azl.out.asent[q.val], aack := s.azl.out.aack[q.val]
    acred := s.acred q, aresend := s.aresend q }

/-- Credits that Pn:PSTS.CREDIT reads: those of both ports of a pair (R91, R92), and 0 for its upper port (R459). -/
def State.portCredit (s : State) (n : PId) : Nat :=
  if s.isUpper n then 0
  else (s.po n).held.sum + (if s.paired n then (s.po (upperPort n)).held.sum else 0)

/-- What a snapshot takes of one port: the port equation holds by what is in flight (R92). -/
def State.portSnap (s : State) (n : PId) : PSnap :=
  let h := s.portCredit n
  ⟨h, (if s.isUpper n then 0 else 16 * s.creditLimit n) - h⟩

/-- The ledger at one core instant (R198). -/
def State.snapshot (s : State) : Snapshot :=
  { q := Vector.ofFn s.queueSnap
    y := Vector.ofFn s.chanCounts
    p := Vector.ofFn s.portSnap
    time := s.stamp }

/-- A write of DP:SNAPCMD on a path: TAKE, then VIEW (R198, R199). -/
def State.snapcmd (s : State) (p : Path) (v : Word) : State :=
  let s := if bit v 0 then
      let k := s.snapshot
      s.modPath p fun x => { x with snap := k, snapValid := true }
    else s
  s.modPath p fun x => { x with snapView := bit v 1 }

end Sys2Proof.Machine
end

