-- ==== Sys2Proof/Machine/Resets.lean ====
section
/-!
DEFINITION. Power-on reset, start-up, the warm device reset, PATH resets, and the loss and return of REFCLK.
-/

namespace Sys2Proof.Machine

/-! ### POR (R42, R57, Table 3.3) -/

/-- Held in POR: every register at its reset value. What the board drives stays: supplies, PORST#, REFCLK, HRST#, the
partner's WSYNC lines; so do the straps as last sampled (R38, R46) and what the march tests will find. -/
def State.por (s : State) : State :=
  { State.reset with
    boot := { State.reset.boot with
      supplies := s.boot.supplies, porst := s.boot.porst, straps := s.boot.straps, badBanks := s.boot.badBanks }
    time := { Time.reset with refclk := s.time.refclk }
    pathA := { PathSt.reset with inReset := s.pathA.inReset }
    azl := { Azl.reset with wsync := s.azl.wsync }
    freeCtr := s.freeCtr
    pending := s.pending }

def Supply.idx : Supply → Fin 5
  | .vcore => 0
  | .vddio => 1
  | .vddq0 => 2
  | .vddq1 => 3
  | .vdda => 4

def State.setSupply (s : State) (x : Supply) (ok : Bool) : State :=
  { s with boot := { s.boot with supplies := s.boot.supplies.set (Supply.idx x).val ok } }

/-- PORST# low: POR after 200 ns; a shorter pulse is ignored (R57). With VDDIO out of its limits the part is in POR
already (R42), and the level alone is taken. -/
def execPorstLow (ns : Nat) (s : State) : Host.Outcome State Fault Refusal :=
  .next (if 200 ≤ ns then { s.por with boot := { s.por.boot with porst := false } } else s)

/-- A supply leaves its limits (R42). -/
def execSupplyFault (x : Supply) (s : State) : Host.Outcome State Fault Refusal := .next (s.setSupply x false).por

/-! ### Start-up (Table 3.1) -/

/-- Number of banks in a set. -/
def bankCount (v : BitVec 17) : Nat := ((List.range 17).filter fun b => v.getLsbD b).length

/-- The Landing clear and test: failing banks are retired; two or more stop the sequence (R64). The rest of the resting
bank begins afresh (R200). -/
def State.landTest (s : State) (bad : BitVec 17) : State :=
  let fresh := bad &&& ~~~s.land.retired
  let s := s.retire fresh
  { s with
    boot := { s.boot with badBanks := bad, halted := decide (2 ≤ bankCount fresh) }
    land := { s.land with restTick := s.time.ticks, restMs := 64 * s.land.rotMs } }

/-- Step 4, which begins when step 3 has completed: the PHY clocks run and the Landing is tested (R59, R369). -/
def State.bootOn (s : State) : State :=
  let s := { s with chans := vmap (fun (x : Chan) => { x with phyClk := true }) s.chans }
  let s := s.landTest s.boot.badBanks
  { s with boot := { s.boot with stage := if s.boot.halted then 4 else 5 } }

/-- A channel in step 5: YnRESET# is released and the channel initialised with timing set A. What a Yn:YCMD, a HOLD or a
FREQSW written in step 3 has begun or left waiting is broken off: no rule says how it meets steps 5 and 6 (DESIGN CHOICE, log
78). -/
def Chan.initialised (x : Chan) : Chan := { x.breakOff with hold := false, setB := false }

/-- Start-up is past step 3 and steps 5 and 6 have not begun: it waits for DP:LOCKDRAM (log 63). -/
def State.bootWaits (s : State) : Bool := decide (4 ≤ s.boot.stage) && !s.boot.carding && !s.boot.trained

/-- Steps 5 and 6 may begin: step 3 is over and Carding finds DP:LOCKDRAM free, for which it waits as any engine (R65, R395,
R431; log 63). -/
def State.mayTrain (s : State) : Bool := s.cardingOn && s.bootWaits && s.dramFree

/-- Steps 5 and 6: Carding takes DP:LOCKDRAM, both channels are initialised, then trained or left untrained (R59, R65,
R67). -/
def State.bootTrain (s : State) : State :=
  if s.mayTrain then
    let s := ({ s with chans := vmap Chan.initialised s.chans }).takeLock .dram lockCarding
    let s := { s with boot := { s.boot with stage := if s.boot.halted then 4 else 6, carding := true } }
    (if s.boot.straps.boottrn then s.beginSweep 0 .boot else s).scaleAll
  else s

/-- Step 3 completes once REFCLK is present and the four sensors have completed a first conversion (R59, R62). -/
def State.bootGo (s : State) : State :=
  if s.powered && s.boot.stage == 3 && s.boot.sensed && s.time.refclk && !s.dp.fatal then s.bootOn.scaleAll.bootTrain else s

/-- Start-up as far as it runs at once: steps 1 and 2 (R59 to R61). -/
def State.bootRun (s : State) : State :=
  if s.supplied && s.boot.porst then ({ s with boot := { s.boot with stage := 3 } }).scaleAll else s

/-- PORST# rises: straps sampled, start-up begins unless a supply holds the part in POR (R38, R46, R59). -/
def execStartUp (st : Straps) (bad : BitVec 17) (s : State) : Host.Outcome State Fault Refusal :=
  .next (
    if s.boot.porst then s
    else ({ s with boot := { s.boot with porst := true, straps := st, badBanks := bad } }).bootRun)

/-- A supply enters its limits; with the last one, and PORST# high, start-up runs (R42, Table 2.10). -/
def execSupplyReturn (x : Supply) (s : State) : Host.Outcome State Fault Refusal :=
  .next (if s.supplied then s else (s.setSupply x true).bootRun)

/-- Step 8: READY, BOOTSTG = 8, DP:LOCKDRAM freed, DP:GCTL.EN in effect (R59, R60, R69, R70). The count of 100 REFCLK
periods to the next lookahead sample starts afresh here (R134 gives no phase; DESIGN CHOICE, log 48). -/
def execStartupComplete (s : State) : Host.Outcome State Fault Refusal :=
  .next (
    if s.powered && !s.dp.fatal && s.boot.stage == 7 then
      let s := { s with
        boot := { s.boot with stage := 8 }
        dp := { s.dp with ready := true, readySeen := true }
        sampleTick := s.time.ticks }
      s.cardingFree.startAllPins.scaleAll
    else s)

/-! ### Warm device reset (Table 3.2, Table 3.3) -/

/-- A path after a DEV reset. A read that was waiting completes with 0x0000 (R49, R360). A posted write that has not landed
is discarded: R419 settles that of a PATH reset alone (DESIGN CHOICE, log 69). -/
def PathSt.devReset (x : PathSt) : PathSt :=
  { PathSt.reset with
    readData := if x.readWait.isSome then 0 else x.readData
    ptr := x.ptr, ack := x.ack, readSeq := x.readSeq, alertByte := x.alertByte, inReset := x.inReset }

/-- A queue after a DEV reset: its CONFIG words, VFAIL and the latched map stay (Table 3.3, R509). -/
def Queue.devReset (x : Queue) : Queue :=
  { Queue.reset with
    qcfg := x.qcfg, qmapL := x.qmapL, qmapH := x.qmapH, qbaseL := x.qbaseL, qbaseH := x.qbaseH, qsizeL := x.qsizeL
    qsizeH := x.qsizeH, vfail := x.vfail, map := x.map }

/-- A port after a DEV reset: what its clock detectors hold stays. -/
def Port.devReset (x : Port) : Port := { Port.reset with noclk := x.noclk, stopped := x.stopped, fast := x.fast }

/-- A channel after a DEV reset, in self-refresh with YnRESET# high (R242, Table 2.11): timing sets, training and the set in force stay (Table 3.3, R465). -/
def Chan.devReset (x : Chan) : Chan :=
  { Chan.reset with
    st := x.rest, failed := x.failed, resetN := true, setB := x.setB, carryA := x.carryA, carryB := x.carryB
    tA := x.tA, tB := x.tB, taps := x.taps, vref := x.vref, lfail0 := x.lfail0, lfail1 := x.lfail1, fstep := x.fstep
    ttrain := x.ttrain, therm := x.therm, phyClk := x.phyClk, trackerTick := x.trackerTick, bucketTick := x.bucketTick
    zqTick := x.zqTick }

/-- Locks that are held. -/
def State.heldLocks (s : State) : Nat :=
  (([.config, .time, .dram] : List LockId).filter fun l => (s.lock l).holder.val != 0).length

/-- Steps 1 to 3 up to the vote: every field of class DEV and of the classes it contains at its reset value. Each lock
held counts LOCKBRK after the counters are cleared (R76, R395, log 32). The hold of the WSYNC lines after a lost link (R55) ends
here with the link state, which Table 3.3 does not say (DESIGN CHOICE, log 81). -/
def State.devReset (s : State) : State :=
  let n := s.heldLocks
  let t := s.time
  let s := { s with
    boot := { s.boot with warm := true, halted := false, warmed := 0 }
    dp := { Direct.reset with
      sealV := s.dp.sealV, sealDone := s.dp.sealDone, slotId := s.dp.slotId, slotDone := s.dp.slotDone, temp := s.dp.temp }
    pathA := s.pathA.devReset
    pathB := s.pathB.devReset
    events := []
    time := { t with arm := false, tsout := 0, tsoutNow := 0, tsoutPend := none, pulse := none }
    cal := Cal.reset
    wins := Vector.replicate 16 Window.reset
    gov := { s.gov.renew with acc8 := 0, tick := t.ticks }
    queues := vmap Queue.devReset s.queues
    ports := vmap Port.devReset s.ports
    chans := vmap Chan.devReset s.chans
    azl := { Azl.reset with acfg := s.azl.acfg, ainq := s.azl.ainq, wsync := s.azl.wsync }
    land := { Land.reset with retired := s.land.retired, rest := if s.land.retired = 0 then 16 else 31 }
    sampleTick := t.ticks }
  (allQ.foldl State.clearLookahead (s.countN Ev.lockbrk 0 n)).scaleAll

/-- A global voted word is in VOTEFAIL. -/
def State.globalFailed (s : State) : Bool :=
  allRefs.any fun r => match r with
    | .queue _ _ => false
    | _ => (s.vget r).failed

/-- A junction sensor reads 155 °C or more (R432). -/
def State.tooHot (s : State) : Bool := s.gov.tsens.toList.any fun t => decide (620 ≤ sint t)

/-- Step 5 for one channel: out of self-refresh with a tracking update of each rank, or a sweep after a move of 20 °C; a
channel that carries no training stays as it is (R75). Without REFCLK it waits as in R427. -/
def State.warmChan (s : State) (c : YId) : State :=
  let x := s.ch c
  if x.st != .selfref then s
  else if !s.time.refclk then s.setCh c { x with noRef := true }
  else if s.tempMoved c then (s.setCh c { x with waiting := some (some .warm, s.order) }).nextOrder
  else s.setCh c (x.rouse s.time.ticks).owe

/-- Step 5 is complete on a channel: no sweep and no tracking update is outstanding. -/
def Chan.warmed (x : Chan) : Bool := x.sweeping.isNone && x.waiting.isNone && !x.noRef && x.must.toList.all (!·)

/-- Step 5 has begun on `n` channels. -/
def State.warmNext (s : State) (n : Nat) : State := { s with boot := { s.boot with warmed := n } }

/-- Step 5 goes from one channel to the next: Y1 follows once Y0's is complete (Table 3.2). -/
def State.warmOn (s : State) : State :=
  if s.boot.warm && !s.dp.fatal && s.boot.warmed == 1 && (s.ch 0).warmed then (s.warmChan 1).warmNext 2 else s

/-- The voted words of class POR: all but the locks, which class DEV clears (Table 3.3, R378). -/
def porRefs : List VRef := allRefs.filter fun r => match r with
  | .lock _ => false
  | _ => true

/-- The end of step 3: the POR-class voted words, in which the upsets of the operand have come about, are compared (R76,
R380). -/
def State.warmVote (s : State) (ups : List Upset) : State :=
  porRefs.foldl State.compare
    ((ups.filter fun u => porRefs.contains u.ref).foldl (fun s (u : Upset) => s.vset u.ref ((s.vget u.ref).flip u.flips)) s)

/-- A warm device reset started on a path, as far as it runs at once (R74 to R78, R425). -/
def State.warmReset (s : State) (p : Path) (bad : BitVec 17) (ups : List Upset) : State :=
  let s := s.devReset
  let s := { s with boot := { s.boot with rstCause := match p with
    | .a => 2
    | .b => 3 } }
  let s := s.warmVote ups
  if s.globalFailed || s.tooHot then ({ s with boot := { s.boot with warm := false } }).enterFatal.scaleAll
  else (((s.landTest bad).warmChan 0).warmNext 1).warmOn.scaleAll

/-- A write of DP:GCTL that changes EN and HEARTEN (R70, R430): clearing EN acts as clearing every PCTL.EN. The open segment
of a port whose clock is absent is closed at once too, which R84 and R122 leave open (DESIGN CHOICE, log 60). -/
def State.gctlWrite (s : State) (en heart : Bool) : State :=
  let was := s.dp.en
  let s := { s with dp := { s.dp with en := en, heartEn := heart, heart := s.dp.heart && heart } }
  if was && !en then
    let s := allP.foldl (fun s n =>
      if (s.po n).en && !s.isUpper n then (s.disablePort n).modPo n fun x => { x with en := true } else s) s
    s.startAllPins.scaleAll
  else if !was && en then s.startAllPins.scaleAll
  else s

/-- Step 5 of a warm device reset is complete on both channels; FATAL, which leaves them in self-refresh, has nothing of it
to wait for (R74, R423; log 30). -/
def State.warmReady (s : State) : Bool := s.dp.fatal || (s.boot.warmed == 2 && allY.all fun c => (s.ch c).warmed)

/-- The governor resumes with a new interval (Table 3.2, step 6); in FATAL it has been running. -/
def State.govResume (s : State) : State :=
  if s.dp.fatal then s
  else
    let s := s.govRenew
    { s with gov := { s.gov with acc8 := 0, tick := s.time.ticks } }

/-- Step 6 (R69, R74): its Landing test has not stopped it and step 5 is complete on both channels. It waits for REFCLK in
any case, with no trained channel too, since the sequence runs on REFCLK's timers (the spec does not say; DESIGN CHOICE, log
42); and the count of 100 REFCLK periods to the next lookahead sample starts afresh (log 48). -/
def execWarmResetComplete (s : State) : Host.Outcome State Fault Refusal :=
  .next (
    if s.powered && s.boot.warm && !s.boot.halted && s.time.refclk && s.warmReady then
      let s := ({ s with
        boot := { s.boot with warm := false }
        dp := { s.dp with ready := true, readySeen := true }
        sampleTick := s.time.ticks }).govResume
      s.cardingFree.startAllPins.scaleAll
    else s)

/-! ### PATH resets (R361, R366, R395, R419, R420) -/

/-- A lock held by a path leaves it with LOCKBRK. -/
def State.breakLock (s : State) (p : Path) (l : LockId) : State :=
  if s.holds p l then (s.lockLeaves l p).count Ev.lockbrk 0 else s

/-- A path's own state after its PATH reset: a posted write stays on its way, the BUSY it set is reset (R419). -/
def PathSt.pathReset (x : PathSt) : PathSt :=
  { x with
    bankSel := 0, staging := [], holdTime := none, holdPps := none, holdGen := none, asel := 0, readWait := none
    posted := x.posted.map fun (w : Posted) => { w with quiet := true } }

def State.pathReset (s : State) (p : Path) : State :=
  ((((s.breakLock p .config).breakLock p .time).breakLock p .dram).modPath p PathSt.pathReset).chanChanged.bootTrain

/-- HRST# low for 100 ns: path A is reset and held so until HRST# rises; in POR, where everything is reset already, the hold
alone stays for the paths' start (R361). -/
def execPathAReset (ns : Nat) (s : State) : Host.Outcome State Fault Refusal :=
  .next (
    if ns < 100 then s
    else
      let s := if s.powered then s.pathReset .a else s
      { s with pathA := { s.pathA with inReset := true } })

def execHrstRise (s : State) : Host.Outcome State Fault Refusal :=
  .next { s with pathA := { s.pathA with inReset := false } }

def execMsclLowTimeout (s : State) : Host.Outcome State Fault Refusal := .next (if s.powered then s.pathReset .b else s)

/-- A general call: with command byte 0x06 a PATH reset, which path B acknowledges; every other is not acknowledged
(R366). -/
def execGeneralCallReset (s : State) (cmd : BitVec 8 := 0x06) : Host.Outcome State Fault Refusal :=
  .next (
    if s.powered then
      if cmd = 0x06 then (s.pathReset .b).modPath .b fun x => { x with ack := true }
      else s.modPath .b fun x => { x with ack := false }
    else s)

/-! ### REFCLK (R426, R427, Table 13.6) -/

/-- The channel was trained and in service before what runs on it (Table 13.6). -/
def Chan.inService (x : Chan) : Bool :=
  match x.st with
  | .active | .selfref => true
  | .drain | .freqsw => x.prior == .active || x.prior == .selfref
  | _ => false

/-- A channel when REFCLK goes: trained, it rests in self-refresh with what runs on it held; the PHY clock stops. -/
def Chan.refLoss (x : Chan) : Chan :=
  { x with
    phyClk := false, rows := Vector.replicate 16 none, gap := Vector.replicate 2 none, must := Vector.replicate 2 false
    st := if x.st = .active then .selfref else x.st, noRef := x.inService }

def execRefclkLoss (s : State) : Host.Outcome State Fault Refusal :=
  .next (
    let s := { s with time := { s.time with refclk := false } }
    if s.powered then
      ({ s with
        dp := { s.dp with heart := false }
        chans := vmap Chan.refLoss s.chans
        azl := { s.azl with out := s.azl.out.toDown none } }).chanChanged
    else s)

/-- A channel that REFCLK has come back to: one that was ACTIVE or SELFREF leaves self-refresh with one tracking update due
per rank, or goes through step 5 of a warm device reset; a drain, sweep or frequency change goes on; in FATAL it stays in
self-refresh (R427). The idle time goes on from the value it held (Table 13.6). -/
def State.refBack (s : State) (c : YId) : State :=
  let x := { s.ch c with phyClk := true }
  let s := s.setCh c { x with noRef := false }
  if !x.noRef || s.dp.fatal || x.st != .selfref then s
  else if s.boot.warm then (if c.val < s.boot.warmed then s.warmChan c else s)
  else
    let s := s.modCh c fun x => { (x.rouse s.time.ticks).owe with idleSince := x.idleSince }
    if s.tempMoved c then s.trigger c else s

/-- REFCLK returns; a start-up that waited for it and a warm device reset go on (R62, Table 3.2). -/
def State.refReturn (s : State) : State :=
  if s.time.refclk then s
  else
    let s := { s with time := { s.time with refclk := true } }
    if !s.powered then s
    else if 3 < s.boot.stage then ((s.refBack 0).refBack 1).warmOn.chanChanged.bootTrain
    else s.bootGo

end Sys2Proof.Machine
end

