-- ==== Sys2Proof/Machine/Operands.lean ====
section
/-!
DEFINITION. The register map: which word of the host window names what, in which domain it lies, which multi-word register
it belongs to, which lock resource covers it and which voted word it is.
-/

namespace Sys2Proof.Machine

/-! ### Banks (R354, R355, Table 12.1) -/

/-- The bank that a BANKSEL value opens; none for a value absent from Table 12.1. -/
def bankAt (sel : Nat) : Option Bank :=
  if h : sel < 16 then some (.queue ⟨sel, h⟩)
  else match sel with
    | 0x10 => some (.port 0)
    | 0x11 => some (.port 1)
    | 0x12 => some (.port 2)
    | 0x13 => some (.port 3)
    | 0x18 => some (.yard false)
    | 0x19 => some (.yard true)
    | 0x20 => some (.chan 0)
    | 0x21 => some (.tset 0 false)
    | 0x22 => some (.tset 0 true)
    | 0x23 => some (.phy 0)
    | 0x24 => some (.chan 1)
    | 0x25 => some (.tset 1 false)
    | 0x26 => some (.tset 1 true)
    | 0x27 => some (.phy 1)
    | 0x28 => some .time
    | 0x29 => some .cal
    | 0x2A => some .win
    | 0x30 => some .azl
    | 0x34 => some .land
    | 0x35 => some .evt
    | 0x3A => some .gov
    | 0x3F => some .ident
    | _ => none

/-- The BANKSEL value of a bank. -/
def Bank.sel : Bank → Nat
  | .queue q => q.val
  | .port n => 0x10 + n.val
  | .yard hi => if hi then 0x19 else 0x18
  | .chan c => 0x20 + 4 * c.val
  | .tset c b => 0x21 + 4 * c.val + (if b then 1 else 0)
  | .phy c => 0x23 + 4 * c.val
  | .time => 0x28
  | .cal => 0x29
  | .win => 0x2A
  | .azl => 0x30
  | .land => 0x34
  | .evt => 0x35
  | .gov => 0x3A
  | .ident => 0x3F

/-- What a host word of a path names: a direct-page word, a word of the selected bank, or nothing. -/
inductive Target where
  | direct (off : Nat)
  | banked (b : Bank) (off : Nat)
  | void
  deriving DecidableEq, Repr

def State.target (s : State) (p : Path) (word : Nat) : Target :=
  if word < 64 then .direct word
  else match bankAt (s.path p).bankSel.toNat with
    | some b => .banked b (word - 64)
    | none => .void

/-- The words of a bank that are implemented (R11; Tables 14.1, 14.2, 15.1, 15.2, 16.1 to 16.4). -/
def Bank.has (b : Bank) (off : Nat) : Bool :=
  match b with
  | .queue _ => decide (off ≤ 0x1C) || decide (0x20 ≤ off ∧ off ≤ 0x3D)
  | .port _ => decide (off ≤ 9)
  | .yard _ | .win => decide (off < 64)
  | .chan _ => decide (off ≤ 6) || decide (8 ≤ off ∧ off ≤ 0x1E)
  | .tset _ _ => decide (off ≤ 0xE)
  | .phy _ => decide (off ≤ 0x13)
  | .time => decide (off ≤ 0x15)
  | .cal => decide (off ≤ 8)
  | .azl => decide (off ≤ 0xB)
  | .land => decide (off ≤ 6)
  | .evt => decide (off ≤ 0x19)
  | .gov => decide (off ≤ 0xA)
  | .ident => decide (off ≤ 9)

def Target.has : Target → Bool
  | .direct off => decide (off ≤ 0x22)
  | .banked b off => b.has off
  | .void => false

/-- An access to the word is posted: a word of a posted bank other than the core copy Pn:PSTS (R11, R373). -/
def Bank.posted (b : Bank) (off : Nat) : Bool :=
  b.has off &&
  (match b with
   | .port _ => off != 2
   | .tset _ _ | .phy _ => true
   | _ => false)

/-- The clock of the word's domain runs (R368, R369). -/
def State.clockOn (s : State) (b : Bank) : Bool :=
  match b with
  | .port n => !(s.po (s.master n)).noclk
  | .tset c _ | .phy c => (s.ch c).phyOn
  | _ => true

/-! ### Multi-word registers (R8, R374, R375) -/

/-- The register of a word: offset of its lowest word, number of words. -/
def Bank.group (b : Bank) (off : Nat) : Nat × Nat :=
  let run (base n : Nat) : Nat × Nat := (base + (off - base) / n * n, n)
  match b with
  | .queue _ =>
    if 2 ≤ off ∧ off ≤ 7 then run 2 2
    else if 8 ≤ off ∧ off ≤ 0x13 then run 8 3
    else if 0x20 ≤ off ∧ off ≤ 0x3D then run 0x20 3
    else (off, 1)
  | .port _ => if 7 ≤ off ∧ off ≤ 9 then (7, 3) else (off, 1)
  | .yard _ => run 0 2
  | .chan _ =>
    if off ≤ 1 then (0, 2)
    else if 4 ≤ off ∧ off ≤ 6 then (4, 3)
    else if 8 ≤ off ∧ off ≤ 0x13 then run 8 3
    else if 0x14 ≤ off ∧ off ≤ 0x17 then (0x14, 4)
    else if 0x18 ≤ off ∧ off ≤ 0x1D then run 0x18 2
    else (off, 1)
  | .phy _ => if off = 7 ∨ off = 8 then (7, 2) else if off = 0xD ∨ off = 0xE then (0xD, 2) else (off, 1)
  | .time =>
    if off = 2 ∨ off = 3 then (2, 2)
    else if 4 ≤ off ∧ off ≤ 8 then (4, 5)
    else if 0x11 ≤ off ∧ off ≤ 0x13 then (0x11, 3)
    else (off, 1)
  | .cal => if off = 3 ∨ off = 4 then (3, 2) else (off, 1)
  | .win => run 0 4
  | .azl => if off = 6 ∨ off = 7 then (6, 2) else if off = 8 ∨ off = 9 then (8, 2) else (off, 1)
  | .land => if off = 3 ∨ off = 4 then (3, 2) else (off, 1)
  | .ident => if off = 3 ∨ off = 4 then (3, 2) else (off, 1)
  | _ => (off, 1)

/-- A write to the word is staged: it is a higher word of a writable multi-word register. -/
def Bank.stages (b : Bank) (off : Nat) : Bool :=
  (b.group off).1 != off &&
  (match b with
   | .queue _ => decide (off ≤ 0x13)
   | .yard _ | .time | .cal | .win => true
   | .chan _ => decide (off ≤ 0x17)
   | .phy _ => off == 0xE
   | _ => false)

/-! ### Locks and votes (R215, R327, R378, R393, R465) -/

/-- The resource that a writable word belongs to. -/
def Bank.lockOf (b : Bank) (off : Nat) : Option LockId :=
  match b with
  | .queue _ => if 1 ≤ off ∧ off ≤ 7 then some .config else none
  | .yard _ => some .config
  | .azl => if off ≤ 1 then some .config else none
  | .chan _ => if off ≤ 2 ∨ (4 ≤ off ∧ off ≤ 6) ∨ (8 ≤ off ∧ off ≤ 0x17) then some .dram else none
  | .tset _ _ => some .dram
  | .phy _ => if off ≤ 6 ∨ off = 0xB ∨ (0xD ≤ off ∧ off ≤ 0x10) then some .dram else none
  | .time => if off ≤ 8 ∨ (0xF ≤ off ∧ off ≤ 0x14) then some .time else none
  | .cal => if off ≤ 4 ∨ (6 ≤ off ∧ off ≤ 8) then some .time else none
  | .win => some .time
  | _ => none

/-- Entry of a Sort yard word (R463). -/
def yardEntry (hi : Bool) (off : Nat) : Fin 64 :=
  ⟨(if hi then 32 else 0) + off / 2 % 32, by split <;> omega⟩

/-- The voted word that a bank word is. -/
def Bank.vref (b : Bank) (off : Nat) : Option VRef :=
  match b with
  | .queue q => if h : 1 ≤ off ∧ off ≤ 7 then some (.queue q ⟨off - 1, by omega⟩) else none
  | .yard hi => some (.sortYard (yardEntry hi off) (off % 2 == 1))
  | .azl => if off = 0 then some .acfg else if off = 1 then some .ainq else none
  | .gov => if off = 0 then some .floor else if off = 1 then some .ceil else if off = 2 then some .margin else none
  | .time => if off = 0 then some .discMode else none
  | .tset c b => if h : off < 15 then some (.tset c b ⟨off, h⟩) else none
  | _ => none

def Target.vref : Target → Option VRef
  | .direct off => if off = 6 then some (.lock .config) else if off = 7 then some (.lock .time)
      else if off = 8 then some (.lock .dram) else none
  | .banked b off => if b.has off then b.vref off else none
  | .void => none

/-- Direct-page words that stay writable in FATAL (R424); DP:GCTL with DEVRST beside them. -/
def fatalOk (off : Nat) (v : Word) : Bool :=
  off == 4 || off == 0xC || off == 0xD || off == 0x12 || off == 0x13 || off == 0x14 || off == 0x1D
    || (off == 2 && bit v 1)

/-! ### Selected events (R384) -/

/-- Class and instance that an EVSEL value selects. -/
def evSelected (v : Word) : Option (Nat × Nat) :=
  let c := fld v 0 8
  let i := fld v 8 4
  if c ∉ evCodes then none
  else if isQueueClass c then some (c, i)
  else if isPathClass c then (if i < 2 then some (c, i) else none)
  else some (c, 0)

end Sys2Proof.Machine
end

