-- ==== Sys2Proof/Machine/RegRead.lean ====
section
/-!
DEFINITION. What every register reads: conditions, live words of the direct page and of each bank, the snapshot view, the
read holding register, and a host read on a path.
-/

namespace Sys2Proof.Machine

/-! ### Conditions (R382, R388, R422) -/

/-- DP:GSTS.TRAINING: start-up steps 5 and 6, whether or not a sweep runs, and every hardware sweep (R65, R428). -/
def State.training (s : State) : Bool := s.boot.carding || allY.any fun c => (s.ch c).sweeping.isSome

/-- DP:GSTS.DEGRADED (Table 13.5). -/
def State.degraded (s : State) : Bool :=
  s.strapsBad || decide (2 ≤ bankCount s.land.retired) || allY.any (fun c => (s.ch c).failed)

def State.evPend (s : State) (c i : Nat) : Bool := (s.ev c i).cnt != (s.ev c i).ack
def State.evOvf (s : State) (c i : Nat) : Bool := (s.ev c i).cnt == 0xFFFF

/-- The instances of a class. -/
def evInsts (c : Nat) : List Nat := if isQueueClass c then List.range 16 else if isPathClass c then [0, 1] else [0]

/-- A word of bits 0 to 15. -/
def bits16 (f : Nat → Bool) : Word := (List.range 16).foldl (fun acc i => acc ||| flagAt (f i) i) 0

/-- A lost billet lies between H and W (R195). -/
def Queue.lost (x : Queue) : Bool := x.billets.any (·.lost)

/-- An enabled Azlin link end is not UP. -/
def State.azDown (s : State) : Bool :=
  (bit s.azl.acfg.val 0 && s.azl.out.st != .up)
  || (bit s.azl.acfg.val 1 && (s.boot.straps.wtwin || s.boot.straps.caspos != 0) && s.azl.inn.st != .up)

/-- DP:IRQSTS0 (Table 12.7). -/
def State.irqsts0 (s : State) : Word :=
  bits16 fun i => match i with
    | 0 => evCodes.any fun c => !isQueueClass c && (evInsts c).any (s.evPend c)
    | 1 => evCodes.any fun c => (evInsts c).any (s.evOvf c)
    | 2 => s.dp.fatal
    | 3 => s.degraded
    | 4 => s.noSpare
    | 5 => allQ.any fun q => (s.qu q).vfail
    | 6 => allQ.any fun q => (s.qu q).lost
    | 7 => allY.any fun c => (s.ch c).pend.isSome
    | 8 => allY.any fun c => (s.ch c).therm
    | 9 => allP.any fun n => s.noclkAt n && (s.po n).en
    | 10 => s.azDown
    | 11 => !s.time.refclk
    | 12 => s.time.ppsMiss
    | 13 => s.cal.bad
    | 14 => allQ.any fun q => (s.qu q).marks.length == 4
    | _ => false

/-- DP:IRQSTS1 (R388). -/
def State.irqsts1 (s : State) : Word :=
  bits16 fun q => [0x10, 0x11, 0x12, 0x13, 0x14, 0x15].any fun c => s.evPend c q

/-- HINT# (path A) or MALERT# (path B) is driven low (R389); both are released in POR and in a warm device reset. -/
def State.irqLine (s : State) (p : Path) : Bool :=
  s.hostOn && ((s.irqsts0 &&& (s.path p).irq0 != 0) || (s.irqsts1 &&& (s.path p).irq1 != 0))

/-- The level of a line. -/
def State.hint (s : State) : Level := if s.irqLine .a then .low else .z
def State.malert (s : State) : Level := if s.irqLine .b then .low else .z

/-! ### The direct page (R428) -/

/-- DP:GOVSTS. -/
def State.govsts (s : State) : Word :=
  let g := s.gov
  let st := if s.boot.warm || s.dp.fatal then 3 else if s.boot.stage < 7 then 0 else if g.fixed then 2 else 1
  at' g.code 0 ||| at' st 4 ||| flagAt (g.code == g.effFloor) 8 ||| flagAt (g.code == g.effCeil) 9
    ||| flagAt (g.code == g.effCeil && g.lacks) 10

/-- TNOW0 to TNOW4 and TEPOCH of a stamp. -/
def Stamp.word (t : Stamp) (i : Nat) : Word :=
  match i with
  | 0 => wordOf t.ns 0
  | 1 => wordOf t.ns 1
  | 2 => wordOf t.sec 0
  | 3 => wordOf t.sec 1
  | 4 => wordOf t.sec 2
  | _ => t.epoch.zeroExtend 16

/-- The snapshot view is in force on a path (R199). -/
def State.inView (s : State) (p : Path) : Bool := (s.path p).snapView && (s.path p).snapValid

/-- The stamp that TNOW0 to TEPOCH read on a path: the snapshot, the latched one, or the live one (R199, R321). -/
def State.timeShown (s : State) (p : Path) : Stamp :=
  if s.inView p then (s.path p).snap.time else (s.path p).holdTime.getD s.stamp

def boolWord (b : Bool) : Word := flagAt b 0

/-- A direct-page word as a path reads it. -/
def State.directWord (s : State) (p : Path) (off : Nat) : Word :=
  let x := s.path p
  match off with
  | 0x00 => 0x4816
  | 0x01 => 0x00A1
  | 0x02 => flagAt s.dp.en 0 ||| flagAt s.dp.heartEn 2
  | 0x03 => flagAt s.dp.ready 0 ||| flagAt s.training 1 ||| flagAt s.degraded 2 ||| flagAt s.dp.fatal 3
      ||| flagAt s.noSpare 4
  | 0x04 => x.bankSel.zeroExtend 16
  | 0x05 => flagAt (x.posted.any fun w => !w.quiet) 0 ||| at' (lockCode p).toNat 1
  | 0x06 => (s.lock .config).holder.val
  | 0x07 => (s.lock .time).holder.val
  | 0x08 => (s.lock .dram).holder.val
  | 0x09 => s.dp.lease
  | 0x0A => s.irqsts0
  | 0x0B => s.irqsts1
  | 0x0C => x.irq0
  | 0x0D => x.irq1
  | 0x0E => bits16 fun q => s.efQ (Fin.ofNat 16 q)
  | 0x0F => bits16 fun q => s.aeQ (Fin.ofNat 16 q)
  | 0x10 => bits16 fun q => s.afQ (Fin.ofNat 16 q)
  | 0x11 => bits16 fun q => s.ffQ (Fin.ofNat 16 q)
  | 0x12 => x.evSel
  | 0x13 => match evSelected x.evSel with
    | some (c, i) => (s.ev c i).cnt
    | none => 0
  | 0x14 => match evSelected x.evSel with
    | some (c, i) => (s.ev c i).ack
    | none => 0
  | 0x15 => s.dp.errAddr
  | 0x16 => s.dp.errInfo
  | 0x17 => (s.timeShown p).word 0
  | 0x18 => (s.timeShown p).word 1
  | 0x19 => (s.timeShown p).word 2
  | 0x1A => (s.timeShown p).word 3
  | 0x1B => (s.timeShown p).word 4
  | 0x1C => (s.timeShown p).word 5
  | 0x1D => flagAt x.snapView 1 ||| flagAt x.snapValid 15
  | 0x1E => s.dp.sealV
  | 0x1F => s.dp.slotId
  | 0x20 => s.dp.temp
  | 0x21 => s.gov.vcoreMv
  | 0x22 => s.govsts
  | _ => 0

/-! ### Queue and port banks (Tables 15.1, 15.2) -/

def Queue.threshold (x : Queue) : Nat → Pos
  | 0 => x.afon
  | 1 => x.afoff
  | 2 => x.aeon
  | _ => x.aeoff

def Queue.ledger (x : Queue) : Nat → Pos
  | 0 => x.w - x.h
  | 1 => x.w - x.r
  | 2 => x.wcnt
  | 3 => x.rcnt
  | 4 => x.xcnt
  | _ => x.dcnt

/-- Qn:QSTS. -/
def State.qsts (s : State) (q : QId) : Word :=
  let x := s.qu q
  flagAt x.efReg 0 ||| flagAt x.aeReg 1 ||| flagAt x.hf 2 ||| flagAt x.afReg 3 ||| flagAt x.ffReg 4 ||| flagAt x.afth 5
    ||| flagAt x.afla 6 ||| flagAt (s.isOpen q) 7 ||| flagAt (x.marks.length == 4) 8 ||| flagAt x.lost 9
    ||| flagAt x.vfail 10 ||| flagAt x.resetting 11 ||| flagAt (s.spillHeld q) 12

/-- Qn:MARKS. -/
def Queue.marksWord (x : Queue) : Word :=
  at' x.marks.length 0 |||
  (match x.markPend with
   | none => 0
   | some .mark => at' 1 4
   | some (.rewind i) => at' 3 4 ||| at' (i % 4) 8)

def State.queueWord (s : State) (q : QId) (off : Nat) : Word :=
  let x := s.qu q
  if h : 1 ≤ off ∧ off ≤ 7 then (x.vword ⟨off - 1, by omega⟩).val
  else if 8 ≤ off ∧ off ≤ 0x13 then wordOf (x.threshold ((off - 8) / 3)) ((off - 8) % 3)
  else if 0x20 ≤ off ∧ off ≤ 0x31 then wordOf (x.ledger ((off - 0x20) / 3)) ((off - 0x20) % 3)
  else if 0x32 ≤ off ∧ off ≤ 0x3D then wordOf (x.marks.getD ((off - 0x32) / 3) 0) ((off - 0x32) % 3)
  else match off with
    | 0x00 => boolWord x.en
    | 0x14 => x.ffres
    | 0x15 => x.afmode
    | 0x16 => x.afttf
    | 0x17 => x.afalpha
    | 0x18 => s.qsts q
    | 0x19 => x.marksWord
    | 0x1A => s.winMask q
    | 0x1B => x.disc
    | 0x1C => s.pendReg q
    | _ => 0

/-- Pn:PSTS (R459). -/
def State.psts (s : State) (n : PId) (credit : Nat) : Word :=
  let x := s.po (s.master n)
  flagAt x.noclk 0 ||| flagAt (x.perrcnt != 0) 1 ||| flagAt x.s3 2 ||| at' (min 255 credit) 8

def State.portWord (s : State) (n : PId) (off : Nat) : Word :=
  let x := s.po n
  match off with
  | 0 => boolWord x.en
  | 1 => x.cfg
  | 2 => s.psts n (s.portCredit n)
  | 3 => x.perrcnt
  | 4 => x.flagq
  | 5 => x.ptagmiss
  | 6 => flagAt x.capTrig 1 ||| flagAt x.capDone 8
  | 7 => x.capt0
  | 8 => x.capt1
  | 9 => x.capt2
  | _ => 0

/-- A Sort yard word: an entry in VOTEFAIL reads 0 in both words (R464). -/
def State.yardWord (s : State) (hi : Bool) (off : Nat) : Word :=
  let e := yardEntry hi off
  if (s.vget (.sortYard e false)).failed || (s.vget (.sortYard e true)).failed then 0
  else (s.vget (.sortYard e (off % 2 == 1))).val

/-! ### DRAM banks (Tables 16.1 to 16.3) -/

def ChState.code : ChState → Nat
  | .untrained => 0
  | .active => 1
  | .selfref => 2
  | .freqsw => 3
  | .drain => 4
  | .reset => 5
  | .absent => 6
  | .failed => 7

/-- The state as Yn:YSTS.STATE reads it: SELFREF for a trained channel while REFCLK is absent (Table 13.6). -/
def Chan.shownState (x : Chan) : ChState := if x.noRef then .selfref else x.st

/-- Yn:YSTS. -/
def Chan.ysts (x : Chan) : Word :=
  at' x.shownState.code 0 ||| flagAt x.setB 3 ||| flagAt x.therm 4 ||| flagAt x.pend.isSome 5 ||| flagAt x.carryA 6
    ||| flagAt x.carryB 7 ||| flagAt x.dens 8 ||| flagAt x.ranks 9

/-- YBALLOC to YBFLT, from their offset 0x18. -/
def YSnap.word (y : YSnap) (i : Nat) : Word :=
  match i with
  | 0 => at' (y.alloc % 65536) 0
  | 1 => at' (y.alloc / 65536 % 64) 0
  | 2 => at' (y.land % 65536) 0
  | 3 => at' (y.land / 65536 % 64) 0
  | 4 => at' (y.boom % 65536) 0
  | 5 => at' (y.boom / 65536 % 64) 0
  | _ => at' (y.flt % 16) 0

def Qos.word (k : Qos) : Nat → Word
  | 0 => k.rate
  | 1 => k.burst
  | _ => k.lat

def State.chanWord (s : State) (c : YId) (off : Nat) : Word :=
  let x := s.ch c
  if 8 ≤ off ∧ off ≤ 0x13 then (x.qos.getD ((off - 8) / 3) ⟨0, 0, 0⟩).word ((off - 8) % 3)
  else if 0x18 ≤ off ∧ off ≤ 0x1E then (s.chanCounts c).word (off - 0x18)
  else match off with
    | 0x00 => x.ctlL
    | 0x01 => x.ctlH
    | 0x03 => x.ysts
    | 0x04 => x.hamThresh
    | 0x05 => x.hamSpace
    | 0x06 => x.hamHits
    | 0x14 => wordOf x.tregBase 0
    | 0x15 => wordOf x.tregBase 1
    | 0x16 => wordOf x.tregLen 0
    | 0x17 => wordOf x.tregLen 1
    | _ => 0

def State.tsetWord (s : State) (c : YId) (b : Bool) (off : Nat) : Word :=
  if h : off < 15 then (s.ch c).tword b ⟨off, h⟩ else 0

def State.phyWord (s : State) (c : YId) (off : Nat) : Word :=
  let x := s.ch c
  match off with
  | 0x00 => x.defermax
  | 0x01 => x.tapsel
  | 0x02 => x.readTap .wldly
  | 0x03 => x.readTap .gate
  | 0x04 => x.readTap .rddly
  | 0x05 => x.readTap .wrdly
  | 0x06 => x.readTap .vref
  | 0x07 => x.lfail0
  | 0x08 => x.lfail1
  | 0x09 => x.fstep
  | 0x0A => x.ttrain
  | 0x0B => boolWord x.hold
  | 0x0C => boolWord x.heldHost
  | 0x0D => x.pgctlL
  | 0x0E => x.pgctlH
  | 0x0F => x.pgseed
  | 0x11 => flagAt x.pgDone 0 ||| flagAt x.run.isSome 1
  | 0x12 => x.cmppass
  | 0x13 => x.cmperr
  | _ => 0

/-! ### Time, calendar, windows (R428, R437) -/

/-- PPSCAP_0 to PPSCAP_4 and PPSSTS. -/
def Time.ppsWord (t : Time) (i : Nat) : Word :=
  if i = 5 then t.ppsSeq.zeroExtend 16 ||| at' t.ppsEpoch.toNat 8
  else (⟨t.ppsSec, BitVec.ofNat 30 t.ppsNs, 0, 0⟩ : Stamp).word i

def Time.word (t : Time) (off : Nat) : Word :=
  if 9 ≤ off ∧ off ≤ 0xE then t.ppsWord (off - 9)
  else match off with
    | 0x00 => t.disc.val ||| flagAt t.arm 4
    | 0x01 => t.stepth
    | 0x02 => wordOf t.rate 0
    | 0x03 => wordOf t.rate 1
    | 0x0F => t.utcOff
    | 0x10 => t.utcNxt
    | 0x11 => wordOf t.utcAt 0
    | 0x12 => wordOf t.utcAt 1
    | 0x13 => wordOf t.utcAt 2
    | 0x14 => t.tsout
    | 0x15 => flagAt (!t.refclk) 0 ||| flagAt t.ppsMiss 1 ||| flagAt (t.slew != 0) 2 ||| flagAt t.utcArmed 3
    | _ => 0

/-- The calendar value that a path sees with VIEW = 0: that of its TNOW0 latch, or the live view (R321, R340). -/
def State.viewFor (s : State) (p : Path) : Int :=
  match (s.path p).holdTime with
  | some t => t.view
  | none => s.view

/-- CAL date and time words in order YEAR, MON, DAY, HMS_L, HMS_H. -/
def State.calWord (s : State) (p : Path) (off : Nat) : Word :=
  let c := s.cal
  let v := s.viewFor p
  let (y, m, d, l, h) := if c.view then (c.year, c.mon, c.day, c.hmsL, c.hmsH) else calWords v
  match off with
  | 0 => y
  | 1 => m
  | 2 => d
  | 3 => l
  | 4 => h
  | 5 =>
    if c.view then (if c.impossible then 0 else at' (dowOf (daysOf c.year.toNat c.mon.toNat c.day.toNat)) 0)
    else at' (dowOf (clampView v / 86400)) 0
  | 8 => flagAt c.view 0 ||| flagAt c.bad 1 ||| flagAt (viewRange s.view) 2
  | _ => 0

def Window.word (x : Window) : Nat → Word
  | 0 => x.w0
  | 1 => x.w1
  | 2 => x.w2
  | _ => x.w3

/-! ### EVT, GOV, IDENT, AZL, LAND -/

/-- EVT words (Table 14.1). -/
def State.evtWord (s : State) (off : Nat) : Word :=
  let any (f : Nat → Nat → Bool) (k : Nat) : Word :=
    bits16 fun i => decide (16 * k + i ∈ evCodes) && (evInsts (16 * k + i)).any (f (16 * k + i))
  let path (f : Nat → Nat → Bool) : Word :=
    flagAt (f 4 0) 0 ||| flagAt (f 5 0) 1 ||| flagAt (f 6 0) 2 ||| flagAt (f 4 1) 8 ||| flagAt (f 5 1) 9 ||| flagAt (f 6 1) 10
  if off ≤ 5 then any s.evPend off
  else if off ≤ 0xB then any s.evOvf (off - 6)
  else if off ≤ 0x11 then bits16 (s.evPend (0x10 + (off - 0xC)))
  else if off ≤ 0x17 then bits16 (s.evOvf (0x10 + (off - 0x12)))
  else if off = 0x18 then path s.evPend
  else if off = 0x19 then path s.evOvf
  else 0

def Gov.word (g : Gov) (off : Nat) : Word :=
  match off with
  | 0 => g.floor.val
  | 1 => g.ceil.val
  | 2 => g.margin.val
  | 3 => g.mode
  | 4 => g.demand
  | 5 => g.capac
  | 6 => g.capdn
  | 7 => g.tsens[0]
  | 8 => g.tsens[1]
  | 9 => g.tsens[2]
  | 0xA => g.tsens[3]
  | _ => 0

/-- IDENT words (Table 14.2). -/
def State.identWord (s : State) (off : Nat) : Word :=
  let st := s.boot.straps
  match off with
  | 0 => 0x0C5D
  | 1 => 0x4816
  | 2 => 0x00A1
  | 3 => 0x6C2B
  | 4 => 0x1481
  | 5 => at' st.caspos.toNat 0 ||| flagAt st.wtwin 3 ||| at' st.maddr.toNat 4 ||| flagAt st.boottrn 7 ||| flagAt st.hbwait 8
  | 6 => at' (min 15 s.boot.stage) 0
  | 7 => s.boot.rstCause
  | 8 => 0x4010
  | 9 => 0x8410
  | _ => 0

def LinkSt.code : LinkSt → Nat
  | .down => 0
  | .train => 1
  | .up => 2

/-- AZL words; ASEL and the words it selects are the path's own (Table 16.4). -/
def State.azlWord (s : State) (p : Path) (off : Nat) : Word :=
  let z := s.azl
  let q : QId := ⟨(s.path p).asel.toNat, (s.path p).asel.isLt⟩
  match off with
  | 0 => z.acfg.val
  | 1 => z.ainq.val
  | 3 => at' z.out.st.code 0 ||| at' z.inn.st.code 2 ||| flagAt z.out.fresh 4 ||| flagAt z.inn.fresh 5
      ||| at' z.inn.peerPos.toNat 8 ||| flagAt z.inn.peerTwin 11 ||| flagAt z.inn.peerVal 12
  | 4 => z.out.nseq.zeroExtend 16 ||| at' z.inn.e.toNat 8
  | 5 => (s.path p).asel.zeroExtend 16
  | 6 => wordOf z.out.asent[q.val] 0
  | 7 => wordOf z.out.asent[q.val] 1
  | 8 => wordOf z.out.aack[q.val] 0
  | 9 => wordOf z.out.aack[q.val] 1
  | 0xA => s.acred q
  | 0xB => s.aresend q
  | _ => 0

/-- Frames in use by all queues. -/
def State.inUse (s : State) : Nat := (allQ.map fun q => s.frames q).sum

def State.landWord (s : State) (off : Nat) : Word :=
  let x := s.land
  match off with
  | 0 => x.rotmin
  | 2 => at' x.rest 0 ||| flagAt x.full 8 ||| flagAt (x.sweepLeft != 0) 9 ||| flagAt s.busyQ 10 ||| flagAt x.copying 11
  | 3 => wordOf x.retired 0
  | 4 => wordOf x.retired 1
  | 5 => at' s.lavail 0
  | 6 => at' s.inUse 0
  | _ => 0

/-! ### One word of a bank -/

/-- The live value of a bank word as a path reads it. -/
def State.liveWord (s : State) (p : Path) (b : Bank) (off : Nat) : Word :=
  match b with
  | .queue q => s.queueWord q off
  | .port n => s.portWord n off
  | .yard hi => s.yardWord hi off
  | .chan c => s.chanWord c off
  | .tset c b => s.tsetWord c b off
  | .phy c => s.phyWord c off
  | .time => s.time.word off
  | .cal => s.calWord p off
  | .win => (s.win (Fin.ofNat 16 (off / 4))).word (off % 4)
  | .azl => s.azlWord p off
  | .land => s.landWord off
  | .evt => s.evtWord off
  | .gov => s.gov.word off
  | .ident => s.identWord off

/-- What a queue's ledger words read of a snapshot, from offset 0x20. -/
def QSnap.ledger (k : QSnap) : Nat → Pos
  | 0 => k.occ
  | 1 => k.rdbl
  | 2 => k.wcnt
  | 3 => k.rcnt
  | 4 => k.xcnt
  | _ => k.dcnt

/-- The snapshot's value of a bank word, none for a word that the view does not cover (R199, R454, R473, R483). -/
def State.snapWord (s : State) (p : Path) (b : Bank) (off : Nat) : Option Word :=
  let k := (s.path p).snap
  match b with
  | .queue q =>
    let x := k.q[q.val]
    if off = 0x1C then some x.pend
    else if 0x20 ≤ off ∧ off ≤ 0x31 then some (wordOf (x.ledger ((off - 0x20) / 3)) ((off - 0x20) % 3))
    else none
  | .port n => if off = 2 then some (s.psts n (k.p[n.val]).held) else none
  | .chan c => if 0x18 ≤ off ∧ off ≤ 0x1E then some ((k.y[c.val]).word (off - 0x18)) else none
  | .azl =>
    let x := k.q[(s.path p).asel.toNat]
    match off with
    | 6 => some (wordOf x.asent 0)
    | 7 => some (wordOf x.asent 1)
    | 8 => some (wordOf x.aack 0)
    | 9 => some (wordOf x.aack 1)
    | 0xA => some x.acred
    | 0xB => some x.aresend
    | _ => none
  | _ => none

/-- The general part of a path's holding register with the words `ws` of the value at `base` of a bank. A word of bank AZL
is a value of the queue that ASEL names; one of bank CAL is the staging's while STS.VIEW = 1, else that of the view which the
path's last read of TNOW0 latched, or of the live view (R340, R374). -/
def State.latchOf (s : State) (p : Path) (b : Bank) (base : Nat) (ws : List Word) : Latch :=
  { bank := b, off := base, words := ws
    asel := if b = .azl then (s.path p).asel else 0
    staged := b == .cal && s.cal.view
    stamp := if b = .cal ∧ s.cal.view = false then (s.path p).holdTime else none }

/-- The word that the general part of a path's holding register returns: a higher word of the value it holds (R374). -/
def State.latched (s : State) (p : Path) (b : Bank) (off : Nat) : Option Word :=
  let (base, n) := b.group off
  if off = base ∨ n ≤ 1 then none
  else match (s.path p).holdGen with
    | some l => if l = s.latchOf p b base l.words then l.words[off - base]? else none
    | none => none

/-- A voted word in VOTEFAIL, which reads 0x0000 whatever is latched; an entry of the Sort yard in both its words (R380,
R464). -/
def State.entryVoid (s : State) (b : Bank) (off : Nat) : Bool :=
  match b with
  | .yard hi =>
    let e := yardEntry hi off
    (s.vget (.sortYard e false)).failed || (s.vget (.sortYard e true)).failed
  | _ => (b.vref off).any fun r => (s.vget r).failed

/-- A bank word as a path reads it: the snapshot's, the latched one, or the live one. -/
def State.bankWord (s : State) (p : Path) (b : Bank) (off : Nat) : Word :=
  match (if s.inView p then s.snapWord p b off else none) with
  | some w => w
  | none =>
    if s.entryVoid b off then 0
    else match b, (s.path p).holdPps with
    | .time, some l => if 0xA ≤ off ∧ off ≤ 0xE then l.getD (off - 9) 0 else (s.latched p b off).getD (s.liveWord p b off)
    | _, _ => (s.latched p b off).getD (s.liveWord p b off)

/-- What a read latches: the general part at the lowest word of a multi-word value, the PPS part at PPSCAP_0 (R326,
R374). -/
def State.latch (s : State) (p : Path) (b : Bank) (off : Nat) : State :=
  if b = .time ∧ off = 9 then
    s.modPath p fun x => { x with holdPps := some ((List.range 6).map s.time.ppsWord) }
  else
    let (base, n) := b.group off
    if off = base ∧ 1 < n then
      let ws := (List.range n).map fun i => s.liveWord p b (base + i)
      s.modPath p fun x => { x with holdGen := some (s.latchOf p b base ws) }
    else s

/-- The words of a register that a read at `off` takes, each compared (R379). -/
def Bank.readRefs (b : Bank) (off : Nat) : List VRef :=
  let (base, n) := b.group off
  if off = base then (List.range n).filterMap fun i => b.vref (base + i) else (b.vref off).toList

/-- Flips met by a read of a voted word. -/
def State.flipRef (s : State) (r : Option VRef) (f : Flips) : State :=
  match r with
  | some r => s.vset r ((s.vget r).flip f)
  | none => s

/-- A path's read of a bank word: compare, latch, return. -/
def State.readBank (s : State) (p : Path) (b : Bank) (off : Nat) : State :=
  if !b.has off then s.modPath p fun x => { x with readData := 0 }
  else
    let s := ((b.readRefs off).foldl State.compare s).latch p b off
    let w := s.bankWord p b off
    s.modPath p fun x => { x with readData := w }

/-- A path's read of a direct-page word. A read of TNOW0 latches the stamp of this instant (R321). -/
def State.readDirect (s : State) (p : Path) (off : Nat) : State :=
  let s := ((Target.direct off).vref.toList).foldl State.compare s
  let s := if off = 0x17 then
      let t := s.stamp
      s.modPath p fun x => { x with holdTime := some t }
    else s
  let w := s.directWord p off
  s.modPath p fun x => { x with readData := w }

/-- A waiting posted read that may cross now returns its word (R372). -/
def State.answerRead (s : State) (p : Path) : State :=
  match (s.path p).readWait with
  | some (b, off) =>
    if s.hostOn && s.clockOn b && (s.path p).posted.isEmpty then
      (s.modPath p fun x => { x with readWait := none }).readBank p b off
    else s
  | none => s

def State.answerReads (s : State) : State := (s.answerRead .a).answerRead .b

/-- A path answers at all: out of POR, and path A out of its PATH reset (R361, Table 2.11). -/
def State.pathAlive (s : State) (p : Path) : Bool :=
  s.powered && (match p with
    | .a => !s.pathA.inReset
    | .b => true)

/-- A host read of a word. A read of an implemented word of a posted bank waits for this path's posted writes and for the
domain's clock (R11, R372); in a warm device reset, and before start-up step 2 is complete, every read returns 0x0000
(R49, R61). -/
def State.hostRead (s : State) (p : Path) (word : Nat) (f : Flips) : State :=
  if !s.pathAlive p then s
  else if !s.hostOn then s.modPath p fun x => { x with readData := 0 }
  else
    let t := s.target p word
    let s := s.flipRef t.vref f
    match t with
    | .void => s.modPath p fun x => { x with readData := 0 }
    | .direct off => s.readDirect p off
    | .banked b off =>
      if b.posted off then (s.modPath p fun x => { x with readWait := some (b, off) }).answerRead p
      else s.readBank p b off

/-- A read on a path; on path B the transaction is acknowledged and moves the word address (R363); a read word may carry
its PEC, `State.readPec`. -/
def execRegisterRead (p : Path) (word : BitVec 7) (seq : Bool) (flips : Flips) (s : State) :
    Host.Outcome State Fault Refusal :=
  .next (
    let s := s.hostRead p word.toNat flips
    (match p with
     | .a => s
     | .b => s.modPath .b fun x =>
        if s.powered then { x with ack := true, readSeq := seq, ptr := if seq then word + 1 else word } else { x with ack := false }).scaleAll)

/-- A posted read that is not answered in time returns 0x0000 and counts RDTO (R372). -/
def State.readTimeout (s : State) (p : Path) : State :=
  if (s.path p).readWait.isSome && s.hostOn then
    (s.modPath p fun x => { x with readWait := none, readData := 0 }).count Ev.rdto p.num
  else s

def execRdto (p : Path) (s : State) : Host.Outcome State Fault Refusal := .next (s.readTimeout p)

/-- The strapped stall limit of path A: a posted read still running ends there as RDTO; anything else that still runs ends
with no effect (R358, R360, R372). -/
def execStallLimit (s : State) : Host.Outcome State Fault Refusal := .next (s.readTimeout .a)

end Sys2Proof.Machine
end

