-- ==== Sys2Proof/Machine/RegWrite.lean ====
section
/-!
DEFINITION. What a host write does: the effect of every writable register, the lock, seal and FATAL checks, staging and
commit of multi-word registers, and posted writes with their landing.
-/

namespace Sys2Proof.Machine

/-! ### Effects of the core banks (chapters 14, 15, 16) -/

/-- A queue word is in VOTEFAIL. -/
def Queue.anyFailed (x : Queue) : Bool := (List.finRange 7).any fun i => (x.vword i).failed

/-- Voted words of a queue written from word `i` on; VFAIL clears with the last failed word (R378, R381). -/
def Queue.putVoted (x : Queue) (i : Nat) (ws : List Word) : Queue :=
  let x := ws.zipIdx.foldl (fun x (w, k) => if h : i + k < 7 then x.setVword ⟨i + k, h⟩ (VWord.of w) else x) x
  { x with vfail := x.vfail && x.anyFailed }

/-- A change of QCFG acts at its commit; a queue that loses its reading port applies what is pending (R449, R450). -/
def State.qcfgWrite (s : State) (q : QId) (v : Word) : State :=
  let s := s.modQu q fun x => x.putVoted 0 [v &&& 0x37]
  let s := if s.markAtOnce q then s.applyPend q else s
  s.scaleAll

/-- A threshold committed; 0 to 3 name AFON, AFOFF, AEON, AEOFF (R131). -/
def Queue.setThreshold (x : Queue) (k : Nat) (v : Pos) : Queue :=
  match k with
  | 0 => { x with afon := v }
  | 1 => { x with afoff := v }
  | 2 => { x with aeon := v }
  | _ => { x with aeoff := v }

/-- Word `i` of a commit. -/
def wordAt (ws : List Word) (i : Nat) : Word := ws.getD i 0

/-- A commit in bank Qn (Table 15.1). -/
def State.queueWrite (s : State) (acc : Access) (q : QId) (off : Nat) (ws : List Word) : State :=
  let v := wordAt ws 0
  let h := wordAt ws 1
  if 8 ≤ off ∧ off ≤ 0x13 then
    (s.modQu q fun x => x.setThreshold ((off - 8) / 3) (join3 v h (wordAt ws 2))).scale q
  else match off with
    | 0x00 => s.qctl acc q v
    | 0x01 => s.qcfgWrite q v
    | 0x02 => s.modQu q fun x => x.putVoted 1 [v &&& 0x37FF, h &&& 0x77FF]
    | 0x04 => s.modQu q fun x => x.putVoted 3 [v, h &&& 0x1F]
    | 0x06 => s.modQu q fun x => x.putVoted 5 [v, h &&& 0x7F]
    | 0x14 => (s.modQu q fun x => { x with ffres := v }).scale q
    | 0x15 => s.modQu q fun x => { x with afmode := v &&& 3 }
    | 0x16 => s.modQu q fun x => { x with afttf := v }
    | 0x17 => s.modQu q fun x => { x with afalpha := v &&& 0x1FF }
    | 0x1B => if v = 0 then s.modQu q fun x => { x with disc := 0 } else s
    | _ => s

/-- A commit of a Sort yard entry (R463). -/
def State.yardWrite (s : State) (hi : Bool) (off : Nat) (ws : List Word) : State :=
  let e := yardEntry hi off
  (s.vset (.sortYard e false) (VWord.of (wordAt ws 0 &&& 0xBF3F))).vset (.sortYard e true)
    (VWord.of (wordAt ws 1 &&& 0x0F3F))

/-- A commit in bank Yn (Table 16.1). -/
def State.chanWrite (s : State) (acc : Access) (c : YId) (off : Nat) (ws : List Word) : State :=
  let v := wordAt ws 0
  if h : 8 ≤ off ∧ off ≤ 0x13 then
    s.yqos c ⟨(off - 8) / 3, by omega⟩ v (wordAt ws 1) (wordAt ws 2)
  else match off with
    | 0x00 => s.yctl c v (wordAt ws 1)
    | 0x02 => s.ycmd acc c v
    | 0x04 => s.yham c v (wordAt ws 1) (wordAt ws 2)
    | 0x14 => s.ytreg acc c ((join2 v (wordAt ws 1)).truncate 21) ((join2 (wordAt ws 2) (wordAt ws 3)).truncate 22)
    | _ => s

/-- A write of TIME:DISC (R328, R332, R434). -/
def State.discWrite (s : State) (v : Word) : State :=
  let s := { s with time := { s.time with disc := VWord.of (v &&& 3), arm := bit v 4 } }
  if bit v 8 then s.utcCancel else s

/-- A commit in the TIME bank. -/
def State.timeWrite (s : State) (acc : Access) (off : Nat) (ws : List Word) : State :=
  let v := wordAt ws 0
  match off with
  | 0x00 => s.discWrite v
  | 0x01 => { s with time := { s.time with stepth := v } }
  | 0x02 => { s with time := { s.time with rate := join2 v (wordAt ws 1) } }
  | 0x04 => s.correctOffset acc (join3 (wordAt ws 2) (wordAt ws 3) (wordAt ws 4)) ((join2 v (wordAt ws 1)).truncate 30)
  | 0x0F => s.utcoffWrite v
  | 0x10 => s.setUtcNxt v
  | 0x11 => s.utcArm (join3 v (wordAt ws 1) (wordAt ws 2))
  | 0x14 => s.tsoutWrite v
  | _ => s

/-- A staging write that leaves the staging valid clears BADDATE (R343). -/
def Cal.settle (c : Cal) : Cal := { c with bad := c.bad && c.impossible }

/-- A commit in the CAL bank. -/
def State.calWrite (s : State) (acc : Access) (off : Nat) (ws : List Word) : State :=
  let v := wordAt ws 0
  let c := s.cal
  match off with
  | 0 => { s with cal := ({ c with year := v &&& 0x3FFF } : Cal).settle }
  | 1 => { s with cal := ({ c with mon := v &&& 0xF } : Cal).settle }
  | 2 => { s with cal := ({ c with day := v &&& 0x1F } : Cal).settle }
  | 3 => { s with cal := ({ c with hmsL := v &&& 0x3F3F, hmsH := wordAt ws 1 &&& 0x1F } : Cal).settle }
  | 6 => if bit v 0 then s.calCommit acc else s
  | 7 => if bit v 0 then s.calCancel else s
  | 8 => { s with cal := { c with view := bit v 0 } }
  | _ => s

/-- A write in the AZL bank. -/
def State.azlWrite (s : State) (p : Path) (off : Nat) (v : Word) : State :=
  match off with
  | 0 => s.acfgCommit v
  | 1 => s.ainqCommit v
  | 2 => s.linkReset (bit v 0) (bit v 1)
  | 5 => s.modPath p fun x => { x with asel := v.truncate 4 }
  | _ => s

def State.landWrite (s : State) (acc : Access) (off : Nat) (v : Word) : State :=
  match off with
  | 0 => { s with land := { s.land with rotmin := v &&& 0xFFF } }
  | 1 => s.tcmd acc v
  | _ => s

/-- While no interval runs, before start-up step 7 and in a warm device reset, the interval that begins next is the next
one, and a FLOOR, CEIL or MARGIN written there is in force for it (R439). -/
def State.govNext (s : State) : State := if s.govRuns then s else s.govRenew

def State.govWrite (s : State) (off : Nat) (v : Word) : State :=
  match off with
  | 0 => { s with gov := { s.gov with floor := VWord.of (v &&& 0xF) } }.govNext
  | 1 => { s with gov := { s.gov with ceil := VWord.of (v &&& 0xF) } }.govNext
  | 2 => { s with gov := { s.gov with margin := VWord.of (v &&& 0x3F) } }.govNext
  | 3 => { s with gov := { s.gov with mode := v &&& 0xF3 } }
  | _ => s

/-! ### Effects of the posted banks (Tables 15.2, 16.2, 16.3) -/

def State.portWrite (s : State) (n : PId) (off : Nat) (v : Word) : State :=
  match off with
  | 0 => s.pctlWrite n v
  | 1 => s.modPo n fun x => { x with cfg := v &&& 0x1FFF }
  | 3 => if v = 0 then s.modPo n fun x => { x with perrcnt := 0 } else s
  | 4 => s.pflagqWrite n v
  | 5 => if v = 0 then s.modPo n fun x => { x with ptagmiss := 0 } else s
  | 6 => s.pcaptWrite n v
  | _ => s

/-- The tap register at a YnPHY offset. -/
def tapAt (off : Nat) : Option TapReg :=
  match off with
  | 2 => some .wldly
  | 3 => some .gate
  | 4 => some .rddly
  | 5 => some .wrdly
  | 6 => some .vref
  | _ => none

/-- YnPHY offset of a tap register. -/
def tapOff : TapReg → Nat
  | .wldly => 2
  | .gate => 3
  | .rddly => 4
  | .wrdly => 5
  | .vref => 6

def State.phyWrite (s : State) (acc : Access) (c : YId) (off : Nat) (ws : List Word) : State :=
  let v := wordAt ws 0
  match off with
  | 0x00 => s.modCh c fun x => { x with defermax := v &&& 0xFF }
  | 0x01 => s.modCh c fun x => { x with tapsel := v &&& 0xF11 }
  | 0x0B => s.htctl c v
  | 0x0D => s.modCh c fun x => { x with pgctlL := v &&& 0xFF0F, pgctlH := wordAt ws 1 }
  | 0x0F => s.modCh c fun x => { x with pgseed := v }
  | 0x10 => if bit v 0 then s.patternRun acc c else s
  | _ => match tapAt off with
    | some r => s.tapWrite acc c r v
    | none => s

/-- The effect of a commit whose checks have passed. -/
def State.effect (s : State) (acc : Access) (b : Bank) (off : Nat) (ws : List Word) : State :=
  let v := wordAt ws 0
  match b with
  | .queue q => s.queueWrite acc q off ws
  | .port n => s.portWrite n off v
  | .yard hi => s.yardWrite hi off ws
  | .chan c => s.chanWrite acc c off ws
  | .tset c b => if h : off < 15 then s.tsetWrite acc c b ⟨off, h⟩ v else s
  | .phy c => s.phyWrite acc c off ws
  | .time => s.timeWrite acc off ws
  | .cal => s.calWrite acc off ws
  | .win => s.winCommit (Fin.ofNat 16 (off / 4)) v (wordAt ws 1) (wordAt ws 2) (wordAt ws 3)
  | .azl => s.azlWrite acc.p off v
  | .land => s.landWrite acc off v
  | .gov => s.govWrite off v
  | .evt | .ident => s

/-! ### Checks (R65, R393, R397, R398, R424) -/

/-- The reason for which a write to a word is rejected by seal or lock, none where it may be written. -/
def State.writeRefusal (s : State) (p : Path) (b : Bank) (off : Nat) : Option Nat :=
  match b.lockOf off with
  | none => none
  | some l =>
    if l == .config && s.sealed then some Reason.sealed
    else if !s.holds p l || (l == .dram && s.boot.carding) then some Reason.lock
    else none

/-! ### Staging (R329, R375, R376) -/

def PathSt.stage (x : PathSt) (b : Bank) (off : Nat) (v : Word) : PathSt :=
  { x with staging := (x.staging.filter fun e => !(e.bank == b && e.off == off)) ++ [⟨b, off, v⟩] }

/-- A path's staged words of the register at `base` discarded. -/
def PathSt.unstage (x : PathSt) (b : Bank) (base : Nat) : PathSt :=
  { x with staging := x.staging.filter fun e => !(e.bank == b && (b.group e.off).1 == base) }

def PathSt.staged (x : PathSt) (b : Bank) (off : Nat) : Option Word :=
  (x.staging.find? fun e => e.bank == b && e.off == off).map (·.val)

/-- The register's own value of a word: a CAL word is that of the staging registers, whatever VIEW. -/
def State.heldWord (s : State) (p : Path) (b : Bank) (off : Nat) : Word :=
  if b = .cal ∧ off = 4 then s.cal.hmsH else s.liveWord p b off

/-- The words a commit by a path takes: the one written, then each higher word as staged or as it stands. -/
def State.commitWords (s : State) (p : Path) (b : Bank) (off : Nat) (v : Word) : List Word :=
  v :: (List.range ((b.group off).2 - 1)).map fun i =>
    ((s.path p).staged b (off + 1 + i)).getD (s.heldWord p b (off + 1 + i))

/-- The commit is refused after its lock and seal checks. -/
def State.rangeRefused (s : State) (b : Bank) (off : Nat) (ws : List Word) : Bool :=
  match b with
  | .chan c => off == 0x14 &&
      (s.ytregRefusal c ((join2 (wordAt ws 0) (wordAt ws 1)).truncate 21)
        ((join2 (wordAt ws 2) (wordAt ws 3)).truncate 22)).isSome
  | _ => false

/-- The two paths. -/
def otherPath : Path → Path
  | .a => .b
  | .b => .a

/-- Staging after a commit: the path's own goes; the other path's was written before this commit and goes too, but for
TIME:OFFSET, which each path commits for itself (R329, R375). -/
def State.unstage (s : State) (p : Path) (b : Bank) (off : Nat) (refused : Bool) : State :=
  let s := s.modPath p fun x => x.unstage b off
  if refused || (b == .time && off == 4) then s else s.modPath (otherPath p) fun x => x.unstage b off

/-- The lock check reads the lock's holder, whose copies are compared (R379); where that enters FATAL, the write is one that
FATAL meets (R424). -/
def State.lockRead (s : State) (b : Bank) (off : Nat) : State :=
  match b.lockOf off with
  | some l => s.compare (.lock l)
  | none => s

/-- A commit of a core-domain register with given words. -/
def State.commit (s : State) (acc : Access) (b : Bank) (off : Nat) (ws : List Word) : State :=
  let s := s.lockRead b off
  if s.dp.fatal then s.reject acc Ev.lockrej 0 Reason.state
  else match s.writeRefusal acc.p b off with
    | some r => (s.unstage acc.p b off true).reject acc Ev.lockrej 0 r
    | none => (s.unstage acc.p b off (s.rangeRefused b off ws)).effect acc b off ws

/-- A write of a core-domain bank word. -/
def State.coreWrite (s : State) (acc : Access) (b : Bank) (off : Nat) (v : Word) : State :=
  if s.dp.fatal then s.reject acc Ev.lockrej 0 Reason.state
  else if b.stages off then s.modPath acc.p fun x => x.stage b off v
  else s.commit acc b off (s.commitWords acc.p b off v)

/-! ### Posted writes (R368 to R371, R376, R387, R424) -/

/-- DP:HSTS.BUSY. -/
def PathSt.busy (x : PathSt) : Bool := x.posted.any fun w => !w.quiet

/-- The words of a posted commit: the one written, and the higher word as it was staged or as it stands (R376). -/
def State.postedWords (s : State) (p : Path) (b : Bank) (off : Nat) (v : Word) (hi : Option Word) : List Word :=
  v :: (if b.stages (off + 1) then [hi.getD (s.liveWord p b (off + 1))] else [])

/-- The other path's staging of a register goes with an accepted posted commit of it (R375). -/
def State.unstageOther (s : State) (p : Path) (b : Bank) (off : Nat) : State :=
  if b.stages (off + 1) then s.modPath (otherPath p) fun x => x.unstage b off else s

/-- A posted write lands: FATAL, the lock and then the register's own rules are checked there. -/
def State.landPosted (s : State) (acc : Access) (b : Bank) (off : Nat) (v : Word) (hi : Option Word) : State :=
  let s := if s.dp.fatal then s else s.lockRead b off
  if s.dp.fatal then s.reject acc Ev.lockrej 0 Reason.state
  else match s.writeRefusal acc.p b off with
    | some r => s.reject acc Ev.lockrej 0 r
    | none => (s.unstageOther acc.p b off).effect acc b off (s.postedWords acc.p b off v hi)

/-- A write that meets BUSY is discarded. -/
def State.dropBusy (s : State) (acc : Access) : State := s.reject acc Ev.wdrop acc.p.num Reason.busy

/-- A write of a posted word on the bus. PGCTL_H is staged there, and in FATAL discarded there, since it does not land by
itself (R424); PGCTL_L takes it along (R376, log 40). -/
def State.postWrite (s : State) (acc : Access) (b : Bank) (off : Nat) (v : Word) : State :=
  if (s.path acc.p).busy then s.dropBusy acc
  else if b.stages off then
    if s.dp.fatal then s.reject acc Ev.lockrej 0 Reason.state else s.modPath acc.p fun x => x.stage b off v
  else
    let hi := if b.stages (off + 1) then (s.path acc.p).staged b (off + 1) else none
    s.modPath acc.p fun x => { x.unstage b off with posted := x.posted ++ [⟨b, off, v, hi, acc.sel, false⟩] }

/-- The oldest posted write whose domain's clock runs, and the others. -/
def firstLanding (ok : Posted → Bool) : List Posted → Option (Posted × List Posted)
  | [] => none
  | w :: ws =>
    if ok w then some (w, ws)
    else (firstLanding ok ws).map fun (x, l) => (x, w :: l)

/-- A posted write of a path lands. -/
def State.landOne (s : State) (p : Path) : State :=
  match firstLanding (fun w => s.clockOn w.bank) (s.path p).posted with
  | none => s
  | some (w, ws) =>
    ((s.modPath p fun x => { x with posted := ws }).landPosted ⟨p, 64 + w.off, w.sel⟩ w.bank w.off w.val w.hi).answerReads

/-! ### The direct page (R70, R73, R356, R384, R385, R392, R397, R424, R429) -/

/-- A write of DP:GCTL: a DEVRST that R73 ignores leaves EN and HEARTEN to act as written (R429). -/
def State.gctl (s : State) (acc : Access) (v : Word) (bad : BitVec 17) (ups : List Upset) : State :=
  if bit v 1 && s.boot.stage == 8 then s.warmReset acc.p bad ups
  else s.gctlWrite (bit v 0) (bit v 2)

/-- A write of a lock register (Table 12.8), its holder read and compared first (R379). Start-up goes on where it waited for
DP:LOCKDRAM (log 63). -/
def State.lockWrite (s : State) (acc : Access) (l : LockId) (v : Word) : State :=
  let s := s.compare (.lock l)
  let h := (s.lock l).holder.val
  if s.dp.fatal then s.reject acc Ev.lockrej 0 Reason.state
  else if v = lockCode acc.p ∧ (h = 0 ∨ h = lockCode acc.p) then s.takeLock l v
  else if v = 0 ∧ h = lockCode acc.p then (s.freeLock l).bootTrain
  else s.reject acc Ev.lockrej 0 Reason.lock

/-- A write of DP:SEAL, write-once (R14, R397). -/
def State.sealWrite (s : State) (acc : Access) (v : Word) : State :=
  if s.dp.sealDone then s.reject acc Ev.worej 0 Reason.wonce
  else { s with dp := { s.dp with sealV := v, sealDone := true } }

/-- A write of DP:SLOTID, write-once (R14, R397). -/
def State.slotWrite (s : State) (acc : Access) (v : Word) : State :=
  if s.dp.slotDone then s.reject acc Ev.worej 0 Reason.wonce
  else { s with dp := { s.dp with slotId := v, slotDone := true } }

/-- A write of DP:EVCNT: only a 0 acts (R385). -/
def State.evcntWrite (s : State) (p : Path) (v : Word) : State :=
  match evSelected (s.path p).evSel with
  | some (c, i) => if v = 0 then s.setEv c i EvCell.zero else s
  | none => s

/-- A write of DP:EVACK (R385). -/
def State.evackWrite (s : State) (p : Path) (v : Word) : State :=
  match evSelected (s.path p).evSel with
  | some (c, i) => s.setEv c i { s.ev c i with ack := v }
  | none => s

/-- A write of an implemented direct-page word; `bad` is what a march test of a warm reset would find. -/
def State.directWrite (s : State) (acc : Access) (off : Nat) (v : Word) (bad : BitVec 17) (ups : List Upset) : State :=
  if s.dp.fatal && !fatalOk off v then s.reject acc Ev.lockrej 0 Reason.state
  else match off with
    | 0x02 => s.gctl acc v bad ups
    | 0x04 => s.modPath acc.p fun x => { x with bankSel := v.truncate 6 }
    | 0x06 => s.lockWrite acc .config v
    | 0x07 => s.lockWrite acc .time v
    | 0x08 => s.lockWrite acc .dram v
    | 0x09 => { s with dp := { s.dp with lease := v } }
    | 0x0C => s.modPath acc.p fun x => { x with irq0 := v &&& 0x7FFF }
    | 0x0D => s.modPath acc.p fun x => { x with irq1 := v }
    | 0x12 => s.modPath acc.p fun x => { x with evSel := v &&& 0xFFF }
    | 0x13 => s.evcntWrite acc.p v
    | 0x14 => s.evackWrite acc.p v
    | 0x1D => s.snapcmd acc.p v
    | 0x1E => s.sealWrite acc v
    | 0x1F => s.slotWrite acc v
    | _ => s

/-! ### A host write (R11, R49, R61, R354, R367, R456) -/

/-- Writes of a path are carried out: it answers, step 2 of start-up is complete and no warm device reset runs. -/
def State.writable (s : State) (p : Path) : Bool := s.pathAlive p && s.hostOn

/-- A write of a bank word: unimplemented words and Pn:PSTS ignore it. -/
def State.bankWrite (s : State) (acc : Access) (b : Bank) (off : Nat) (v : Word) : State :=
  if b.posted off then s.postWrite acc b off v
  else
    match b with
    | .port _ => s
    | _ => if b.has off then s.coreWrite acc b off v else s

/-- A write of a host word on a path. -/
def State.busWrite (s : State) (p : Path) (word : Nat) (v : Word) : State :=
  if !s.writable p then s
  else
    let acc : Access := ⟨p, word, (s.path p).bankSel.toNat⟩
    match s.target p word with
    | .direct off => if (Target.direct off).has then s.directWrite acc off v s.boot.badBanks [] else s
    | .banked b off => s.bankWrite acc b off v
    | .void => s

/-- Path B acknowledges a transaction and holds the word address (R363). -/
def State.acked (s : State) (p : Path) (word : Nat) : State :=
  match p with
  | .a => s
  | .b => s.modPath .b fun x => if s.powered then { x with ack := true, ptr := BitVec.ofNat 7 word } else { x with ack := false }

/-! ### Commands that name their register (log 41) -/

/-- The commit of a core-domain register by a path, its higher words as given. -/
def State.rowCommit (s : State) (p : Path) (b : Bank) (off : Nat) (ws : List Word) : State :=
  let acc : Access := ⟨p, 64 + off, b.sel⟩
  let s := s.acked p (64 + off)
  if !s.writable p then s
  else if s.dp.fatal then s.reject acc Ev.lockrej 0 Reason.state
  else s.commit acc b off ws

/-- A posted write by a path that lands at once while the domain's clock runs, else stays on its way (R368). -/
def State.rowPost (s : State) (p : Path) (b : Bank) (off : Nat) (v : Word) : State :=
  let acc : Access := ⟨p, 64 + off, b.sel⟩
  let s := s.acked p (64 + off)
  if !s.writable p then s
  else if (s.path p).busy then s.dropBusy acc
  else if s.clockOn b then (s.landPosted acc b off v none).answerReads
  else s.postWrite acc b off v

/-- A write of a direct-page word by a path. -/
def State.rowDirect (s : State) (p : Path) (off : Nat) (v : Word) (bad : BitVec 17) (ups : List Upset) : State :=
  let acc : Access := ⟨p, off, (s.path p).bankSel.toNat⟩
  let s := s.acked p off
  if !s.writable p then s else s.directWrite acc off v bad ups

end Sys2Proof.Machine
end

