-- ==== Sys2Proof/Machine/HostCmds.lean ====
section
/-!
DEFINITION. The host's commands: each row that names its register, the general register write on both paths, posted
writes, path B's transactions, locks and leases, and the events after which a waiting read may be answered.
-/

namespace Sys2Proof.Machine

/-! ### Resets, REFCLK and clocks (R73, R74, R121, R245, R276, R427) -/

/-- A write of DP:GCTL with DEVRST = 1. -/
def execWarmDeviceReset (p : Path) (en heart : Bool) (bad : BitVec 17) (s : State) (ups : List Upset := []) :
    Host.Outcome State Fault Refusal :=
  .next (s.rowDirect p 0x02 (flagAt en 0 ||| 2 ||| flagAt heart 2) bad ups)

/-- A conversion of the four sensors; the first one lets start-up go on (R59, R432). -/
def execSensorConversion (t0 t1 t2 t3 : Int) (s : State) : Host.Outcome State Fault Refusal :=
  .next (s.sense t0 t1 t2 t3).bootGo.answerReads

def execRefclkReturn (s : State) : Host.Outcome State Fault Refusal := .next s.refReturn.answerReads

def execPortClockResume (n : PId) (s : State) : Host.Outcome State Fault Refusal := .next (s.clockResume n).answerReads

def execSweepStart (ch : YId) (s : State) : Host.Outcome State Fault Refusal := .next (s.sweepStart ch).answerReads

/-- A tracking update; in a warm device reset the next channel may follow (Table 3.2, step 5). -/
def execDqsTracking (ch : YId) (rank : Bool) (moves : List TrackMove) (s : State) : Host.Outcome State Fault Refusal :=
  .next (s.dqsTracking ch rank moves).warmOn.answerReads

/-- A sweep ends; in a warm device reset the next channel may follow (Table 3.2, step 5). -/
def execSweepDone (ch : YId) (m : SweepData) (s : State) : Host.Outcome State Fault Refusal :=
  .next (s.sweepDone ch m).warmOn

def execFreqswComplete (ch : YId) (s : State) : Host.Outcome State Fault Refusal := .next (s.freqswComplete ch).answerReads

/-- One edge of REFCLK: the time base advances, and so does a frequency change (R318, R369). -/
def State.refEdge (s : State) : State :=
  if s.timeOn then
    let s := { s with time := s.time.edge }
    ({ s with chans := vmap (Chan.freqEdge s.time.ticks) s.chans }).answerReads
  else s

def execRefclkEdge (s : State) : Host.Outcome State Fault Refusal := .next s.refEdge

/-- The edge that absorbs the rest of a slew (R330). -/
def execSlewEnd (s : State) : Host.Outcome State Fault Refusal :=
  .next (if s.time.slew ≠ 0 ∧ s.time.slew.natAbs ≤ 536870912 then s.refEdge else s)

/-! ### Ports and the device (R70, R82, R84, R406, R457, R461) -/

def execPortEnable (p : Path) (n : PId) (s : State) : Host.Outcome State Fault Refusal :=
  .next (s.rowPost p (.port n) 0 1)

def execPortDisable (p : Path) (n : PId) (s : State) : Host.Outcome State Fault Refusal :=
  .next (s.rowPost p (.port n) 0 0)

def execPortReset (p : Path) (n : PId) (en : Bool) (s : State) : Host.Outcome State Fault Refusal :=
  .next (s.rowPost p (.port n) 0 (flagAt en 0 ||| 2))

def execCaptureArm (p : Path) (n : PId) (trig : Bool) (s : State) : Host.Outcome State Fault Refusal :=
  .next (s.rowPost p (.port n) 6 (1 ||| flagAt trig 1))

def execDeviceEnable (p : Path) (en heart : Bool) (s : State) : Host.Outcome State Fault Refusal :=
  .next (s.rowDirect p 0x02 (flagAt en 0 ||| flagAt heart 2) s.boot.badBanks [])

/-! ### Queues (R144, R161, R182, R400, R445) -/

/-- A write of Qn:QCTL. -/
def State.rowQctl (s : State) (p : Path) (q : QId) (v : Word) : State := s.rowCommit p (.queue q) 0 [v]

def execQueueEnable (p : Path) (q : QId) (s : State) : Host.Outcome State Fault Refusal := .next (s.rowQctl p q 1)

def execQueueDisable (p : Path) (q : QId) (s : State) : Host.Outcome State Fault Refusal := .next (s.rowQctl p q 0)

def execQueueReset (p : Path) (q : QId) (en : Bool) (s : State) : Host.Outcome State Fault Refusal :=
  .next (s.rowQctl p q (flagAt en 0 ||| 2))

def execFlush (p : Path) (q : QId) (en : Bool) (s : State) : Host.Outcome State Fault Refusal :=
  .next (s.rowQctl p q (flagAt en 0 ||| 4))

def execMark (p : Path) (q : QId) (en : Bool) (s : State) : Host.Outcome State Fault Refusal :=
  .next (s.rowQctl p q (flagAt en 0 ||| 0x10))

def execRewind (p : Path) (q : QId) (en : Bool) (idx : BitVec 2) (s : State) : Host.Outcome State Fault Refusal :=
  .next (s.rowQctl p q (flagAt en 0 ||| 0x20 ||| at' idx.toNat 8))

def execCommit (p : Path) (q : QId) (en : Bool) (s : State) : Host.Outcome State Fault Refusal :=
  .next (s.rowQctl p q (flagAt en 0 ||| 0x40))

/-! ### Landing and Tally (R198, R204, R206) -/

def execFullTest (p : Path) (s : State) : Host.Outcome State Fault Refusal := .next (s.rowCommit p .land 1 [1])

def execSweep (p : Path) (s : State) : Host.Outcome State Fault Refusal := .next (s.rowCommit p .land 1 [2])

def execSnapshotTake (p : Path) (view : Bool) (s : State) : Host.Outcome State Fault Refusal :=
  .next (s.rowDirect p 0x1D (1 ||| flagAt view 1) s.boot.badBanks [])

/-! ### Channels (R216, R229, R244, R254, R261 to R265, R411, R466, R468, R470) -/

/-- A write of Yn:YCMD. -/
def State.rowYcmd (s : State) (p : Path) (c : YId) (v : Word) : State := s.rowCommit p (.chan c) 2 [v]

def execTrain (p : Path) (ch : YId) (s : State) : Host.Outcome State Fault Refusal := .next (s.rowYcmd p ch 1)

def execFreqsw (p : Path) (ch : YId) (s : State) : Host.Outcome State Fault Refusal := .next (s.rowYcmd p ch 2)

def execResetkeep (p : Path) (ch : YId) (s : State) : Host.Outcome State Fault Refusal := .next (s.rowYcmd p ch 4)

def execResetdrop (p : Path) (ch : YId) (s : State) : Host.Outcome State Fault Refusal := .next (s.rowYcmd p ch 8)

def execHostTrainingHold (p : Path) (ch : YId) (s : State) : Host.Outcome State Fault Refusal :=
  .next (s.rowPost p (.phy ch) 0x0B 1)

def execHoldRelease (p : Path) (ch : YId) (s : State) : Host.Outcome State Fault Refusal :=
  .next (s.rowPost p (.phy ch) 0x0B 0)

def execPatternRun (p : Path) (ch : YId) (s : State) : Host.Outcome State Fault Refusal :=
  .next (s.rowPost p (.phy ch) 0x10 1)

def execTapWrite (p : Path) (ch : YId) (r : TapReg) (v : Word) (s : State) : Host.Outcome State Fault Refusal :=
  .next (s.rowPost p (.phy ch) (tapOff r) v)

def execYtregWrite (p : Path) (ch : YId) (base : BitVec 21) (len : BitVec 22) (s : State) :
    Host.Outcome State Fault Refusal :=
  .next (s.rowCommit p (.chan ch) 0x14 [wordOf base 0, wordOf base 1, wordOf len 0, wordOf len 1])

def execTimingSetWrite (p : Path) (ch : YId) (setB : Bool) (i : Fin 15) (v : Word) (s : State) :
    Host.Outcome State Fault Refusal :=
  .next (s.rowPost p (.tset ch setB) i.val v)

def execYqosWrite (p : Path) (ch : YId) (cls : Fin 4) (rate burst lat : Word) (s : State) :
    Host.Outcome State Fault Refusal :=
  .next (s.rowCommit p (.chan ch) (8 + 3 * cls.val) [rate, burst, lat])

def execYctlWrite (p : Path) (ch : YId) (lo hi : Word) (s : State) : Host.Outcome State Fault Refusal :=
  .next (s.rowCommit p (.chan ch) 0 [lo, hi])

def execHamWrite (p : Path) (ch : YId) (thresh space hits : Word) (s : State) : Host.Outcome State Fault Refusal :=
  .next (s.rowCommit p (.chan ch) 4 [thresh, space, hits])

/-! ### Azlin (R301, R480, R481, R482) -/

def execRstout (p : Path) (s : State) : Host.Outcome State Fault Refusal := .next (s.rowCommit p .azl 2 [1])

def execRstin (p : Path) (s : State) : Host.Outcome State Fault Refusal := .next (s.rowCommit p .azl 2 [2])

def execAcfgWrite (p : Path) (v : Word) (s : State) : Host.Outcome State Fault Refusal := .next (s.rowCommit p .azl 0 [v])

def execAinqWrite (p : Path) (v : Word) (s : State) : Host.Outcome State Fault Refusal := .next (s.rowCommit p .azl 1 [v])

/-! ### Time, calendar, windows (R320, R329, R335, R341 to R346, R434) -/

def execTimeCorrection (p : Path) (offs : BitVec 48) (offns : BitVec 30) (s : State) : Host.Outcome State Fault Refusal :=
  .next (s.rowCommit p .time 4 [wordOf offns 0, wordOf offns 1, wordOf offs 0, wordOf offs 1, wordOf offs 2])

def execRateadjWrite (p : Path) (v : BitVec 32) (s : State) : Host.Outcome State Fault Refusal :=
  .next (s.rowCommit p .time 2 [wordOf v 0, wordOf v 1])

def execCalCommit (p : Path) (s : State) : Host.Outcome State Fault Refusal := .next (s.rowCommit p .cal 6 [1])

def execCalCancel (p : Path) (s : State) : Host.Outcome State Fault Refusal := .next (s.rowCommit p .cal 7 [1])

def execUtcoffWrite (p : Path) (v : Word) (s : State) : Host.Outcome State Fault Refusal :=
  .next (s.rowCommit p .time 0x0F [v])

def execUtcChangeArm (p : Path) (at48 : BitVec 48) (s : State) : Host.Outcome State Fault Refusal :=
  .next (s.rowCommit p .time 0x11 [wordOf at48 0, wordOf at48 1, wordOf at48 2])

/-- A write of TIME:DISC with UTCCAN = 1, MODE and ARM written as they stand. -/
def execUtccan (p : Path) (s : State) : Host.Outcome State Fault Refusal :=
  .next (s.rowCommit p .time 0 [(s.time.disc.val &&& 3) ||| flagAt s.time.arm 4 ||| 0x100])

def execTsoutWrite (p : Path) (v : Word) (s : State) : Host.Outcome State Fault Refusal :=
  .next (s.rowCommit p .time 0x14 [v])

def execWindowCommit (p : Path) (j : Fin 16) (w0 w1 w2 w3 : Word) (s : State) : Host.Outcome State Fault Refusal :=
  .next (s.rowCommit p .win (4 * j.val) [w0, w1, w2, w3])

/-! ### The register write and posted writes (R9, R368, R371, R372) -/

/-- A host write of a word; on path B one write word transaction without PEC. -/
def execRegisterWrite (p : Path) (word : BitVec 7) (v : Word) (s : State) : Host.Outcome State Fault Refusal :=
  .next ((s.acked p word.toNat).busWrite p word.toNat v)

def execPostedWriteLand (p : Path) (s : State) : Host.Outcome State Fault Refusal := .next (s.landOne p)

/-- The oldest posted write of a path has not landed in 1 ms: it is dropped and BUSY follows (R371). -/
def execWrstall (p : Path) (s : State) : Host.Outcome State Fault Refusal :=
  .next (
    match (s.path p).posted with
    | [] => s
    | _ :: ws => ((s.modPath p fun x => { x with posted := ws }).count Ev.wrstall p.num).answerReads)

/-! ### Path B's transactions (R363, R364, R366) -/

/-- Path B's 7-bit address (R362). -/
def State.pathBAddr (s : State) : BitVec 8 := BitVec.ofNat 8 (0x58 + s.boot.straps.maddr.toNat)

/-- The PEC of a write word: CRC-8 over address with W, command, DL and DH. -/
def State.pecOf (s : State) (word : BitVec 7) (v : Word) : BitVec 8 :=
  crc8 [s.pathBAddr <<< 1, word.zeroExtend 8, v.extractLsb' 0 8, v.extractLsb' 8 8]

/-- The PEC byte of path B's last read, a read word: CRC-8 over address with W, command, address with R, DL and DH. A
sequential read carries none. -/
def State.readPec (s : State) : Option (BitVec 8) :=
  let x := s.pathB
  if x.readSeq then none
  else some (crc8 [s.pathBAddr <<< 1, x.ptr.zeroExtend 8, (s.pathBAddr <<< 1) ||| 1, x.readData.extractLsb' 0 8,
    x.readData.extractLsb' 8 8])

/-- The byte last carried on path B is not acknowledged. -/
def State.nacked (s : State) : State := s.modPath .b fun x => { x with ack := false }

/-- A write word, with its PEC where it carries one: a PEC that fails is not acknowledged, and the write is discarded. One
that ends before its DH is discarded without count; one with a byte that Table 12.4 does not have there is not acknowledged
at that byte and writes nothing (log 73). -/
def execSmbusWriteWord (word : BitVec 7) (v : Word) (pec : Option (BitVec 8)) (s : State) (ending : WordEnd := .stop) :
    Host.Outcome State Fault Refusal :=
  .next (
    let t := s.acked .b word.toNat
    match ending with
    | .cut => t
    | .astray => t.nacked
    | .stop =>
      match pec with
      | none => t.busWrite .b word.toNat v
      | some c =>
        if c = s.pecOf word v then t.busWrite .b word.toNat v
        else
          let t := t.nacked
          if t.writable .b then t.count Ev.pecerr 0 else t)

/-- A sequential write: each word at its address, which then increases by 1 modulo 128. -/
def State.seqWrite : List Word → State → BitVec 7 → State
  | [], s, _ => s
  | v :: vs, s, a => State.seqWrite vs (((s.busWrite .b a.toNat v)).acked .b (a + 1).toNat) (a + 1)

/-- A sequential write; a last word whose DH does not come (`odd`) is discarded without count and so changes nothing
(R364). -/
def execSequentialWrite (word : BitVec 7) (vals : List Word) (s : State) (_odd : Bool := false) : Host.Outcome State Fault Refusal :=
  .next (State.seqWrite vals (s.acked .b word.toNat) word)

/-- Set pointer: the command byte's word address, nothing accessed. Without a command byte, or with a byte that Table 12.4
does not have next (`astray`), the transaction departs from the table: that byte is not acknowledged (R363). -/
def execSetPointer (cmd : Option (BitVec 8)) (s : State) (astray : Bool := false) : Host.Outcome State Fault Refusal :=
  .next (
    let t := match cmd with
      | some c => s.acked .b (c.truncate 7 : BitVec 7).toNat
      | none => s.acked .b s.pathB.ptr.toNat
    if astray then t.nacked else t)

/-- The alert response address: path B answers with its own address while MALERT# is low (R366, R390). -/
def execAlertResponse (s : State) : Host.Outcome State Fault Refusal :=
  .next (
    if s.irqLine .b then s.modPath .b fun x => { x with ack := true, alertByte := s.pathBAddr }
    else s.modPath .b fun x => { x with ack := false })

/-! ### Locks, leases, write-once words, counters (R385, R392, R394, R397, R453) -/

/-- Direct-page offset of a lock register. -/
def lockOff : LockId → Nat
  | .config => 6
  | .time => 7
  | .dram => 8

def execLockWrite (p : Path) (l : LockId) (v : Word) (s : State) : Host.Outcome State Fault Refusal :=
  .next (s.rowDirect p (lockOff l) v s.boot.badBanks [])

/-- The lease of a lock held by path `p` has run out. -/
def State.leaseOver (s : State) (l : LockId) (p : Path) : Bool :=
  s.holds p l && s.time.refclk && decide ((s.lock l).since + (s.lock l).len ≤ s.time.ticks)

def execLeaseExpiry (l : LockId) (s : State) : Host.Outcome State Fault Refusal :=
  .next (
    if !s.hostOn then s
    else if s.leaseOver l .a then (s.lockLeaves l .a).chanChanged.bootTrain
    else if s.leaseOver l .b then (s.lockLeaves l .b).chanChanged.bootTrain
    else s)

def execSealWrite (p : Path) (v : Word) (s : State) : Host.Outcome State Fault Refusal :=
  .next (s.rowDirect p 0x1E v s.boot.badBanks [])

def execSlotidWrite (p : Path) (v : Word) (s : State) : Host.Outcome State Fault Refusal :=
  .next (s.rowDirect p 0x1F v s.boot.badBanks [])

def execEvcntClear (p : Path) (s : State) : Host.Outcome State Fault Refusal := .next (s.rowDirect p 0x13 0 s.boot.badBanks [])

def execEvackWrite (p : Path) (v : Word) (s : State) : Host.Outcome State Fault Refusal :=
  .next (s.rowDirect p 0x14 v s.boot.badBanks [])

def execCounterClear (p : Path) (r : ClearReg) (v : Word) (s : State) : Host.Outcome State Fault Refusal :=
  .next (match r with
    | .qevt q => s.rowCommit p (.queue q) 0x1B [v]
    | .perrcnt n => s.rowPost p (.port n) 3 v
    | .ptagmiss n => s.rowPost p (.port n) 5 v)

end Sys2Proof.Machine
end

