-- ==== Sys2Proof/Machine/Dispatch.lean ====
section
/-!
DEFINITION. Dispatch: each command to its meaning, one arm per command.
-/

namespace Sys2Proof.Machine

def exec (i : Instr) (s : State) : Host.Outcome State Fault Refusal :=
  match i with
  | .porstLow ns => Sys2Proof.Machine.execPorstLow ns s
  | .supplyFault x => Sys2Proof.Machine.execSupplyFault x s
  | .startUp st bad => Sys2Proof.Machine.execStartUp st bad s
  | .warmDeviceReset p en heart bad ups => Sys2Proof.Machine.execWarmDeviceReset p en heart bad s ups
  | .pathAReset ns => Sys2Proof.Machine.execPathAReset ns s
  | .msclLowTimeout => Sys2Proof.Machine.execMsclLowTimeout s
  | .generalCallReset cmd => Sys2Proof.Machine.execGeneralCallReset s cmd
  | .refclkLoss => Sys2Proof.Machine.execRefclkLoss s
  | .refclkReturn => Sys2Proof.Machine.execRefclkReturn s
  | .sensorConversion t0 t1 t2 t3 => Sys2Proof.Machine.execSensorConversion t0 t1 t2 t3 s
  | .voteScrub ups => Sys2Proof.Machine.execVoteScrub ups s
  | .heartToggle alive => Sys2Proof.Machine.execHeartToggle alive s
  | .governorInterval capac capdn => Sys2Proof.Machine.execGovernorInterval capac capdn s
  | .vcoreSample mv => Sys2Proof.Machine.execVcoreSample mv s
  | .ingressWord n en d hi qa fr => Sys2Proof.Machine.execIngressWord n en d hi qa fr s
  | .steerSegment n => Sys2Proof.Machine.execSteerSegment n s
  | .staveCommit n => Sys2Proof.Machine.execStaveCommit n s
  | .creditGrant n q => Sys2Proof.Machine.execCreditGrant n q s
  | .egressRead n en qa ecc short => Sys2Proof.Machine.execEgressRead n en qa ecc s short
  | .flagCrossing n => Sys2Proof.Machine.execFlagCrossing n s
  | .portNoclk n => Sys2Proof.Machine.execPortNoclk n s
  | .portClockResume n => Sys2Proof.Machine.execPortClockResume n s
  | .syncDepthMeasure n khz => Sys2Proof.Machine.execSyncDepthMeasure n khz s
  | .portEnable p n => Sys2Proof.Machine.execPortEnable p n s
  | .portDisable p n => Sys2Proof.Machine.execPortDisable p n s
  | .portReset p n en => Sys2Proof.Machine.execPortReset p n en s
  | .captureArm p n trig => Sys2Proof.Machine.execCaptureArm p n trig s
  | .deviceEnable p en heart => Sys2Proof.Machine.execDeviceEnable p en heart s
  | .queueEnable p q => Sys2Proof.Machine.execQueueEnable p q s
  | .queueDisable p q => Sys2Proof.Machine.execQueueDisable p q s
  | .queueReset p q en => Sys2Proof.Machine.execQueueReset p q en s
  | .flush p q en => Sys2Proof.Machine.execFlush p q en s
  | .mark p q en => Sys2Proof.Machine.execMark p q en s
  | .rewind p q en idx => Sys2Proof.Machine.execRewind p q en idx s
  | .commit p q en => Sys2Proof.Machine.execCommit p q en s
  | .markApply q => Sys2Proof.Machine.execMarkApply q s
  | .lookaheadSample => Sys2Proof.Machine.execLookaheadSample s
  | .spillRequest q => Sys2Proof.Machine.execSpillRequest q s
  | .spillAck ch q => Sys2Proof.Machine.execSpillAck ch q s
  | .refillRequest q => Sys2Proof.Machine.execRefillRequest q s
  | .refillStaveArrival ch q beats => Sys2Proof.Machine.execRefillStaveArrival ch q beats s
  | .bankRotation errs => Sys2Proof.Machine.execBankRotation errs s
  | .rotationCopyEnd errs frames => Sys2Proof.Machine.execRotationCopyEnd errs s frames
  | .bankTestDone fail => Sys2Proof.Machine.execBankTestDone fail s
  | .fullTest p => Sys2Proof.Machine.execFullTest p s
  | .fullTestDone bad => Sys2Proof.Machine.execFullTestDone bad s
  | .sweep p => Sys2Proof.Machine.execSweep p s
  | .snapshotTake p view => Sys2Proof.Machine.execSnapshotTake p view s
  | .billetRequestStart ch q cas => Sys2Proof.Machine.execBilletRequestStart ch q s cas
  | .burstIssue ch ok ecc => Sys2Proof.Machine.execBurstIssue ch ok ecc s
  | .trackerWindowEnd ch => Sys2Proof.Machine.execTrackerWindowEnd ch s
  | .tokenBucketTick ch => Sys2Proof.Machine.execTokenBucketTick ch s
  | .refreshDue ch rank kind => Sys2Proof.Machine.execRefreshDue ch rank kind s
  | .thermalChange ch low => Sys2Proof.Machine.execThermalChange ch low s
  | .selfRefreshEntry ch => Sys2Proof.Machine.execSelfRefreshEntry ch s
  | .train p ch => Sys2Proof.Machine.execTrain p ch s
  | .freqsw p ch => Sys2Proof.Machine.execFreqsw p ch s
  | .resetkeep p ch => Sys2Proof.Machine.execResetkeep p ch s
  | .resetdrop p ch => Sys2Proof.Machine.execResetdrop p ch s
  | .drainWindow ch => Sys2Proof.Machine.execDrainWindow ch s
  | .forcedDrain ch => Sys2Proof.Machine.execForcedDrain ch s
  | .drainDone ch => Sys2Proof.Machine.execDrainDone ch s
  | .sweepStart ch => Sys2Proof.Machine.execSweepStart ch s
  | .sweepDone ch m => Sys2Proof.Machine.execSweepDone ch m s
  | .dqsTracking ch rank moves => Sys2Proof.Machine.execDqsTracking ch rank moves s
  | .zqCalibration ch => Sys2Proof.Machine.execZqCalibration ch s
  | .hostTrainingHold p ch => Sys2Proof.Machine.execHostTrainingHold p ch s
  | .holdRelease p ch => Sys2Proof.Machine.execHoldRelease p ch s
  | .patternRun p ch => Sys2Proof.Machine.execPatternRun p ch s
  | .patternRunDone ch mism clean => Sys2Proof.Machine.execPatternRunDone ch mism clean s
  | .tapWrite p ch r v => Sys2Proof.Machine.execTapWrite p ch r v s
  | .ytregWrite p ch base len => Sys2Proof.Machine.execYtregWrite p ch base len s
  | .timingSetWrite p ch setB k v => Sys2Proof.Machine.execTimingSetWrite p ch setB k v s
  | .yqosWrite p ch cls rate burst lat => Sys2Proof.Machine.execYqosWrite p ch cls rate burst lat s
  | .yctlWrite p ch lo hi => Sys2Proof.Machine.execYctlWrite p ch lo hi s
  | .hamWrite p ch thresh space hits => Sys2Proof.Machine.execHamWrite p ch thresh space hits s
  | .staveFrame ctl data => Sys2Proof.Machine.execStaveFrame ctl data s
  | .keepalive ctl => Sys2Proof.Machine.execKeepalive ctl s
  | .resync ctl => Sys2Proof.Machine.execResync ctl s
  | .restart ctl => Sys2Proof.Machine.execRestart ctl s
  | .creditFrame bits => Sys2Proof.Machine.execCreditFrame bits s
  | .staveSend q ecc => Sys2Proof.Machine.execStaveSend q ecc s
  | .linkCreditGrant q => Sys2Proof.Machine.execLinkCreditGrant q s
  | .keepaliveSend => Sys2Proof.Machine.execKeepaliveSend s
  | .creditFrameSend => Sys2Proof.Machine.execCreditFrameSend s
  | .resyncRetry => Sys2Proof.Machine.execResyncRetry s
  | .linkLoss e => Sys2Proof.Machine.execLinkLoss e s
  | .linkTrainEntry e pattern => Sys2Proof.Machine.execLinkTrainEntry e s pattern
  | .linkUp e => Sys2Proof.Machine.execLinkUp e s
  | .rstout p => Sys2Proof.Machine.execRstout p s
  | .rstin p => Sys2Proof.Machine.execRstin p s
  | .acfgWrite p v => Sys2Proof.Machine.execAcfgWrite p v s
  | .ainqWrite p v => Sys2Proof.Machine.execAinqWrite p v s
  | .ppsEdge => Sys2Proof.Machine.execPpsEdge s
  | .ppsmissTimeout => Sys2Proof.Machine.execPpsmissTimeout s
  | .timeCorrection p offs offns => Sys2Proof.Machine.execTimeCorrection p offs offns s
  | .slewEnd => Sys2Proof.Machine.execSlewEnd s
  | .rateadjWrite p v => Sys2Proof.Machine.execRateadjWrite p v s
  | .calCommit p => Sys2Proof.Machine.execCalCommit p s
  | .calCancel p => Sys2Proof.Machine.execCalCancel p s
  | .utcoffWrite p v => Sys2Proof.Machine.execUtcoffWrite p v s
  | .utcChangeArm p at48 => Sys2Proof.Machine.execUtcChangeArm p at48 s
  | .utccan p => Sys2Proof.Machine.execUtccan p s
  | .utcoffChange => Sys2Proof.Machine.execUtcoffChange s
  | .tsoutWrite p v => Sys2Proof.Machine.execTsoutWrite p v s
  | .tsOutPulse => Sys2Proof.Machine.execTsOutPulse s
  | .windowCommit p j w0 w1 w2 w3 => Sys2Proof.Machine.execWindowCommit p j w0 w1 w2 w3 s
  | .windowEvaluate => Sys2Proof.Machine.execWindowEvaluate s
  | .windowClose j => Sys2Proof.Machine.execWindowClose j s
  | .registerWrite p word v => Sys2Proof.Machine.execRegisterWrite p word v s
  | .postedWriteLand p => Sys2Proof.Machine.execPostedWriteLand p s
  | .wrstall p => Sys2Proof.Machine.execWrstall p s
  | .rdto p => Sys2Proof.Machine.execRdto p s
  | .stallLimit => Sys2Proof.Machine.execStallLimit s
  | .smbusWriteWord word v pec ending => Sys2Proof.Machine.execSmbusWriteWord word v pec s ending
  | .sequentialWrite word vals odd => Sys2Proof.Machine.execSequentialWrite word vals s odd
  | .setPointer cmd astray => Sys2Proof.Machine.execSetPointer cmd s astray
  | .alertResponse => Sys2Proof.Machine.execAlertResponse s
  | .lockWrite p l v => Sys2Proof.Machine.execLockWrite p l v s
  | .leaseExpiry l => Sys2Proof.Machine.execLeaseExpiry l s
  | .sealWrite p v => Sys2Proof.Machine.execSealWrite p v s
  | .slotidWrite p v => Sys2Proof.Machine.execSlotidWrite p v s
  | .evcntClear p => Sys2Proof.Machine.execEvcntClear p s
  | .evackWrite p v => Sys2Proof.Machine.execEvackWrite p v s
  | .counterClear p r v => Sys2Proof.Machine.execCounterClear p r v s
  | .supplyReturn x => Sys2Proof.Machine.execSupplyReturn x s
  | .hrstRise => Sys2Proof.Machine.execHrstRise s
  | .registerRead p word seq flips => Sys2Proof.Machine.execRegisterRead p word seq flips s
  | .wsyncChange lines => Sys2Proof.Machine.execWsyncChange lines s
  | .refclkEdge => Sys2Proof.Machine.execRefclkEdge s
  | .startupComplete => Sys2Proof.Machine.execStartupComplete s
  | .warmResetComplete => Sys2Proof.Machine.execWarmResetComplete s
  | .queueResetComplete q => Sys2Proof.Machine.execQueueResetComplete q s
  | .portResetComplete n => Sys2Proof.Machine.execPortResetComplete n s
  | .freqswComplete ch => Sys2Proof.Machine.execFreqswComplete ch s
  | .tsOutPulseEnd => Sys2Proof.Machine.execTsOutPulseEnd s
  | .pageidlePrecharge ch bank => Sys2Proof.Machine.execPageidlePrecharge ch bank s

end Sys2Proof.Machine
end

