-- ==== Sys2Proof/Machine/PinView.lean ====
section
/-!
DEFINITION. What each output ball carries (Tables 2.9, 2.10 and 2.11): the levels that follow from the supplies, POR, a warm
device reset, FATAL and the running block.
-/

namespace Sys2Proof.Machine

/-- An output: a level, high-impedance, at the levels it had at self-refresh entry, static with _t low and _c high, or
driven by what runs there (cycles on it are outside the model, log 13). -/
inductive Drive where
  | low
  | high
  | z
  | held
  | static
  | run
  deriving DecidableEq, Repr

def Level.drive : Level → Drive
  | .low => .low
  | .high => .high
  | .z => .z

/-- A level of a VDDIO output: high-impedance without its supply (R46, R48). -/
def State.vddio (s : State) : Bool := s.boot.supplies[1]

def State.io (s : State) (l : Level) : Level := if s.vddio then l else .z

/-! ### VDDIO outputs -/

/-- The pins of a port; without VDDIO every one is high-impedance. -/
def State.portPins (s : State) (n : PId) : Pins :=
  if s.vddio then (s.po n).pins else ⟨.z, .z, .z, .z, 0, 0, true⟩

def boolLevel (b : Bool) : Level := if b then .high else .low

def State.heartPin (s : State) : Level := s.io (boolLevel (s.powered && s.dp.heart))

/-- TS_OUT: low in POR and in a warm device reset, in FATAL as programmed. -/
def State.tsOutPin (s : State) : Level := s.io (boolLevel (s.powered && !s.boot.warm && s.tsOut))

/-- VID[3:0]: code 10 in POR (Table 2.9, step 2), else the code in force; none without VDDIO. -/
def State.vidPins (s : State) : Option Nat := if s.vddio then some s.gov.code else none

/-- What the regulator sees: without VDDIO the pulls give code 0 (Table 2.10). -/
def State.vidSeen (s : State) : Nat := (s.vidPins).getD 0

def State.hintPin (s : State) : Level := s.io s.hint
def State.malertPin (s : State) : Level := s.io s.malert

/-- HD and HRDY of path A, MSDA of path B: released in POR, else they serve the accesses. -/
def State.hdPins (s : State) : Drive := if s.vddio && s.powered then .run else .z
def State.hrdyPin (s : State) : Drive := if !s.vddio then .z else if s.powered then .run else .low
def State.msdaPin (s : State) : Drive := if s.vddio && s.powered then .run else .z

/-- A WSYNC line is driven low or released (R31). -/
def State.wsyncPin (s : State) (i : Fin 4) : Level := s.io (if s.wsyncOwn.getLsbD i.val then .low else .z)

/-- The Azlin outputs are held low: in POR, during a warm device reset and in FATAL (R48, R423). -/
def State.azHeld (s : State) : Bool := !s.powered || s.boot.warm || s.dp.fatal

/-- AZOD, AZOCK and AZOVAL: low while the outbound end is disabled, and without REFCLK (R40, R52, R280, Table 13.6). -/
def State.azOutPins (s : State) : Drive :=
  if !s.vddio then .z else if s.azHeld || !s.outEnabled || !s.time.refclk then .low else .run

/-- AZICRD: low while the inbound end is disabled (R40, R280). -/
def State.azCrdPin (s : State) : Drive :=
  if !s.vddio then .z else if s.azHeld || !s.inEnabled then .low else .run

/-! ### The DRAM channels (R29, R45, R242) -/

/-- The balls of a channel: YnRESET#, YnCKE and YnCS# of each rank, YnCK, the other command and address balls, data and
strobes. -/
structure DramPins where
  reset : Level
  cke0 : Level
  cke1 : Level
  cs0 : Drive
  cs1 : Drive
  ck : Drive
  cmd : Drive
  dq : Drive
  deriving DecidableEq, Repr

def State.vddq (s : State) (c : YId) : Bool := s.boot.supplies[2 + c.val]

/-- VDDQn stands before a supply that comes up before it in Table 2.9, while PORST# is low (R45, Table 2.10; log 75). -/
def State.vddqEarly (s : State) (c : YId) : Bool :=
  s.vddq c && !s.boot.porst && !(s.boot.supplies[0] && s.boot.supplies[1] && s.boot.supplies[4])

/-- The channel rests in self-refresh with its clocks stopped (R242, Table 8.7 steps 2 to 4). -/
def Chan.resting (x : Chan) : Bool :=
  match x.shownState with
  | .selfref | .untrained | .absent | .failed => true
  | .freqsw => !x.phyOn
  | _ => false

/-- YnCS# of rank 1: that of a rank beyond RANKS is held high (R212). -/
def Chan.csOne (x : Chan) (d : Drive) : Drive := if x.ranks then d else .high

/-- The balls of channel `c` in every state of the supplies and of the block. -/
def State.dramPins (s : State) (c : YId) : DramPins :=
  let x := s.ch c
  if !s.vddq c then ⟨.z, .z, .z, .z, .z, .z, .z, .z⟩
  else if s.vddqEarly c then ⟨.low, .z, .z, .z, .z, .z, .z, .z⟩
  else if !s.powered then ⟨.low, .low, .low, .low, .low, .static, .low, .z⟩
  else if s.boot.warm || s.dp.fatal then ⟨.high, .low, .low, .held, x.csOne .held, .static, .held, .z⟩
  else if !x.resetN then ⟨.low, .low, .low, .low, .low, if x.phyOn then .run else .static, .low, .z⟩
  else if x.resting then ⟨.high, .low, .low, .held, x.csOne .held, .static, .held, .z⟩
  else ⟨.high, .high, boolLevel x.ranks, .run, x.csOne .run, .run, .run, .run⟩

end Sys2Proof.Machine
end

