-- ==== Sys2Proof/Safety.lean ====
section
/-!
DEFINITION. The terms claims are stated in: the invariant of the block, what a statement means by "nothing else changed", and
when a host command is carried out.
-/

namespace Sys2Proof.Machine

/-! ### The invariant -/

/-- Marks set and a pending MARK, which together never exceed four (R163, R165). -/
def Queue.markLoad (x : Queue) : Nat :=
  x.marks.length + (match x.markPend with
    | some .mark => 1
    | _ => 0)

/-- The books of a queue: H is the oldest mark, or R without one; H, the marks, R and F stand in this order and none past W,
the slots held being those from H to W, counted modulo 2^48 (R123, R160); and WCNT − RCNT − DCNT = W − F (R196). -/
structure Queue.Books (x : Queue) : Prop where
  hold : x.h = x.marks.headD x.r
  order : ((x.marks ++ [x.r, x.f]).map x.off).Pairwise (· ≤ ·)
  within : x.off x.f ≤ x.held.length
  count : x.occ = x.held.length % 2 ^ 48
  ledger : x.wcnt - x.rcnt - x.dcnt = x.w - x.f

/-- What holds in every state a run of commands can reach from reset:
the event table is canonical (R383); a write-once word that has not been written is 0 (R397); HEART is low in FATAL (R53);
the voltage code is one of 3 to 15 (R439); the nanoseconds and their fraction lie below a second and a nanosecond (R317);
no queue holds more than four marks, its pending MARK counted (R163); and the books of every queue hold (R123, R196). -/
structure State.Inv (s : State) : Prop where
  events : Table.wf EvCell.zero s.events = true
  sealOnce : s.dp.sealDone = false → s.dp.sealV = 0
  slotOnce : s.dp.slotDone = false → s.dp.slotId = 0
  heart : s.dp.fatal = true → s.dp.heart = false
  codeLow : 3 ≤ s.gov.code
  codeHigh : s.gov.code ≤ 15
  ns : s.time.ns < 1000000000
  frac : s.time.frac < unitsNs
  marks : ∀ q, (s.qu q).markLoad ≤ 4
  books : ∀ q, (s.qu q).Books

/-! ### Frames -/

/-- A queue without what an evaluation of the Scaler sets anew: its stored flags (R509), and since when a spill and a refill
of it have been eligible (R508). -/
def Queue.bare (x : Queue) : Queue :=
  { x with ef := false, ae := false, hf := false, ff := false, afth := false, spillSince := none, refillSince := none }

/-- A state without what an evaluation of the Scaler sets in its queues: two states that are equal here differ in that at
most. -/
def State.bare (s : State) : State := { s with queues := s.queues.map Queue.bare }

/-- Where Table 5.2 sets and clears AE, and the threshold part of AF. -/
def State.aeSet (s : State) (q : QId) : Prop := (s.qu q).rdbl ≤ (s.qu q).aeon.toNat ∨ s.isOpen q = false
def State.aeClear (s : State) (q : QId) : Prop := (s.qu q).aeOffUsed < (s.qu q).rdbl ∧ s.isOpen q = true
def State.afSet (s : State) (q : QId) : Prop := ((s.qu q).afon.toNat : Int) ≤ s.afl q
def State.afClear (s : State) (q : QId) : Prop := s.afl q < ((s.qu q).afOffUsed : Int)

/-- The stored flags of a queue are those of Table 5.2 for the state as it is: EF, HF and FF by their conditions, AE and the
threshold part of AF wherever one of their two conditions holds. -/
def State.flagsAt (s : State) (q : QId) : Prop :=
  (s.qu q).ef = (s.scaleIn q).efNow ∧ (s.qu q).ff = (s.scaleIn q).ffNow (s.qu q) ∧
  (s.qu q).hf = (decide (0 < (s.qu q).cap) && decide ((((s.qu q).cap + 1) / 2 : Nat) ≤ s.afl q)) ∧
  (s.aeSet q → (s.qu q).ae = true) ∧ (¬s.aeSet q → s.aeClear q → (s.qu q).ae = false) ∧
  (s.afSet q → (s.qu q).afth = true) ∧ (¬s.afSet q → s.afClear q → (s.qu q).afth = false)

/-- The stored flags of every queue are those of Table 5.2. -/
def State.flagsSettled (s : State) : Prop := ∀ q, s.flagsAt q

/-- AE and the threshold part of AF keep their values where `t` meets neither of their conditions (R128). -/
def State.flagsKept (s t : State) (q : QId) : Prop :=
  (¬t.aeSet q → ¬t.aeClear q → (t.qu q).ae = (s.qu q).ae) ∧ (¬t.afSet q → ¬t.afClear q → (t.qu q).afth = (s.qu q).afth)

/-- No queue's content, configuration, position or counter changed: only stored flags may have. -/
def State.sameQueues (s t : State) : Prop := ∀ k, (t.qu k).bare = (s.qu k).bare

/-- Every queue but `q` as before, stored flags apart. -/
def State.otherQueues (s t : State) (q : QId) : Prop := ∀ k, k ≠ q → (t.qu k).bare = (s.qu k).bare

/-- Every port but `n` as before. -/
def State.otherPorts (s t : State) (n : PId) : Prop := ∀ m, m ≠ n → t.po m = s.po m

/-- A port without what its launching edges show: its pins and what they show next. -/
def Port.inner (x : Port) : Port :=
  { x with shown := 0, followed := false, crossed := Vector.replicate 16 (true, true), pins := Pins.off, errNext := false
           efEdge := false, starved := false }

/-- No port's content, configuration or counter changed: only what its pins show may have. -/
def State.samePorts (s t : State) : Prop := ∀ n, (t.po n).inner = (s.po n).inner

/-- The flags of every port are launched asserted (R72). -/
def State.flagsLow (t : State) : Prop := ∀ n, (t.po n).pins.fla = .low ∧ (t.po n).pins.flb = .low

/-- The three copies of a voted word agree, and it is not in VOTEFAIL (R378). -/
def State.agrees (s : State) (r : VRef) : Prop := s.vget r = VWord.of (s.vget r).val

/-- The three copies of every voted word agree, and none is in VOTEFAIL (R378). -/
def State.agreed (s : State) : Prop := ∀ r, s.agrees r

/-- A path without what every host command may change: staging, and path B's acknowledge and word address. -/
def PathSt.core (x : PathSt) : PathSt := { x with staging := [], ack := false, ptr := 0 }

/-- The frame of a host command: `t` is `u`, stored flags apart, and on both paths only staging and path B's acknowledge
and word address may differ from `s`. -/
def State.hostFrame (s t u : State) : Prop :=
  t.bare = ({ u with pathA := t.pathA, pathB := t.pathB } : State).bare ∧ ∀ r, (t.path r).core = (s.path r).core

/-- No read of either path waits. -/
def State.noReads (s : State) : Prop := ∀ p, (s.path p).readWait = none

/-- No billet of the queue is lost. -/
def Queue.noLost (x : Queue) : Prop := ∀ b ∈ x.billets, b.lost = false

/-- The event table is canonical. -/
def State.eventsWf (s : State) : Prop := Table.wf EvCell.zero s.events = true

/-- EVCNT of one class and instance has gone up by `n`, saturating, and no other count changed (R383). -/
def State.counted (s t : State) (code inst n : Nat) : Prop :=
  (t.ev code inst).cnt = satAdd (s.ev code inst).cnt n ∧ (t.ev code inst).ack = (s.ev code inst).ack ∧
  ∀ c i, evKey c i ≠ evKey code inst → t.ev c i = s.ev c i

/-- A host write is rejected: counted and captured with its class, reason, path and word (R387). -/
def State.rejected (s t : State) (acc : Access) (code inst reason : Nat) : Prop :=
  s.counted t code inst 1 ∧ t.dp = (s.capture acc code reason).dp

/-! ### Host commands -/

/-- A host command of path `p` is carried out on the bus: the path answers and the part is not in FATAL (R49, R424). -/
def State.hostWrites (s : State) (p : Path) : Prop := s.writable p = true ∧ s.dp.fatal = false

/-- The copies of the lock that governs a bank word agree. -/
def State.lockAgrees (s : State) (b : Bank) (off : Nat) : Prop := ∀ l, b.lockOf off = some l → s.agrees (.lock l)

/-- Path `p` may write the word at `off` of bank `b`: neither the seal nor a lock, whose copies agree, stands against it (R393,
R397, R65). -/
def State.mayWrite (s : State) (p : Path) (b : Bank) (off : Nat) : Prop :=
  s.hostWrites p ∧ s.writeRefusal p b off = none ∧ s.lockAgrees b off

/-- A posted command of path `p` lands at once: it may be written, no posted write of the path waits, and the clock of
its domain runs (R368, R369). -/
def State.landsNow (s : State) (p : Path) (b : Bank) (off : Nat) : Prop :=
  s.mayWrite p b off ∧ (s.path p).busy = false ∧ s.clockOn b = true

end Sys2Proof.Machine
end

