-- ==== Sys2Proof/Certificates/Slice0/Obligations.lean ====
section
/-!
DEFINITION. The statements about the model, each a proposition for the provers.
-/

open Sys2Proof Sys2Proof.Machine

/-! ### The block as a whole -/

/-- A step runs the command at the front of the queue on the state with the queue's rest. On an empty queue the block
idles: that half is the model's own (DESIGN CHOICE, log 11). -/
def Obligations.StepRunsFront : Prop :=
  (∀ (c : Instr) (rest : List Instr) (s : State), step { s with pending := c :: rest } = exec c { s with pending := rest }) ∧
  ∀ s : State, s.pending = [] → step s = .next s

/-- The state after reset meets the invariant. -/
def Obligations.ResetMeetsInvariant : Prop :=
  State.reset.Inv

/-- Every step keeps the invariant, from every state that meets it. -/
def Obligations.StepKeepsInvariant : Prop :=
  ∀ s t : State, s.Inv → step s = .next t → t.Inv

/-- No command touches the queue of waiting commands, and every command ends in a next state: the part has no bus error
and no access that stops it (R12). -/
def Obligations.CommandsComplete : Prop :=
  ∀ (c : Instr) (s : State), ∃ t, exec c s = .next t ∧ t.pending = s.pending

/-- R14: DP:SEAL and DP:SLOTID once written keep their value through every command but the two that put the part in
POR. -/
def Obligations.WriteOnceHolds : Prop :=
  ∀ (c : Instr) (s t : State), exec c s = .next t →
    (∀ ns, c ≠ .porstLow ns) → (∀ x, c ≠ .supplyFault x) →
    (s.dp.sealDone = true → t.dp.sealDone = true ∧ t.dp.sealV = s.dp.sealV) ∧
    (s.dp.slotDone = true → t.dp.slotDone = true ∧ t.dp.slotId = s.dp.slotId)

/-- FATAL ends with POR or with a write of DP:GCTL.DEVRST, and with nothing else: a command after which the part has
left FATAL is one of those that can carry one of the two, and a write among them carries DEVRST = 1 to that word. -/
def Obligations.FatalEndsByResetAlone : Prop :=
  ∀ (c : Instr) (s t : State), exec c s = .next t → s.dp.fatal = true → t.dp.fatal = false →
    (∃ ns, c = .porstLow ns) ∨ (∃ x, c = .supplyFault x) ∨ (∃ p en h bad ups, c = .warmDeviceReset p en h bad ups) ∨
    (∃ p v, c = .registerWrite p 2 v ∧ v.getLsbD 1 = true) ∨
    (∃ v pec ending, c = .smbusWriteWord 2 v pec ending ∧ v.getLsbD 1 = true) ∨ 
    (∃ (w : BitVec 7) (vs : List Word) (odd : Bool) (k : Nat) (v : Word), c = .sequentialWrite w vs odd ∧ vs[k]? = some v ∧
      w + BitVec.ofNat 7 k = 2 ∧ v.getLsbD 1 = true)

/-! ### Power, start-up and resets -/

/-- PORST# low for 200 ns or longer, and a supply outside its limits, put every register at its reset value; the board's
own levels (supplies, PORST#, REFCLK, HRST#, the partner's WSYNC lines), the straps as last sampled and the queue of commands
stay. A pulse shorter than 200 ns changes nothing. The values of registers for which the spec gives none are the model's
(DESIGN CHOICE, logs 3 to 9), and so are two values that are no registers: what the march tests will find and the counter of
free values stay (logs 1, 5). After each of the two, every VDDIO output and every DRAM ball of Table 2.11 but TDO (log 13) is
at its level in POR, or high-impedance without its supply, and the balls of a channel whose VDDQn stands while PORST# is low
and VCORE, VDDIO or VDDA is missing are high-impedance but for YnRESET# (R45; that PORST# low is meant is the model's reading,
log 75). -/
def Obligations.PowerOnReset : Prop :=
  ∀ (s : State),
    (∀ ns, ns < 200 → exec (.porstLow ns) s = .next s) ∧
    (∀ ns, 200 ≤ ns → exec (.porstLow ns) s = .next { s.por with boot := { s.por.boot with porst := false } }) ∧
    (∀ x, exec (.supplyFault x) s = .next ({ s with boot := { s.boot with
      supplies := s.boot.supplies.set (Supply.idx x).val false } }).por) ∧
    s.por.boot = { supplies := s.boot.supplies, porst := s.boot.porst, straps := s.boot.straps, stage := 1, rstCause := 1
                   warm := false, halted := false, badBanks := s.boot.badBanks, sensed := false, carding := false, rested := 0
                   trained := false, warmed := 0 } ∧
    s.por.dp = Direct.reset ∧ s.por.pathA = { PathSt.reset with inReset := s.pathA.inReset } ∧ s.por.pathB = PathSt.reset ∧
    s.por.events = [] ∧ s.por.time = { Time.reset with refclk := s.time.refclk } ∧ s.por.cal = Cal.reset ∧
    s.por.wins = Vector.replicate 16 Window.reset ∧ s.por.gov = Gov.reset ∧
    s.por.queues = Vector.replicate 16 Queue.reset ∧ s.por.ports = Vector.replicate 4 Port.reset ∧
    s.por.sy = Vector.replicate 128 (VWord.of 0) ∧ s.por.chans = Vector.replicate 2 Chan.reset ∧
    s.por.azl = { Azl.reset with wsync := s.azl.wsync } ∧ s.por.land = Land.reset ∧ s.por.sampleTick = 0 ∧ s.por.order = 0 ∧ s.por.freeCtr = s.freeCtr ∧ s.por.pending = s.pending ∧
    (∀ (c : Instr) (t : State), (∃ ns, 200 ≤ ns ∧ c = .porstLow ns) ∨ (∃ x, c = .supplyFault x) → exec c s = .next t →
      t.powered = false ∧ t.hdPins = .z ∧ t.msdaPin = .z ∧ t.hintPin = .z ∧ t.malertPin = .z ∧
      (t.boot.supplies[1] = false → (∀ n, t.portPins n = ⟨.z, .z, .z, .z, 0, 0, true⟩) ∧ t.heartPin = .z ∧ t.tsOutPin = .z ∧
        t.vidPins = none ∧ t.hrdyPin = .z ∧ t.azOutPins = .z ∧ t.azCrdPin = .z ∧ ∀ i, t.wsyncPin i = .z) ∧
      (t.boot.supplies[1] = true → (∀ n, t.portPins n = ⟨.low, .low, .high, .z, 0, 0, true⟩) ∧ t.heartPin = .low ∧
        t.tsOutPin = .low ∧ t.vidPins = some 10 ∧ t.hrdyPin = .low ∧ t.azOutPins = .low ∧ t.azCrdPin = .low ∧
        ∀ i, t.wsyncPin i = .low) ∧
      (∀ k : YId,
        let on := t.boot.supplies[2 + k.val]
        let early := t.boot.porst = false ∧ ¬(t.boot.supplies[0] = true ∧ t.boot.supplies[1] = true ∧ t.boot.supplies[4] = true)
        (on = false → t.dramPins k = ⟨.z, .z, .z, .z, .z, .z, .z, .z⟩) ∧
        (on = true → early → t.dramPins k = ⟨.low, .z, .z, .z, .z, .z, .z, .z⟩) ∧
        (on = true → ¬early → t.dramPins k = ⟨.low, .low, .low, .low, .low, .static, .low, .z⟩)))

/-- Start-up: PORST# rising with every supply within limits, or the last supply entering its limits with PORST# high, carries
out steps 1 and 2; step 3 completes with REFCLK and the first conversion of the sensors, whichever comes last, and step 4
begins: every failing bank is retired and counted, and two newly failing banks stop it there. Steps 5 and 6 begin with it where
DP:LOCKDRAM is free: Carding takes it, YnRESET# is released and, with BOOTTRN = 1, the sweep of Y0 runs; where a path holds it,
they wait until it writes 0 there. Start-up step 8 and the last step of a warm device reset:
READY becomes 1, a lock that Carding held is freed, every flag pin is launched asserted, and nothing a port or a queue holds
changes; in FATAL the ports stay stopped. That the count of 100 REFCLK periods of the lookahead starts afresh there, and that a warm reset waits for REFCLK,
is the model's choice (logs 42, 48); that start-up waits for DP:LOCKDRAM is its reading of R65 and R431 (log 63), that
FATAL lets a warm reset end without step 5 its reading of R74 (log 30). -/
def Obligations.StartUpAndResetsComplete : Prop :=
  (∀ s : State,
     (∀ (st : Straps) (bad : BitVec 17), s.boot.porst = false →
       (s.supplied = true → ∃ t, exec (.startUp st bad) s = .next t ∧
         t.bare = ({ s with boot := { s.boot with porst := true, straps := st, badBanks := bad, stage := 3 } } : State).bare) ∧
       (s.supplied = false → exec (.startUp st bad) s =
         .next { s with boot := { s.boot with porst := true, straps := st, badBanks := bad } })) ∧
     (∀ x : Supply, s.boot.porst = true → s.supplied = false → (s.setSupply x true).supplied = true →
       ∃ t, exec (.supplyReturn x) s = .next t ∧
         t.bare = ({ s.setSupply x true with boot := { (s.setSupply x true).boot with stage := 3 } } : State).bare) ∧
     (∀ x : Supply, s.supplied = false → s.boot.porst = false ∨ (s.setSupply x true).supplied = false →
       exec (.supplyReturn x) s = .next (s.setSupply x true)) ∧
     (∀ (c : Instr) (t0 t1 t2 t3 : Int), s.powered = true → s.boot.stage = 3 → s.dp.fatal = false → s.boot.carding = false →
       s.boot.trained = false → s.noReads → s.eventsWf → (∀ c, (s.ch c).st = .untrained) →
       (c = .refclkReturn ∧ s.time.refclk = false ∧ s.boot.sensed = true) ∨
         (c = .sensorConversion t0 t1 t2 t3 ∧ s.time.refclk = true ∧ t0 < 620 ∧ t1 < 620 ∧ t2 < 620 ∧ t3 < 620) →
       ∃ t, exec c s = .next t ∧
         (let fresh := s.boot.badBanks &&& ~~~s.land.retired
          let free := s.dramFree
          t.boot = { s.boot with
            sensed := true, carding := free, halted := decide (2 ≤ bankCount fresh)
            stage := if 2 ≤ bankCount fresh then 4 else if free then 6 else 5 } ∧
          t.land.retired = s.land.retired ||| s.boot.badBanks ∧ s.counted t Ev.lbankfail 0 (bankCount fresh) ∧
          (∀ k, (t.ch k).phyClk = true ∧
            (t.ch k).st = (if free = true ∧ s.boot.straps.boottrn = true ∧ k = 0 then .drain else .untrained)) ∧
          (free = true → (t.lock .dram).holder = VWord.of 3 ∧ (t.ch 1).sweeping = none ∧
            (t.ch 0).sweeping = (if s.boot.straps.boottrn then some .boot else none) ∧
            ∀ k, (t.ch k).resetN = true ∧ (t.ch k).phyOn = true ∧ (t.ch k).setB = false) ∧
          (free = false → t.dp.lockDram = s.dp.lockDram ∧ ∀ k, t.ch k = { s.ch k with phyClk := true })) ∧
         t.time.refclk = true ∧
         t.bare = ({ s with
           boot := t.boot, dp := { s.dp with lockDram := t.dp.lockDram, temp := t.dp.temp }, land := t.land
           events := t.events, chans := t.chans, gov := { s.gov with tsens := t.gov.tsens }
           time := { s.time with refclk := true } } : State).bare) ∧
     (∀ p : Path, s.hostWrites p → s.time.refclk = true → s.bootWaits = true → s.agrees (.lock .dram) → s.holds p .dram = true →
       (∀ c, (s.ch c).st = .untrained) →
       ∃ t, exec (.lockWrite p .dram 0) s = .next t ∧ (t.lock .dram).holder = VWord.of 3 ∧
         t.boot = { s.boot with carding := true, stage := if s.boot.halted then 4 else 6 } ∧ (t.ch 1).sweeping = none ∧
         (t.ch 0).sweeping = (if s.boot.straps.boottrn then some .boot else none) ∧
         (∀ k, (t.ch k).resetN = true ∧ (t.ch k).setB = false ∧
           (t.ch k).st = (if s.boot.straps.boottrn = true ∧ k = 0 then .drain else .untrained)))) ∧
  (∀ s : State, s.powered = true →
     (s.dp.fatal = false → s.boot.stage = 7 → ∃ t, exec .startupComplete s = .next t ∧ s.samePorts t ∧ t.flagsLow ∧
       t.bare = ({ s with
         boot := { s.boot with stage := 8 }
         dp := { s.dp with
           ready := true, readySeen := true
           lockDram := if (s.lock .dram).holder.val = 3 ∧ (∀ c, (s.ch c).sweeping = none) ∧ s.boot.carding = false then Lock.free
             else s.dp.lockDram }
         sampleTick := s.time.ticks, ports := t.ports, freeCtr := t.freeCtr } : State).bare) ∧
     (s.boot.warm = true → s.boot.halted = false → s.time.refclk = true → s.dp.fatal = true →
       ∃ t, exec .warmResetComplete s = .next t ∧ s.samePorts t ∧ (∀ n, (t.po n).pins = s.fatalPins n) ∧ t.gov = s.gov ∧
         t.dp = { s.dp with
           ready := true, readySeen := true
           lockDram := if (s.lock .dram).holder.val = 3 ∧ (∀ c, (s.ch c).sweeping = none) ∧ s.boot.carding = false then Lock.free
             else s.dp.lockDram } ∧
         t.boot = { s.boot with warm := false }) ∧
     (s.boot.warm = true → s.boot.halted = false → s.time.refclk = true → s.dp.fatal = false → s.boot.warmed = 2 →
       s.agrees .floor → s.agrees .ceil → s.agrees .margin →
       (∀ c, (s.ch c).sweeping = none ∧ (s.ch c).waiting = none ∧ (s.ch c).noRef = false ∧
         (s.ch c).must = Vector.replicate 2 false) →
       ∃ t, exec .warmResetComplete s = .next t ∧ s.samePorts t ∧ t.flagsLow ∧
         t.bare = ({ s with
           boot := { s.boot with warm := false }
           dp := { s.dp with
             ready := true, readySeen := true
             lockDram := if (s.lock .dram).holder.val = 3 ∧ s.boot.carding = false then Lock.free else s.dp.lockDram }
           gov := { s.gov with
             useFloor := s.gov.floor.val, useCeil := s.gov.ceil.val, useMargin := s.gov.margin.val, acc8 := 0
             tick := s.time.ticks }
           sampleTick := s.time.ticks, ports := t.ports, freeCtr := t.freeCtr } : State).bare))

/-- A write of 1 to DP:GCTL.DEVRST after start-up. Every register of a class that the reset clears is at its reset value and
every other stays: IDENT:RSTCAUSE names the path, READY and EN are 0, every register of both paths, every port and every
queue is at its reset value, a queue's seven configuration words and its latched map, the Sort yard, the timing sets with
their training, AZL:ACFG and AZL:AINQ, the governor's registers, the time base, the seal and DP:SLOTID stay. Each lock held
counts LOCKBRK and each newly failing bank LBANKFAIL, every other count is 0. A channel whose set in force carries no
training rests as it is; of the trained ones Y0, or Y1 where Y0 needs nothing, is ACTIVE with a tracking update due on each
rank, or, after a move of 20 °C, waits for its sweep, and without REFCLK it waits for it; the other follows. The POR-class
voted words are compared: one whose copies differ in one place is rewritten and counted VOTEFIX; three different copies put a
queue field's queue in VFAIL with EN = 0 and, of a global word, enter FATAL, which ends the reset, as does a sensor at 155 °C.
All this holds in FATAL too. The model's choices in it: path B's read data, acknowledge, word address and alert byte stay (log
7), the ports' clock detectors (8), a trained channel's buckets are full (9), the halt by two newly failing banks (15), LOCKBRK
after the counters are cleared (32), the latched map (52), the place where a broken-off operation leaves a channel (64), a posted
write on its way discarded (69), and the end of the hold of WSYNC after a lost link (81). -/
def Obligations.WarmReset : Prop :=
  ∀ (p : Path) (en heart : Bool) (bad : BitVec 17) (s : State), s.writable p = true → s.boot.stage = 8 → s.agreed →
    ((∀ x ∈ s.gov.tsens.toList, sint x < 620) →
      ∃ t, exec (.warmDeviceReset p en heart bad []) s = .next t ∧
        (let fresh := bad &&& ~~~s.land.retired
         t.boot = { s.boot with
           warm := true, badBanks := bad, halted := decide (2 ≤ bankCount fresh), warmed := if (t.ch 0).warmed then 2 else 1
           rstCause := match p with
             | .a => 2
             | .b => 3 } ∧
         t.land.retired = s.land.retired ||| bad ∧ (t.ev Ev.lbankfail 0).cnt = satAdd 0 (bankCount fresh)) ∧
        (t.ev Ev.lockbrk 0).cnt = satAdd 0 s.heldLocks ∧
        (∀ c i, evKey c i ≠ evKey Ev.lbankfail 0 → evKey c i ≠ evKey Ev.lockbrk 0 → t.ev c i = EvCell.zero) ∧
        t.dp = { Direct.reset with
          sealV := s.dp.sealV, sealDone := s.dp.sealDone, slotId := s.dp.slotId, slotDone := s.dp.slotDone, temp := s.dp.temp } ∧
        (∀ r, t.path r = { PathSt.reset with
          readData := if (s.path r).readWait = none then (s.path r).readData else 0, ptr := (t.path r).ptr
          ack := (t.path r).ack, readSeq := (s.path r).readSeq, alertByte := (s.path r).alertByte, inReset := (s.path r).inReset }) ∧
        (t.path .a).ptr = (s.path .a).ptr ∧ (t.path .a).ack = (s.path .a).ack ∧ t.sy = s.sy ∧
        t.time = { s.time with arm := false, tsout := 0, tsoutNow := 0, tsoutPend := none, pulse := none } ∧ t.cal = Cal.reset ∧
        t.wins = Vector.replicate 16 Window.reset ∧ 
        t.gov = { s.gov with
          acc8 := 0, tick := s.time.ticks, useFloor := s.gov.floor.val, useCeil := s.gov.ceil.val
          useMargin := s.gov.margin.val } ∧
        t.azl = { Azl.reset with acfg := s.azl.acfg, ainq := s.azl.ainq, wsync := s.azl.wsync } ∧
        t.sampleTick = s.time.ticks ∧ t.freeCtr = s.freeCtr ∧
        (∀ n, t.po n = { Port.reset with noclk := (s.po n).noclk, stopped := (s.po n).stopped, fast := (s.po n).fast }) ∧
        (∀ q, (t.qu q).bare = ({ Queue.reset with
          qcfg := (s.qu q).qcfg, qmapL := (s.qu q).qmapL, qmapH := (s.qu q).qmapH, qbaseL := (s.qu q).qbaseL
          qbaseH := (s.qu q).qbaseH, qsizeL := (s.qu q).qsizeL, qsizeH := (s.qu q).qsizeH, vfail := (s.qu q).vfail
          map := (s.qu q).map, lastAfl := (t.qu q).lastAfl } : Queue).bare) ∧
        (∀ c, (t.ch c).reqs = [] ∧ (t.ch c).hot = [] ∧ (t.ch c).throttles = [] ∧ (t.ch c).run = none ∧ (t.ch c).pend = none ∧
          (t.ch c).holdReq = none ∧ (t.ch c).heldHost = false ∧ (t.ch c).freq = none ∧ (t.ch c).sweeping = none ∧
          (t.ch c).resetN = true ∧ (t.ch c).ctlL = Chan.reset.ctlL ∧ (t.ch c).ctlH = Chan.reset.ctlH ∧
          (t.ch c).qos = Chan.reset.qos ∧ (t.ch c).bucket = Chan.reset.bucket ∧ (t.ch c).tregBase = 0 ∧ (t.ch c).tregLen = 16 ∧
          (t.ch c).hamThresh = 0x2000 ∧ (t.ch c).hamSpace = 0x01 ∧ (t.ch c).hamHits = 0 ∧ (t.ch c).defermax = 0x0A ∧
          (t.ch c).tA = (s.ch c).tA ∧ (t.ch c).tB = (s.ch c).tB ∧ (t.ch c).setB = (s.ch c).setB ∧
          (t.ch c).carryA = (s.ch c).carryA ∧ (t.ch c).carryB = (s.ch c).carryB ∧ (t.ch c).taps = (s.ch c).taps ∧
          (t.ch c).vref = (s.ch c).vref ∧ (t.ch c).lfail0 = (s.ch c).lfail0 ∧ (t.ch c).lfail1 = (s.ch c).lfail1 ∧
          (t.ch c).fstep = (s.ch c).fstep ∧ (t.ch c).ttrain = (s.ch c).ttrain ∧ (t.ch c).failed = (s.ch c).failed ∧
          ((s.ch c).st = .untrained ∨ (s.ch c).st = .absent ∨ (s.ch c).st = .failed →
            (t.ch c).st = (s.ch c).st ∧ (t.ch c).waiting = none) ∧
          (c = 1 → (t.ch 0).warmed = false → (s.ch c).st = .active ∨ (s.ch c).st = .selfref →
            (t.ch c).st = .selfref ∧ (t.ch c).must = Vector.replicate 2 false ∧ (t.ch c).waiting = none) ∧
          (c = 0 ∨ (t.ch 0).warmed = true → (s.ch c).st = .active ∨ (s.ch c).st = .selfref →
            (s.time.refclk = false → (t.ch c).st = .selfref ∧ (t.ch c).noRef = true) ∧
            (s.time.refclk = true → s.tempMoved c = false →
              (t.ch c).st = .active ∧ (t.ch c).must = #v[true, (s.ch c).ranks] ∧ (t.ch c).waiting = none) ∧
            (s.time.refclk = true → s.tempMoved c = true → (t.ch c).st = .selfref ∧
              (t.ch c).waiting.map (·.1) = some (some .warm))))) ∧
    ((∃ x ∈ s.gov.tsens.toList, 620 ≤ sint x) →
      ∃ t, exec (.warmDeviceReset p en heart bad []) s = .next t ∧ t.dp.fatal = true ∧ t.boot.warm = false ∧ t.dp.ready = false) ∧
    (∀ (r : VRef) (f : Flips), r ∈ porRefs → f.m0 ≠ f.m1 → f.m0 ≠ f.m2 → f.m1 ≠ f.m2 →
      ∃ t, exec (.warmDeviceReset p en heart bad [⟨r, f⟩]) s = .next t ∧ (t.vget r).failed = true ∧
        ((∀ q i, r ≠ .queue q i) → t.dp.fatal = true ∧ t.boot.warm = false) ∧
        (∀ q i, r = .queue q i → (t.qu q).vfail = true ∧ (t.qu q).en = false ∧
          ((∀ x ∈ s.gov.tsens.toList, sint x < 620) → t.dp.fatal = false ∧ t.boot.warm = true))) ∧
    (∀ (r : VRef) (m : Word) (f : Flips), r ∈ porRefs → m ≠ 0 → f = ⟨m, 0, 0⟩ ∨ f = ⟨0, m, 0⟩ ∨ f = ⟨0, 0, m⟩ →
      ∃ t, exec (.warmDeviceReset p en heart bad [⟨r, f⟩]) s = .next t ∧ t.vget r = VWord.of (s.vget r).val ∧
        (t.ev Ev.votefix 0).cnt = 1)

/-- A PATH reset, by HRST# on path A, by MSCL held low or by a general call with command 0x06 on path B, resets the path's
registers and its BUSY, discards its staging and its holding register, and frees the locks it holds, counting LOCKBRK for
each; posted writes stay on their way. A departure of DP:LOCKTIME clears ARM; one of DP:LOCKDRAM clears HOLD on both
channels, and a channel held for the host is swept at once under Carding's lock. Nothing else changes; this is said where
start-up does not wait for DP:LOCKDRAM. HRST# shorter than 100
ns changes nothing, in POR it holds path A alone, and its rise ends that; every other general call is not acknowledged. -/
def Obligations.PathResets : Prop :=
  (∀ (ns : Nat) (s : State), ns < 100 → exec (.pathAReset ns) s = .next s) ∧
  (∀ (ns : Nat) (s : State), 100 ≤ ns → s.powered = false →
    exec (.pathAReset ns) s = .next { s with pathA := { s.pathA with inReset := true } }) ∧
  (∀ s : State, exec .hrstRise s = .next { s with pathA := { s.pathA with inReset := false } }) ∧
  (∀ (cmd : BitVec 8) (s : State), s.powered = true → cmd ≠ 0x06 →
    exec (.generalCallReset cmd) s = .next { s with pathB := { s.pathB with ack := false } }) ∧
  (∀ (c : Instr) (p : Path) (s : State), s.powered = true → s.eventsWf → s.bootWaits = false →
    (p = .a ∧ ∃ ns, 100 ≤ ns ∧ c = .pathAReset ns) ∨ (p = .b ∧ (c = .msclLowTimeout ∨ c = .generalCallReset 0x06)) →
    ∃ t, exec c s = .next t ∧
      t.path p = { s.path p with
        bankSel := 0, staging := [], holdTime := none, holdPps := none, holdGen := none, asel := 0, readWait := none
        posted := (s.path p).posted.map (fun w => { w with quiet := true })
        inReset := if p = .a then true else (s.path p).inReset
        ack := if c = .generalCallReset 0x06 then true else (s.path p).ack } ∧
      (t.path p).busy = false ∧ t.path (otherPath p) = s.path (otherPath p) ∧
      (∀ l, s.holds p l = false → t.lock l = s.lock l) ∧
      (∀ l, s.holds p l = true → (t.lock l).holder =
        VWord.of (if l = .dram ∧ (∃ k, (s.ch k).hold = true ∧ (s.ch k).heldHost = true) then 3 else 0)) ∧
      s.counted t Ev.lockbrk 0 (([LockId.config, .time, .dram].filter fun l => s.holds p l).length) ∧
      t.time = { s.time with arm := s.time.arm && !s.holds p .time } ∧
      (∀ k, s.holds p .dram = false ∨ (s.ch k).hold = false → t.ch k = s.ch k) ∧
      (∀ k, s.holds p .dram = true → (s.ch k).hold = true → (t.ch k).hold = false ∧ (t.ch k).holdReq = none ∧
        (t.ch k).heldHost = false ∧ (t.ch k).reqs = (s.ch k).reqs ∧ (t.ch k).taps = (s.ch k).taps ∧
        ((s.ch k).heldHost = true → (t.ch k).sweeping = some .retrain ∧ (t.ch k).st = .drain) ∧
        ((s.ch k).heldHost = false → (s.ch k).st ≠ .drain ∨ (s.ch k).drainHold = false → (t.ch k).st = (s.ch k).st)) ∧
      t.bare = ({ s with
        pathA := t.pathA, pathB := t.pathB, time := t.time, events := t.events, chans := t.chans, order := t.order
        dp := { s.dp with lockCfg := t.dp.lockCfg, lockTime := t.dp.lockTime, lockDram := t.dp.lockDram } } : State).bare)

/-- While REFCLK is absent every trained channel rests in self-refresh, the PHY clocks are stopped, the outbound Azlin end
is DOWN and HEART is low; when it returns, each channel that rested so is ACTIVE with one tracking update due on each rank,
while a drain, a sweep or a frequency change goes on. Nothing else changes; the return is said where start-up does not wait for
DP:LOCKDRAM. That the outbound end goes DOWN with no AZLOSS (log 47) and what goes on without REFCLK (log 42) are the model's
reading. -/
def Obligations.RefclkLossAndReturn : Prop :=
  ∀ s : State, s.powered = true →
    (∃ t, exec .refclkLoss s = .next t ∧
      (∀ c, t.ch c = { s.ch c with
        phyClk := false, rows := Vector.replicate 16 none, gap := Vector.replicate 2 none, must := Vector.replicate 2 false
        st := (t.ch c).st, noRef := (t.ch c).noRef }) ∧
      (∀ c, (s.ch c).st = .active ∨ (s.ch c).st = .selfref → (t.ch c).st = .selfref ∧ (t.ch c).noRef = true) ∧
      (∀ c, (s.ch c).st = .drain ∨ (s.ch c).st = .freqsw → (s.ch c).prior = .active ∨ (s.ch c).prior = .selfref →
        (t.ch c).st = (s.ch c).st ∧ (t.ch c).noRef = true ∧ (t.ch c).shownState = .selfref) ∧
      (∀ c, (s.ch c).st = .untrained ∨ (s.ch c).st = .absent ∨ (s.ch c).st = .failed ∨ (s.ch c).st = .reset →
        (t.ch c).st = (s.ch c).st ∧ (t.ch c).noRef = false) ∧
      t.azl.out = { s.azl.out with
        st := .down, lost := none, episode := false, rqAt := none, sync := false, answered := false, tx := [] } ∧
      t.bare = ({ s with
        time := { s.time with refclk := false }, dp := { s.dp with heart := false }, chans := t.chans
        azl := { s.azl with out := t.azl.out }, order := t.order } : State).bare) ∧
    (s.time.refclk = false → 3 < s.boot.stage → s.dp.fatal = false → s.boot.warm = false → s.bootWaits = false → s.noReads →
      ∃ t, exec .refclkReturn s = .next t ∧
        (∀ c, (t.ch c).phyClk = true ∧ (t.ch c).noRef = false ∧ (t.ch c).reqs = (s.ch c).reqs ∧ (t.ch c).taps = (s.ch c).taps ∧
          (t.ch c).sweeping = (s.ch c).sweeping ∧ (t.ch c).freq = (s.ch c).freq) ∧
        (∀ c, (s.ch c).noRef = true → (s.ch c).st = .selfref → (t.ch c).st = .active ∧
          (t.ch c).must = #v[true, (s.ch c).ranks] ∧ (t.ch c).idleSince = (s.ch c).idleSince) ∧
        (∀ c, (s.ch c).noRef = false ∨ (s.ch c).st ≠ .selfref → t.ch c = { s.ch c with phyClk := true, noRef := false }) ∧
        t.bare = ({ s with time := { s.time with refclk := true }, chans := t.chans, order := t.order } : State).bare)

/-! ### Sensors, HEART, governor, voting -/

/-- Four conversions set GOV:TSENS and DP:TEMP, the highest of them, each held between −55 °C and +175 °C. 155 °C or
more enters FATAL; less asks for a retrain of every channel in service, or changing to a trained set, whose temperature has
moved by 20 °C since its training and that has none pending, and changes nothing else. DP:VCORE_MV takes its sample. HEART
toggles at the end of a half-period only while READY has been 1 since the last reset, HEARTEN = 1, the part is not in FATAL,
REFCLK is present with every tracking update of its return done, no warm reset runs, and the core has answered its handshake;
at the end of any other half-period it is low. No half-period ends before its time; one that comes more than one late begins
them afresh (DESIGN CHOICE, log 68). -/
def Obligations.SensorsAndHeart : Prop :=
  (∀ s : State, s.powered = true →
     (∀ t0 t1 t2 t3 : Int, 3 ≤ s.boot.stage → s.boot.stage ≠ 3 ∨ s.time.refclk = false → s.boot.warm = false → s.noReads →
       let gov := { s.gov with tsens := #v[tempWord t0, tempWord t1, tempWord t2, tempWord t3] }
       ∃ t, exec (.sensorConversion t0 t1 t2 t3) s = .next t ∧ t.gov.tsens = gov.tsens ∧
         t.dp.temp = BitVec.ofInt 16 (max (max (clampTemp t0) (clampTemp t1)) (max (clampTemp t2) (clampTemp t3))) ∧
         ((620 ≤ t0 ∨ 620 ≤ t1 ∨ 620 ≤ t2 ∨ 620 ≤ t3) → t.bare = (State.enterFatal { s with
           boot := { s.boot with sensed := true }, dp := { s.dp with temp := t.dp.temp }, gov := gov }).bare ∧
           t.dp.fatal = true) ∧
         ((t0 < 620 ∧ t1 < 620 ∧ t2 < 620 ∧ t3 < 620) →
           (∀ c, t.ch c = { s.ch c with pend := (t.ch c).pend }) ∧
           (∀ c, (s.ch c).pend ≠ none ∨ t.tempMoved c = false ∨ s.dp.fatal = true ∨
             ((s.ch c).st ≠ .active ∧ (s.ch c).st ≠ .selfref ∧ (s.ch c).st ≠ .freqsw) →
             (t.ch c).pend = (s.ch c).pend) ∧
           (∀ c, (s.ch c).pend = none → t.tempMoved c = true → (s.ch c).st = .active ∨ (s.ch c).st = .selfref →
             (s.ch c).holdReq = none → (s.ch c).heldHost = false → (s.ch c).sweeping = none → s.dp.fatal = false →
             (t.ch c).pend.map (fun p => (p.tick, p.limit)) = some (s.time.ticks, fld (s.ch c).defermax 0 8)) ∧
           t.bare = ({ s with
             boot := { s.boot with sensed := true }, dp := { s.dp with temp := t.dp.temp }, gov := gov, chans := t.chans
             order := t.order } : State).bare)) ∧
     (∀ mv : Word, 4 ≤ s.boot.stage → exec (.vcoreSample mv) s = .next { s with gov := { s.gov with vcoreMv := mv } })) ∧
  (∀ (alive : Bool) (s : State), s.dp.heartAt ≤ 32 * s.time.ticks → ∃ t, exec (.heartToggle alive) s = .next t ∧
     t = { s with dp := { s.dp with heart := t.dp.heart, heartAt := t.dp.heartAt } } ∧
     t.dp.heartAt = (if s.dp.heartAt + heartHalf ≤ 32 * s.time.ticks then 32 * s.time.ticks + heartHalf
       else s.dp.heartAt + heartHalf) ∧
     ((s.powered = true ∧ s.dp.readySeen = true ∧ s.dp.heartEn = true ∧ s.dp.fatal = false ∧ s.time.refclk = true ∧
         s.boot.warm = false ∧ (∀ c, (s.ch c).noRef = false ∧ (s.ch c).must = Vector.replicate 2 false) ∧ alive = true) →
       t.dp.heart = !s.dp.heart) ∧
     (¬(s.powered = true ∧ s.dp.readySeen = true ∧ s.dp.heartEn = true ∧ s.dp.fatal = false ∧ s.time.refclk = true ∧
         s.boot.warm = false ∧ (∀ c, (s.ch c).noRef = false ∧ (s.ch c).must = Vector.replicate 2 false) ∧ alive = true) →
       t.dp.heart = false)) ∧
  (∀ (alive : Bool) (s : State), 32 * s.time.ticks < s.dp.heartAt → exec (.heartToggle alive) s = .next s)

/-- At the end of a 50 µs interval of service the governor publishes its counts: DEMAND, the staves of the interval in M
staves/s, CAPAC, and CAPDN, which at code 3 is CAPAC. It then moves the code by one at most: toward the effective floor and
ceiling of that interval when outside them; in AUTO up by one when CAPAC < T and the code is below the ceiling, else down by
one when CAPDN ≥ T and the code is above the floor, else not; in FIXED toward its code. T is compared without its division by
64. FLOOR, CEIL and MARGIN are read, each compared, for the next interval. In FATAL the code moves toward the effective floor; before
start-up step 7 and in a warm reset no interval runs. Where the copies of the three words agree, nothing else changes, and an
interval that has not run 50 µs does not end. Whether the division of DEMAND rounds up is a free value (log 1); that a row which
comes late begins the next interval at its own instant is the model's choice (DESIGN CHOICE, log 68). -/
def Obligations.Governor : Prop :=
  ∀ (capac capdn : Word) (s : State),
    (s.time.ticks < s.gov.tick + 5000 ∨ s.powered = false ∨ s.time.refclk = false ∨
      (s.dp.fatal = false ∧ (s.boot.stage < 7 ∨ s.boot.warm = true)) → exec (.governorInterval capac capdn) s = .next s) ∧
    (s.powered = true → (7 ≤ s.boot.stage ∧ s.boot.warm = false) ∨ s.dp.fatal = true → s.time.refclk = true →
      s.gov.tick + 5000 ≤ s.time.ticks → s.agrees .floor → s.agrees .ceil → s.agrees .margin →
    ∃ t, exec (.governorInterval capac capdn) s = .next t ∧
      t = { s with
        gov := { s.gov with
          capac := capac, capdn := if s.gov.code = 3 then capac else capdn, demand := t.gov.demand, code := t.gov.code
          acc8 := 0, tick := s.time.ticks, useFloor := s.gov.floor.val, useCeil := s.gov.ceil.val
          useMargin := s.gov.margin.val }
        freeCtr := s.freeCtr + 1 } ∧
      (t.gov.demand = demandWord s.gov.acc8 s.freeCtr ∧
        (t.gov.demand.toNat = min 65535 (s.gov.acc8 / 400) ∨ t.gov.demand.toNat = min 65535 ((s.gov.acc8 + 399) / 400))) ∧
      (s.dp.fatal = true → t.gov.code = stepToward s.gov.code s.gov.effFloor) ∧
      (s.dp.fatal = false →
        (s.gov.code < s.gov.effFloor → t.gov.code = s.gov.code + 1) ∧
        (s.gov.effFloor ≤ s.gov.code → s.gov.effCeil < s.gov.code → t.gov.code = s.gov.code - 1) ∧
        (s.gov.effFloor ≤ s.gov.code → s.gov.code ≤ s.gov.effCeil → s.gov.fixed = false →
          (64 * capac.toNat < t.gov.demand.toNat * s.gov.weight → s.gov.code < s.gov.effCeil → t.gov.code = s.gov.code + 1) ∧
          (¬(64 * capac.toNat < t.gov.demand.toNat * s.gov.weight ∧ s.gov.code < s.gov.effCeil) →
            (t.gov.demand.toNat * s.gov.weight ≤ 64 * t.gov.capdn.toNat ∧ s.gov.effFloor < s.gov.code →
              t.gov.code = s.gov.code - 1) ∧
            (¬(t.gov.demand.toNat * s.gov.weight ≤ 64 * t.gov.capdn.toNat ∧ s.gov.effFloor < s.gov.code) →
              t.gov.code = s.gov.code))) ∧
        (s.gov.effFloor ≤ s.gov.code → s.gov.code ≤ s.gov.effCeil → s.gov.fixed = true →
          t.gov.code = stepToward s.gov.code (max s.gov.effFloor (min s.gov.effCeil (fld s.gov.mode 4 4))))))

/-- The scrubber compares every voted word. Words of which one copy disagrees are rewritten to the majority, each counted as
VOTEFIX, and nothing else changes; a word whose three copies all disagree is in VOTEFAIL and reads 0x0000, a queue field
disabling its queue with VFAIL and a global field entering FATAL, and nothing beside changes. A pass over words that all
agree changes nothing. -/
def Obligations.Scrubber : Prop :=
  ∀ s : State, s.powered = true → 3 ≤ s.boot.stage → s.eventsWf → s.agreed →
    (∃ t, exec (.voteScrub []) s = .next t ∧ t.bare = s.bare) ∧
    (∀ ups : List Upset, (ups.map (·.ref)).Nodup →
      (∀ u ∈ ups, ∃ m : Word, m ≠ 0 ∧ (u.flips = ⟨m, 0, 0⟩ ∨ u.flips = ⟨0, m, 0⟩ ∨ u.flips = ⟨0, 0, m⟩)) →
      ∃ t, exec (.voteScrub ups) s = .next t ∧ (∀ r, t.vget r = s.vget r) ∧ s.counted t Ev.votefix 0 ups.length ∧
        t.bare = ({ s with events := t.events } : State).bare) ∧
    (∀ (r : VRef) (f : Flips), f.m0 ≠ f.m1 → f.m0 ≠ f.m2 → f.m1 ≠ f.m2 →
      ∃ t, exec (.voteScrub [⟨r, f⟩]) s = .next t ∧ (t.vget r).failed = true ∧ (t.vget r).val = 0 ∧
        (let v : VWord := { (s.vget r).flip f with failed := true }
         (∀ q i, r = .queue q i → (t.qu q).en = false ∧ (t.qu q).vfail = true ∧
           t.bare = ((s.vset r v).modQu q fun x => { x with en := false, vfail := true }).bare) ∧
         ((∀ q i, r ≠ .queue q i) → t.dp.fatal = true ∧ t.bare = (s.vset r v).enterFatal.bare)))

/-! ### Ports -/

/-- Pn:PSTS.NOCLK follows the port clock, and a port whose clock has stopped keeps everything the port holds: as it stops, the pending mark commands of the
queues that the port reads are applied at the core (Table 6.3), and as it runs again what the port has staged moves on. The
measured frequency sets the number of synchronizer stages. When every crossing to a running port has completed, its flag
pins, and those of the upper port of a pair, show the settled flags of the queue that Pn:PFLAGQ has it show from this edge on;
EF# stays low while the staves fetched for the port are short. -/
def Obligations.PortClockAndFlags : Prop :=
  (∀ (n : PId) (s : State), s.powered = true → 3 ≤ s.boot.stage →
     (∃ t, exec (.portNoclk n) s = .next t ∧ t.po n = { s.po n with
         noclk := true, stopped := true, crossed := (t.po n).crossed } ∧
       s.otherPorts t n ∧ t = { s with
         ports := t.ports, queues := t.queues, chans := t.chans, order := t.order } ∧
       (∀ q, (s.qu q).markPend = none → t.qu q = s.qu q) ∧
       ((∀ q, (s.qu q).markPend = none) → t = s.setPo n { s.po n with noclk := true, stopped := true }) ∧
       ∀ q c, (s.qu q).markPend = some c → s.midSegment q = false → (s.qu q).chainRead = false → s.namedPort q = n →
         (s.qu q).noLost → (t.qu q).markPend = none ∧ (t.qu q).marks = ((s.qu q).applyMark c).marks ∧
           (t.qu q).r = ((s.qu q).applyMark c).r) ∧
     (s.noReads → ∃ t, exec (.portClockResume n) s = .next t ∧ (t.po n).noclk = false ∧ (t.po n).stopped = false ∧
       (let u := s.setPo n { s.po n with noclk := false, stopped := false }
        t.bare = (u.drain (s.master n)).bare ∧ ((s.po (s.master n)).staging = [] → t.bare = u.bare))) ∧
     (∀ khz, s.time.refclk = true → ∃ t, exec (.syncDepthMeasure n khz) s = .next t ∧
       t = s.setPo n { s.po n with fast := t.po n |>.fast } ∧
       ((t.po n).s3 = true ↔ 200000 < khz ∨ (s.po n).lcfg.getLsbD 2 = true))) ∧
  (∀ (n : PId) (s : State), s.portActive n = true →
     ∃ t, exec (.flagCrossing n) s = .next t ∧
       t.po n = { s.po n with
         shown := s.showNow n (s.po n).shown
         crossed := Vector.ofFn (s.coreFlags n)
         pins := { (s.po n).pins with
           fla := if (s.po n).starved then .low else (t.flagPins n).1, flb := (t.flagPins n).2 } } ∧
       (s.showNow n (s.po n).shown = (s.po n).shown → t.flagPins n = s.settledPins n) ∧
       (s.paired n = true → t.po (upperPort n) = { s.po (upperPort n) with
         pins := { (t.po n).pins with d := if (s.po n).pins.dz then 0 else (s.po (upperPort n)).pins.d } }) ∧
       t = { s with ports := t.ports } ∧ ∀ m, m ≠ n → (m = upperPort n → s.paired n = false) → t.po m = s.po m)

/-- A landed enable latches Pn:PCFG and sets EN, and launches both flags low until the first crossing; a lower port forms its
pair or leaves it: a pair pools the two ports' credits, a port that leaves one keeps its own four. A landed disable clears EN
and leaves the port's partial staves in the Bucker. Neither changes the content of a queue where no segment of the port is
open and no mark is pending. A write of DP:GCTL sets EN and HEARTEN, and each PCTL.EN keeps the value it reads; clearing EN
acts on every running port as clearing its PCTL.EN. How the credits are pooled and cut, and what an upper port keeps as its pair
forms, is the model's reading (DEDUCED, log 18); that a segment without a payload slot and a discard in progress end with no
error is its choice (log 60). -/
def Obligations.PortEnables : Prop :=
  (∀ (p : Path) (n : PId) (s : State), s.landsNow p (.port n) 0 → s.isUpper n = false → s.noReads →
     ((s.po n).en = false → ∃ t, exec (.portEnable p n) s = .next t ∧
       (t.po n).inner = ({ s.po n with en := true, lcfg := (s.po n).cfg, held := (t.po n).held } : Port).inner ∧
       (t.po n).shown = (s.po n).qsel ∧ (t.po n).pins.fla = .low ∧ (t.po n).pins.flb = .low ∧ (t.po n).pins.err = .high ∧
       (t.po n).pins.dv = (if s.portsOn && (s.po n).cfg.getLsbD 0 then .low else .z) ∧
       (let u := upperPort n
        let forms := decide (n = lowerPort n) && !s.paired n && (s.po n).cfg.getLsbD 5
        let leaves := decide (n = lowerPort n) && s.paired n && !(s.po n).cfg.getLsbD 5
        (t.po n).held = (if forms then ((s.poolCredits n u).po n).held else if leaves then (s.po n).cutCredits.held
          else (s.po n).held) ∧
        (t.paired n = true → (t.po u).pins = { (t.po n).pins with d := (t.po u).pins.d }) ∧
        (forms = true → (t.po u).fsm = .idle) ∧
        (forms = false ∨ ((s.po u).staging = [] ∧ ∀ l k, (s.po u).fsm ≠ .body l k) →
          (u ≠ n → (t.po u).inner = ({ s.po u with
            fsm := if forms then .idle else (s.po u).fsm
            held := if forms then ((s.poolCredits n u).po u).held else (s.po u).held } : Port).inner) ∧
          s.hostFrame t { s with ports := t.ports, freeCtr := t.freeCtr })) ∧
       (∀ m, m ≠ n → m ≠ upperPort n → t.po m = s.po m) ∧ t.events = s.events ∧
       ∀ q, (t.qu q).w = (s.qu q).w ∧ (t.qu q).wcnt = (s.qu q).wcnt ∧ (t.qu q).rcnt = (s.qu q).rcnt) ∧
     ((s.po n).en = true → ∃ t, exec (.portDisable p n) s = .next t ∧ (t.po n).en = false ∧
       (t.po n).lcfg = (s.po n).lcfg ∧ (t.po n).partials = (s.po n).partials ∧
       (t.po n).fsm = (if (s.po n).egress then (s.po n).fsm else .idle) ∧ t.events = s.events ∧ t.dp = s.dp ∧
       (∀ q, (t.qu q).w = (s.qu q).w ∧ (t.qu q).wcnt = (s.qu q).wcnt ∧ (t.qu q).rcnt = (s.qu q).rcnt) ∧
       ((∀ m, s.drainOne m = none) → (∀ l k, (s.po n).fsm ≠ .body l k) → (∀ q, (s.qu q).markPend = none) →
         (t.po n).inner = ({ s.po n with en := false, fsm := (t.po n).fsm } : Port).inner ∧
         (∀ m, m ≠ n → (m = upperPort n → s.paired n = false) → t.po m = s.po m) ∧
         (s.paired n = true → (t.po (upperPort n)).inner = (s.po (upperPort n)).inner ∧
           (t.po (upperPort n)).pins = { (t.po n).pins with d := (t.po (upperPort n)).pins.d }) ∧
         s.hostFrame t { s with ports := t.ports, freeCtr := t.freeCtr }))) ∧
  (∀ (p : Path) (en heart : Bool) (s : State), s.hostWrites p →
     ∃ t, exec (.deviceEnable p en heart) s = .next t ∧
       t.dp = { s.dp with en := en, heartEn := heart, heart := s.dp.heart && heart } ∧
       (∀ n, (t.po n).en = (s.po n).en ∧ (t.po n).partials = (s.po n).partials ∧ (t.po n).lcfg = (s.po n).lcfg) ∧
       t.events = s.events ∧ t.boot = s.boot ∧ t.time = s.time ∧
       (∀ q, (t.qu q).w = (s.qu q).w ∧ (t.qu q).wcnt = (s.qu q).wcnt ∧ (t.qu q).rcnt = (s.qu q).rcnt) ∧
       (s.dp.en = false ∨ en = true → s.samePorts t ∧
         s.hostFrame t { s with dp := t.dp, ports := t.ports, freeCtr := t.freeCtr }) ∧
       (s.dp.en = true → en = false → (∀ m, s.drainOne m = none) → (∀ n l k, (s.po n).fsm ≠ .body l k) →
         (∀ q, (s.qu q).markPend = none) →
         (∀ n, (t.po n).inner = ({ s.po n with
           fsm := if (s.po n).en && !s.isUpper n && !(s.po n).egress then .idle else (s.po n).fsm } : Port).inner) ∧
         s.hostFrame t { s with dp := t.dp, ports := t.ports, freeCtr := t.freeCtr }))

/-- A landed PORT reset discards the port's staging, partial staves and credits, counts the slots it discards in QEVT.DISC,
clears the port's counters and its diagnostic capture, and the capture of the upper port of its pair; it keeps PCFG and the
EN it writes, and latches PCFG anew while EN = 1. The port runs again, its flags launched low, when the reset completes. An
ARM written to Pn:PCAPT_C sets TRIG, arms the port's capture, and the upper port's of its pair, and DONE is 0 again; the
words captured before stay. The order inside the reset, and that its contents count in QEVT.DISC whatever the new DIR, is the
model's reading (DEDUCED, log 23). -/
def Obligations.PortResetAndCapture : Prop :=
  (∀ (p : Path) (n : PId) (s : State), s.isUpper n = false → s.noReads →
     (∀ en, s.landsNow p (.port n) 0 → ∃ t, exec (.portReset p n en) s = .next t ∧
       (t.po n).inner = ({ (s.po n).cleared with
         en := en, lcfg := if en then (s.po n).cfg else (s.po n).lcfg, resetting := true } : Port).inner ∧
       (t.po n).staging = [] ∧ (t.po n).done = [] ∧ (t.po n).partials = Vector.replicate 16 [] ∧
       (t.po n).held = Vector.replicate 16 0 ∧ (t.po n).spent = Vector.replicate 16 0 ∧ (t.po n).perrcnt = 0 ∧
       (t.po n).ptagmiss = 0 ∧ (t.po n).capTrig = false ∧ (t.po n).capArmed = false ∧ (t.po n).capDone = false ∧
       (t.po n).capWait = false ∧ (t.po n).capt0 = 0 ∧ (t.po n).capt1 = 0 ∧ (t.po n).capt2 = 0 ∧
       (t.po n).cfg = (s.po n).cfg ∧ (t.po n).pins.fla = .low ∧ (t.po n).pins.flb = .low ∧
       (t.paired n = true → n = lowerPort n →
         (let u := t.po (upperPort n)
          u.capTrig = false ∧ u.capArmed = false ∧ u.capDone = false ∧ u.capWait = false ∧ u.capt0 = 0 ∧ u.capt1 = 0 ∧
          u.capt2 = 0)) ∧
       (en = (s.po n).en → ∀ q, (t.qu q).disc = satAdd (s.qu q).disc ((s.po n).pend q)) ∧ t.events = s.events ∧
       ∀ q, (t.qu q).w = (s.qu q).w ∧ (t.qu q).wcnt = (s.qu q).wcnt ∧ (t.qu q).rcnt = (s.qu q).rcnt) ∧
     (s.running = true → (s.po n).resetting = true → ∃ t, exec (.portResetComplete n) s = .next t ∧
       (t.po n).inner = ({ s.po n with resetting := false } : Port).inner ∧ (t.po n).pins.fla = .low ∧
       (t.po n).pins.flb = .low ∧ (∀ m, m ≠ n → (t.po m).inner = (s.po m).inner) ∧
       (∀ m, m ≠ n → (m = upperPort n → s.paired n = false) → t.po m = s.po m) ∧
       t.bare = ({ s with ports := t.ports, freeCtr := t.freeCtr } : State).bare)) ∧
  (∀ (p : Path) (n : PId) (trig : Bool) (s : State), s.landsNow p (.port n) 6 → s.noReads →
     ∃ t, exec (.captureArm p n trig) s = .next t ∧
       (let armed (x : Port) : Port := { x with capTrig := trig, capArmed := true, capDone := false, capWait := false }
        t.po n = armed (s.po n) ∧
        (s.paired n = true → n = lowerPort n → t.po (upperPort n) = armed (s.po (upperPort n))) ∧
        (∀ m, m ≠ n → (m = upperPort n → s.paired n = true → n ≠ lowerPort n) → t.po m = s.po m) ∧
        s.hostFrame t { s with ports := t.ports }))

/-- An ingress edge. A stream-mode word that is accepted is taken whole into the port's partial stave of its queue; when it
completes the stave, the stave waits for its commit and one held credit is spent on it; no queue changes. A segment-mode word
that is accepted moves the framing of Table 4.7, counts its parity and framing errors, and its tokens join the staging, from
which they move on in order, but for the payload of a dropped segment, which is discarded. A word that is not accepted is not held, is counted in no ledger counter and is no parity or
framing error: PnERR# follows where its queue is not the flagged one, and a twin counts it. On every edge PnERR# of the word
before is launched, the flags shown are those crossed and the port's own, and an armed capture records the word. An edge
without a word, and any edge of a port that does not take words, leaves what the port holds. Staves that wait are pressed
into the core only where the 64 slots of R112, 128 for a pair, would be passed. The first edge after the port's clock had stopped first lets what the port holds move
on. That a full staging keeps out the words of a queue whose staves wait is the model's reading (log 61). -/
def Obligations.StreamWords : Prop :=
  ∀ (n : PId) (d hi : BitVec 36) (qa : BitVec 4) (fr : BitVec 2) (s : State),
    let x := s.po n
    let q : QId := ⟨qa.toNat, qa.isLt⟩
    let v := wordSlots (s.width n) d hi
    let shows (t : State) : Prop := (t.po n).pins.err = Level.ofFlag x.errNext ∧
      ((t.po n).pins.fla, (t.po n).pins.flb) = t.flagPins n
    let others (t : State) : Prop := ∀ m, m ≠ n → (m = upperPort n → s.paired n = false) → t.po m = s.po m
    let upper (t : State) (ok err : Bool) : Prop := others t ∧ (s.paired n = true → (t.po (upperPort n)).inner =
      (((s.po (upperPort n)).captureErr x.errNext).captureIn hi qa fr ok err).inner)
    let refused (dst : Option QId) : Prop := ∃ t, exec (.ingressWord n true d hi qa fr) s = .next t ∧ shows t ∧
      (let err := dst.any (· != x.shown)
       (t.po n).inner = ((x.captureErr x.errNext).captureIn d qa fr false err).inner ∧ (t.po n).errNext = err ∧
       upper t false err) ∧
      t = { s with ports := t.ports, events := t.events } ∧
      (if s.twin then s.eventsWf → s.counted t Ev.twinskew 0 1 else t.events = s.events)
    (s.portActive n = false ∨ x.egress = true → ∀ en, exec (.ingressWord n en d hi qa fr) s = .next s) ∧
    (s.portActive n = true → x.egress = false → x.stopped = true →
      ∀ en, exec (.ingressWord n en d hi qa fr) s = exec (.ingressWord n en d hi qa fr) (s.edgeCame n)) ∧
    (s.portActive n = true → x.egress = false → x.stopped = false →
      (∃ t, exec (.ingressWord n false d hi qa fr) s = .next t ∧ shows t ∧ others t ∧
        (t.po n).inner = (x.captureErr x.errNext).inner ∧ (t.po n).errNext = false ∧
        (s.paired n = true → (t.po (upperPort n)).inner = ((s.po (upperPort n)).captureErr x.errNext).inner) ∧
        t = { s with ports := t.ports }) ∧
      (x.segMode = false → s.admits n q = true →
        ∃ t, exec (.ingressWord n true d hi qa fr) s = .next t ∧ shows t ∧
          (let p := x.partials[q.val] ++ v
           let e := oddErrs x.mpar v
           let y := { (x.countErrs e) with
             partials := x.partials.set q.val (if p.length < 32 then p else p.drop 32)
             done := if p.length < 32 then x.done else x.done ++ [⟨q, p.take 32, false, false, none, false⟩]
             held := if p.length < 32 then x.held else x.held.set q.val (x.held[q.val] - 1)
             spent := if p.length < 32 then x.spent else x.spent.set q.val (x.spent[q.val] + 1) }
           (t.po n).partials = y.partials ∧ (t.po n).perrcnt = satAdd x.perrcnt e ∧ (t.po n).errNext = decide (0 < e) ∧
           (t.po n).shown = (if x.follow then q else x.qsel) ∧
           ((s.setPo n y).stageRoom n = true → upper t true (decide (0 < e)) ∧
             (t.po n).inner = ((y.captureErr x.errNext).captureIn d qa fr true (decide (0 < e))).inner ∧
             t.bare = ({ s with ports := t.ports } : State).bare))) ∧
      (x.segMode = false → s.admits n q = false → refused (some q)) ∧
      (x.segMode = true → s.segAccepts n = true →
        ∃ t, exec (.ingressWord n true d hi qa fr) s = .next t ∧ shows t ∧
          (let f := frameWord x.mpar (s.width n) x.fsm fr v
           let e := f.par + f.framing
           let toks := if x.dropping then f.toks.filter (fun k => !k.isPay) else f.toks
           let u := (s.setPo n { (x.countErrs e) with fsm := f.fsm, staging := x.staging ++ toks }).drain n
           (t.po n).fsm = f.fsm ∧ (t.po n).perrcnt = satAdd x.perrcnt e ∧ (t.po n).errNext = decide (0 < e) ∧
           (t.po n).partials = x.partials ∧
           (u.stageRoom n = true → upper t true (decide (0 < e)) ∧
             (t.po n).inner = (((u.po n).captureErr x.errNext).captureIn d qa fr true (decide (0 < e))).inner ∧
             t.bare = ({ u with ports := t.ports } : State).bare))) ∧
      (x.segMode = true → s.segAccepts n = false → refused x.openQ))

/-- The oldest lead word that the Sort yard has not answered enters the core, behind a waiting segment too: the answer names
its queue, or drops it, which Pn:PTAGMISS counts, and carries the time base of that instant as its arrival stamp; then what
is staged moves on, and a lead word at the head opens its segment. Nothing happens while none is staged or the port's clock
is stopped. The Sort yard's words are compared as they are read. Among the matching Sort yard entries the one of the highest PRI wins, and of these the one of the lowest index
(R151); without a match the port's default queue takes it, if it names one; a disabled or resetting queue takes none. -/
def Obligations.SegmentSteering : Prop :=
  (∀ (n : PId) (s : State),
     (s.running = true → s.stoppedAt n = false → unsteered (s.po n).staging ≠ none →
       exec (.steerSegment n) s = exec (.steerSegment n) (s.compareAll yardRefs)) ∧
     (∀ tag, s.running = true → s.stoppedAt n = false → (∀ r ∈ yardRefs, s.agrees r) → unsteered (s.po n).staging = some tag →
       ∃ t, exec (.steerSegment n) s = .next t ∧
         (let y := { s.po n with
            staging := answerLead ⟨s.steer n tag, s.stamp, s.order⟩ (s.po n).staging
            ptagmiss := if s.steer n tag = none then satAdd (s.po n).ptagmiss 1 else (s.po n).ptagmiss }
          t.bare = (({ s with order := s.order + 1 } : State).setPo n y |>.drain n).bare ∧ (t.po n).ptagmiss = y.ptagmiss) ∧
         ∀ lenv crcin par, (s.po n).cur = none → (s.po n).staging = [.lead tag lenv crcin par none] →
           t.po n = { s.po n with
             staging := [], ptagmiss := (t.po n).ptagmiss
             cur := some (CurSeg.start tag lenv crcin par ⟨s.steer n tag, s.stamp, s.order⟩) } ∧
           s.otherPorts t n ∧ t.bare = ({ s with ports := t.ports, order := s.order + 1 } : State).bare) ∧
     (s.running = false ∨ s.stoppedAt n = true ∨ unsteered (s.po n).staging = none → exec (.steerSegment n) s = .next s)) ∧
  (∀ (n : PId) (tag : BitVec 6) (s : State),
     (s.winner n tag = none ↔ ∀ e, s.entryMatch n tag e = none) ∧
     (∀ q p, s.winner n tag = some (q, p) →
       ∃ e, s.entryMatch n tag e = some (q, p) ∧
         ∀ e' q' p', s.entryMatch n tag e' = some (q', p') → p' < p ∨ (p' = p ∧ e ≤ e')) ∧
     (∀ q, s.steer n tag = some q ↔ (s.qu q).en = true ∧ (s.qu q).resetting = false ∧
       ((∃ p, s.winner n tag = some (q, p)) ∨
         (s.winner n tag = none ∧ (s.po n).lcfg.getLsbD 12 = true ∧ (s.po n).lcfg.toNat / 256 % 16 = q.val))))

/-- The next completed stave of a port that may go is committed at W of its queue: its slots are appended, W and WCNT go up
by them, a slot of even parity in a queue of parity mode counts QPARITY, and the spent credit returns to the core. The core
grants a credit of a queue to an ingress port while the queue is enabled, has a stave of space that no other credit reserves,
the port has not its limit of credits, and no other port's open segment holds the queue; words staged for it move on. Where it
may not, nothing changes. -/
def Obligations.StavesAndCredits : Prop :=
  (∀ (n : PId) (d : DoneStave) (rest : List DoneStave) (s : State), s.running = true → (s.po n).resetting = false →
     ((s.po n).done = d :: rest → s.mayCommit n d = true →
     ∃ t, exec (.staveCommit n) s = .next t ∧ (t.qu d.q).w = (s.qu d.q).w + BitVec.ofNat 48 d.slots.length ∧
       (t.qu d.q).wcnt = (s.qu d.q).wcnt + BitVec.ofNat 48 d.slots.length ∧ (∀ q, (t.qu q).rcnt = (s.qu q).rcnt) ∧
       (∀ q, q ≠ d.q → (t.qu q).w = (s.qu q).w ∧ (t.qu q).wcnt = (s.qu q).wcnt) ∧ t.gov.acc8 = s.gov.acc8 + 8 ∧
       ((∀ m, (s.commitStave n d).drainOne m = none) →
         t.po n = { s.po n with done := rest, spent := (s.po n).spent.set d.q.val ((s.po n).spent[d.q.val] - 1) } ∧
         s.otherPorts t n ∧ s.otherQueues t d.q ∧
         (d.segment = false → (s.qu d.q).noLost → (t.qu d.q).held = (s.qu d.q).held ++ d.slots) ∧
         (d.segment = false → s.eventsWf → s.counted t Ev.qparity d.q.val
           (if (s.qu d.q).mmode = false ∧ ∃ v ∈ d.slots, slotOdd v = false then 1 else 0)) ∧
         t.bare = ({ s with
           ports := t.ports, queues := t.queues, chans := t.chans, events := t.events, gov := t.gov
           order := s.order + 1 } : State).bare)) ∧
     (s.nextDone n = none → (∀ m, s.drainOne m = none) →
       ∃ t, exec (.staveCommit n) s = .next t ∧ t.bare = s.bare)) ∧
  (∀ (n : PId) (q : QId) (s : State),
     (s.takesCredits n = true → (s.qu q).en = true → (s.qu q).resetting = false → s.creditsOut n q < s.creditLimit n →
       s.segBlocks n q = false → 32 ≤ s.free q - (s.qu q).ffresSlots - s.resv q →
       ∃ t, exec (.creditGrant n q) s = .next t ∧
         (let y := { s.po n with held := (s.po n).held.set q.val ((s.po n).held[q.val] + 1) }
          t.bare = ((s.setPo n y).drain n).bare ∧ ((s.po n).staging = [] → t.bare = (s.setPo n y).bare))) ∧
     (s.takesCredits n = false ∨ (s.qu q).en = false ∨ (s.qu q).resetting = true ∨ s.creditLimit n ≤ s.creditsOut n q ∨
         s.segBlocks n q = true ∨ s.free q - (s.qu q).ffresSlots - s.resv q < 32 → exec (.creditGrant n q) s = .next s))

/-- A read of an egress port launches the next word of the queue when one may be delivered: PnDV is high, and R goes up by the
word's slots, those from F on counted in RCNT and advancing F, those below it, a replay after a rewind, in XCNT; in stream mode
these are the slots from R in order, a whole word of them, each with its parity where the port sends it, and an upper port of the
pair carries slots 4 to 7; REPLAY in slot 1 of a bark header tells whether the segment begins below F; without an ECC error
PnERR# is high. R that has reached lost billets, or a segment with a slot in one, jumps past them with F, which DCNT counts, and
QSTS.LOST stays 1 as long as a mark holds one. EF# launched low with a word of the flagged queue keeps the next edge from
launching any word. Otherwise, where the staves fetched have run short, and at an edge without a read, PnDV is low and no queue
changes; PnD and PnFR are then free values (log 1), and EF# is low where the staves have run short. The first edge after the
port's clock had stopped first lets what the port holds move on. -/
def Obligations.StreamWordDelivered : Prop :=
  ∀ (n : PId) (qa : BitVec 4) (ecc : List Ecc) (s : State),
    (s.portActive n = false ∨ (s.po n).egress = false →
      ∀ en fetch, exec (.egressRead n en qa ecc fetch) s = .next s) ∧
    (s.portActive n = true → (s.po n).egress = true → (s.po n).stopped = true →
      ∀ en fetch, exec (.egressRead n en qa ecc fetch) s = exec (.egressRead n en qa ecc fetch) (s.edgeCame n)) ∧
    (s.portActive n = true → (s.po n).egress = true → (s.po n).stopped = false →
      (let q : QId := ⟨qa.toNat, qa.isLt⟩
       let x := s.qu q
       let w := s.width n
       let o := x.off x.r
       -- Of `k` slots from R on, those below F.
       let rep (k : Nat) : Nat := min k (x.off x.f - o)
       let shows (t : State) (fetch : Fetched) : Prop := (t.po n).starved = decide (fetch ≠ .enough) ∧
         (if fetch = .enough then ((t.po n).pins.fla, (t.po n).pins.flb) = t.flagPins n else (t.po n).pins.fla = .low)
       let others (t : State) : Prop := ∀ m, m ≠ n → (m = upperPort n → s.paired n = false) → t.po m = s.po m
       let sent (t : State) (fetch : Fetched) (k : Nat) : Prop := (t.po n).pins.dv = .high ∧
         (t.qu q).r = x.r + BitVec.ofNat 48 k ∧ (t.qu q).rcnt = x.rcnt + BitVec.ofNat 48 (k - rep k) ∧
         (t.qu q).xcnt = x.xcnt + BitVec.ofNat 48 (rep k) ∧ (t.qu q).f = (if rep k = k then x.f else x.r + BitVec.ofNat 48 k) ∧
         (t.qu q).wcnt = x.wcnt ∧ (t.qu q).dcnt = x.dcnt ∧ s.otherQueues t q ∧ shows t fetch ∧
         (t.po n).efEdge = ((q == (t.po n).shown) && ((t.qu q).efReg || decide (fetch ≠ .enough))) ∧ others t ∧
         t = { s with
           ports := t.ports, queues := t.queues, chans := t.chans, events := t.events, gov := t.gov, order := t.order }
       let idle (t : State) (fetch : Fetched) : Prop := (t.po n).pins.dv = .low ∧ (t.po n).pins.err = .high ∧
         (t.po n).efEdge = false ∧ shows t fetch ∧ others t
       (∀ fetch, ∃ t, exec (.egressRead n false qa ecc fetch) s = .next t ∧ idle t fetch ∧ s.samePorts t ∧
         t = { s with ports := t.ports, freeCtr := s.freeCtr + 2 }) ∧
       (x.noLost → o ≤ x.off x.f → x.held.length = x.occ →
         (∀ fetch, fetch ≠ .none → (s.po n).starved = false → (s.po n).segMode = false → s.holder q = some n →
           x.forced = false → (s.po n).efEdge = false → w ≤ s.deliverable q → x.launched = none → o + w ≤ x.occ →
           ∃ t, exec (.egressRead n true qa ecc fetch) s = .next t ∧ sent t fetch w ∧
             (let u := (x.held.drop o).take w
              let v := if (s.po n).mpar then u.map withParity else u
              (t.po n).pins.d = usedLines w (packLines (v.take 4)) ∧
              (s.paired n = true → (t.po (upperPort n)).pins.d = packLines (v.drop 4))) ∧
             (ecc = [] → (∀ k, x.eccOf k = StaveEcc.clean) → s.twin = false →
               (t.po n).pins.err = .high ∧ t.events = s.events)) ∧
         (∀ fetch l b, fetch ≠ .none → (s.po n).starved = false → (s.po n).segMode = true → s.launch n q = some (l, b) →
           x.markPend = none → o + l.take ≤ x.occ →
           ∃ t, exec (.egressRead n true qa ecc fetch) s = .next t ∧ sent t fetch l.take ∧ (t.po n).pins.fr = l.fr ∧
             (b ≠ none → 2 ≤ l.take →
               (slotData (lineSlot (t.po n).pins.d 1)).getLsbD 4 = decide (o < x.off x.f)))) ∧
       (∀ fetch e, s.holder q = some n → x.Books → x.held.length = x.occ → x.occ < 2 ^ 47 → e ≤ x.occ →
         (s.qSeg q = false ∧ x.lostAt o = true ∧ e = x.runEnd o) ∨
           (s.qSeg q = true ∧ x.launched = none ∧ ∃ g, x.segs = [g] ∧ g.start = x.r ∧ 0 < g.len ∧ g.complete = true ∧
             x.segLost g = true ∧ e = o + g.len) →
         (∀ b ∈ x.billets.drop ((x.base + e) / billetSlots), b.lost = false) →
         ∃ t, exec (.egressRead n true qa ecc fetch) s = .next t ∧
           (t.qu q).dcnt = x.dcnt + BitVec.ofNat 48 (e - x.off x.f) ∧ (t.qu q).w = x.w ∧
           (t.qu q).lost = !x.marks.isEmpty ∧
           ∃ k, k ≤ w ∧ (t.qu q).r = x.h + BitVec.ofNat 48 (e + k) ∧
             (t.qu q).rcnt + (t.qu q).xcnt = x.rcnt + x.xcnt + BitVec.ofNat 48 k) ∧
       (∀ fetch, fetch = .none ∨ (s.po n).starved = true ∨ s.holder q ≠ some n ∨ x.forced = true ∨ (s.po n).efEdge = true ∨
           s.launch n q = none → x.noLost → x.launched = none →
         ∃ t, exec (.egressRead n true qa ecc fetch) s = .next t ∧ idle t fetch ∧
           t = { s with ports := t.ports, events := t.events, freeCtr := s.freeCtr + 2 })))

/-! ### Queues and marks -/

/-- A write of 1 to QCTL.EN of a disabled queue latches the queue's map and starts its lookahead afresh, where every
check passes; where one fails the queue stays as it is and CFGREJ is counted and captured. The queue's configuration words are
compared as they are read: three different copies put the queue in VOTEFAIL, and the enable is refused. A write of 0 keeps the
queue's contents, marks and counters. A write that changes EN and carries another command acts as the two writes in that
order. -/
def Obligations.QueueEnableDisable : Prop :=
  ∀ (p : Path) (q : QId) (s : State), s.hostWrites p →
    ((s.qu q).en = false → (∀ r ∈ queueRefs q, s.agrees r) → s.enableRefusal q = none →
      ∃ t, exec (.queueEnable p q) s = .next t ∧ (t.qu q).en = true ∧
      (t.qu q).map = some (s.qu q).mapNow ∧ (t.qu q).lastAfl = t.afl q ∧
      (t.qu q).bare = ({ s.qu q with
        en := true, map := some (s.qu q).mapNow, rate := 0, afla := false, lastAfl := (t.qu q).lastAfl } : Queue).bare ∧
      s.otherQueues t q ∧ s.hostFrame t { s with queues := t.queues, order := s.order + 1 }) ∧
    (∀ i : Fin 7, s.eventsWf → (s.qu q).en = false → (s.vget (.queue q i)).failed = false →
      (s.vget (.queue q i)).majority = none → (∀ k, k ≠ i → s.agrees (.queue q k)) →
      ∃ t, exec (.queueEnable p q) s = .next t ∧ (t.qu q).en = false ∧ (t.qu q).vfail = true ∧
        (t.vget (.queue q i)).failed = true ∧ s.otherQueues t q ∧
        s.rejected t ⟨p, 64, q.val⟩ Ev.cfgrej q.val (if s.land.full then Reason.busy else Reason.check)) ∧
    (∀ k, s.eventsWf → (s.qu q).en = false → (∀ r ∈ queueRefs q, s.agrees r) → s.enableRefusal q = some k → ∃ t, exec (.queueEnable p q) s = .next t ∧
      s.rejected t ⟨p, 64, q.val⟩ Ev.cfgrej q.val k ∧ s.sameQueues t) ∧
    ((s.qu q).en = true → ∃ t, exec (.queueDisable p q) s = .next t ∧
      (t.qu q).bare = { (s.qu q) with en := false }.bare ∧ s.otherQueues t q ∧
      s.hostFrame t { s with queues := t.queues, order := s.order + 1 }) ∧
    (∀ (cmd : Bool → Instr) (u : State), (cmd = (fun en => .queueReset p q en) ∨ cmd = (fun en => .flush p q en) ∨
        cmd = (fun en => .mark p q en) ∨ cmd = (fun en => .commit p q en) ∨ ∃ i, cmd = (fun en => .rewind p q en i)) →
      ((s.qu q).en = false → (∀ r ∈ queueRefs q, s.agrees r) → s.enableRefusal q = none → exec (.queueEnable p q) s = .next u →
        exec (cmd true) s = exec (cmd true) u) ∧
      ((s.qu q).en = true → exec (.queueDisable p q) s = .next u → exec (cmd false) s = exec (cmd false) u))

/-- A QUEUE reset empties the queue, its marks, counters and pending command, discards what the ports hold for it, its
credits with it, drops its segments there, and counts those slots in QEVT.DISC; its requests that have not started are
withdrawn and the started ones run on as orphans; it keeps its configuration, launches its flags low at the ports that show
it, and reads RESETTING until it completes; a second RST meanwhile changes nothing and counts nothing. -/
def Obligations.QueueReset : Prop :=
  ∀ (p : Path) (q : QId) (s : State),
    (s.hostWrites p → (s.qu q).resetting = false →
      ∃ t, exec (.queueReset p q (s.qu q).en) s = .next t ∧
        (t.qu q).bare = ({ (s.qu q).cleared with
          disc := satAdd 0 (s.pend q), resetting := true, rate := 0, afla := false, lastAfl := (t.qu q).lastAfl } : Queue).bare ∧
        (t.qu q).held = [] ∧ (t.qu q).w = 0 ∧ (t.qu q).r = 0 ∧ (t.qu q).h = 0 ∧ (t.qu q).f = 0 ∧ (t.qu q).wcnt = 0 ∧
        (t.qu q).rcnt = 0 ∧ (t.qu q).xcnt = 0 ∧ (t.qu q).dcnt = 0 ∧ (t.qu q).marks = [] ∧ (t.qu q).markPend = none ∧
        (t.qu q).billets = [] ∧ (t.qu q).segSeq = 0 ∧
        (∀ n, (t.po n).partials[q.val] = [] ∧ (t.po n).held[q.val] = 0 ∧ (t.po n).spent[q.val] = 0 ∧
          (∀ d ∈ (t.po n).done, d.q ≠ q) ∧ (∀ c, (t.po n).cur = some c → c.q ≠ some q) ∧
          (t.po n).crossed[q.val] = (true, true) ∧
          (s.portActive n = true → s.stoppedAt n = false → (s.po n).shown = q → (t.po n).pins.fla = .low ∧ (t.po n).pins.flb = .low) ∧
          ∀ k : QId, k ≠ q → (t.po n).partials[k.val] = (s.po n).partials[k.val]) ∧
        ((∀ m, (s.po m).staging = []) →
          (∀ n, (t.po n).inner = ((s.po n).resetQueue q).1.inner ∧
            ∀ k : QId, k ≠ q → (t.po n).held[k.val] = (s.po n).held[k.val]) ∧
          (∀ c, (t.ch c).reqs.filter (·.q != q) = (s.ch c).reqs.filter (·.q != q) ∧
            ∀ r ∈ (t.ch c).reqs, r.q = q → r.started = true ∧ r.orphan = true) ∧
          s.otherQueues t q ∧ s.hostFrame t { s with ports := t.ports, queues := t.queues, chans := t.chans }) ∧
        t.events = s.events ∧ t.dp = s.dp ∧ t.azl = s.azl) ∧
    (s.hostWrites p → (s.qu q).resetting = true → ∃ t, exec (.queueReset p q (s.qu q).en) s = .next t ∧ s.hostFrame t s) ∧
    (s.running = true → (s.qu q).resetting = true → ∃ t, exec (.queueResetComplete q) s = .next t ∧
      (t.qu q).bare = { (s.qu q) with resetting := false }.bare ∧ s.otherQueues t q ∧
      t.bare = ({ s with queues := t.queues } : State).bare)

/-- A flush of a queue with one partial stave pads it to the next multiple of the reading port's width with zero-data
slots whose M bit is 1 and counts FLUSHPAD; it is committed under the credit set aside, W and WCNT going up by the padded
length. Where an open segment holds the queue, or it has no frame for the stave, the padded stave waits at its port (R99, R180). -/
def Obligations.FlushCommits : Prop :=
  ∀ (p : Path) (q : QId) (n : PId) (s : State), s.hostWrites p → (s.po n).partials[q.val] ≠ [] →
    (∀ m, m ≠ n → (s.po m).partials[q.val] = []) → (∀ d ∈ (s.po n).done, d.q ≠ q) →
    (let v := padTo (s.qWidth q) (s.po n).partials[q.val]
     (s.segBlocks n q = false → (s.po n).segPart q = false → s.frameFor q v.length = true →
       ∃ t, exec (.flush p q (s.qu q).en) s = .next t ∧
         t.po n = { s.po n with
           partials := (s.po n).partials.set q.val [], held := (s.po n).held.set q.val ((s.po n).held[q.val] - 1) } ∧
         s.otherPorts t n ∧ (t.qu q).w = (s.qu q).w + BitVec.ofNat 48 v.length ∧
         (t.qu q).wcnt = (s.qu q).wcnt + BitVec.ofNat 48 v.length ∧ (t.qu q).tailCut = true ∧
         ((s.qu q).noLost → (t.qu q).held = (s.qu q).held ++ v) ∧
         (s.eventsWf → (s.qu q).mmode = true ∨ (∀ x ∈ v, slotOdd x = true) → s.counted t Ev.flushpad q.val 1) ∧
         s.otherQueues t q) ∧
     (s.segBlocks n q = true ∨ (s.po n).segPart q = true ∨ s.frameFor q v.length = false →
       ∃ t, exec (.flush p q (s.qu q).en) s = .next t ∧
         t.po n = { s.po n with
           partials := (s.po n).partials.set q.val [], held := (s.po n).held.set q.val ((s.po n).held[q.val] - 1)
           spent := (s.po n).spent.set q.val ((s.po n).spent[q.val] + 1)
           done := (s.po n).done ++ [⟨q, v, false, false, none, true⟩] } ∧
         s.otherPorts t n ∧ s.sameQueues t ∧ (s.eventsWf → s.counted t Ev.flushpad q.val 1)))

/-- Mark commands on a queue with no reading port and no segment in progress act at once: MARK sets a mark at R, REWIND
puts R back to the mark it names and removes the later ones, COMMIT removes the oldest and H rises to the next, or to R.
A fifth MARK is counted as MARKOVF, and a REWIND to a mark that does not exist or a COMMIT without one as MARKREJ. With
a running reading port a MARK or REWIND is pending until the port's handshake, which then carries it out; in a PORT reset
of that port the handshake does not come, and inside a launched segment of a segment-mode port it waits for the segment's end. The flags reach the
reading port with it. -/
def Obligations.MarkCommands : Prop :=
  (∀ (p : Path) (q : QId) (s : State), s.hostWrites p → (s.qu q).resetting = false → (s.qu q).chainRead = false →
     (s.qu q).markPend = none → (s.qu q).launched = none → s.readPort q = none → (s.qu q).noLost →
     (let x := s.qu q
      (x.marks.length < 4 → ∃ t, exec (.mark p q x.en) s = .next t ∧ (t.qu q).marks = x.marks ++ [x.r] ∧ (t.qu q).r = x.r ∧
        (t.qu q).markPend = none ∧ (t.qu q).w = x.w ∧ (t.qu q).rcnt = x.rcnt ∧ s.otherQueues t q ∧
        s.hostFrame t { s with queues := t.queues, chans := t.chans, order := t.order }) ∧
      (s.eventsWf → x.marks.length = 4 → ∃ t, exec (.mark p q x.en) s = .next t ∧ s.counted t Ev.markovf q.val 1 ∧
        s.sameQueues t) ∧
      (∀ (i : BitVec 2) (m : Pos), x.marks[i.toNat]? = some m → ∃ t, exec (.rewind p q x.en i) s = .next t ∧
        (t.qu q).r = m ∧ (t.qu q).marks = x.marks.take (i.toNat + 1) ∧ (t.qu q).f = x.f ∧ (t.qu q).w = x.w ∧
        (t.qu q).rcnt = x.rcnt ∧ (t.qu q).xcnt = x.xcnt ∧ s.otherQueues t q ∧
        s.hostFrame t { s with queues := t.queues, chans := t.chans, order := t.order }) ∧
      (∀ i : BitVec 2, s.eventsWf → x.marks.length ≤ i.toNat → ∃ t, exec (.rewind p q x.en i) s = .next t ∧
        s.counted t Ev.markrej q.val 1 ∧ s.sameQueues t) ∧
      (∀ (m : Pos) (ms : List Pos), x.marks = m :: ms → ∃ t, exec (.commit p q x.en) s = .next t ∧ (t.qu q).marks = ms ∧
        (t.qu q).h = ms.headD x.r ∧ (t.qu q).r = x.r ∧ (t.qu q).w = x.w ∧ s.otherQueues t q ∧
        s.hostFrame t { s with queues := t.queues, chans := t.chans, order := t.order }) ∧
      (s.eventsWf → x.marks = [] → ∃ t, exec (.commit p q x.en) s = .next t ∧ s.counted t Ev.markrej q.val 1 ∧ s.sameQueues t))) ∧
  (∀ (p : Path) (q : QId) (n : PId) (s : State), s.midSegment q = false → (s.qu q).noLost →
     let crossed (t : State) : Prop := ∀ m, t.po m =
       if s.readPort q = some m then { s.po m with crossed := (s.po m).crossed.set q.val (t.coreFlags m q) } else s.po m
     (s.hostWrites p → (s.qu q).resetting = false → (s.qu q).chainRead = false → (s.qu q).markPend = none →
       (s.qu q).marks.length < 4 → s.readPort q = some n → (s.po n).noclk = false →
       s.dp.en = true → ∃ t, exec (.mark p q (s.qu q).en) s = .next t ∧ (t.qu q).bare = { (s.qu q) with markPend := some .mark }.bare ∧
         s.otherQueues t q ∧ s.hostFrame t { s with queues := t.queues }) ∧
     (s.readerResets q = true ∨ s.running = false ∨ (s.qu q).markPend = none → exec (.markApply q) s = .next s) ∧
     (s.running = true → s.readerResets q = false → (s.qu q).markPend = some .mark → ∃ t, exec (.markApply q) s = .next t ∧
       (t.qu q).marks = (s.qu q).marks ++ [(s.qu q).r] ∧ (t.qu q).markPend = none ∧ (t.qu q).r = (s.qu q).r ∧
       s.otherQueues t q ∧ crossed t ∧ t.bare = ({ s with ports := t.ports, queues := t.queues, chans := t.chans, order := t.order } : State).bare) ∧
     (∀ i m, s.running = true → s.readerResets q = false → (s.qu q).markPend = some (.rewind i) →
       (s.qu q).marks[i]? = some m →
       ∃ t, exec (.markApply q) s = .next t ∧ (t.qu q).r = m ∧ (t.qu q).marks = (s.qu q).marks.take (i + 1) ∧
         (t.qu q).markPend = none ∧ (t.qu q).f = (s.qu q).f ∧ (t.qu q).w = (s.qu q).w ∧ s.otherQueues t q ∧
         crossed t ∧ t.bare = ({ s with ports := t.ports, queues := t.queues, chans := t.chans, order := t.order } : State).bare)) ∧
  (∀ (q : QId) (s : State), s.midSegment q = true → exec (.markApply q) s = .next s)

/-- A lookahead sample of every queue, 100 REFCLK periods after the last: the estimate moves by α of its distance to the
change of the apparent fill, and the lookahead part asserts and deasserts by its three tests, else keeps its value; nothing
else changes. Before that, without REFCLK and outside service nothing changes. That it stands still in FATAL (log 74) and without REFCLK
(log 42), and its phase (log 48), are the model's choices. -/
def Obligations.Lookahead : Prop :=
  ∀ s : State,
    (s.running = true → s.time.refclk = true → s.sampleTick + 100 ≤ s.time.ticks →
     ∃ t, exec .lookaheadSample s = .next t ∧ t = { s with queues := t.queues, sampleTick := s.sampleTick + 100 } ∧
       ∀ q, (t.qu q).lastAfl = s.afl q ∧
         (t.qu q).rate = (s.qu q).rate +
           Int.fdiv ((s.qu q).alpha * ((s.afl q - (s.qu q).lastAfl) * 256 - (s.qu q).rate)) 256 ∧
         t.qu q = { s.qu q with rate := (t.qu q).rate, lastAfl := (t.qu q).lastAfl, afla := (t.qu q).afla } ∧
         (let room : Int := s.free q - (s.qu q).ffresSlots
          let ttf : Int := (s.qu q).afttf.toNat
          let up := 0 < (t.qu q).rate ∧ ttf ≠ 0 ∧ room * 256 ≤ (t.qu q).rate * ttf
          let down := (t.qu q).rate ≤ 0 ∨ 2 * (t.qu q).rate * ttf < room * 256 ∨ ttf = 0
          (up → (t.qu q).afla = true) ∧ (¬up → down → (t.qu q).afla = false) ∧
          (¬up → ¬down → (t.qu q).afla = (s.qu q).afla))) ∧
    (s.running = false ∨ s.time.refclk = false ∨ s.time.ticks < s.sampleTick + 100 →
      exec .lookaheadSample s = .next s)

/-- The stored flags are those of Table 5.2 after every command that changes what they are made of: EF, HF and FF by their
conditions; AE and the threshold part of AF wherever one of their two conditions holds, else as they were (hysteresis). After a
landed enable of a port, which can change the width and the reader of any queue, and after a stave commit, that is so of every
queue; after a word delivered, a COMMIT, and a MARK or REWIND applied, of its own queue. -/
def Obligations.FlagsFollowTable : Prop :=
  (∀ (p : Path) (n : PId) (s : State), s.landsNow p (.port n) 0 → s.isUpper n = false → s.noReads → (s.po n).en = false →
    ∃ t, exec (.portEnable p n) s = .next t ∧ t.flagsSettled) ∧
  (∀ (n : PId) (d : DoneStave) (s : State), s.running = true → (s.po n).resetting = false → s.nextDone n = some d →
    ∃ t, exec (.staveCommit n) s = .next t ∧ t.flagsSettled ∧
      ((∀ m, (s.commitStave n d).drainOne m = none) → ∀ q, s.flagsKept t q)) ∧
  (∀ (n : PId) (qa : BitVec 4) (ecc : List Ecc) (fetch : Fetched) (s : State),
    let q : QId := ⟨qa.toNat, qa.isLt⟩
    s.portActive n = true → (s.po n).egress = true → (s.po n).stopped = false → (s.po n).starved = false → fetch ≠ .none →
    (s.qu q).noLost → s.launch n q ≠ none →
    ∃ t, exec (.egressRead n true qa ecc fetch) s = .next t ∧ t.flagsAt q ∧ ((s.qu q).markPend = none → s.flagsKept t q)) ∧
  (∀ (p : Path) (q : QId) (s : State), s.hostWrites p → (s.qu q).resetting = false → (s.qu q).rewindPending = false →
    (s.qu q).marks ≠ [] → ∃ t, exec (.commit p q (s.qu q).en) s = .next t ∧ t.flagsAt q ∧ s.flagsKept t q) ∧
  (∀ (q : QId) (s : State), s.running = true → s.midSegment q = false → s.readerResets q = false →
    (s.qu q).markPend ≠ none → ∃ t, exec (.markApply q) s = .next t ∧ t.flagsAt q ∧ s.flagsKept t q)

/-! ### Spill, refill, Landing, Tally -/

/-- The engines of a queue hand their next billet over to its home channel, refills before spills, the longest wait first and
then the lower queue number: the request stands last there, the billet is marked, and a refill takes a frame. A spill that
the DRAM acknowledges leaves its billet in the Boom alone and its frame free. How a wait is measured, by the stamp of the
instant since when the engine has asked for the billet, equal stamps going by queue number, is the model's reading (log 38). A stave of a refill arrives in the Landing; the
last one ends the refill and its request. A request whose queue no longer waits for it ends with its last burst or stave and
touches no queue; that the beats of such a refill are still counted is the model's choice (log 62). -/
def Obligations.BilletRequests : Prop :=
  (∀ (q : QId) (num : Nat) (c : YId) (cb : Nat) (s : State),
     (let handed (t : State) (k : ReqKind) : Prop :=
        t.ch c = { (s.ch c).wake s.time.ticks with
          reqs := (s.ch c).reqs ++ [⟨k, q, s.reqClass q, num, cb, s.order, s.time.ticks, false, 0, false, true, 0, []⟩] } ∧
        t.ch (otherCh c) = s.ch (otherCh c) ∧ s.otherQueues t q ∧
        t.bare = ({ s with queues := t.queues, chans := t.chans, order := s.order + 1 } : State).bare
      (s.running = true → s.spillReady q = some (num, c, cb) → s.refillReady q = none → s.spillTurn q c = true →
        ∃ t, exec (.spillRequest q) s = .next t ∧ handed t .spill ∧
          (t.qu q).bare = ({ s.qu q with
            billets := (s.qu q).billets.map fun b => if b.num = num then { b with spilling := true } else b } : Queue).bare) ∧
      (s.running = true → s.refillReady q = some (num, c, cb) → s.refillTurn q c = true →
        ∃ t, exec (.refillRequest q) s = .next t ∧ handed t .refill ∧
          (t.qu q).bare = ({ s.qu q with
            billets := (s.qu q).billets.map fun b =>
              if b.num = num then { b with frame := true, refill := some 0 } else b } : Queue).bare) ∧
      (s.running = false ∨ s.spillReady q = none → exec (.spillRequest q) s = .next s) ∧
      (s.running = false ∨ s.refillReady q = none → exec (.refillRequest q) s = .next s) ∧
      (∀ k x, s.spillReady q = some (num, c, cb) → x.2.1 = c →
        s.refillReady k = some x ∨ (k ≠ q ∧ s.spillReady k = some x ∧
          (sinceAt (s.qu k).spillSince < sinceAt (s.qu q).spillSince ∨
            (sinceAt (s.qu k).spillSince = sinceAt (s.qu q).spillSince ∧ k < q))) →
        exec (.spillRequest q) s = .next s) ∧
      (∀ k x, s.refillReady q = some (num, c, cb) → x.2.1 = c → k ≠ q → s.refillReady k = some x →
        (sinceAt (s.qu k).refillSince < sinceAt (s.qu q).refillSince ∨
          (sinceAt (s.qu k).refillSince = sinceAt (s.qu q).refillSince ∧ k < q)) →
        exec (.refillRequest q) s = .next s))) ∧
  (∀ (c : YId) (q : QId) (r : Req) (s : State),
     (let ended (t : State) : Prop :=
        (t.ch c).reqs = (s.ch c).reqs.filter (fun k => k.age != r.age) ∧
        t.ch c = { s.ch c with reqs := (t.ch c).reqs, idleSince := (t.ch c).idleSince } ∧
        t.ch (otherCh c) = s.ch (otherCh c) ∧ s.otherQueues t q ∧
        t.bare = ({ s with
          queues := t.queues, chans := t.chans, events := t.events, gov := t.gov, order := t.order } : State).bare
      let came (t : State) : Prop :=
        t.ch c = { s.ch c with
          reqs := (s.ch c).reqs.map fun k => if k.age = r.age then { k with arrived := k.arrived + 1 } else k } ∧
        t.ch (otherCh c) = s.ch (otherCh c) ∧ s.otherQueues t q ∧ t.gov.acc8 = s.gov.acc8 + 1 ∧
        t.bare = ({ s with
          queues := t.queues, chans := t.chans, events := t.events, gov := t.gov, order := s.order + 1 } : State).bare
      ((s.ch c).acked q = none → exec (.spillAck c q) s = .next s) ∧
      ((s.ch c).acked q = some r → ∃ t, exec (.spillAck c q) s = .next t ∧ ended t ∧
        ((s.ch c).latMode = false → t.events = s.events) ∧
        (r.orphan = false → (t.qu q).bare = ({ s.qu q with
          ecc := (t.qu q).ecc
          billets := (s.qu q).billets.map fun b =>
            if b.num = r.num then { b with spilling := false, frame := false, boom := true, pats := [] } else b } : Queue).bare) ∧
        (r.orphan = true → s.sameQueues t)) ∧
      (∀ beats : List Ecc, (s.ch c).arriving q = some r → r.orphan = false → ∀ (b : Billet) (k : Nat),
        (s.qu q).billets.find? (fun b => b.num == r.num) = some b → b.refill = some k →
        (r.issued ≤ k / 2 → exec (.refillStaveArrival c q beats) s = .next s) ∧
        (k / 2 < r.issued → k + 1 < 256 → ∃ t, exec (.refillStaveArrival c q beats) s = .next t ∧ came t ∧
          (t.qu q).bare = ({ s.qu q with
            ecc := (t.qu q).ecc, held := (t.qu q).held
            billets := (s.qu q).billets.map fun b =>
              if b.num = r.num then { b with refill := some (k + 1) } else b } : Queue).bare ∧
          (b.pats = [] → (t.qu q).held = (s.qu q).held) ∧
          (beats = [] → ((s.qu q).eccOf (b.num * 256 + k)).bad = false → t.events = s.events)) ∧
        (k / 2 < r.issued → k = 255 → (s.ch c).oldest r = true →
          ∃ t, exec (.refillStaveArrival c q beats) s = .next t ∧ ended t ∧ t.gov.acc8 = s.gov.acc8 + 1 ∧
            (∀ b ∈ (t.qu q).billets, b.num = r.num → b.refill = none) ∧
            (b.pats = [] → (t.qu q).held = (s.qu q).held)) ∧
        (k = 255 → (s.ch c).oldest r = false → exec (.refillStaveArrival c q beats) s = .next s)) ∧
      (∀ beats : List Ecc, (s.ch c).arriving q = some r → r.orphan = true →
        (r.issued ≤ r.arrived / 2 → exec (.refillStaveArrival c q beats) s = .next s) ∧
        (r.arrived / 2 < r.issued → r.arrived < 255 →
          ∃ t, exec (.refillStaveArrival c q beats) s = .next t ∧ came t ∧ s.sameQueues t) ∧
        (r.arrived / 2 < r.issued → r.arrived = 255 → (s.ch c).oldest r = true →
          ∃ t, exec (.refillStaveArrival c q beats) s = .next t ∧ ended t ∧ t.gov.acc8 = s.gov.acc8 + 1 ∧ s.sameQueues t))))

/-- A rest that is over begins its copy, and with the copy's end the next bank modulo 17 rests. What the copy reads wrong
marks staves and counts events, and changes no slot and no position: a single-bit error counts LCE, a double-bit one poisons
its stave and counts LUE. A resting bank that fails its test is retired, no bank rests any more, and LBANKFAIL is counted.
LAND:TCMD: a full test empties every queue that holds slots, takes DP:LOCKCFG for the rotation engine when it is free and ends
with the failing banks retired and the lock free; a sweep runs seventeen rests of ROTMIN; with a queue enabled, a test running
or, for a sweep, no spare bank, the command is discarded as TESTREJ with its reason. The model's choices: that a sweep begins
its first rest afresh (log 51), that a rest is counted from BANK_ROTATION and TSTS.REST moves with the copy's end (log 67),
that a full test is refused with BUSY before LOCK (log 39), and what a full test and a failing bank do to a copy, a rest and
a sweep that run (log 80). -/
def Obligations.RotationAndTests : Prop :=
  (∀ s : State,
     (∀ errs, s.restOver = true → ∃ t, exec (.bankRotation errs) s = .next t ∧
       t.land = { s.land with
         copying := true, restTick := s.time.ticks, sweepLeft := s.land.sweepLeft - 1
         restMs := if s.land.sweepLeft ≤ 1 then 64 * s.land.rotMs else s.land.rotMs } ∧
       (errs = [] → t = { s with land := t.land }) ∧
       t = { s with land := t.land, queues := t.queues, events := t.events } ∧
       ∀ q, t.qu q = { s.qu q with ecc := (t.qu q).ecc }) ∧
     (∀ errs, s.restOver = false → exec (.bankRotation errs) s = .next s) ∧
     (∀ frames errs, s.running = true → s.land.copying = true →
       ∃ t, exec (.rotationCopyEnd errs frames) s = .next t ∧
       t = { s with
         land := { s.land with copying := false, rest := (s.land.rest + 1) % 17 }, queues := t.queues, events := t.events } ∧
       (errs = [] → (∀ q, (s.qu q).ecc = []) →
         t.queues = s.queues ∧ t.events = s.events) ∧
       ∀ q, t.qu q = { s.qu q with ecc := (t.qu q).ecc }) ∧
     (∀ q k, s.running = true → s.land.copying = true → s.eventsWf → ((s.qu q).eccOf k).ue = false →
       (∃ t, exec (.rotationCopyEnd [⟨q, k, .single⟩] []) s = .next t ∧ s.counted t Ev.lce 0 1 ∧ t.queues = s.queues) ∧
       (∃ t, exec (.rotationCopyEnd [⟨q, k, .double⟩] []) s = .next t ∧ s.counted t Ev.lue 0 1 ∧
         (t.qu q).eccOf k = { (s.qu q).eccOf k with poison := true, ue := true } ∧
         ∀ j, j ≠ q → t.qu j = s.qu j)) ∧
     (s.running = true → s.eventsWf → s.land.rest < 17 → s.land.copying = false → s.land.full = false →
       ∃ t, exec (.bankTestDone true) s = .next t ∧
         t.land = { s.land with retired := s.land.retired ||| (1#17 <<< s.land.rest), rest := 31, sweepLeft := 0 } ∧
         s.counted t Ev.lbankfail 0 1 ∧ t = { s with land := t.land, events := t.events }) ∧
     exec (.bankTestDone false) s = .next s) ∧
  (∀ (p : Path) (s : State),
     (s.hostWrites p → s.busyQ = false → s.testRuns = false → (s.lock .config).holder = VWord.of 0 →
       ∃ t, exec (.fullTest p) s = .next t ∧ t.land = { s.land with full := true, copying := false } ∧
         (t.lock .config).holder.val = 4 ∧ t.lock .time = s.lock .time ∧ t.lock .dram = s.lock .dram ∧
         ((∀ q, (s.qu q).resetting = false) → (∀ m, (s.po m).staging = []) → ∀ q, (t.qu q).occ = 0) ∧ (∀ q, (t.qu q).ecc = []) ∧
         t.events = s.events) ∧
     (∀ bad : BitVec 17, s.running = true → s.eventsWf → s.land.full = true → (s.lock .config).holder = VWord.of 4 →
       ∃ t, exec (.fullTestDone bad) s = .next t ∧
         t.land = { s.land with
           full := false, restTick := s.time.ticks, retired := s.land.retired ||| bad
           rest := if s.land.retired ||| bad = 0 then s.land.rest else 31
           sweepLeft := if s.land.retired ||| bad = 0 then s.land.sweepLeft else 0 } ∧
         s.counted t Ev.lbankfail 0 (bankCount (bad &&& ~~~s.land.retired)) ∧
         t = { s with land := t.land, events := t.events, dp := { s.dp with lockCfg := Lock.free } }) ∧
     (s.hostWrites p → s.testRuns = false → s.noSpare = false → ∃ t, exec (.sweep p) s = .next t ∧ t.land = { s.land with
         sweepLeft := 17, restMs := s.land.rotMs, restTick := s.time.ticks } ∧
       s.hostFrame t { s with land := t.land }) ∧
     (s.hostWrites p → s.eventsWf → s.busyQ = true → ∃ t, exec (.fullTest p) s = .next t ∧
       s.rejected t ⟨p, 65, 0x34⟩ Ev.testrej 0 Reason.busy ∧ s.hostFrame t { s with events := t.events, dp := t.dp }) ∧
     (s.hostWrites p → s.eventsWf → s.testRuns = false → s.noSpare = true → ∃ t, exec (.sweep p) s = .next t ∧
       s.rejected t ⟨p, 65, 0x34⟩ Ev.testrej 0 Reason.nospare ∧ s.hostFrame t { s with events := t.events, dp := t.dp }))

/-- A ledger snapshot takes every queue's counters, every port's credits, every channel's billet counts and the time
base at one core instant, on the writing path alone, and SNAPCMD.VIEW takes the value written. -/
def Obligations.SnapshotTaken : Prop :=
  ∀ (p : Path) (view : Bool) (s : State), s.writable p = true →
    ∃ t, exec (.snapshotTake p view) s = .next t ∧
      (t.path p).core = ({ s.path p with snap := (t.path p).snap, snapValid := true, snapView := view } : PathSt).core ∧
      (t.path p).snap.time = s.stamp ∧
      (∀ q : QId, (t.path p).snap.q[q.val] = s.queueSnap q ∧ ((t.path p).snap.q[q.val]).wcnt = (s.qu q).wcnt ∧
        ((t.path p).snap.q[q.val]).rcnt = (s.qu q).rcnt ∧ ((t.path p).snap.q[q.val]).xcnt = (s.qu q).xcnt ∧
        ((t.path p).snap.q[q.val]).dcnt = (s.qu q).dcnt ∧
        ((t.path p).snap.q[q.val]).occ = (s.qu q).w - (s.qu q).h ∧ ((t.path p).snap.q[q.val]).rdbl = (s.qu q).w - (s.qu q).r ∧
        ((t.path p).snap.q[q.val]).pend = BitVec.ofNat 16 (min 65535 (s.pend q))) ∧
      (∀ c : YId, (t.path p).snap.y[c.val] = s.chanCounts c) ∧
      (∀ n : PId, ((t.path p).snap.p[n.val]).held = s.portCredit n ∧ (s.isUpper n = false → s.portCredit n ≤ 16 * s.creditLimit n →
        ((t.path p).snap.p[n.val]).held + ((t.path p).snap.p[n.val]).inflight = 16 * s.creditLimit n)) ∧
      t.path (otherPath p) = s.path (otherPath p) ∧ t = { s with pathA := t.pathA, pathB := t.pathB }

/-! ### The Yarder -/

/-- The oldest handed-over request of a source starts while the channel serves and, where its class is regulated, takes
1,000 from the class's bucket. A burst issues, of a billet request, of the host path's pattern run or of the test engine: the one that goes next,
whose row is open afterwards; its bank's idle time starts and the rank's refresh gap is over; an activation is tracked, and
one that reaches HAMTHRESH starts a throttle, counted in HAMHITS and as YHAM. The other channel and, but for a spill's read of
the Landing, every queue stay. That HAMHITS and YHAM count once, where a throttle starts, and not for a row that is throttled
already is the model's reading (log 36). -/
def Obligations.RequestsAndBursts : Prop :=
  (∀ (c : YId) (q : QId) (cas : Bool) (r : Req) (s : State),
     (s.running = true → s.time.refclk = true → (s.ch c).serving = true → (s.ch c).toStart (srcOf q cas) = some r →
       (s.ch c).tokenOk r.cls = true →
       ∃ t, exec (.billetRequestStart c q cas) s = .next t ∧
         t = s.setCh c { s.ch c with
           bucket := (t.ch c).bucket
           reqs := (s.ch c).reqs.map fun k => if k.age = r.age then { k with started := true } else k } ∧
         ∀ i : Fin 4, (t.ch c).bucket[i.val] =
           (if i.val = r.cls ∧ (s.ch c).regulated r.cls = true then (s.ch c).bucket[i.val] - 1000 else (s.ch c).bucket[i.val])) ∧
     (s.running = false ∨ s.time.refclk = false ∨ (s.ch c).serving = false ∨ (s.ch c).toStart (srcOf q cas) = none ∨
         ((s.ch c).toStart (srcOf q cas) = some r ∧ (s.ch c).tokenOk r.cls = false) →
       exec (.billetRequestStart c q cas) s = .next s)) ∧
  (∀ (c : YId) (ok : BitVec 34) (ecc : List Ecc) (s : State),
     (s.running = false ∨ s.time.refclk = false ∨ (s.ch c).awake = false ∨ (s.ch c).pick s.time.ticks ok = none →
       exec (.burstIssue c ok ecc) s = .next s) ∧
     ∀ b, s.running = true → s.time.refclk = true → (s.ch c).awake = true → (s.ch c).pick s.time.ticks ok = some b →
     ∃ t, exec (.burstIssue c ok ecc) s = .next t ∧
       (let x := s.ch c
        let y := t.ch c
        let k := x.bankOf b.cb
        let act := trackRow k.val (x.rowOf b.cb) x.hot
        let ham := x.rowHit b = false ∧ x.thresh ≤ act.2 ∧
          (x.throttles.any fun h => h.bank == k.val && h.row == x.rowOf b.cb) = false
        y = { x with
          reqs := y.reqs, run := y.run, swept := y.swept, rows := x.rows.set k.val (some (x.rowOf b.cb)), hot := y.hot
          throttles := y.throttles, hamHits := y.hamHits, bankAt := x.bankAt.set k.val s.time.ticks
          bankUse := x.bankUse.set k.val x.pageIdle, gap := x.gap.set (x.rankOf b.cb).val none } ∧
        (∀ r, b.req = some r → y.run = x.run ∧ y.swept = x.swept ∧
          y.reqs = x.reqs.map fun k => if k.age = r.age then { k with issued := k.issued + 1 } else k) ∧
        (b.src = .host → y.reqs = x.reqs ∧ y.swept = x.swept ∧ y.run = x.run.map fun k => { k with issued := k.issued + 1 }) ∧
        (b.src = .test → y.reqs = x.reqs ∧ y.run = x.run ∧ y.swept = x.swept + 1) ∧
        (x.rowHit b = true → y.hot = x.hot ∧ y.throttles = x.throttles) ∧ (x.rowHit b = false → y.hot = act.1) ∧
        (ham → y.hamHits = satAdd x.hamHits 1 ∧ ⟨b.src, k.val, x.rowOf b.cb, s.time.ticks, x.space⟩ ∈ y.throttles) ∧
        (¬ham → y.hamHits = x.hamHits) ∧
        ((∀ r, b.req = some r → r.kind = .refill) → t = { s with chans := t.chans, events := t.events } ∧
          (ham → s.eventsWf → s.counted t (Ev.yham c) 0 1) ∧ (¬ham → t.events = s.events)) ∧
        (∀ r, b.req = some r → r.kind = .spill → t.gov.acc8 = s.gov.acc8 + 2 ∧
          ∀ q, t.qu q = { s.qu q with ecc := (t.qu q).ecc }) ∧
        t.ch (otherCh c) = s.ch (otherCh c) ∧
        t = { s with
          chans := t.chans, queues := t.queues, events := t.events, gov := { s.gov with acc8 := t.gov.acc8 }
          order := t.order }))

/-- Among the oldest unissued bursts of the sources whose DDR4 timing allows them, that no throttle holds and whose rank is
not kept free, the one picked has the highest urgency, which is 0 throughout in regulator mode, then is a row hit where there
is one, and none of the same kind is older. It is a burst of a started request with bursts left, of the pattern run, or, in a sweep and in the read check of a frequency
change, of the test engine, whose order of bursts over Yn:YTREG is the model's (log 12). -/
def Obligations.BurstChoice : Prop :=
  ∀ (c : YId) (ok : BitVec 34) (b : Burst) (s : State), (s.ch c).pick s.time.ticks ok = some b →
    (let x := s.ch c
     let n := s.time.ticks
     let free (k : Burst) : Prop := ok.getLsbD k.src.idx = true ∧ x.throttled n k = false ∧
       x.rankBlocked n (x.rankOf k.cb) = false
     let u (k : Burst) : Nat := x.burstUrgency n k
     b ∈ x.heads ∧ free b ∧
     (∀ r, b.req = some r → r ∈ x.reqs ∧ r.started = true ∧ r.issued < 128 ∧ b.src = r.src ∧ b.cb = r.cb ∧ b.age = r.age ∧
       b.cls = r.cls) ∧
     (b.req = none →
       (b.src = .host ∧ b.cls = 5 ∧ ∃ k, x.run = some k ∧ k.issued < k.writes + k.reads ∧ b.cb = k.cb) ∨
       (b.src = .test ∧ b.cls = 6 ∧ (x.sweeping.isSome = true ∨ x.readCheck = true) ∧
         ∃ i < 16, b.cb = x.tregBase.toNat + i)) ∧
     (x.latMode = false → u b = 0) ∧
     ∀ k ∈ x.heads, free k → u k ≤ u b ∧ (u k = u b → (x.rowHit k = true → x.rowHit b = true) ∧
       (x.rowHit k = x.rowHit b → b.age ≤ k.age)))

/-- The timers of a channel: a tracker window of 64 ms ends with its entries and throttles, a token bucket tick adds
RATE up to the cap, a calibration falls due every 128 ms. A refresh that falls due is issued with what is owed, its rows
closed first and its gap opened, and the next falls due one tREFI on; or it is postponed, up to four, while bursts wait or
the rank is ahead, but in no frequency change; between due times an owed one is issued, or one ahead of time while the rank is idle, up to four. The
temperature pin, entry into self-refresh after SRIDLE µs with every early refresh issued, step 6 of start-up without boot
training, and the precharge of a bank idle for the PAGEIDLE that its last burst took. -/
def Obligations.ChannelTimersAndRest : Prop :=
  (∀ (c : YId) (s : State),
     ((s.time.refclk = true → (s.ch c).trackerTick + 6400000 ≤ s.time.ticks → exec (.trackerWindowEnd c) s = .next
       (s.setCh c { s.ch c with hot := [], throttles := [], trackerTick := (s.ch c).trackerTick + 6400000 })) ∧
     (s.time.refclk = true → (s.ch c).bucketTick + 100 ≤ s.time.ticks → ∃ t, exec (.tokenBucketTick c) s = .next t ∧
       t = s.setCh c { s.ch c with bucket := (t.ch c).bucket, bucketTick := (s.ch c).bucketTick + 100 } ∧
       ∀ i : Fin 4, (t.ch c).bucket[i.val] =
         min (((s.ch c).qos[i.val]).cap) ((s.ch c).bucket[i.val] + ((s.ch c).qos[i.val]).ratePerMs)) ∧
     (s.cardingOn = true → (s.ch c).zqTick + 12800000 ≤ s.time.ticks → exec (.zqCalibration c) s = .next
       (s.setCh c { s.ch c with zqTick := (s.ch c).zqTick + 12800000 })) ∧
     (s.time.ticks < (s.ch c).trackerTick + 6400000 → exec (.trackerWindowEnd c) s = .next s) ∧
     (s.time.ticks < (s.ch c).bucketTick + 100 → exec (.tokenBucketTick c) s = .next s) ∧
     (s.time.ticks < (s.ch c).zqTick + 12800000 → exec (.zqCalibration c) s = .next s))) ∧
  (∀ (c : YId) (s : State), s.running = true → s.time.refclk = true →
     (∀ rank : Bool, (s.ch c).awake = true → (s.ch c).hasRank rank = true →
       (let x := s.ch c
        let i := rankIdx rank
        let n := x.owed[i]
        let does (k : RefKind) (m : Int) (next : Bool) : Prop := ∃ t, exec (.refreshDue c rank k) s = .next t ∧
          t = s.setCh c { x with
            owed := x.owed.set i.val m, rows := (t.ch c).rows, gap := x.gap.set i.val (some s.time.ticks)
            idleSince := if 0 < n ∧ m ≤ 0 then s.time.ticks else x.idleSince
            refAt := if next then x.refAt.set i.val (x.nextRef rank) else x.refAt } ∧
          ∀ j : Fin 16, (t.ch c).rows[j.val] = if j.val / 8 = i.val then none else x.rows[j.val]
        (x.refAt[i] ≤ s.time.ticks → does .issue (min 0 n) true) ∧
        (0 < n ∨ (x.rankWaits rank = false ∧ -4 < n) → does .early (n - 1) false) ∧
        (x.refAt[i] ≤ s.time.ticks → n < 0 ∨ (x.rankWaits rank = true ∧ n < 4 ∧ x.st ≠ .freqsw) →
          exec (.refreshDue c rank .postpone) s = .next
          (s.setCh c { x with owed := x.owed.set i.val (n + 1), refAt := x.refAt.set i.val (x.nextRef rank) })) ∧
        (s.time.ticks < x.refAt[i] → exec (.refreshDue c rank .issue) s = .next s ∧
          exec (.refreshDue c rank .postpone) s = .next s) ∧
        (n = 4 ∨ (0 ≤ n ∧ (x.rankWaits rank = false ∨ x.st = .freqsw)) → exec (.refreshDue c rank .postpone) s = .next s) ∧
        (n ≤ -4 ∨ (n ≤ 0 ∧ x.rankWaits rank = true) → exec (.refreshDue c rank .early) s = .next s) ∧
        (rank = false → x.nextRef rank = x.refAt[i] + (if x.therm = true ∨ x.ref2x = true then 390 else 780)))) ∧
     (∀ low : Bool, exec (.thermalChange c low) s = .next (s.setCh c { s.ch c with therm := low })) ∧
     (s.boot.carding = false → (s.ch c).st = .active → (s.ch c).noRef = false → (s.ch c).idle = true → (s.ch c).tracked = true →
         (s.ch c).srIdle ≠ 0 →
       ((s.ch c).idleSince + 100 * (s.ch c).srIdle ≤ s.time.ticks → exec (.selfRefreshEntry c) s = .next
         (s.setCh c { s.ch c with
           st := .selfref, rows := Vector.replicate 16 none, gap := Vector.replicate 2 none
           owed := #v[-4, if (s.ch c).ranks then -4 else 0] })) ∧
       (s.time.ticks < (s.ch c).idleSince + 100 * (s.ch c).srIdle → exec (.selfRefreshEntry c) s = .next s)) ∧
     (∀ b : Fin 16, (s.ch c).awake = true →
       ((if (s.ch c).bankUse[b] = 0 then (s.ch c).rowWanted b = false
         else (s.ch c).bankUse[b] * 200 < (s.time.ticks + 1 - (s.ch c).bankAt[b]) * (s.ch c).rate) →
         exec (.pageidlePrecharge c b) s = .next (s.setCh c { s.ch c with rows := (s.ch c).rows.set b.val none })) ∧
       ((if (s.ch c).bankUse[b] = 0 then (s.ch c).rowWanted b = true
         else (s.time.ticks + 1 - (s.ch c).bankAt[b]) * (s.ch c).rate ≤ (s.ch c).bankUse[b] * 200) →
         exec (.pageidlePrecharge c b) s = .next s))) ∧
  (∀ (c : YId) (s : State), s.cardingOn = true → s.boot.carding = true → s.boot.straps.boottrn = false →
     s.boot.halted = false → s.agrees .floor → s.agrees .ceil → s.agrees .margin →
     (let r := s.boot.rested ||| (1#2 <<< c.val)
      (r ≠ 3 → exec (.selfRefreshEntry c) s = .next { s with boot := { s.boot with rested := r } }) ∧
      (r = 3 → exec (.selfRefreshEntry c) s = .next { s with
        boot := { s.boot with rested := r, carding := false, trained := true, stage := max s.boot.stage 7 }
        gov := { s.gov with
          useFloor := s.gov.floor.val, useCeil := s.gov.ceil.val, useMargin := s.gov.margin.val, tick := s.time.ticks } })))

/-- Commits of the Yarder's registers: Yn:YQOS, a bucket above the new cap cut to it; Yn:YCTL; Yn:YnHAM, whose HITS only
a written 0 clears; Yn:YTREG where nothing stands against it. Nothing else of the machine changes. Landed writes of a
timing set that is not in force, of a trained delay of the set in force while the channel is held, and their refusals: a
set in force with reason INFORCE, a delay outside a hold with STATE, a VREF above 0x32 in bits 5 to 0 with
RANGE. That STATE goes before RANGE where both hold is the model's choice (log 39). -/
def Obligations.ChannelAndPhyRegisters : Prop :=
  (∀ (p : Path) (c : YId) (s : State),
     (∀ (k : Fin 4) (rate burst lat : Word), s.mayWrite p (.chan c) (8 + 3 * k.val) →
       ∃ t, exec (.yqosWrite p c k rate burst lat) s = .next t ∧
         s.hostFrame t (s.setCh c { s.ch c with
           qos := (s.ch c).qos.set k.val ⟨rate &&& 0xFFF, burst &&& 0xFF, lat &&& 0x3FF⟩
           bucket := (s.ch c).bucket.set k.val
             (min (Qos.cap ⟨rate &&& 0xFFF, burst &&& 0xFF, lat &&& 0x3FF⟩) ((s.ch c).bucket[k.val])) })) ∧
     (∀ lo hi : Word, s.mayWrite p (.chan c) 0 → ∃ t, exec (.yctlWrite p c lo hi) s = .next t ∧
       (t.ch c).ctlL = lo &&& 0xFF03 ∧ (t.ch c).ctlH = hi &&& 0x0FFF ∧
       ((t.ch c).latMode = (s.ch c).latMode → (t.ch c).bucket = (s.ch c).bucket) ∧
       ((t.ch c).latMode ≠ (s.ch c).latMode → (t.ch c).bucket = (s.ch c).qos.map Qos.cap) ∧
       s.hostFrame t (s.setCh c { s.ch c with ctlL := (t.ch c).ctlL, ctlH := (t.ch c).ctlH, bucket := (t.ch c).bucket })) ∧
     (∀ th sp h : Word, s.mayWrite p (.chan c) 4 → ∃ t, exec (.hamWrite p c th sp h) s = .next t ∧
       s.hostFrame t (s.setCh c { s.ch c with
         hamThresh := th, hamSpace := sp &&& 0xFF, hamHits := if h = 0 then 0 else (s.ch c).hamHits })) ∧
     (∀ (base : BitVec 21) (len : BitVec 22), s.mayWrite p (.chan c) 0x14 → s.ytregRefusal c base len = none →
       ∃ t, exec (.ytregWrite p c base len) s = .next t ∧
         s.hostFrame t (s.setCh c { s.ch c with tregBase := base, tregLen := len })) ∧
     (∀ (base : BitVec 21) (len : BitVec 22) (k : Nat), s.mayWrite p (.chan c) 0x14 → s.eventsWf →
       s.ytregRefusal c base len = some k → ∃ t, exec (.ytregWrite p c base len) s = .next t ∧
         s.rejected t ⟨p, 84, (Bank.chan c).sel⟩ Ev.ycmdrej 0 k ∧ t.chans = s.chans)) ∧
  (∀ (p : Path) (c : YId) (v : Word) (s : State), s.noReads →
     (∀ (b : Bool) (i : Fin 15), s.landsNow p (.tset c b) i.val →
       ((s.ch c).freq = none → b ≠ (s.ch c).setB → (((s.ch c).tset b)[i.val]).failed = false →
         ∃ t, exec (.timingSetWrite p c b i v) s = .next t ∧ ((t.ch c).tset b)[i.val] = VWord.of (v &&& tsetMask i) ∧
           (∀ j : Fin 15, j ≠ i → ((t.ch c).tset b)[j.val] = ((s.ch c).tset b)[j.val]) ∧
           (t.ch c).tset (!b) = (s.ch c).tset (!b) ∧
           s.hostFrame t (s.setCh c { s.ch c with tA := (t.ch c).tA, tB := (t.ch c).tB })) ∧
       ((s.ch c).freq = none → b ≠ (s.ch c).setB → (((s.ch c).tset b)[i.val]).failed = true →
         ∃ t, exec (.timingSetWrite p c b i v) s = .next t ∧ s.hostFrame t s) ∧
       (s.eventsWf → b = (s.ch c).setB ∨ (s.ch c).freq ≠ none → ∃ t, exec (.timingSetWrite p c b i v) s = .next t ∧
         s.rejected t ⟨p, 64 + i.val, (Bank.tset c b).sel⟩ Ev.ycmdrej 0 Reason.inforce ∧ t.chans = s.chans)) ∧
     (∀ r : TapReg, s.landsNow p (.phy c) (tapOff r) →
       ((s.ch c).heldHost = true → (s.ch c).selSet = (s.ch c).setB → (r = .vref → v.toNat % 64 ≤ 0x32) →
         ∃ t, exec (.tapWrite p c r v) s = .next t ∧
           (t.ch c).readTap r = v &&& (match r with
             | .wldly => 0x1FF
             | .gate => 0xF7F
             | .rddly => 0x7F
             | .wrdly => 0xFF
             | .vref => 0x3F) ∧
           (∀ k, k ≠ r → (t.ch c).readTap k = (s.ch c).readTap k) ∧
           (∀ i : Fin 40, i.val ≠ (s.ch c).selTap ∨ r = .vref → (t.ch c).taps[i.val] = (s.ch c).taps[i.val]) ∧
           (∀ i : Fin 20, i.val ≠ (s.ch c).selVref ∨ r ≠ .vref → (t.ch c).vref[i.val] = (s.ch c).vref[i.val]) ∧
           s.hostFrame t (s.setCh c { s.ch c with taps := (t.ch c).taps, vref := (t.ch c).vref })) ∧
       (s.eventsWf → (s.ch c).heldHost = false ∨ (s.ch c).selSet ≠ (s.ch c).setB → ∃ t, exec (.tapWrite p c r v) s = .next t ∧
         s.rejected t ⟨p, 64 + tapOff r, (Bank.phy c).sel⟩ Ev.ycmdrej 0 Reason.state ∧ t.chans = s.chans) ∧
       (s.eventsWf → r = .vref → (s.ch c).heldHost = true → (s.ch c).selSet = (s.ch c).setB → 0x32 < v.toNat % 64 →
         ∃ t, exec (.tapWrite p c r v) s = .next t ∧
           s.rejected t ⟨p, 64 + tapOff r, (Bank.phy c).sel⟩ Ev.ycmdrej 0 Reason.range ∧ t.chans = s.chans)))

/-! ### Carding -/

/-- TRAIN: a channel that is UNTRAINED, ABSENT or FAILED starts its sweep at once, in its turn, and else waits for it; an
ACTIVE or SELFREF one becomes retrain-pending under DEFERMAX. An accepted FREQSW turns the other set toward force: a channel
in service goes to FREQSW with its deferred refreshes dropped, and waits for a sweep where the target carries no training; an
untrained one is switched without either; it completes, with the target set in force, when its updates are done, with the read check's bursts not issued yet played and Yn:YTREG's
billets left with its patterns. A refused one changes nothing of the channel and is counted as YCMDREJ with its reason. The
model's choices: a TRAIN asked for before start-up step 6 is over waits (log 78), one that waits counts as running for a
FREQSW, and the read check has no outcome (log 79). -/
def Obligations.TrainAndFrequency : Prop :=
  (∀ (p : Path) (c : YId) (s : State), s.mayWrite p (.chan c) 2 → (s.ch c).sweeping = none → (s.ch c).holdReq = none →
     ((s.ch c).st = .untrained ∨ (s.ch c).st = .absent ∨ (s.ch c).st = .failed → (s.ch c).waiting = none →
       ((s.ch c).freq = none → s.time.refclk = true → s.boot.trained = true → s.turn c s.order = true → ∃ t, exec (.train p c) s = .next t ∧
         t.ch c = { (s.ch c).startRefresh s.time.ticks with
           st := .drain, prior := (s.ch c).st, sweeping := some .train, swept := 0, sweptAge := s.order, begun := none
           rows := Vector.replicate 16 none, gap := Vector.replicate 2 none } ∧
         t.ch (otherCh c) = s.ch (otherCh c) ∧ s.hostFrame t { s with chans := t.chans, order := s.order + 2 }) ∧
       ((s.ch c).freq ≠ none ∨ s.time.refclk = false ∨ s.boot.trained = false ∨ s.turn c s.order = false → ∃ t, exec (.train p c) s = .next t ∧
         s.hostFrame t ((s.setCh c { s.ch c with waiting := some (some .train, s.order) }).nextOrder))) ∧
     ((s.ch c).st = .active ∨ (s.ch c).st = .selfref → (s.ch c).pend = none → (s.ch c).heldHost = false →
       ∃ t, exec (.train p c) s = .next t ∧
         s.hostFrame t ((s.setCh c { s.ch c with pend := some ⟨s.time.ticks, fld (s.ch c).defermax 0 8, s.order⟩ }).nextOrder))) ∧
  (∀ (p : Path) (c : YId) (s : State),
     (s.mayWrite p (.chan c) 2 → (∀ r ∈ setRefs c, s.agrees r) → s.freqswRefusal c = none → ∃ t, exec (.freqsw p c) s = .next t ∧
       (let f : Freq := ⟨!(s.ch c).setB, (s.ch c).st, s.order, false, Vector.replicate 2 false, 0⟩
        ((s.ch c).st = .active ∨ (s.ch c).st = .selfref → s.hostFrame t ((s.setCh c { s.ch c with
           st := .freqsw, prior := (s.ch c).st, freq := some f, swept := 0, sweptAge := s.order, must := Vector.replicate 2 false
           owed := #v[min 0 (s.ch c).owed[0], min 0 (s.ch c).owed[1]]
           waiting := if (s.ch c).carry f.toB then (s.ch c).waiting else some (some .freqsw, s.order) }).nextOrder.nextOrder)) ∧
        ((s.ch c).st ≠ .active → (s.ch c).st ≠ .selfref →
           s.hostFrame t (s.setCh c { s.ch c with freq := some f })))) ∧
     (∀ k, s.mayWrite p (.chan c) 2 → (∀ r ∈ setRefs c, s.agrees r) → s.eventsWf → s.freqswRefusal c = some k → ∃ t, exec (.freqsw p c) s = .next t ∧
       s.rejected t ⟨p, 66, (Bank.chan c).sel⟩ Ev.ycmdrej 0 k ∧ s.hostFrame t { s with events := t.events, dp := t.dp }) ∧
     (∀ f, s.running = true → s.time.refclk = true → s.noReads → (s.ch c).freq = some f → (s.ch c).sweeping = none →
       (s.ch c).quiet = true → (s.ch c).noRef = false →
       ((s.ch c).st = .freqsw → (s.ch c).carry f.toB = true → f.locked = true → f.upd[0] = true →
         f.upd[1] = true ∨ (s.ch c).ranks = false → ∃ t, exec (.freqswComplete c) s = .next t ∧
         (t.ch c).freq = none ∧ (t.ch c).setB = (s.ch c).setB ∧
         (t.ch c).st = (if (s.ch c).reqs = [] then .selfref else .active) ∧ (t.ch c).reqs = (s.ch c).reqs ∧
         (t.ch c).taps = (s.ch c).taps ∧ t.ch (otherCh c) = s.ch (otherCh c) ∧
         (∀ q, (t.qu q).bare = ((s.scratch c).qu q).bare) ∧
         (10 ≤ (s.ch c).swept → t.events = s.events ∧ (t.ch c).hot = (s.ch c).hot) ∧
         t.bare = ({ s with
           chans := t.chans, queues := t.queues, events := t.events, freeCtr := s.freeCtr + 1
           order := s.order + 1 } : State).bare) ∧
       ((s.ch c).st ≠ .freqsw →
         exec (.freqswComplete c) s = .next (s.setCh c { s.ch c with setB := f.toB, freq := none }))))

/-- RESETKEEP and RESETDROP abort every request of the channel, its spills staying candidates and its refills losing their
frames, and take it to RESET with its sweep waiting, RESETDROP with YnRESET# low; RESETKEEP loses no billet, and under
RESETDROP no billet homed on the channel has a Boom copy left. In FREQSW, DRAIN or RESET, or held for host training, the
command is discarded as YCMDREJ with reason STATE. R467: a write to Yn:YCMD with more than one bit set carries out none of
them and is YCMDREJ with reason GENERAL. -/
def Obligations.ChannelReset : Prop :=
  ∀ (p : Path) (c : YId) (s : State), s.mayWrite p (.chan c) 2 →
    (∀ drop : Bool, let cmd : Instr := if drop then .resetdrop p c else .resetkeep p c
     ((s.ch c).st = .untrained ∨ (s.ch c).st = .active ∨ (s.ch c).st = .selfref ∨ (s.ch c).st = .absent ∨
        (s.ch c).st = .failed → (s.ch c).freq = none → (s.ch c).heldHost = false → (s.ch c).sweeping = none →
      ∃ t, exec cmd s = .next t ∧
        t.ch c = { s.ch c with
          st := .reset, prior := (s.ch c).st, reqs := [], pend := none, hot := [], throttles := []
          rows := Vector.replicate 16 none, owed := Vector.replicate 2 0, gap := Vector.replicate 2 none
          must := Vector.replicate 2 false, run := none, noRef := false, begun := none, resetN := (s.ch c).resetN && !drop
          waiting := some (some (if drop then .drop else .keep), s.order) } ∧
        t.ports = s.ports ∧ t.events = s.events ∧ t.dp = s.dp ∧ t.order = s.order + 2 ∧
        (∀ q, (t.qu q).w = (s.qu q).w ∧ (t.qu q).wcnt = (s.qu q).wcnt ∧ (t.qu q).rcnt = (s.qu q).rcnt) ∧
        (drop = false → t.ch (otherCh c) = s.ch (otherCh c) ∧
          (∀ q, (t.qu q).bare = ((s.qu q).abortOn q (s.ch c).reqs).bare ∧
            (t.qu q).billets.map (·.lost) = (s.qu q).billets.map (·.lost) ∧ (t.qu q).held = (s.qu q).held) ∧
          s.hostFrame t { s with chans := t.chans, queues := t.queues, order := s.order + 2 }) ∧
        (drop = true → ∀ q, (∀ b ∈ (t.qu q).billets, (t.qu q).home b.num = some c → b.boom = false) ∧
          ((∀ r ∈ (s.ch c).reqs, r.kind = .spill) → (∀ b ∈ (s.qu q).billets, b.lost = false ∧ ((s.qu q).home b.num = some c → b.frame = true ∧ b.refill = none)) →
            (t.qu q).held = (s.qu q).held ∧ (t.qu q).noLost))) ∧
     (s.eventsWf → (s.ch c).st = .freqsw ∨ (s.ch c).st = .drain ∨ (s.ch c).st = .reset ∨ (s.ch c).heldHost = true ∨
        (s.ch c).freq ≠ none ∨ (s.ch c).sweeping ≠ none →
      ∃ t, exec cmd s = .next t ∧ s.rejected t ⟨p, 66, (Bank.chan c).sel⟩ Ev.ycmdrej 0 Reason.state ∧
        s.hostFrame t { s with events := t.events, dp := t.dp })) ∧
    (∀ v : Word, s.eventsWf → (s.path p).bankSel.toNat = (Bank.chan c).sel → fld v 0 4 ∉ [0, 1, 2, 4, 8] →
      ∃ t, exec (.registerWrite p 66 v) s = .next t ∧
        s.rejected t ⟨p, 66, (Bank.chan c).sel⟩ Ev.ycmdrej 0 Reason.general ∧
        s.hostFrame t { s with events := t.events, dp := t.dp })

/-- A pending retrain or host training drains its channel at a drain window, or by force, counted, when its deferral has
run out with none. A drained channel is held for the host, or its sweep begins, Carding taking DP:LOCKDRAM; where a path has
taken the lock during the drain the retrain is pending again and the channel in service (the model's reading, log 65); a
waiting sweep begins in its turn, at step 4 of a frequency change with the target set in force. The model's choices: a hold
of a channel that is UNTRAINED, ABSENT or FAILED begins with no drain (log 27), and nothing of this begins before start-up
step 6 is over (log 78). -/
def Obligations.DrainsAndSweeps : Prop :=
  (∀ (c : YId) (hold : Bool) (d : Pend) (s : State), s.running = true → s.time.refclk = true →
     s.boot.trained = true →
     s.nextDrain c = some (hold, d) → s.turn c d.order = true → (s.ch c).waiting = none →
     (let drained (x : Chan) (prior : ChState) (held : Bool) : Chan := { x with
        st := .drain, prior := prior, drainHold := hold, pend := none, heldHost := held
        begun := if hold then none else (s.ch c).pend
        holdReq := if hold then none else (s.ch c).holdReq }
      ((s.ch c).drainWindow = true → (s.ch c).freq = none → ∃ t, exec (.drainWindow c) s = .next t ∧
        (let now := hold && !((s.ch c).st == .active || (s.ch c).st == .selfref)
         t.bare = (s.setCh c
           (drained (if now then (s.ch c).startRefresh s.time.ticks else s.ch c) (s.ch c).st now)).nextOrder.bare)) ∧
      (s.eventsWf → (s.ch c).st = .active → (s.ch c).drainWindow = false → s.due d = true →
        ∃ t, exec (.forcedDrain c) s = .next t ∧ s.counted t (Ev.yfdrain c) 0 1 ∧
          t.bare = ({ (s.setCh c (drained (s.ch c) .active (s.ch c).heldHost)).nextOrder with
            events := t.events } : State).bare))) ∧
  (∀ (c : YId) (s : State), (s.nextDrain c = none ∨ s.running = false ∨ s.time.refclk = false ∨ s.boot.trained = false →
     exec (.drainWindow c) s = .next s ∧ exec (.forcedDrain c) s = .next s)) ∧
  (∀ (c : YId) (s : State), s.running = true → s.time.refclk = true → (s.ch c).sweeping = none →
     ((s.ch c).st = .drain → (s.ch c).waiting = none → (s.ch c).heldHost = false →
       ((s.ch c).quiet = true → (s.ch c).drainHold = true → exec (.drainDone c) s = .next
         (s.setCh c { (if (s.ch c).awake then s.ch c else (s.ch c).startRefresh s.time.ticks) with
           heldHost := true, rows := Vector.replicate 16 none, gap := Vector.replicate 2 none })) ∧
       ((s.ch c).quiet = true → (s.ch c).drainHold = false → s.dramFree = true → ∃ t, exec (.drainDone c) s = .next t ∧
         t.ch c = { (if (s.ch c).awake then s.ch c else (s.ch c).startRefresh s.time.ticks) with
           sweeping := some .retrain, swept := 0, sweptAge := s.order, begun := none
           rows := Vector.replicate 16 none, gap := Vector.replicate 2 none } ∧
         (t.lock .dram).holder = VWord.of 3 ∧
         t.ch (otherCh c) = s.ch (otherCh c) ∧
         t = { s with chans := t.chans, dp := { s.dp with lockDram := t.dp.lockDram } }) ∧
       ((s.ch c).quiet = true → (s.ch c).drainHold = false → s.dramFree = false → ∃ t, exec (.drainDone c) s = .next t ∧
         t.bare = (s.setCh c { (s.ch c).undrain s.time.ticks with
           pend := (s.ch c).begun, begun := none }).nextOrder.bare) ∧
       ((s.ch c).quiet = false → exec (.drainDone c) s = .next s)) ∧
     (∀ k o, s.noReads → (s.ch c).waiting = some (some k, o) →
       (s.sweepReady c k o = true → ∃ t, exec (.sweepStart c) s = .next t ∧ (t.ch c).sweeping = some k ∧
         (t.ch c).waiting = none ∧ (t.ch c).reqs = (s.ch c).reqs ∧ (t.ch c).taps = (s.ch c).taps ∧
         ((s.lock .dram).holder = VWord.of 0 → (t.lock .dram).holder = VWord.of 3) ∧
         (k ≠ .freqsw → (t.ch c).resetN = true ∧ (t.ch c).setB = (s.ch c).setB) ∧
         (∀ f, k = .freqsw → (s.ch c).freq = some f → (t.ch c).freq = some { f with locked := true } ∧
           (t.ch c).setB = (if f.locked then (s.ch c).setB else f.toB)) ∧
         t.ch (otherCh c) = s.ch (otherCh c) ∧
         t.bare = ({ s with
           chans := t.chans, dp := { s.dp with lockDram := t.dp.lockDram }, order := s.order + 1 } : State).bare) ∧
       (s.sweepReady c k o = false → exec (.sweepStart c) s = .next s)))

/-- A hardware sweep after start-up ends: when every lane passes, the channel serves again with the taps of Table 9.3, its set
carries training, LFAIL and FSTEP are 0, its cause of DEGRADED is over and YTRAIN is counted; when one fails, FSTEP names the
step, LFAIL the lanes, the set carries none, and the channel is ABSENT where every lane of rank 0 fails and FAILED else. A
final check alone writes no delay. A sweep that has come to its write training has issued the bursts it had left, tracked as
any, and leaves its patterns in the billets of Yn:YTREG; after a channel reset every refill that the channel may take is
requested again. The start-up sweep of Y1 follows that of Y0, and with its end start-up is in step 7.
The model's choices: the cause of DEGRADED is kept through an ABSENT result (log 64), and the lock is freed with the sweeps
of a start-up that its Landing test has stopped (log 14). -/
def Obligations.SweepEnds : Prop :=
  (∀ (c : YId) (k : SweepFor) (m : SweepData) (s : State), s.powered = true → 3 ≤ s.boot.stage → s.dp.fatal = false →
    s.time.refclk = true → (s.boot.warm = true → s.boot.warmed ≠ 1) → s.eventsWf → (s.ch c).sweeping = some k → k ≠ .boot →
    k ≠ .final →
    (let u := s.testBursts ((s.ch c).testRound - (s.ch c).swept) c
     let rest (t : State) : Prop := (t.ch c).sweeping = none ∧ (t.ch c).waiting = (s.ch c).waiting ∧ (t.ch c).freq = none ∧
       (t.ch c).setB = (s.ch c).setB ∧ t.ch (otherCh c) = s.ch (otherCh c) ∧
       t.bare = ({ s with
         chans := t.chans, queues := t.queues, events := t.events, dp := { s.dp with lockDram := t.dp.lockDram }
         freeCtr := t.freeCtr, order := t.order } : State).bare
    (sweepStep m (s.ch c).ranks = 0 → ∃ t, exec (.sweepDone c m) s = .next t ∧ rest t ∧
      (k ≠ .keep → k ≠ .drop → (t.ch c).reqs = (s.ch c).reqs ∧ (∀ q, (t.qu q).bare = ((s.scratch c).qu q).bare) ∧
        (t.ch c).st = (if (s.ch c).reqs = [] then .selfref else .active)) ∧
      (k = .keep ∨ k = .drop → s.running = true → (s.ch c).waiting = none → (∃ l, (t.ch c).reqs = (s.ch c).reqs ++ l ∧ ∀ r ∈ l, r.kind = .refill) ∧
        (∀ q x, t.refillReady q = some x → x.2.1 ≠ c) ∧
        (t.ch c).st = (if (t.ch c).reqs = [] then .selfref else .active)) ∧ (t.ch c).carry (s.ch c).setB = true ∧
      (t.ch c).carry (!(s.ch c).setB) = (s.ch c).carry (!(s.ch c).setB) ∧
      (t.ch c).lfail0 = 0 ∧ (t.ch c).lfail1 = 0 ∧ (t.ch c).fstep = 0 ∧ (t.ch c).ttrain = s.dp.temp ∧
      (t.ch c).failed = false ∧ (t.ch c).taps = ((s.ch c).takeTaps m).taps ∧ (t.ch c).vref = ((s.ch c).takeTaps m).vref ∧
      u.counted t (Ev.ytrain c) 0 1 ∧ (t.ch c).hot = (u.ch c).hot) ∧
    (∀ f, sweepStep m (s.ch c).ranks = f → f ≠ 0 → ∃ t, exec (.sweepDone c m) s = .next t ∧ rest t ∧
      (t.ch c).st = (if lfailOf m.rank0 f = 0x3FF then .absent else .failed) ∧
      (t.ch c).failed = ((s.ch c).failed || lfailOf m.rank0 f != 0x3FF) ∧ (t.ch c).carry (s.ch c).setB = false ∧
      (t.ch c).fstep = BitVec.ofNat 16 f ∧ (t.ch c).lfail0 = lfailOf m.rank0 f ∧
      (t.ch c).lfail1 = (if (s.ch c).ranks then lfailOf m.rank1 f else 0) ∧ (t.ch c).pend = none ∧
      (t.ch c).taps = (s.ch c).taps ∧ (t.ch c).vref = (s.ch c).vref ∧
      t.events = (if f < 5 then s.events else u.events) ∧ (t.ch c).reqs = (s.ch c).reqs ∧
      (if f < 5 then s.sameQueues t else ∀ q, (t.qu q).bare = ((s.scratch c).qu q).bare)))) ∧
  (∀ (c : YId) (m : SweepData) (s : State), s.powered = true → 3 ≤ s.boot.stage → s.dp.fatal = false →
    s.time.refclk = true → (s.boot.warm = true → s.boot.warmed ≠ 1) →
    ((s.ch c).sweeping = some .final →
      (let pass := (List.range 10).all (fun i => (laneOf m.rank0 i).final) &&
         (!(s.ch c).ranks || (List.range 10).all (fun i => (laneOf m.rank1 i).final))
       ∃ t, exec (.sweepDone c m) s = .next t ∧ (t.ch c).sweeping = none ∧ (t.ch c).heldHost = false ∧
         (t.ch c).fstep = (if pass then 0 else 7) ∧ (t.ch c).carry (s.ch c).setB = pass ∧
         (∀ i : Fin 40, ((t.ch c).taps[i.val]).rd = ((s.ch c).taps[i.val]).rd ∧
           ((t.ch c).taps[i.val]).wr = ((s.ch c).taps[i.val]).wr ∧ ((t.ch c).taps[i.val]).wl = ((s.ch c).taps[i.val]).wl ∧
           ((t.ch c).taps[i.val]).gate = ((s.ch c).taps[i.val]).gate) ∧ (t.ch c).vref = (s.ch c).vref ∧
         t.ch (otherCh c) = s.ch (otherCh c) ∧ ∀ q, (t.qu q).bare = ((s.scratch c).qu q).bare)) ∧
    ((s.ch c).sweeping = some .boot → c = 0 → ∃ t, exec (.sweepDone c m) s = .next t ∧ (t.ch c).sweeping = none ∧
      (t.ch 1).sweeping = some .boot ∧ t.boot = s.boot) ∧
    ((s.ch c).sweeping = some .boot → c = 1 → s.boot.halted = false → s.agrees .floor → s.agrees .ceil → s.agrees .margin → ∃ t, exec (.sweepDone c m) s = .next t ∧
      (t.ch c).sweeping = none ∧ t.boot = { s.boot with carding := false, trained := true, stage := max s.boot.stage 7 } ∧ t.ch 0 = s.ch 0) ∧
    ((s.ch c).sweeping = some .boot → c = 1 → s.boot.halted = true → (s.lock .dram).holder = VWord.of 3 →
      (s.ch 0).sweeping = none → ∃ t, exec (.sweepDone c m) s = .next t ∧ (t.ch c).sweeping = none ∧
      t.boot = { s.boot with carding := false, trained := true } ∧ t.lock .dram = Lock.free ∧ t.ch 0 = s.ch 0))

/-- A tracking update, in the gap of a refresh issued since it fell due or before any request where one must run first, moves
RDDLY and GATE.FINE of each lane of the rank in the set in force by at most one tap and no other lane's delays at all; the
next falls due 1 ms on. In step 8 of a frequency change it runs once on each rank with the target set in force. Otherwise nothing changes.
That the next is counted from the due time, or from the instant of an update that must go first, is the model's reading (log
66). -/
def Obligations.TrackingMovesOneTap : Prop :=
  ∀ (c : YId) (rank : Bool) (moves : List TrackMove) (s : State), s.noReads →
    (let x := s.ch c
     let i := rankIdx rank
     let moved (t : State) (b : Bool) : Prop := ∀ k : Fin 40,
       (let o := x.taps[k.val]
        let n := (t.ch c).taps[k.val]
        n.wl = o.wl ∧ n.wr = o.wr ∧ n.rdT = o.rdT ∧ n.fineT = o.fineT ∧
        (tapIdx b rank 0 ≤ k.val ∧ k.val < tapIdx b rank 0 + 10 →
          fld n.rd 0 7 ≤ fld o.rd 0 7 + 1 ∧ fld o.rd 0 7 ≤ fld n.rd 0 7 + 1 ∧
          fld n.gate 0 7 ≤ fld o.gate 0 7 + 1 ∧ fld o.gate 0 7 ≤ fld n.gate 0 7 + 1 ∧
          fld n.gate 8 4 = fld o.gate 8 4) ∧
        (¬(tapIdx b rank 0 ≤ k.val ∧ k.val < tapIdx b rank 0 + 10) → n = o))
     let frame (t : State) : Prop := t.ch (otherCh c) = s.ch (otherCh c) ∧ (t.ch c).reqs = x.reqs ∧
       t = { s with chans := t.chans, events := t.events, order := t.order }
     s.running = true → s.time.refclk = true → x.noRef = false → x.sweeping = none →
     (x.st = .active → x.hasRank rank = true →
       (x.trackDue rank = true → ∃ t, exec (.dqsTracking c rank moves) s = .next t ∧ moved t x.setB ∧ frame t ∧
         (t.ch c).st = .active ∧ (t.ch c).must = x.must.set i.val false ∧
         (t.ch c).trackAt = x.trackAt.set i.val ((if x.must[i] then s.time.ticks else x.trackAt[i]) + 100000)) ∧
       (x.trackDue rank = false → exec (.dqsTracking c rank moves) s = .next s)) ∧
     (∀ f, x.st = .freqsw → x.quiet = true → x.freq = some f → x.carry f.toB = true →
       (f.upd[i] = true → exec (.dqsTracking c rank moves) s = .next s) ∧
       (f.upd[i] = false → (f.locked = true → x.setB = f.toB) →
         ∃ t, exec (.dqsTracking c rank moves) s = .next t ∧ frame t ∧ (t.ch c).setB = f.toB ∧
           (t.ch c).freq = some { f with locked := true, upd := f.upd.set i.val true } ∧
           (rank = false ∨ bit (x.tword f.toB 0) 5 = true → moved t f.toB) ∧
           (rank = true → bit (x.tword f.toB 0) 5 = false → (t.ch c).taps = x.taps))))

/-- Host training: HOLD asks for the drain; its release while held runs the final check alone, and before that withdraws
the request, a channel that was draining for it serving again. A pattern run takes PGCTL and PGSEED as they stand, clears its
results and issues its bursts; with the last of them it publishes the lanes and beats that mismatch, and what it wrote stays
in its billet; one that may not run is discarded with its reason, STATE before RANGE where both hold (the model's choice, log
39). -/
def Obligations.HostTraining : Prop :=
  ∀ (p : Path) (c : YId) (s : State), s.noReads →
    (s.landsNow p (.phy c) 0x0B → (s.ch c).hold = false → ∃ t, exec (.hostTrainingHold p c) s = .next t ∧
      s.hostFrame t ((s.setCh c { s.ch c with
        hold := true, holdReq := some ⟨s.time.ticks, fld (s.ch c).defermax 0 8, s.order⟩ }).nextOrder)) ∧
    (s.landsNow p (.phy c) 0x0B → (s.ch c).hold = true →
      ((s.ch c).heldHost = true → ∃ t, exec (.holdRelease p c) s = .next t ∧ s.hostFrame t (s.setCh c { s.ch c with
         hold := false, heldHost := false, drainHold := false, sweeping := some .final
         swept := 0, sweptAge := s.order })) ∧
      ((s.ch c).heldHost = false → (s.ch c).st ≠ .drain ∨ (s.ch c).drainHold = false →
        ∃ t, exec (.holdRelease p c) s = .next t ∧ s.hostFrame t (s.setCh c { s.ch c with hold := false, holdReq := none })) ∧
      ((s.ch c).heldHost = false → (s.ch c).st = .drain → (s.ch c).drainHold = true →
        ∃ t, exec (.holdRelease p c) s = .next t ∧ (t.ch c).hold = false ∧ (t.ch c).holdReq = none ∧
          (t.ch c).drainHold = false ∧
          (t.ch c).st = (if (s.ch c).prior = .active then .active else if (s.ch c).reqs = [] then .selfref else .active) ∧
          (t.ch c).reqs = (s.ch c).reqs ∧ (t.ch c).taps = (s.ch c).taps ∧ s.hostFrame t (s.setCh c (t.ch c)).nextOrder) ∧
      ∃ t, exec (.hostTrainingHold p c) s = .next t ∧ s.hostFrame t s) ∧
    (s.landsNow p (.phy c) 0x0B → (s.ch c).hold = false → ∃ t, exec (.holdRelease p c) s = .next t ∧ s.hostFrame t s) ∧
    (s.landsNow p (.phy c) 0x10 →
      (let may := (s.ch c).run = none ∧ (((s.ch c).st = .active ∧ (s.ch c).noRef = false) ∨ (s.ch c).heldHost = true)
       let refused (r : Nat) : Prop := ∃ t, exec (.patternRun p c) s = .next t ∧
         s.rejected t ⟨p, 80, (Bank.phy c).sel⟩ Ev.ycmdrej 0 r ∧ s.hostFrame t { s with events := t.events, dp := t.dp }
       (s.eventsWf → ¬may → refused Reason.state) ∧
       (s.eventsWf → may → (s.ch c).tregLen.toNat ≤ (s.ch c).pgctlH.toNat → refused Reason.range) ∧
       (may → (s.ch c).pgctlH.toNat < (s.ch c).tregLen.toNat → ∃ t k, exec (.patternRun p c) s = .next t ∧
         s.hostFrame t ((s.setCh c { s.ch c with pgDone := false, run := some k, cmppass := 0x3FF, cmperr := 0 }).nextOrder) ∧
         (let n := min 128 (max 1 ((s.ch c).pgctlL.toNat / 256))
          k.cb = (s.ch c).tregBase.toNat + (s.ch c).pgctlH.toNat ∧ k.issued = 0 ∧ k.age = s.order ∧
          k.writes = (if fld (s.ch c).pgctlL 2 2 = 1 then 0 else n) ∧
          k.reads = (if fld (s.ch c).pgctlL 2 2 = 2 then 0 else n) ∧ k.pat = fld (s.ch c).pgctlL 0 2 ∧
          k.seed = (if k.pat < 2 ∧ (s.ch c).pgseed = 0 then 1 else (s.ch c).pgseed))))) ∧
    (∀ (mism : List (BitVec 10)) (clean : Nat) (k : Run), s.running = true → s.time.refclk = true → (s.ch c).noRef = false →
      (s.ch c).run = some k →
      (let beats := (List.replicate clean 0#10 ++ mism).take (8 * k.reads)
       k.issued = k.writes + k.reads → ∃ t, exec (.patternRunDone c mism clean) s = .next t ∧
        t.ch c = { s.ch c with
          pgDone := true, run := none, idleSince := s.time.ticks, cmppass := (t.ch c).cmppass, cmperr := (t.ch c).cmperr } ∧
        (∀ i : Fin 10, (t.ch c).cmppass.getLsbD i.val = true ↔ ∀ b ∈ beats, b.getLsbD i.val = false) ∧
        (t.ch c).cmperr.toNat = min 65535 (beats.filter (· != 0)).length ∧
        t.ch (otherCh c) = s.ch (otherCh c) ∧
        (k.writes = 0 → t = s.setCh c (t.ch c)) ∧
        (k.writes ≠ 0 → ∀ (q : QId) (i : Nat) (b : Billet), (s.qu q).billets[i]? = some b →
          (t.qu q).billets[i]? = some (if b.boom = true ∧
              ((s.qu q).map.bind fun m => m.home b.num) = some (c, k.cb) then
            { b with pats := ⟨64 * k.writes, k.pat, k.seed, s.freeCtr⟩ :: b.pats } else b)) ∧
        (∀ q, t.qu q = { s.qu q with billets := (t.qu q).billets }) ∧
        t = { s with chans := t.chans, queues := t.queues, freeCtr := t.freeCtr }) ∧
      (k.issued ≠ k.writes + k.reads → exec (.patternRunDone c mism clean) s = .next s))

/-! ### The Azlin link -/

/-- A stave frame on an inbound link that is UP: the expected number is committed to its chain-fed queue and E advances,
its credit returning, or dropped with AZQDROP where the queue takes none; one of the 64 numbers before E is a duplicate; a
frame whose CRC fails, or of any other number, is discarded with AZCRC, and every later stave frame with it until a
resync. -/
def Obligations.StaveReceived : Prop :=
  ∀ (ctl : BitVec 36) (data : List (BitVec 36)) (s : State), s.running = true → s.inEnabled = true → s.azl.inn.st = .up →
    (let q := ctlQueue ctl
     let took : Azl := { s.azl with inn := { s.azl.inn with
       lastRx := s.time.ticks, e := s.azl.inn.e + 1, out := s.azl.inn.out.set q.val (s.azl.inn.out[q.val] - 1) } }
     (ctlCrc ctl = frameCrc ctl data → ctlType ctl < 2 → s.azl.inn.hold = false → ctlSeq ctl = s.azl.inn.e →
       s.chainFed q = true → (s.qu q).en = true → (s.qu q).resetting = false →
       ∃ t, exec (.staveFrame ctl data) s = .next t ∧ t.azl = took ∧
         (let v := frameSlots (ctlType ctl == 1) data
          (t.qu q).w = (s.qu q).w + BitVec.ofNat 48 v.length ∧ (t.qu q).wcnt = (s.qu q).wcnt + BitVec.ofNat 48 v.length ∧
          ((s.qu q).noLost → (t.qu q).held = (s.qu q).held ++ v) ∧ (ctlType ctl = 1 → (t.qu q).tailCut = true) ∧
          (ctlPoison ctl = true → (s.qu q).noLost → 0 < v.length →
            ((t.qu q).eccOf ((s.qu q).w.toNat / 32)).poison = true) ∧
          t.gov.acc8 = s.gov.acc8 + 8 ∧ ((s.qu q).mmode = true → t.events = s.events) ∧
          s.otherQueues t q ∧ t.bare = ({ s with
            azl := t.azl, queues := t.queues, chans := t.chans, events := t.events, gov := t.gov
            order := s.order + 1 } : State).bare)) ∧
     (s.eventsWf → ctlCrc ctl = frameCrc ctl data → ctlType ctl < 2 → s.azl.inn.hold = false → ctlSeq ctl ≠ s.azl.inn.e →
       (s.azl.inn.e - ctlSeq ctl).toNat ≤ 64 → ∃ t, exec (.staveFrame ctl data) s = .next t ∧ s.counted t Ev.azdup 0 1 ∧
         t = { s.setIn { s.azl.inn with lastRx := s.time.ticks } with events := t.events }) ∧
     (s.eventsWf → ctlCrc ctl ≠ frameCrc ctl data → ∃ t, exec (.staveFrame ctl data) s = .next t ∧
       s.counted t Ev.azcrc 0 1 ∧ t = { s.setIn { s.azl.inn with hold := true } with events := t.events }) ∧
     (ctlCrc ctl = frameCrc ctl data → ctlType ctl < 2 →
       (s.azl.inn.hold = true →
         exec (.staveFrame ctl data) s = .next (s.setIn { s.azl.inn with lastRx := s.time.ticks })) ∧
       (s.eventsWf → s.azl.inn.hold = false → ctlSeq ctl = s.azl.inn.e → s.chainFed q = false ∨
           (s.qu q).en = false ∨ (s.qu q).resetting = true →
         ∃ t, exec (.staveFrame ctl data) s = .next t ∧ s.counted t Ev.azqdrop 0 1 ∧
           t.bare = ({ s with azl := took, events := t.events } : State).bare) ∧
       (s.eventsWf → s.azl.inn.hold = false → 64 < (s.azl.inn.e - ctlSeq ctl).toNat →
         ∃ t, exec (.staveFrame ctl data) s = .next t ∧ s.counted t Ev.azcrc 0 1 ∧
           t = { s.setIn { s.azl.inn with lastRx := s.time.ticks, hold := true } with events := t.events })))

/-- A valid link frame on an enabled inbound link that is not DOWN shows the neighbour's position; RESYNC ends the
discarding and, on a fresh end, sets E and starts the credits afresh, as RESTART does on any end; KEEPALIVE does neither. A
position that does not fit keeps the link in TRAIN and counts AZPOS, and what the frame carries is not taken. A frame whose
CRC fails, or of the reserved SUB 0b11, is discarded with AZCRC. That RESTART starts the credits afresh on an end that is not
fresh too is the model's reading (log 43). -/
def Obligations.LinkFrameReceived : Prop :=
  ∀ (ctl : BitVec 36) (s : State), s.running = true → s.inEnabled = true → s.azl.inn.st ≠ .down →
    (let good := ctlCrc ctl = frameCrc ctl [] ∧ ctlType ctl = 2 ∧ ctlSub ctl ≠ 3
     let seen : InLink := { s.azl.inn with
       peerPos := ctlPos ctl, peerTwin := ctlTwin ctl, peerVal := true, lastRx := s.time.ticks, mism := s.posMismatch ctl
       st := if s.posMismatch ctl then .train else s.azl.inn.st
       got := if s.posMismatch ctl then false else s.azl.inn.got }
     let afresh : InLink := { seen with
       e := ctlSeq ctl, ccnt := Vector.replicate 16 0, out := Vector.replicate 16 0, fresh := false, hold := false
       got := true }
     let becomes (c : Instr) (x : InLink) : Prop := ∃ t, exec c s = .next t ∧
       t.bare = ({ s.setIn x with events := t.events } : State).bare ∧
       (s.posMismatch ctl = false → t.events = s.events) ∧
       (s.posMismatch ctl = true → s.eventsWf → s.counted t Ev.azpos 0 1)
     let discards (c : Instr) : Prop := ∃ t, exec c s = .next t ∧ s.counted t Ev.azcrc 0 1 ∧
       t = { s.setIn { s.azl.inn with hold := true } with events := t.events }
     (good → (ctlSub ctl = 0 → becomes (.keepalive ctl) seen) ∧
       (s.posMismatch ctl = true → (ctlSub ctl = 1 → becomes (.resync ctl) seen) ∧
         (ctlSub ctl = 2 → becomes (.restart ctl) seen)) ∧
       (s.posMismatch ctl = false →
         (ctlSub ctl = 1 → s.azl.inn.fresh = false → becomes (.resync ctl) { seen with hold := false, got := true }) ∧
         (ctlSub ctl = 1 → s.azl.inn.fresh = true → becomes (.resync ctl) afresh) ∧
         (ctlSub ctl = 2 → becomes (.restart ctl) afresh))) ∧
     (s.eventsWf → ¬good → discards (.keepalive ctl) ∧ discards (.resync ctl) ∧ discards (.restart ctl)))

/-- The receiver grants a link credit of a chain-fed queue that has a stave of space no other credit reserves, at most
32 for one queue and 64 in all, and for which a frame of its share is kept (log 76); and sends a credit frame for the next chain-fed queue when it has sent none for 1 µs. A
sender: a stave of a chain-read queue goes out with the next number, under one credit, and stays in the resend buffer;
KEEPALIVE after 1 µs without a frame; a resync again when its request still arrives 2 µs later, then every stave of the
buffer, in order. The order of the rotation is the model's choice (log 31), and that a request still arrives where one came
within the last 1 µs its reading (log 72). -/
def Obligations.LinkEndsSend : Prop :=
  (∀ s : State, s.running = true → s.inEnabled = true →
     (∀ q, s.azl.inn.st = .up → s.chainFed q = true → (s.qu q).en = true → (s.qu q).resetting = false →
       (s.azl.inn.out[q.val] < 32 → s.azl.inn.out.sum < 64 → 32 ≤ s.free q - (s.qu q).ffresSlots - s.resv q →
        s.frameFor q 32 = true → ∃ t, exec (.linkCreditGrant q) s = .next t ∧ t.bare = (s.setIn { s.azl.inn with
           out := s.azl.inn.out.set q.val (s.azl.inn.out[q.val] + 1)
           ccnt := s.azl.inn.ccnt.set q.val (s.azl.inn.ccnt[q.val] + 1) }).bare) ∧
       (32 ≤ s.azl.inn.out[q.val] ∨ 64 ≤ s.azl.inn.out.sum ∨ s.free q - (s.qu q).ffresSlots - s.resv q < 32 ∨
           s.frameFor q 32 = false →
         exec (.linkCreditGrant q) s = .next s)) ∧
     (s.azl.inn.st ≠ .down → s.azl.inn.lastTx + 100 ≤ s.time.ticks ∨ s.azl.inn.hold = true ∨ s.azl.inn.st = .train →
       exec .creditFrameSend s = .next (s.setIn { s.azl.inn with
         rot := s.nextFed s.azl.inn.rot, lastTx := s.time.ticks
         tx := [creditBits s.azl.inn.rq (s.azl.inn.e - 1) (s.nextFed s.azl.inn.rot)
           (s.azl.inn.ccnt[(s.nextFed s.azl.inn.rot).val])] }))) ∧
  (∀ s : State, s.running = true → s.time.refclk = true → s.outEnabled = true → s.azl.out.st = .up →
     (∀ (q : QId) (ecc : List Ecc), s.twin = false → (s.qu q).chainRead = true → s.holder q = none → (s.qu q).forced = false →
       0 < s.azl.out.cred[q.val] → (∀ r ∈ s.azl.out.resend, r.wait = false) → s.sendSize q ≠ 0 →
       ∃ t r, exec (.staveSend q ecc) s = .next t ∧
         t.azl.out = { s.azl.out with
           nseq := s.azl.out.nseq + 1, cred := s.azl.out.cred.set q.val (s.azl.out.cred[q.val] - 1)
           asent := s.azl.out.asent.set q.val (s.azl.out.asent[q.val] + 1), resend := s.azl.out.resend ++ [r]
           tx := [staveFrame s.azl.out.nseq q r.slots r.poison], lastTx := s.time.ticks } ∧
         r.seq = s.azl.out.nseq ∧ r.q = q ∧ r.wait = false ∧ r.need = false ∧ t.gov.acc8 = s.gov.acc8 + 8 ∧
         ((s.qu q).noLost → (s.qu q).held.length = (s.qu q).occ → (s.qu q).off (s.qu q).r + s.sendSize q ≤ (s.qu q).occ →
           r.slots = ((s.qu q).held.drop ((s.qu q).off (s.qu q).r)).take (s.sendSize q) ∧
           (t.qu q).r = (s.qu q).r + BitVec.ofNat 48 (s.sendSize q)) ∧
         t.azl.inn = s.azl.inn ∧ (t.qu q).w = (s.qu q).w ∧ s.otherQueues t q ∧ t.ports = s.ports) ∧
     (∀ (q : QId) (ecc : List Ecc), s.twin = true ∨ s.azl.out.cred[q.val] = 0 ∨ (s.qu q).chainRead = false ∨ s.sendSize q = 0 →
       exec (.staveSend q ecc) s = .next s) ∧
     (s.azl.out.lastTx + 100 ≤ s.time.ticks → exec .keepaliveSend s = .next
       (s.setOut { s.azl.out with tx := [[s.linkFrame 0 s.azl.out.nseq]], lastTx := s.time.ticks })) ∧
     (∀ k, s.azl.out.rqAt = some k → s.time.ticks ≤ k + 100 → s.azl.out.lastResync + 200 ≤ s.time.ticks →
       (∀ r ∈ s.azl.out.resend, r.need = false) →
       ∃ t, exec .resyncRetry s = .next t ∧
         t.azl = { s.azl with out := { s.azl.out with
           rqAt := none, lastResync := s.time.ticks, lastTx := s.time.ticks, sync := true
           answered := false
           resend := s.azl.out.resend.map fun r => { r with wait := false }
           tx := [s.linkFrame (if s.azl.out.fresh then 2 else 1) ((s.azl.out.resend.head?.map (·.seq)).getD s.azl.out.nseq)] ::
             s.azl.out.resend.map fun r => staveFrame r.seq r.q r.slots r.poison } } ∧
         (s.eventsWf → s.counted t Ev.azresend 0 s.azl.out.resend.length) ∧
         t = { s with azl := t.azl, events := t.events, gov := t.gov, order := t.order }) ∧
     (s.azl.out.rqAt = none ∨ s.time.ticks < s.azl.out.lastResync + 200 → exec .resyncRetry s = .next s))

/-- A valid credit frame that asks for no resync drops the staves it acknowledges and adds the credits granted since the
last count. One that asks for a resync is answered with RESYNC, or RESTART while the sender is fresh, that names the
oldest stave not acknowledged, and every such stave waits to be sent again, and is, in order, while the link is UP; one from
a fresh receiver starts the credits afresh, and each stave then needs a new one. A fresh sender takes no count until its
RESTART is answered (the model's reading, log 43). A frame whose CRC fails is discarded with AZCRC. -/
def Obligations.CreditFrameReceived : Prop :=
  ∀ (b : BitVec 38) (s : State), s.running = true → s.outEnabled = true → s.azl.out.st ≠ .down → b.getLsbD 37 = true →
    (let x := s.azl.out
     let q : QId := ⟨(b.extractLsb' 23 4).toNat, (b.extractLsb' 23 4).isLt⟩
     let ack := b.extractLsb' 27 8
     let cc := b.extractLsb' 15 8
     let rq := (b.extractLsb' 35 2).toNat
     let takes := x.fresh = false ∨ (x.sync = true ∧ rq = 0)
     let left := if takes then x.resend.filter (fun r => !decide ((ack - r.seq).toNat < 128)) else x.resend
     let y : OutLink := { x with
       lastRx := s.time.ticks, resend := left
       cred := if takes then x.cred.set q.val (x.cred[q.val] + (cc - x.ccnt[q.val]).toNat) else x.cred
       ccnt := if takes then x.ccnt.set q.val cc else x.ccnt
       aack := if takes then (x.ack ack).aack else x.aack }
     let sync (l : List Resend) : List (BitVec 36) :=
       [s.linkFrame (if x.fresh then 2 else 1) ((l.head?.map (·.seq)).getD x.nseq)]
     (creditOk b = true → rq = 0 → (∀ r ∈ left, r.wait = false) →
       exec (.creditFrame b) s = .next (s.setOut { y with episode := false, rqAt := none, answered := x.sync })) ∧
     (creditOk b = true → rq = 1 →
       (x.st = .up → x.episode = true → (∀ r ∈ left, r.wait = false) →
         exec (.creditFrame b) s = .next (s.setOut { y with rqAt := some s.time.ticks })) ∧
       (x.st ≠ .up → exec (.creditFrame b) s = .next (s.setOut { y with
         episode := true, rqAt := none, sync := true, answered := false, lastTx := s.time.ticks
         lastResync := s.time.ticks, tx := [sync left], resend := left.map fun r => { r with wait := true } })) ∧
       (x.st = .up → x.episode = false → (∀ r ∈ left, r.need = false) → ∃ t, exec (.creditFrame b) s = .next t ∧
         t.azl = { s.azl with out := { y with
           episode := true, rqAt := none, sync := true, answered := false, lastTx := s.time.ticks
           lastResync := s.time.ticks
           tx := sync left :: left.map fun r => staveFrame r.seq r.q r.slots r.poison
           resend := left.map fun r => { r with wait := false } } } ∧
         (s.eventsWf → s.counted t Ev.azresend 0 left.length) ∧ t.gov.acc8 = s.gov.acc8 + 8 * left.length ∧
         t = { s with azl := t.azl, events := t.events, gov := t.gov, order := t.order })) ∧
     (creditOk b = true → 2 ≤ rq → x.st ≠ .up ∨ x.resend = [] →
       exec (.creditFrame b) s = .next (s.setOut { x with
         lastRx := s.time.ticks, cred := (Vector.replicate 16 0).set q.val cc.toNat
         ccnt := (Vector.replicate 16 0).set q.val cc, rqAt := none, sync := true, answered := false
         lastTx := s.time.ticks, lastResync := s.time.ticks, tx := [sync x.resend]
         resend := x.resend.map fun r => { r with wait := true, need := true } })) ∧
     (s.eventsWf → creditOk b = false → ∃ t, exec (.creditFrame b) s = .next t ∧ t = { s with events := t.events } ∧
       s.counted t Ev.azcrc 0 1))

/-- A link end that is UP and hears nothing for 100 µs goes DOWN with AZLOSS; it enters TRAIN 100 µs after that, or on the
other end's training pattern, and leaves it for UP once the RESYNC or RESTART of this bring-up has come and, at the sender, has been answered: the sender then sends
again what waits, the receiver sends a credit frame for every chain-fed queue. Its numbers, its resend buffer and its credits
stay throughout. A twin that loses an end holds its WSYNC lines low until that end is UP again. -/
def Obligations.LinkStates : Prop :=
  ∀ s : State, s.running = true → s.time.refclk = true →
    (let o := s.azl.out
     let n := s.azl.inn
     let train : OutLink := { o with st := .train, lost := none, episode := false, rqAt := none, sync := false, answered := false, tx := [] }
     let lossOver (l : Option Nat) : Prop := ∀ k, l = some k → k + 10000 ≤ s.time.ticks
     (s.eventsWf → o.st = .up → o.lastRx + 10000 ≤ s.time.ticks → ∃ t, exec (.linkLoss .out) s = .next t ∧
       s.counted t Ev.azloss 0 1 ∧ t = { s with
         azl := { s.azl with out := { train with st := .down, lost := some s.time.ticks }, lostOut := s.twin }
         events := t.events }) ∧
     (s.eventsWf → n.st = .up → n.lastRx + 10000 ≤ s.time.ticks → ∃ t, exec (.linkLoss .inn) s = .next t ∧
       s.counted t Ev.azloss 0 1 ∧ t = { s with
         azl := { s.azl with inn := { n with st := .down, lost := some s.time.ticks, got := false, tx := [] }, lostIn := s.twin }
         events := t.events }) ∧
     ((o.st ≠ .up ∨ s.time.ticks < o.lastRx + 10000) → exec (.linkLoss .out) s = .next s) ∧
     ((n.st ≠ .up ∨ s.time.ticks < n.lastRx + 10000) → exec (.linkLoss .inn) s = .next s) ∧
     (∀ pattern, s.outEnabled = true → o.st ≠ .train → pattern = true ∨ (o.st = .down ∧ lossOver o.lost) →
       exec (.linkTrainEntry .out pattern) s = .next (s.setOut train)) ∧
     (∀ pattern, s.inEnabled = true → n.st ≠ .train → pattern = true ∨ (n.st = .down ∧ lossOver n.lost) →
       exec (.linkTrainEntry .inn pattern) s = .next (s.setIn { n with st := .train, lost := none, got := false, tx := [] })) ∧
     (¬lossOver o.lost → exec (.linkTrainEntry .out false) s = .next s) ∧
     (¬lossOver n.lost → exec (.linkTrainEntry .inn false) s = .next s) ∧
     (s.outEnabled = true → o.st = .train → o.answered = true → (∀ r ∈ o.resend, r.need = false) →
       ∃ t, exec (.linkUp .out) s = .next t ∧ t.azl = { s.azl with
         lostOut := false
         out := { o with
           st := .up, fresh := false, episode := false, rqAt := none, lastRx := s.time.ticks, lastTx := s.time.ticks
           resend := o.resend.map fun r => { r with wait := false }
           tx := if o.resend = [] then o.tx else o.resend.map fun r => staveFrame r.seq r.q r.slots r.poison } } ∧
         (s.eventsWf → s.counted t Ev.azresend 0 o.resend.length) ∧
         t = { s with azl := t.azl, events := t.events, gov := t.gov, order := t.order }) ∧
     (o.answered = false → exec (.linkUp .out) s = .next s) ∧
     (s.inEnabled = true → n.st = .train → n.got = true → n.mism = false → ∃ t, exec (.linkUp .inn) s = .next t ∧
       t = { s with azl := { s.azl with
         lostIn := false
         inn := { n with
           st := .up, lastRx := s.time.ticks, lastTx := s.time.ticks, rot := t.azl.inn.rot
           tx := s.fedQueues.map fun q => creditBits n.rq (n.e - 1) q (n.ccnt[q.val]) } } }) ∧
     (n.got = false ∨ n.mism = true → exec (.linkUp .inn) s = .next s))

/-- A link reset of a disabled end does nothing, of an enabled one takes it to TRAIN with its state kept; both bits set
in one write reset both ends; the seal does not stand against it. Commits of AZL:ACFG and AZL:AINQ, and the twin's WSYNC
lines. Clearing OUTEN or INEN takes that end to DOWN with its numbers kept. The first clauses are R482. -/
def Obligations.LinkResetAndConfiguration : Prop :=
  (∀ (p : Path) (s : State), s.hostWrites p →
     (let out (x : OutLink) (st : LinkSt) : OutLink := { x with
        st := st, lost := none, episode := false, rqAt := none, sync := false, answered := false, tx := [] }
      let inn (x : InLink) (st : LinkSt) : InLink := { x with st := st, lost := none, got := false, tx := [] }
      (s.outEnabled = false → ∃ t, exec (.rstout p) s = .next t ∧ s.hostFrame t s) ∧
      (s.inEnabled = false → ∃ t, exec (.rstin p) s = .next t ∧ s.hostFrame t s) ∧
      (s.outEnabled = true → ∃ t, exec (.rstout p) s = .next t ∧ s.hostFrame t (s.setOut (out s.azl.out .train))) ∧
      (s.inEnabled = true → ∃ t, exec (.rstin p) s = .next t ∧ s.hostFrame t (s.setIn (inn s.azl.inn .train))) ∧
      (s.outEnabled = true → s.inEnabled = true → (s.path p).bankSel = 0x30 → ∃ t, exec (.registerWrite p 66 3) s = .next t ∧
        t.azl = { s.azl with out := out s.azl.out .train, inn := inn s.azl.inn .train }) ∧
      (∀ v : Word, s.mayWrite p .azl 0 → ∃ t, exec (.acfgWrite p v) s = .next t ∧ t.azl.acfg = VWord.of (v &&& 0x33) ∧
        (v.getLsbD 0 = false → t.azl.out = out s.azl.out .down) ∧ (v.getLsbD 1 = false → t.azl.inn = inn s.azl.inn .down) ∧
        (s.strapsBad = false → v.getLsbD 0 = true →
          fld s.azl.acfg.val 4 2 = fld v 4 2 ∨ s.azl.acfg.val.getLsbD 0 = false ∨ s.azl.out.st ≠ .up → t.azl.out = s.azl.out) ∧
        s.hostFrame t { s with azl := { s.azl with acfg := t.azl.acfg, out := t.azl.out, inn := t.azl.inn } }))) ∧
  (∀ (p : Path) (v : Word) (s : State),
     (s.mayWrite p .azl 1 → ∃ t, exec (.ainqWrite p v) s = .next t ∧
       s.hostFrame t { s with azl := { s.azl with ainq := VWord.of v } }) ∧
     (∀ lines : BitVec 4, s.powered = true →
       exec (.wsyncChange lines) s = .next { s with azl := { s.azl with wsync := lines } }))

/-! ### Time, calendar, windows -/

/-- A REFCLK edge advances the time base by the trimmed 10 ns and the slew's part, carrying the fraction forward. It counts on
in a frequency change whose step 4 has not completed, which completes by its bound of 700 µs with the target set in force
(log 75). Nothing else changes. Before step 2 of start-up, and while REFCLK is absent, it holds. The edge that absorbs the
rest of a slew ends it. -/
def Obligations.TimeAdvances : Prop :=
  ∀ s : State, s.noReads →
    (s.timeOn = true → ∃ t, exec .refclkEdge s = .next t ∧ t = { s with time := t.time, chans := t.chans } ∧
      (∀ c, ((s.ch c).freq = none → t.ch c = s.ch c) ∧
        ∀ f, (s.ch c).freq = some f →
          (let stop := 70000 + (if f.came = .active then 100 else 0)
           let counts := f.locked = false ∧ (s.ch c).quiet = true ∧ (s.ch c).noRef = false
           (¬counts → t.ch c = s.ch c) ∧
           (counts → f.edges + 1 < stop → t.ch c = { s.ch c with freq := some { f with edges := f.edges + 1 } }) ∧
           (counts → stop ≤ f.edges + 1 → (t.ch c).setB = f.toB ∧ (t.ch c).st = (s.ch c).st ∧ (t.ch c).reqs = (s.ch c).reqs ∧
             (t.ch c).freq = some { f with edges := f.edges + 1, locked := true }))) ∧
      ((s.time.total : Int) + 1073741824000 + 250 * s.time.trim + s.time.slewInc < 2 ^ 48 * unitsSec →
        (t.time.total : Int) = s.time.total + 1073741824000 + 250 * s.time.trim + s.time.slewInc) ∧
      t.time.slew = s.time.slew - s.time.slewInc ∧ t.time.epoch = s.time.epoch ∧ t.time.ticks = s.time.ticks + 1) ∧
    (s.timeOn = false → exec .refclkEdge s = .next s) ∧
    (s.timeOn = true → s.time.slew ≠ 0 → s.time.slew.natAbs ≤ 536870912 → ∃ t, exec .slewEnd s = .next t ∧
      t.time.slew = 0 ∧ t = { s with time := t.time, chans := t.chans } ∧ exec .refclkEdge s = .next t)

/-- An accepted edge of PPS_IN captures the time base 20 ns before it with its epoch and adds 1 to SEQ; one within 500
ms of own advance after it is a glitch; PPSMISS is 1 after 1.5 s without one. A write of TIME:TSOUT holds TS_OUT low
until the next whole second, at whose edge the new selection acts; a pulse of the selected kind starts as the time base passes
its point by its own advance and ends WIDTH µs of own advance later. That a capture in the first 20 ns of the time base gives
0 is the model's reading (log 46). -/
def Obligations.PpsAndTimeOutput : Prop :=
  (∀ s : State, s.timeOn = true →
     ((∀ a, s.time.ppsLast = some a → a + 500000 * unitsUs ≤ s.time.adv) → ∃ t, exec .ppsEdge s = .next t ∧
       t = { s with time := { s.time with
         ppsSec := BitVec.ofNat 48 ((s.time.total - 20 * unitsNs) / unitsSec)
         ppsNs := (s.time.total - 20 * unitsNs) / unitsNs % nsSec
         ppsEpoch := s.time.epoch, ppsSeq := s.time.ppsSeq + 1, ppsMiss := false, ppsLast := some s.time.adv } }) ∧
     (∀ a, s.eventsWf → s.time.ppsLast = some a → s.time.adv < a + 500000 * unitsUs →
       ∃ t, exec .ppsEdge s = .next t ∧ t = { s with events := t.events } ∧ s.counted t Ev.ppsglitch 0 1) ∧
     (s.time.ppsLast.getD 0 + 1500000 * unitsUs ≤ s.time.adv →
       exec .ppsmissTimeout s = .next { s with time := { s.time with ppsMiss := true } })) ∧
  (∀ s : State,
     (∀ (p : Path) (v : Word), s.mayWrite p .time 0x14 → ∃ t, exec (.tsoutWrite p v) s = .next t ∧ t.tsOut = false ∧
       s.hostFrame t { s with time := { s.time with tsout := v &&& 0x3FFF, tsoutPend := some s.time.sec, pulse := none } }) ∧
     (s.timeOn = true → ∃ t, exec .refclkEdge s = .next t ∧
       t.time.tsoutNow = (if t.time.sec = s.time.sec then s.time.tsoutNow else s.time.tsout) ∧
       t.time.tsoutPend = (if t.time.sec = s.time.sec then s.time.tsoutPend else none)) ∧
     (s.timeOn = true → s.time.tsoutPend = none →
       (s.time.tsMode = 1 ∧ s.time.pass = some false) ∨ (s.time.tsMode = 2 ∧ s.time.pass = some true) →
       ∃ t, exec .tsOutPulse s = .next t ∧ t = { s with time := { s.time with pulse := some s.time.adv } } ∧ t.tsOut = true) ∧
     (∀ a, s.time.pulse = some a → a + s.time.tsWidth * unitsUs ≤ s.time.adv →
       exec .tsOutPulseEnd s = .next { s with time := { s.time with pulse := none } }) ∧
     (∀ a, s.time.pulse = some a → s.time.adv < a + s.time.tsWidth * unitsUs → exec .tsOutPulseEnd s = .next s))

/-- A committed correction is slewed when its size is at most STEPTH and stepped otherwise, a backward step going to the
next epoch; a step that brings S to UTCAT applies the armed change, keeps a pulse that the last edge has earned, and changes
nothing else but windows and WINMISS; in FREE, with OFFNS out of range, past the limits of the time base, or more than an hour
back without ARM the correction is rejected with the reason of the first check that fails, and the time base stays. Every
commit of a correction, taken or rejected, clears ARM. CAL:COMMIT corrects the time base by the staged date and time less the time base, or with an impossible
staging is discarded with CALREJ, which leaves ARM, and sets BADDATE; CAL:CANCEL reloads the staging from the live view and clears BADDATE. A
change of UTCOFF that has fallen due takes effect before each of them (the commits' own clauses are for none due). That
CALREJ leaves ARM and that the due change goes first is the model's reading (log 44). -/
def Obligations.CorrectionsAndCalendar : Prop :=
  (∀ (p : Path) (offs : BitVec 48) (offns : BitVec 30) (s : State), s.mayWrite p .time 4 →
     (let off := offsetUnits offs offns
      let bad := decide (nsSec ≤ offns.toNat)
      (s.agrees .discMode → s.utcDue = false → s.correctionRefusal off bad = none → off.natAbs ≤ s.time.stepth.toNat * unitsUs →
        ∃ t, exec (.timeCorrection p offs offns) s = .next t ∧
          s.hostFrame t { s with time := { s.time with arm := false, slew := off } }) ∧
      (s.agrees .discMode → s.utcDue = false → s.correctionRefusal off bad = none → s.time.stepth.toNat * unitsUs < off.natAbs →
        ∃ t, exec (.timeCorrection p offs offns) s = .next t ∧
          (t.time.total : Int) = s.time.total + off ∧
          (let due := s.time.utcArmed && decide (s.time.utcAt ≤ t.time.sec)
           t.time = { s.time with
             sec := t.time.sec, ns := t.time.ns, frac := t.time.frac, slew := 0, arm := false
             epoch := if off < 0 then s.time.epoch + 1 else s.time.epoch
             utcOff := if due then s.time.utcNxt else s.time.utcOff, utcArmed := s.time.utcArmed && !due }) ∧
          s.hostFrame t { s with time := t.time, wins := t.wins, events := t.events }) ∧
      (∀ k, s.agrees .discMode → s.eventsWf → s.utcDue = false → s.correctionRefusal off bad = some k →
        ∃ t, exec (.timeCorrection p offs offns) s = .next t ∧
          s.rejected t ⟨p, 68, 0x28⟩ Ev.steprej 0 k ∧
          s.hostFrame t { s with time := { s.time with arm := false }, dp := t.dp, events := t.events }) ∧
      (s.agrees .discMode → s.utcDue = true → ∃ t, exec (.timeCorrection p offs offns) s = .next t ∧
        t.time.utcOff = s.time.utcNxt ∧ t.time.utcArmed = false ∧ t.time.arm = false))) ∧
  (∀ (p : Path) (s : State),
     (s.mayWrite p .cal 6 → s.agrees .discMode → s.utcDue = false → s.cal.impossible = false →
       (let goal : Int := ((s.cal.seconds : Int) + sint s.time.utcOff) * unitsSec
        let off : Int := goal - s.time.total
        (s.correctionRefusal off false = none → s.time.stepth.toNat * unitsUs < off.natAbs →
          ∃ t, exec (.calCommit p) s = .next t ∧ (t.time.total : Int) = goal ∧ t.time.arm = false ∧ t.time.slew = 0 ∧
            t.time.epoch = (if off < 0 then s.time.epoch + 1 else s.time.epoch) ∧
            s.hostFrame t { s with time := t.time, wins := t.wins, events := t.events }) ∧
        (s.correctionRefusal off false = none → off.natAbs ≤ s.time.stepth.toNat * unitsUs →
          ∃ t, exec (.calCommit p) s = .next t ∧
            s.hostFrame t { s with time := { s.time with arm := false, slew := off } }) ∧
        (∀ k, s.eventsWf → s.correctionRefusal off false = some k → ∃ t, exec (.calCommit p) s = .next t ∧
          s.rejected t ⟨p, 70, 0x29⟩ Ev.steprej 0 k ∧
          s.hostFrame t { s with time := { s.time with arm := false }, dp := t.dp, events := t.events }))) ∧
     (s.mayWrite p .cal 6 → s.eventsWf → s.utcDue = false → s.cal.impossible = true →
       ∃ t, exec (.calCommit p) s = .next t ∧ s.rejected t ⟨p, 70, 0x29⟩ Ev.calrej 0 Reason.date ∧
         s.hostFrame t { s with cal := { s.cal with bad := true }, dp := t.dp, events := t.events }) ∧
     (s.mayWrite p .cal 6 → s.utcDue = true → ∃ t, exec (.calCommit p) s = .next t ∧
       t.time.utcOff = s.time.utcNxt ∧ t.time.utcArmed = false) ∧
     (s.mayWrite p .cal 7 → s.utcDue = false → ∃ t, exec (.calCancel p) s = .next t ∧ t.cal.bad = false ∧
       t.cal.view = s.cal.view ∧
       (t.cal.year, t.cal.mon, t.cal.day, t.cal.hmsL, t.cal.hmsH) = calWords s.view ∧ s.hostFrame t { s with cal := t.cal }) ∧
     (s.mayWrite p .cal 7 → s.utcDue = true → ∃ t, exec (.calCancel p) s = .next t ∧ t.cal.bad = false ∧
       t.time = { s.time with utcOff := s.time.utcNxt, utcArmed := false } ∧
       (t.cal.year, t.cal.mon, t.cal.day, t.cal.hmsL, t.cal.hmsH) = calWords t.view))

/-- RATEADJ takes its value; UTCOFF takes its value at once, each window whose occurrence the view passes, unopened by the view until then, counting
WINMISS, but a change falling due with the write stands; the write of UTCAT_L arms the staged change, after one that has
fallen due, and applies it at once where S has reached UTCAT; UTCCAN disarms it, UTCOFF keeping its value, or after the change
where that has fallen due by then; the armed change falls due when S has reached UTCAT. None of them moves S, N or TEPOCH. -/
def Obligations.RateAndUtc : Prop :=
  ∀ (p : Path) (s : State),
    (∀ v : BitVec 32, s.mayWrite p .time 2 → ∃ t, exec (.rateadjWrite p v) s = .next t ∧
      s.hostFrame t { s with time := { s.time with rate := v } }) ∧
    (∀ v : Word, s.mayWrite p .time 0x0F → ∃ t, exec (.utcoffWrite p v) s = .next t ∧
      t.time = (if s.utcDue then { s.time with utcOff := s.time.utcNxt, utcArmed := false } else { s.time with utcOff := v }) ∧
      s.hostFrame t { s with time := t.time, wins := t.wins, events := t.events } ∧
      (s.utcDue = false → s.eventsWf → s.counted t Ev.winmiss 0
        (s.evalWindows.wins.toList.filter fun x => x.missed (clampView s.view) (clampView t.view)).length)) ∧
    (∀ a : BitVec 48, s.mayWrite p .time 0x11 → ∃ t, exec (.utcChangeArm p a) s = .next t ∧
      t.time = { s.time with
        utcAt := a, utcArmed := decide (s.time.sec < a)
        utcOff := if s.utcDue ∨ a ≤ s.time.sec then s.time.utcNxt else s.time.utcOff } ∧
      s.hostFrame t { s with time := t.time, wins := t.wins, events := t.events }) ∧
    (s.mayWrite p .time 0 → ∃ t, exec (.utccan p) s = .next t ∧
      t.time = { s.time with
        disc := VWord.of (s.time.disc.val &&& 3), utcArmed := false
        utcOff := if s.utcDue then s.time.utcNxt else s.time.utcOff } ∧
      s.hostFrame t { s with time := t.time, wins := t.wins, events := t.events }) ∧
    (s.powered = true → s.utcDue = true → ∃ t, exec .utcoffChange s = .next t ∧
      t.bare = ({ s with
        time := { s.time with utcOff := s.time.utcNxt, utcArmed := false }
        wins := t.wins, events := t.events } : State).bare) ∧
    (s.powered = true → s.utcDue = false → exec .utcoffChange s = .next s)

/-- The window engine. A change of UTCOFF that has fallen due takes effect first (`u`). A commit closes the window, clears its record and evaluates every window; an evaluation opens a
closed window whose occurrence contains the view and whose day is later than its record, its countdown ending with the
occurrence on the view's scale, and never closes one; a window whose countdown has ended closes and every window is evaluated,
so that it stays open where the same instant opens it again. Nothing but the windows changes. -/
def Obligations.WindowEngine : Prop :=
  ∀ s : State, (let u := s.applyUtc
    (∀ (p : Path) (j : Fin 16) (w0 w1 w2 w3 : Word), s.mayWrite p .win (4 * j.val) →
      ∃ t, exec (.windowCommit p j w0 w1 w2 w3) s = .next t ∧
        t.win j = (⟨w0, w1, w2, w3 &&& 0x87FF, none, none⟩ : Window).eval (clampView u.view) u.viewUnits s.time.adv ∧
        (∀ i, i ≠ j → t.win i = (u.win i).eval (clampView u.view) u.viewUnits s.time.adv) ∧
        (w3.getLsbD 15 = false → (t.win j).closeAt = none ∧ (t.win j).record = none) ∧
        s.hostFrame t { u with wins := t.wins }) ∧
    (s.timeOn = true → ∃ t, exec .windowEvaluate s = .next t ∧
      (∀ j, (u.win j).closeAt.isSome = true → t.win j = u.win j) ∧
      (∀ j d, (u.win j).closeAt = none → (u.win j).hit (clampView u.view) = some d →
        t.win j = { u.win j with
          record := some (d : Int)
          closeAt := some (s.time.adv + ((d * 86400 + (u.win j).start + (u.win j).dur) * unitsSec - u.viewUnits)) }) ∧
      (∀ j, (u.win j).closeAt = none → (u.win j).hit (clampView u.view) = none → t.win j = u.win j) ∧
      t.bare = ({ u with wins := t.wins } : State).bare) ∧
    (∀ j a, (s.win j).closeAt = some a → a ≤ s.time.adv → ∃ t, exec (.windowClose j) s = .next t ∧
      (let v := (s.setWin j { s.win j with closeAt := none }).applyUtc
       (∀ i, t.win i = (v.win i).eval (clampView v.view) v.viewUnits s.time.adv) ∧
       t.bare = ({ v with wins := t.wins } : State).bare) ∧
      (s.utcDue = false → ((s.win j).hit (clampView s.view) = none → t.win j = { s.win j with closeAt := none }) ∧
        (∀ d, (s.win j).hit (clampView s.view) = some d → (t.win j).record = some (d : Int) ∧
          (t.win j).closeAt.isSome = true)) ∧
      (s.utcDue = false → t.bare = ({ s with wins := t.wins } : State).bare)) ∧
    (s.utcDue = false → u = s) ∧
    (s.utcDue = true → u.time = { s.time with utcOff := s.time.utcNxt, utcArmed := false } ∧
      u.bare = ({ s with time := u.time, wins := u.wins, events := u.events } : State).bare) ∧
    (∀ j a, (s.win j).closeAt = some a → s.time.adv < a → exec (.windowClose j) s = .next s))

/-! ### Host paths, locks, counters -/

/-- Reads and writes of the register window: what a path writes to its own DP:EVSEL it reads back; a word that is not
voted, not latched and not posted reads its live value; a read of the lowest word of a multi-word value latches all of its
words, and a read of a higher one returns what is latched of that value, else its live value; a write to an unimplemented
word or an undefined bank is ignored. A read changes nothing but the path's read data, what it latches, and on path B the
acknowledge and word address. A write of a higher word of a multi-word register of the core is staged; one of the lowest
commits it with the higher words as staged or as they stand, and drops both paths' staging of the register: thresholds and
the other queue words, QMAP, QBASE and QSIZE, Sort yard entries, FLOOR, CEIL, MARGIN and MODE, ROTMIN, STEPTH, UTCNXT and the
CAL staging take their values. A commit that its lock or the seal forbids is discarded as LOCKREJ with the path's own staging
of it; in FATAL a write to an implemented word that FATAL does not leave writable is discarded as LOCKREJ with reason STATE.
How FLOOR, CEIL and MARGIN come into force while no interval runs is the model's reading (log 1). -/
def Obligations.RegisterAccess : Prop :=
  ∀ (p : Path) (s : State), s.writable p = true →
    (let readOf := fun (t : State) (seq : Bool) (word : BitVec 7) (w : Word) (g : Option Latch) =>
       t.path p = { s.path p with
         readData := w, holdGen := g
         ack := if p = .b then true else (s.path p).ack, readSeq := if p = .b then seq else (s.path p).readSeq
         ptr := if p = .b then (if seq then word + 1 else word) else (s.path p).ptr } ∧
       t.path (otherPath p) = s.path (otherPath p) ∧
       t.bare = ({ s with pathA := t.pathA, pathB := t.pathB } : State).bare
     (∀ v : Word, exec (.registerWrite p 0x12 v) s =
       .next ((s.acked p 0x12).modPath p fun x => { x with evSel := v &&& 0xFFF })) ∧
     (∃ t, exec (.registerRead p 0x12 false ⟨0, 0, 0⟩) s = .next t ∧ readOf t false 0x12 (s.path p).evSel (s.path p).holdGen) ∧
     (∀ (word : BitVec 7) (seq : Bool) (f : Flips), word.toNat < 64 → word ≠ 6 → word ≠ 7 → word ≠ 8 → word ≠ 0x17 →
       ∃ t, exec (.registerRead p word seq f) s = .next t ∧
         readOf t seq word (s.directWord p word.toNat) (s.path p).holdGen) ∧
     (∀ (word : BitVec 7) (seq : Bool) (f : Flips) (b : Bank), 64 ≤ word.toNat →
       bankAt (s.path p).bankSel.toNat = some b → s.inView p = false →
       (let off := word.toNat - 64
        b.has off = true → b.posted off = false → b.vref off = none → b ≠ .time ∨ (s.path p).holdPps = none ∧ off ≠ 9 →
        ((b.group off).2 = 1 → ∃ t, exec (.registerRead p word seq f) s = .next t ∧
          readOf t seq word (s.liveWord p b off) (s.path p).holdGen) ∧
        ((b.group off).1 = off → 1 < (b.group off).2 → b.readRefs off = [] →
          ∃ t, exec (.registerRead p word seq f) s = .next t ∧
            readOf t seq word (s.liveWord p b off) (some (s.latchOf p b off
              ((List.range (b.group off).2).map fun i => s.liveWord p b (off + i))))) ∧
        (∀ ws w, (b.group off).1 ≠ off → (s.path p).holdGen = some (s.latchOf p b (b.group off).1 ws) →
          ws[off - (b.group off).1]? = some w → ∃ t, exec (.registerRead p word seq f) s = .next t ∧
            readOf t seq word w (s.path p).holdGen) ∧
        ((b.group off).1 ≠ off → s.latched p b off = none → ∃ t, exec (.registerRead p word seq f) s = .next t ∧
          readOf t seq word (s.liveWord p b off) (s.path p).holdGen))) ∧
     (∀ (word : BitVec 7) (v : Word), 64 ≤ word.toNat → bankAt (s.path p).bankSel.toNat = none →
       exec (.registerWrite p word v) s = .next (s.acked p word.toNat)) ∧
     (∀ (word : BitVec 7) (v : Word), 0x22 < word.toNat → word.toNat < 64 →
       exec (.registerWrite p word v) s = .next (s.acked p word.toNat)) ∧
     (∀ (word : BitVec 7) (v : Word) (b : Bank), s.dp.fatal = false → 64 ≤ word.toNat →
       bankAt (s.path p).bankSel.toNat = some b → b.has (word.toNat - 64) = true → b.posted (word.toNat - 64) = false →
       b.stages (word.toNat - 64) = true → exec (.registerWrite p word v) s =
         .next ((s.acked p word.toNat).modPath p fun x => x.stage b (word.toNat - 64) v)) ∧
     (let puts (b : Bank) (off : Nat) (v : Word) (u : State) : Prop :=
        (s.path p).bankSel.toNat = b.sel → s.mayWrite p b off →
          ∃ t, exec (.registerWrite p (BitVec.ofNat 7 (64 + off)) v) s = .next t ∧ s.hostFrame t u ∧
            ∀ r, ∀ e ∈ (t.path r).staging, e.bank = b → (b.group e.off).1 ≠ off
      let hi (b : Bank) (off : Nat) : Word := ((s.path p).staged b off).getD (s.heldWord p b off)
      ∀ v : Word,
       (∀ q : QId,
         (let x := s.qu q
          let b := Bank.queue q
          (∀ k : Fin 4, puts b (8 + 3 * k.val) v
            (s.setQu q (x.setThreshold k.val (hi b (10 + 3 * k.val) ++ hi b (9 + 3 * k.val) ++ v)))) ∧
          puts b 2 v (s.setQu q (x.putVoted 1 [v &&& 0x37FF, hi b 3 &&& 0x77FF])) ∧
          puts b 4 v (s.setQu q (x.putVoted 3 [v, hi b 5 &&& 0x1F])) ∧
          puts b 6 v (s.setQu q (x.putVoted 5 [v, hi b 7 &&& 0x7F])) ∧
          puts b 0x14 v (s.setQu q { x with ffres := v }) ∧ puts b 0x15 v (s.setQu q { x with afmode := v &&& 3 }) ∧
          puts b 0x16 v (s.setQu q { x with afttf := v }) ∧ puts b 0x17 v (s.setQu q { x with afalpha := v &&& 0x1FF }))) ∧
       (∀ (hi2 : Bool) (k : Fin 32), puts (.yard hi2) (2 * k.val) v
         (let e : Fin 64 := ⟨k.val + (if hi2 then 32 else 0), by split <;> omega⟩
          let high := VWord.of (hi (.yard hi2) (2 * k.val + 1) &&& 0x0F3F)
          { s with sy := (s.sy.set (2 * e.val) (VWord.of (v &&& 0xBF3F))).set (2 * e.val + 1) high })) ∧
       (s.agrees .floor → s.agrees .ceil → s.agrees .margin →
         (let then' (g : Gov) : State := { s with gov := if s.govRuns then g else g.renew }
          puts .gov 0 v (then' { s.gov with floor := VWord.of (v &&& 0xF) }) ∧
          puts .gov 1 v (then' { s.gov with ceil := VWord.of (v &&& 0xF) }) ∧
          puts .gov 2 v (then' { s.gov with margin := VWord.of (v &&& 0x3F) }))) ∧
       puts .gov 3 v { s with gov := { s.gov with mode := v &&& 0xF3 } } ∧
       puts .land 0 v { s with land := { s.land with rotmin := v &&& 0xFFF } } ∧
       puts .time 1 v { s with time := { s.time with stepth := v } } ∧
       puts .time 0x10 v (let u := s.applyUtc
                          { u with time := { u.time with utcNxt := v } }) ∧
       (let cal (c : Cal) : State := { s with cal := { c with bad := s.cal.bad && c.impossible } }
        puts .cal 0 v (cal { s.cal with year := v &&& 0x3FFF }) ∧ puts .cal 1 v (cal { s.cal with mon := v &&& 0xF }) ∧
        puts .cal 2 v (cal { s.cal with day := v &&& 0x1F }) ∧
        puts .cal 3 v (cal { s.cal with hmsL := v &&& 0x3F3F, hmsH := hi .cal 4 &&& 0x1F }) ∧
        puts .cal 8 v { s with cal := { s.cal with view := bit v 0 } })) ∧
     (∀ (word : BitVec 7) (v : Word) (b : Bank) (r : Nat), s.dp.fatal = false → s.eventsWf → 64 ≤ word.toNat →
       bankAt (s.path p).bankSel.toNat = some b → (∀ n, b ≠ .port n) →
       (let off := word.toNat - 64
        b.has off = true → b.posted off = false → b.stages off = false → s.lockAgrees b off → s.writeRefusal p b off = some r →
          ∃ t, exec (.registerWrite p word v) s = .next t ∧
            s.rejected t ⟨p, word.toNat, b.sel⟩ Ev.lockrej 0 r ∧ s.hostFrame t { s with events := t.events, dp := t.dp } ∧
            (t.path p).staging = (s.path p).staging.filter (fun e => !(e.bank == b && (b.group e.off).1 == off)) ∧
            (t.path (otherPath p)).staging = (s.path (otherPath p)).staging)) ∧
     (s.dp.fatal = true → s.eventsWf → ∀ (word : BitVec 7) (v : Word),
       (let refused := ∃ t, exec (.registerWrite p word v) s = .next t ∧
          s.rejected t ⟨p, word.toNat, (s.path p).bankSel.toNat⟩ Ev.lockrej 0 Reason.state ∧
          s.hostFrame t { s with events := t.events, dp := t.dp } ∧ ∀ r, (t.path r).staging = (s.path r).staging
        (word.toNat ≤ 0x22 → fatalOk word.toNat v = false → refused) ∧
        (∀ b, 64 ≤ word.toNat → bankAt (s.path p).bankSel.toNat = some b → (∀ n, b ≠ .port n) →
          b.has (word.toNat - 64) = true → b.posted (word.toNat - 64) = false → refused))))

/-- Until step 2 of start-up has completed, a path ignores every write and returns 0x0000 on every read. -/
def Obligations.AccessesBeforeStepTwo : Prop :=
  ∀ (p : Path) (s : State), s.pathAlive p = true → s.boot.stage < 3 →
    (∀ (word : BitVec 7) (v : Word), exec (.registerWrite p word v) s = .next (s.acked p word.toNat)) ∧
    (∀ (word : BitVec 7) (seq : Bool) (f : Flips), ∃ t, exec (.registerRead p word seq f) s = .next t ∧
      (t.path p).readData = 0 ∧ t.path (otherPath p) = s.path (otherPath p) ∧
      t.bare = ({ s with pathA := t.pathA, pathB := t.pathB } : State).bare)

/-- R456: a write to Pn:PSTS is ignored at the core, does not set DP:HSTS.BUSY and is not counted. -/
def Obligations.PstsWriteIgnored : Prop :=
  ∀ (p : Path) (n : PId) (v : Word) (s : State), s.writable p = true → (s.path p).bankSel.toNat = 0x10 + n.val →
    exec (.registerWrite p 66 v) s = .next (s.acked p 66)

/-- A posted write leaves BUSY set until it lands, when it has its effect: here on Pn:PCFG; one that lands in FATAL is discarded as LOCKREJ with reason STATE. A write that meets BUSY is
discarded with WDROP. Dropped after 1 ms a posted write counts WRSTALL and BUSY returns to 0. A posted read that is not
answered in time, or that path A's stall limit ends, returns 0x0000 and counts RDTO of its path. -/
def Obligations.PostedAccesses : Prop :=
  (∀ (p : Path) (n : PId) (v : Word) (s : State), s.noReads →
     (s.hostWrites p → (s.path p).bankSel.toNat = 0x10 + n.val →
       ((s.path p).posted = [] → ∃ t, exec (.registerWrite p 65 v) s = .next t ∧ (t.path p).busy = true ∧
         (t.path p).posted = [⟨.port n, 1, v, none, 0x10 + n.val, false⟩] ∧
         (t.path (otherPath p)).core = (s.path (otherPath p)).core ∧
         t.bare = ({ s with pathA := t.pathA, pathB := t.pathB } : State).bare) ∧
       (s.eventsWf → (s.path p).busy = true → ∃ t, exec (.registerWrite p 65 v) s = .next t ∧
         s.rejected t ⟨p, 65, 0x10 + n.val⟩ Ev.wdrop p.num Reason.busy ∧
         s.hostFrame t { s with dp := t.dp, events := t.events })) ∧
     (∀ sel, s.dp.fatal = false → (s.path p).posted = [⟨.port n, 1, v, none, sel, false⟩] → s.clockOn (.port n) = true →
       ∃ t, exec (.postedWriteLand p) s = .next t ∧ (t.path p).busy = false ∧ t.path p = { s.path p with posted := [] } ∧
         t.path (otherPath p) = s.path (otherPath p) ∧
         t.bare = ({ s.setPo n { s.po n with cfg := v &&& 0x1FFF } with pathA := t.pathA, pathB := t.pathB } : State).bare) ∧
     (∀ w, s.dp.fatal = true → s.eventsWf → (s.path p).posted = [w] → s.clockOn w.bank = true →
       ∃ t, exec (.postedWriteLand p) s = .next t ∧ (t.path p).busy = false ∧
         s.rejected t ⟨p, 64 + w.off, w.sel⟩ Ev.lockrej 0 Reason.state ∧
         t.path p = { s.path p with posted := [] } ∧ t.path (otherPath p) = s.path (otherPath p) ∧
         t.bare = ({ s with dp := t.dp, events := t.events, pathA := t.pathA, pathB := t.pathB } : State).bare) ∧
     (∀ w, s.eventsWf → (s.path p).posted = [w] → ∃ t, exec (.wrstall p) s = .next t ∧ (t.path p).busy = false ∧
       s.counted t Ev.wrstall p.num 1 ∧ t.path p = { s.path p with posted := [] } ∧
       t.path (otherPath p) = s.path (otherPath p) ∧
       t.bare = ({ s with events := t.events, pathA := t.pathA, pathB := t.pathB } : State).bare)) ∧
  (∀ (p : Path) (s : State), s.hostOn = true → s.eventsWf → (s.path p).readWait.isSome = true →
     (∃ t, exec (.rdto p) s = .next t ∧ t.path p = { s.path p with readData := 0, readWait := none } ∧
       s.counted t Ev.rdto p.num 1 ∧ t.path (otherPath p) = s.path (otherPath p) ∧
       t.bare = ({ s with events := t.events, pathA := t.pathA, pathB := t.pathB } : State).bare) ∧
     (p = .a → ∃ t, exec .stallLimit s = .next t ∧ t.path .a = { s.path .a with readData := 0, readWait := none } ∧
       s.counted t Ev.rdto 0 1 ∧ t.path .b = s.path .b ∧
       t.bare = ({ s with events := t.events, pathA := t.pathA, pathB := t.pathB } : State).bare))

/-- Path B's transactions: a write word acts as a register write, without a PEC or with the right one; with a PEC that
fails it is not acknowledged, discarded and counted; cut before its DH it is discarded without count. A sequential write
writes at rising addresses, whether or not it is cut inside a further word; set pointer sets the address alone; the PEC of a
read word is the CRC-8 of its five bytes, a sequential read has none; the alert response is answered while MALERT# is low. A
byte that Table 12.4 does not have where it comes is not acknowledged; that the write word it breaks writes nothing, and that
an address alone keeps the word address, is the model's choice (log 73). -/
def Obligations.PathBTransactions : Prop :=
  ∀ s : State, s.writable .b = true →
    (∀ (w : BitVec 7) (v : Word) (pec : Option (BitVec 8)), pec = none ∨ pec = some (s.pecOf w v) →
      ∃ t, exec (.smbusWriteWord w v pec .stop) s = .next t ∧ exec (.registerWrite .b w v) s = .next t) ∧
    (∀ (v : Word) (pec : Option (BitVec 8)), pec = none ∨ pec = some (s.pecOf 0x12 v) →
      exec (.smbusWriteWord 0x12 v pec .stop) s =
        .next { s with pathB := { s.pathB with evSel := v &&& 0xFFF, ack := true, ptr := 0x12 } }) ∧
    (∀ (w : BitVec 7) (v : Word) (c : BitVec 8), s.eventsWf → c ≠ s.pecOf w v →
      ∃ t, exec (.smbusWriteWord w v (some c) .stop) s = .next t ∧ s.counted t Ev.pecerr 0 1 ∧
        t = { s with pathB := { s.pathB with ack := false, ptr := w }, events := t.events }) ∧
    (∀ (w : BitVec 7) (v : Word) (c : Option (BitVec 8)),
      exec (.smbusWriteWord w v c .cut) s = .next { s with pathB := { s.pathB with ack := true, ptr := w } } ∧
      exec (.smbusWriteWord w v c .astray) s = .next { s with pathB := { s.pathB with ack := false, ptr := w } }) ∧
    (∀ (w : BitVec 7) (v : Word) (vs : List Word) (odd : Bool) (t : State),
      exec (.smbusWriteWord w v none .stop) s = .next t →
      exec (.sequentialWrite w (v :: vs) odd) s = exec (.sequentialWrite (w + 1) vs odd) t) ∧
    (∀ (w : BitVec 7) (odd : Bool),
      exec (.sequentialWrite w [] odd) s = .next { s with pathB := { s.pathB with ack := true, ptr := w } }) ∧
    (∀ (v0 v1 : Word) (odd : Bool), exec (.sequentialWrite 0x0C [v0, v1] odd) s = .next { s with
      pathB := { s.pathB with irq0 := v0 &&& 0x7FFF, irq1 := v1, ack := true, ptr := 0x0E } }) ∧
    (∀ (c : BitVec 8) (astray : Bool), exec (.setPointer (some c) astray) s =
      .next { s with pathB := { s.pathB with ack := !astray, ptr := c.truncate 7 } }) ∧
    (∀ astray : Bool, exec (.setPointer none astray) s = .next { s with pathB := { s.pathB with ack := !astray } }) ∧
    (∀ (w : BitVec 7) (f : Flips), ∃ t u, exec (.registerRead .b w false f) s = .next t ∧
      exec (.registerRead .b w true f) s = .next u ∧ t.pathB.ptr = w ∧ u.pathB.ptr = w + 1 ∧ t.pathB.ack = true ∧
      u.pathB.ack = true ∧ u.readPec = none ∧
      (let addr : BitVec 8 := BitVec.ofNat 8 (0x58 + s.boot.straps.maddr.toNat)
       t.readPec = some (crc8 [addr <<< 1, w.zeroExtend 8, (addr <<< 1) ||| 1, t.pathB.readData.extractLsb' 0 8,
         t.pathB.readData.extractLsb' 8 8]))) ∧
    (s.irqLine .b = true → exec .alertResponse s = .next { s with pathB := { s.pathB with
      ack := true, alertByte := BitVec.ofNat 8 (0x58 + s.boot.straps.maddr.toNat) } }) ∧
    (s.irqLine .b = false → exec .alertResponse s = .next { s with pathB := { s.pathB with ack := false } })

/-- A path's write to a lock register acquires a free lock and renews its own, its lease starting anew; frees its own
with 0x0000, start-up going on with steps 5 and 6 where it waited for DP:LOCKDRAM (log 63); anything else is discarded with LOCKREJ. A lease that runs out frees the lock with no event, drops the holder's
staging of CONFIG words, and clears HOLD with DP:LOCKDRAM, a held channel being swept at once under Carding's lock. A write to
a CONFIG field by a path that does not hold DP:LOCKCFG is discarded and captured with reason LOCK; after the seal every
such write is, with reason SEAL, whoever holds the lock. -/
def Obligations.LocksAndConfig : Prop :=
  (∀ (p : Path) (l : LockId) (s : State),
     (s.hostWrites p → s.agrees (.lock l) → (s.lock l).holder.val = 0 ∨ (s.lock l).holder.val = lockCode p →
       ∃ t, exec (.lockWrite p l (lockCode p)) s = .next t ∧
         t.lock l = ⟨VWord.of (lockCode p), s.time.ticks, (max 1 s.dp.lease.toNat) * 100000⟩ ∧
         (∀ k, k ≠ l → t.lock k = s.lock k) ∧ s.hostFrame t (s.setLock l (t.lock l))) ∧
     (s.hostWrites p → s.agrees (.lock l) → (s.lock l).holder.val = lockCode p → l = .dram → s.bootWaits = true →
       s.time.refclk = true → ∃ t, exec (.lockWrite p l 0) s = .next t ∧ t.boot.carding = true ∧
         (t.lock .dram).holder = VWord.of 3) ∧
     (s.hostWrites p → s.agrees (.lock l) → (s.lock l).holder.val = lockCode p →
       s.bootWaits = false ∨ (l ≠ .dram ∧ s.dramFree = false) →
       ∃ t, exec (.lockWrite p l 0) s = .next t ∧
       (t.lock l).holder = VWord.of 0 ∧ t.time = { s.time with arm := s.time.arm && l != .time } ∧
       (∀ k, k ≠ l → t.lock k = s.lock k) ∧ s.hostFrame t { s.setLock l (t.lock l) with time := t.time }) ∧
     (∀ v, s.hostWrites p → s.agrees (.lock l) → s.eventsWf →
       ¬(v = lockCode p ∧ ((s.lock l).holder.val = 0 ∨ (s.lock l).holder.val = lockCode p)) →
       ¬(v = 0 ∧ (s.lock l).holder.val = lockCode p) → ∃ t, exec (.lockWrite p l v) s = .next t ∧
         s.rejected t ⟨p, lockOff l, (s.path p).bankSel.toNat⟩ Ev.lockrej 0 Reason.lock ∧
         s.hostFrame t { s with dp := t.dp, events := t.events }) ∧
     (s.hostOn = true → s.bootWaits = false ∨ (l ≠ .dram ∧ s.dramFree = false) → s.holds p l = true → s.time.refclk = true →
       (s.lock l).since + (s.lock l).len ≤ s.time.ticks →
       ∃ t, exec (.leaseExpiry l) s = .next t ∧
         (t.lock l).holder = VWord.of (if l = .dram ∧ (∃ k, (s.ch k).hold = true ∧ (s.ch k).heldHost = true) then 3 else 0) ∧
         (∀ k, k ≠ l → t.lock k = s.lock k) ∧ t.time = { s.time with arm := s.time.arm && l != .time } ∧
         t.path p = (if l = .config then { s.path p with staging := (s.path p).staging.filter fun e => !e.isConfig }
           else s.path p) ∧ t.path (otherPath p) = s.path (otherPath p) ∧
         (∀ k, l ≠ .dram ∨ (s.ch k).hold = false → t.ch k = s.ch k) ∧
         (∀ k, l = .dram → (s.ch k).hold = true → (t.ch k).hold = false ∧ (t.ch k).holdReq = none ∧
           (t.ch k).heldHost = false ∧ ((s.ch k).heldHost = true → (t.ch k).sweeping = some .retrain ∧ (t.ch k).st = .drain)) ∧
         t.bare = ({ s.setLock l (t.lock l) with
           pathA := t.pathA, pathB := t.pathB, time := t.time, chans := t.chans, order := s.order + 1 } : State).bare)) ∧
  (∀ (p : Path) (v : Word) (s : State), s.hostWrites p → s.agrees (.lock .config) → s.eventsWf →
     (s.sealed = true ∨ s.holds p .config = false) →
     (∃ t, exec (.acfgWrite p v) s = .next t ∧
       s.rejected t ⟨p, 64, 0x30⟩ Ev.lockrej 0 (if s.sealed then Reason.sealed else Reason.lock) ∧
       s.hostFrame t { s with dp := t.dp, events := t.events }) ∧
     (∃ t, exec (.ainqWrite p v) s = .next t ∧
       s.rejected t ⟨p, 65, 0x30⟩ Ev.lockrej 0 (if s.sealed then Reason.sealed else Reason.lock) ∧
       s.hostFrame t { s with dp := t.dp, events := t.events }))

/-- DP:SEAL and DP:SLOTID are written once; a first write of DP:SEAL seals CONFIG exactly when it carries 0x5EA1;
a later write of either is discarded with WOREJ and reason WONCE. -/
def Obligations.WriteOnceWords : Prop :=
  ∀ (p : Path) (v : Word) (s : State), s.hostWrites p →
    (s.dp.sealDone = false → ∃ t, exec (.sealWrite p v) s = .next t ∧ t.dp = { s.dp with sealV := v, sealDone := true } ∧
      (t.sealed = true ↔ v = 0x5EA1) ∧ s.hostFrame t { s with dp := t.dp }) ∧
    (s.dp.slotDone = false → ∃ t, exec (.slotidWrite p v) s = .next t ∧
      s.hostFrame t { s with dp := { s.dp with slotId := v, slotDone := true } }) ∧
    (s.eventsWf → s.dp.sealDone = true → ∃ t, exec (.sealWrite p v) s = .next t ∧
      s.rejected t ⟨p, 0x1E, (s.path p).bankSel.toNat⟩ Ev.worej 0 Reason.wonce ∧ s.hostFrame t { s with dp := t.dp, events := t.events }) ∧
    (s.eventsWf → s.dp.slotDone = true → ∃ t, exec (.slotidWrite p v) s = .next t ∧
      s.rejected t ⟨p, 0x1F, (s.path p).bankSel.toNat⟩ Ev.worej 0 Reason.wonce ∧ s.hostFrame t { s with dp := t.dp, events := t.events })

/-- A write of 0 to DP:EVCNT sets EVCNT and EVACK of the selected class and instance to 0, a write of any other
value to it is ignored, and a write to DP:EVACK sets EVACK. -/
def Obligations.EventCounters : Prop :=
  ∀ (p : Path) (v : Word) (c i : Nat) (s : State), s.writable p = true → s.eventsWf → s.boot.warm = false →
    evSelected (s.path p).evSel = some (c, i) →
    (∃ t, exec (.evcntClear p) s = .next t ∧ (t.ev c i).cnt = 0 ∧ (t.ev c i).ack = 0 ∧
      (∀ c' i', evKey c' i' ≠ evKey c i → t.ev c' i' = s.ev c' i') ∧ s.hostFrame t { s with events := t.events }) ∧
    (v ≠ 0 → ∃ t, exec (.registerWrite p 0x13 v) s = .next t ∧ s.hostFrame t s) ∧
    (∃ t, exec (.evackWrite p v) s = .next t ∧ (t.ev c i).ack = v ∧ (t.ev c i).cnt = (s.ev c i).cnt ∧
      (∀ c' i', evKey c' i' ≠ evKey c i → t.ev c' i' = s.ev c' i') ∧ s.hostFrame t { s with events := t.events })

/-- R453: a write to Qn:QEVT, Pn:PERRCNT or Pn:PTAGMISS clears the counter when it writes 0, and any other value is
ignored. -/
def Obligations.CountersClear : Prop :=
  ∀ (p : Path) (v : Word) (s : State), s.noReads →
    (∀ q, s.mayWrite p (.queue q) 0x1B → ∃ t, exec (.counterClear p (.qevt q) v) s = .next t ∧
      s.hostFrame t (if v = 0 then s.setQu q { s.qu q with disc := 0 } else s)) ∧
    (∀ n, s.landsNow p (.port n) 3 → ∃ t, exec (.counterClear p (.perrcnt n) v) s = .next t ∧
      s.hostFrame t (if v = 0 then s.setPo n { s.po n with perrcnt := 0 } else s)) ∧
    (∀ n, s.landsNow p (.port n) 5 → ∃ t, exec (.counterClear p (.ptagmiss n) v) s = .next t ∧
      s.hostFrame t (if v = 0 then s.setPo n { s.po n with ptagmiss := 0 } else s))
end

