-- ==== Sys2Proof/Laws/Basic.lean ====
section
/-!
SUPPORT. Small facts about vectors, words and votes that the other lemma files rest on.
-/

namespace Sys2Proof.Machine

@[simp] theorem vmap_eq {α β : Type} {n : Nat} (f : α → β) (v : Vector α n) : vmap f v = v.map f := by
  ext i h
  simp [vmap]

@[simp] theorem VWord.of_val (w : Word) : (VWord.of w).val = w := by simp [VWord.val, VWord.of, VWord.majority]

theorem VWord.val_eq_of {v : VWord} {w : Word} (h : v = VWord.of w) : v.val = w := by simp [h]

end Sys2Proof.Machine
end

