-- ==== Sys2Proof/Laws/State.lean ====
section
/-!
SUPPORT. One lemma per field per update of the state, so that no proof unfolds a record update.
-/

namespace Sys2Proof.Machine

variable (s : State)

/-! ### setQu -/

@[simp] theorem State.setQu_boot (q : QId) (x : Queue) : (s.setQu q x).boot = s.boot := rfl
@[simp] theorem State.setQu_dp (q : QId) (x : Queue) : (s.setQu q x).dp = s.dp := rfl
@[simp] theorem State.setQu_pathA (q : QId) (x : Queue) : (s.setQu q x).pathA = s.pathA := rfl
@[simp] theorem State.setQu_pathB (q : QId) (x : Queue) : (s.setQu q x).pathB = s.pathB := rfl
@[simp] theorem State.setQu_events (q : QId) (x : Queue) : (s.setQu q x).events = s.events := rfl
@[simp] theorem State.setQu_time (q : QId) (x : Queue) : (s.setQu q x).time = s.time := rfl
@[simp] theorem State.setQu_cal (q : QId) (x : Queue) : (s.setQu q x).cal = s.cal := rfl
@[simp] theorem State.setQu_wins (q : QId) (x : Queue) : (s.setQu q x).wins = s.wins := rfl
@[simp] theorem State.setQu_gov (q : QId) (x : Queue) : (s.setQu q x).gov = s.gov := rfl
@[simp] theorem State.setQu_ports (q : QId) (x : Queue) : (s.setQu q x).ports = s.ports := rfl
@[simp] theorem State.setQu_sy (q : QId) (x : Queue) : (s.setQu q x).sy = s.sy := rfl
@[simp] theorem State.setQu_chans (q : QId) (x : Queue) : (s.setQu q x).chans = s.chans := rfl
@[simp] theorem State.setQu_azl (q : QId) (x : Queue) : (s.setQu q x).azl = s.azl := rfl
@[simp] theorem State.setQu_land (q : QId) (x : Queue) : (s.setQu q x).land = s.land := rfl
@[simp] theorem State.setQu_sampleTick (q : QId) (x : Queue) : (s.setQu q x).sampleTick = s.sampleTick := rfl
@[simp] theorem State.setQu_order (q : QId) (x : Queue) : (s.setQu q x).order = s.order := rfl
@[simp] theorem State.setQu_freeCtr (q : QId) (x : Queue) : (s.setQu q x).freeCtr = s.freeCtr := rfl
@[simp] theorem State.setQu_pending (q : QId) (x : Queue) : (s.setQu q x).pending = s.pending := rfl

/-! ### modQu -/

@[simp] theorem State.modQu_boot (q : QId) (g : Queue → Queue) : (s.modQu q g).boot = s.boot := rfl
@[simp] theorem State.modQu_dp (q : QId) (g : Queue → Queue) : (s.modQu q g).dp = s.dp := rfl
@[simp] theorem State.modQu_pathA (q : QId) (g : Queue → Queue) : (s.modQu q g).pathA = s.pathA := rfl
@[simp] theorem State.modQu_pathB (q : QId) (g : Queue → Queue) : (s.modQu q g).pathB = s.pathB := rfl
@[simp] theorem State.modQu_events (q : QId) (g : Queue → Queue) : (s.modQu q g).events = s.events := rfl
@[simp] theorem State.modQu_time (q : QId) (g : Queue → Queue) : (s.modQu q g).time = s.time := rfl
@[simp] theorem State.modQu_cal (q : QId) (g : Queue → Queue) : (s.modQu q g).cal = s.cal := rfl
@[simp] theorem State.modQu_wins (q : QId) (g : Queue → Queue) : (s.modQu q g).wins = s.wins := rfl
@[simp] theorem State.modQu_gov (q : QId) (g : Queue → Queue) : (s.modQu q g).gov = s.gov := rfl
@[simp] theorem State.modQu_ports (q : QId) (g : Queue → Queue) : (s.modQu q g).ports = s.ports := rfl
@[simp] theorem State.modQu_sy (q : QId) (g : Queue → Queue) : (s.modQu q g).sy = s.sy := rfl
@[simp] theorem State.modQu_chans (q : QId) (g : Queue → Queue) : (s.modQu q g).chans = s.chans := rfl
@[simp] theorem State.modQu_azl (q : QId) (g : Queue → Queue) : (s.modQu q g).azl = s.azl := rfl
@[simp] theorem State.modQu_land (q : QId) (g : Queue → Queue) : (s.modQu q g).land = s.land := rfl
@[simp] theorem State.modQu_sampleTick (q : QId) (g : Queue → Queue) : (s.modQu q g).sampleTick = s.sampleTick := rfl
@[simp] theorem State.modQu_order (q : QId) (g : Queue → Queue) : (s.modQu q g).order = s.order := rfl
@[simp] theorem State.modQu_freeCtr (q : QId) (g : Queue → Queue) : (s.modQu q g).freeCtr = s.freeCtr := rfl
@[simp] theorem State.modQu_pending (q : QId) (g : Queue → Queue) : (s.modQu q g).pending = s.pending := rfl

/-! ### setPo -/

@[simp] theorem State.setPo_boot (n : PId) (x : Port) : (s.setPo n x).boot = s.boot := rfl
@[simp] theorem State.setPo_dp (n : PId) (x : Port) : (s.setPo n x).dp = s.dp := rfl
@[simp] theorem State.setPo_pathA (n : PId) (x : Port) : (s.setPo n x).pathA = s.pathA := rfl
@[simp] theorem State.setPo_pathB (n : PId) (x : Port) : (s.setPo n x).pathB = s.pathB := rfl
@[simp] theorem State.setPo_events (n : PId) (x : Port) : (s.setPo n x).events = s.events := rfl
@[simp] theorem State.setPo_time (n : PId) (x : Port) : (s.setPo n x).time = s.time := rfl
@[simp] theorem State.setPo_cal (n : PId) (x : Port) : (s.setPo n x).cal = s.cal := rfl
@[simp] theorem State.setPo_wins (n : PId) (x : Port) : (s.setPo n x).wins = s.wins := rfl
@[simp] theorem State.setPo_gov (n : PId) (x : Port) : (s.setPo n x).gov = s.gov := rfl
@[simp] theorem State.setPo_queues (n : PId) (x : Port) : (s.setPo n x).queues = s.queues := rfl
@[simp] theorem State.setPo_sy (n : PId) (x : Port) : (s.setPo n x).sy = s.sy := rfl
@[simp] theorem State.setPo_chans (n : PId) (x : Port) : (s.setPo n x).chans = s.chans := rfl
@[simp] theorem State.setPo_azl (n : PId) (x : Port) : (s.setPo n x).azl = s.azl := rfl
@[simp] theorem State.setPo_land (n : PId) (x : Port) : (s.setPo n x).land = s.land := rfl
@[simp] theorem State.setPo_sampleTick (n : PId) (x : Port) : (s.setPo n x).sampleTick = s.sampleTick := rfl
@[simp] theorem State.setPo_order (n : PId) (x : Port) : (s.setPo n x).order = s.order := rfl
@[simp] theorem State.setPo_freeCtr (n : PId) (x : Port) : (s.setPo n x).freeCtr = s.freeCtr := rfl
@[simp] theorem State.setPo_pending (n : PId) (x : Port) : (s.setPo n x).pending = s.pending := rfl

/-! ### modPo -/

@[simp] theorem State.modPo_boot (n : PId) (g : Port → Port) : (s.modPo n g).boot = s.boot := rfl
@[simp] theorem State.modPo_dp (n : PId) (g : Port → Port) : (s.modPo n g).dp = s.dp := rfl
@[simp] theorem State.modPo_pathA (n : PId) (g : Port → Port) : (s.modPo n g).pathA = s.pathA := rfl
@[simp] theorem State.modPo_pathB (n : PId) (g : Port → Port) : (s.modPo n g).pathB = s.pathB := rfl
@[simp] theorem State.modPo_events (n : PId) (g : Port → Port) : (s.modPo n g).events = s.events := rfl
@[simp] theorem State.modPo_time (n : PId) (g : Port → Port) : (s.modPo n g).time = s.time := rfl
@[simp] theorem State.modPo_cal (n : PId) (g : Port → Port) : (s.modPo n g).cal = s.cal := rfl
@[simp] theorem State.modPo_wins (n : PId) (g : Port → Port) : (s.modPo n g).wins = s.wins := rfl
@[simp] theorem State.modPo_gov (n : PId) (g : Port → Port) : (s.modPo n g).gov = s.gov := rfl
@[simp] theorem State.modPo_queues (n : PId) (g : Port → Port) : (s.modPo n g).queues = s.queues := rfl
@[simp] theorem State.modPo_sy (n : PId) (g : Port → Port) : (s.modPo n g).sy = s.sy := rfl
@[simp] theorem State.modPo_chans (n : PId) (g : Port → Port) : (s.modPo n g).chans = s.chans := rfl
@[simp] theorem State.modPo_azl (n : PId) (g : Port → Port) : (s.modPo n g).azl = s.azl := rfl
@[simp] theorem State.modPo_land (n : PId) (g : Port → Port) : (s.modPo n g).land = s.land := rfl
@[simp] theorem State.modPo_sampleTick (n : PId) (g : Port → Port) : (s.modPo n g).sampleTick = s.sampleTick := rfl
@[simp] theorem State.modPo_order (n : PId) (g : Port → Port) : (s.modPo n g).order = s.order := rfl
@[simp] theorem State.modPo_freeCtr (n : PId) (g : Port → Port) : (s.modPo n g).freeCtr = s.freeCtr := rfl
@[simp] theorem State.modPo_pending (n : PId) (g : Port → Port) : (s.modPo n g).pending = s.pending := rfl

/-! ### setCh -/

@[simp] theorem State.setCh_boot (c : YId) (x : Chan) : (s.setCh c x).boot = s.boot := rfl
@[simp] theorem State.setCh_dp (c : YId) (x : Chan) : (s.setCh c x).dp = s.dp := rfl
@[simp] theorem State.setCh_pathA (c : YId) (x : Chan) : (s.setCh c x).pathA = s.pathA := rfl
@[simp] theorem State.setCh_pathB (c : YId) (x : Chan) : (s.setCh c x).pathB = s.pathB := rfl
@[simp] theorem State.setCh_events (c : YId) (x : Chan) : (s.setCh c x).events = s.events := rfl
@[simp] theorem State.setCh_time (c : YId) (x : Chan) : (s.setCh c x).time = s.time := rfl
@[simp] theorem State.setCh_cal (c : YId) (x : Chan) : (s.setCh c x).cal = s.cal := rfl
@[simp] theorem State.setCh_wins (c : YId) (x : Chan) : (s.setCh c x).wins = s.wins := rfl
@[simp] theorem State.setCh_gov (c : YId) (x : Chan) : (s.setCh c x).gov = s.gov := rfl
@[simp] theorem State.setCh_queues (c : YId) (x : Chan) : (s.setCh c x).queues = s.queues := rfl
@[simp] theorem State.setCh_ports (c : YId) (x : Chan) : (s.setCh c x).ports = s.ports := rfl
@[simp] theorem State.setCh_sy (c : YId) (x : Chan) : (s.setCh c x).sy = s.sy := rfl
@[simp] theorem State.setCh_azl (c : YId) (x : Chan) : (s.setCh c x).azl = s.azl := rfl
@[simp] theorem State.setCh_land (c : YId) (x : Chan) : (s.setCh c x).land = s.land := rfl
@[simp] theorem State.setCh_sampleTick (c : YId) (x : Chan) : (s.setCh c x).sampleTick = s.sampleTick := rfl
@[simp] theorem State.setCh_order (c : YId) (x : Chan) : (s.setCh c x).order = s.order := rfl
@[simp] theorem State.setCh_freeCtr (c : YId) (x : Chan) : (s.setCh c x).freeCtr = s.freeCtr := rfl
@[simp] theorem State.setCh_pending (c : YId) (x : Chan) : (s.setCh c x).pending = s.pending := rfl

/-! ### modCh -/

@[simp] theorem State.modCh_boot (c : YId) (g : Chan → Chan) : (s.modCh c g).boot = s.boot := rfl
@[simp] theorem State.modCh_dp (c : YId) (g : Chan → Chan) : (s.modCh c g).dp = s.dp := rfl
@[simp] theorem State.modCh_pathA (c : YId) (g : Chan → Chan) : (s.modCh c g).pathA = s.pathA := rfl
@[simp] theorem State.modCh_pathB (c : YId) (g : Chan → Chan) : (s.modCh c g).pathB = s.pathB := rfl
@[simp] theorem State.modCh_events (c : YId) (g : Chan → Chan) : (s.modCh c g).events = s.events := rfl
@[simp] theorem State.modCh_time (c : YId) (g : Chan → Chan) : (s.modCh c g).time = s.time := rfl
@[simp] theorem State.modCh_cal (c : YId) (g : Chan → Chan) : (s.modCh c g).cal = s.cal := rfl
@[simp] theorem State.modCh_wins (c : YId) (g : Chan → Chan) : (s.modCh c g).wins = s.wins := rfl
@[simp] theorem State.modCh_gov (c : YId) (g : Chan → Chan) : (s.modCh c g).gov = s.gov := rfl
@[simp] theorem State.modCh_queues (c : YId) (g : Chan → Chan) : (s.modCh c g).queues = s.queues := rfl
@[simp] theorem State.modCh_ports (c : YId) (g : Chan → Chan) : (s.modCh c g).ports = s.ports := rfl
@[simp] theorem State.modCh_sy (c : YId) (g : Chan → Chan) : (s.modCh c g).sy = s.sy := rfl
@[simp] theorem State.modCh_azl (c : YId) (g : Chan → Chan) : (s.modCh c g).azl = s.azl := rfl
@[simp] theorem State.modCh_land (c : YId) (g : Chan → Chan) : (s.modCh c g).land = s.land := rfl
@[simp] theorem State.modCh_sampleTick (c : YId) (g : Chan → Chan) : (s.modCh c g).sampleTick = s.sampleTick := rfl
@[simp] theorem State.modCh_order (c : YId) (g : Chan → Chan) : (s.modCh c g).order = s.order := rfl
@[simp] theorem State.modCh_freeCtr (c : YId) (g : Chan → Chan) : (s.modCh c g).freeCtr = s.freeCtr := rfl
@[simp] theorem State.modCh_pending (c : YId) (g : Chan → Chan) : (s.modCh c g).pending = s.pending := rfl

/-! ### setPath -/

@[simp] theorem State.setPath_boot (p : Path) (x : PathSt) : (s.setPath p x).boot = s.boot := by cases p <;> rfl
@[simp] theorem State.setPath_dp (p : Path) (x : PathSt) : (s.setPath p x).dp = s.dp := by cases p <;> rfl
@[simp] theorem State.setPath_events (p : Path) (x : PathSt) : (s.setPath p x).events = s.events := by cases p <;> rfl
@[simp] theorem State.setPath_time (p : Path) (x : PathSt) : (s.setPath p x).time = s.time := by cases p <;> rfl
@[simp] theorem State.setPath_cal (p : Path) (x : PathSt) : (s.setPath p x).cal = s.cal := by cases p <;> rfl
@[simp] theorem State.setPath_wins (p : Path) (x : PathSt) : (s.setPath p x).wins = s.wins := by cases p <;> rfl
@[simp] theorem State.setPath_gov (p : Path) (x : PathSt) : (s.setPath p x).gov = s.gov := by cases p <;> rfl
@[simp] theorem State.setPath_queues (p : Path) (x : PathSt) : (s.setPath p x).queues = s.queues := by cases p <;> rfl
@[simp] theorem State.setPath_ports (p : Path) (x : PathSt) : (s.setPath p x).ports = s.ports := by cases p <;> rfl
@[simp] theorem State.setPath_sy (p : Path) (x : PathSt) : (s.setPath p x).sy = s.sy := by cases p <;> rfl
@[simp] theorem State.setPath_chans (p : Path) (x : PathSt) : (s.setPath p x).chans = s.chans := by cases p <;> rfl
@[simp] theorem State.setPath_azl (p : Path) (x : PathSt) : (s.setPath p x).azl = s.azl := by cases p <;> rfl
@[simp] theorem State.setPath_land (p : Path) (x : PathSt) : (s.setPath p x).land = s.land := by cases p <;> rfl
@[simp] theorem State.setPath_sampleTick (p : Path) (x : PathSt) : (s.setPath p x).sampleTick = s.sampleTick := by cases p <;> rfl
@[simp] theorem State.setPath_order (p : Path) (x : PathSt) : (s.setPath p x).order = s.order := by cases p <;> rfl
@[simp] theorem State.setPath_freeCtr (p : Path) (x : PathSt) : (s.setPath p x).freeCtr = s.freeCtr := by cases p <;> rfl
@[simp] theorem State.setPath_pending (p : Path) (x : PathSt) : (s.setPath p x).pending = s.pending := by cases p <;> rfl

/-! ### modPath -/

@[simp] theorem State.modPath_boot (p : Path) (g : PathSt → PathSt) : (s.modPath p g).boot = s.boot := by cases p <;> rfl
@[simp] theorem State.modPath_dp (p : Path) (g : PathSt → PathSt) : (s.modPath p g).dp = s.dp := by cases p <;> rfl
@[simp] theorem State.modPath_events (p : Path) (g : PathSt → PathSt) : (s.modPath p g).events = s.events := by cases p <;> rfl
@[simp] theorem State.modPath_time (p : Path) (g : PathSt → PathSt) : (s.modPath p g).time = s.time := by cases p <;> rfl
@[simp] theorem State.modPath_cal (p : Path) (g : PathSt → PathSt) : (s.modPath p g).cal = s.cal := by cases p <;> rfl
@[simp] theorem State.modPath_wins (p : Path) (g : PathSt → PathSt) : (s.modPath p g).wins = s.wins := by cases p <;> rfl
@[simp] theorem State.modPath_gov (p : Path) (g : PathSt → PathSt) : (s.modPath p g).gov = s.gov := by cases p <;> rfl
@[simp] theorem State.modPath_queues (p : Path) (g : PathSt → PathSt) : (s.modPath p g).queues = s.queues := by cases p <;> rfl
@[simp] theorem State.modPath_ports (p : Path) (g : PathSt → PathSt) : (s.modPath p g).ports = s.ports := by cases p <;> rfl
@[simp] theorem State.modPath_sy (p : Path) (g : PathSt → PathSt) : (s.modPath p g).sy = s.sy := by cases p <;> rfl
@[simp] theorem State.modPath_chans (p : Path) (g : PathSt → PathSt) : (s.modPath p g).chans = s.chans := by cases p <;> rfl
@[simp] theorem State.modPath_azl (p : Path) (g : PathSt → PathSt) : (s.modPath p g).azl = s.azl := by cases p <;> rfl
@[simp] theorem State.modPath_land (p : Path) (g : PathSt → PathSt) : (s.modPath p g).land = s.land := by cases p <;> rfl
@[simp] theorem State.modPath_sampleTick (p : Path) (g : PathSt → PathSt) : (s.modPath p g).sampleTick = s.sampleTick := by cases p <;> rfl
@[simp] theorem State.modPath_order (p : Path) (g : PathSt → PathSt) : (s.modPath p g).order = s.order := by cases p <;> rfl
@[simp] theorem State.modPath_freeCtr (p : Path) (g : PathSt → PathSt) : (s.modPath p g).freeCtr = s.freeCtr := by cases p <;> rfl
@[simp] theorem State.modPath_pending (p : Path) (g : PathSt → PathSt) : (s.modPath p g).pending = s.pending := by cases p <;> rfl

/-! ### setWin -/

@[simp] theorem State.setWin_boot (j : Fin 16) (x : Window) : (s.setWin j x).boot = s.boot := rfl
@[simp] theorem State.setWin_dp (j : Fin 16) (x : Window) : (s.setWin j x).dp = s.dp := rfl
@[simp] theorem State.setWin_pathA (j : Fin 16) (x : Window) : (s.setWin j x).pathA = s.pathA := rfl
@[simp] theorem State.setWin_pathB (j : Fin 16) (x : Window) : (s.setWin j x).pathB = s.pathB := rfl
@[simp] theorem State.setWin_events (j : Fin 16) (x : Window) : (s.setWin j x).events = s.events := rfl
@[simp] theorem State.setWin_time (j : Fin 16) (x : Window) : (s.setWin j x).time = s.time := rfl
@[simp] theorem State.setWin_cal (j : Fin 16) (x : Window) : (s.setWin j x).cal = s.cal := rfl
@[simp] theorem State.setWin_gov (j : Fin 16) (x : Window) : (s.setWin j x).gov = s.gov := rfl
@[simp] theorem State.setWin_queues (j : Fin 16) (x : Window) : (s.setWin j x).queues = s.queues := rfl
@[simp] theorem State.setWin_ports (j : Fin 16) (x : Window) : (s.setWin j x).ports = s.ports := rfl
@[simp] theorem State.setWin_sy (j : Fin 16) (x : Window) : (s.setWin j x).sy = s.sy := rfl
@[simp] theorem State.setWin_chans (j : Fin 16) (x : Window) : (s.setWin j x).chans = s.chans := rfl
@[simp] theorem State.setWin_azl (j : Fin 16) (x : Window) : (s.setWin j x).azl = s.azl := rfl
@[simp] theorem State.setWin_land (j : Fin 16) (x : Window) : (s.setWin j x).land = s.land := rfl
@[simp] theorem State.setWin_sampleTick (j : Fin 16) (x : Window) : (s.setWin j x).sampleTick = s.sampleTick := rfl
@[simp] theorem State.setWin_order (j : Fin 16) (x : Window) : (s.setWin j x).order = s.order := rfl
@[simp] theorem State.setWin_freeCtr (j : Fin 16) (x : Window) : (s.setWin j x).freeCtr = s.freeCtr := rfl
@[simp] theorem State.setWin_pending (j : Fin 16) (x : Window) : (s.setWin j x).pending = s.pending := rfl

/-! ### demand -/

@[simp] theorem State.demand_boot (n : Nat) : (s.demand n).boot = s.boot := rfl
@[simp] theorem State.demand_dp (n : Nat) : (s.demand n).dp = s.dp := rfl
@[simp] theorem State.demand_pathA (n : Nat) : (s.demand n).pathA = s.pathA := rfl
@[simp] theorem State.demand_pathB (n : Nat) : (s.demand n).pathB = s.pathB := rfl
@[simp] theorem State.demand_events (n : Nat) : (s.demand n).events = s.events := rfl
@[simp] theorem State.demand_time (n : Nat) : (s.demand n).time = s.time := rfl
@[simp] theorem State.demand_cal (n : Nat) : (s.demand n).cal = s.cal := rfl
@[simp] theorem State.demand_wins (n : Nat) : (s.demand n).wins = s.wins := rfl
@[simp] theorem State.demand_queues (n : Nat) : (s.demand n).queues = s.queues := rfl
@[simp] theorem State.demand_ports (n : Nat) : (s.demand n).ports = s.ports := rfl
@[simp] theorem State.demand_sy (n : Nat) : (s.demand n).sy = s.sy := rfl
@[simp] theorem State.demand_chans (n : Nat) : (s.demand n).chans = s.chans := rfl
@[simp] theorem State.demand_azl (n : Nat) : (s.demand n).azl = s.azl := rfl
@[simp] theorem State.demand_land (n : Nat) : (s.demand n).land = s.land := rfl
@[simp] theorem State.demand_sampleTick (n : Nat) : (s.demand n).sampleTick = s.sampleTick := rfl
@[simp] theorem State.demand_order (n : Nat) : (s.demand n).order = s.order + 1 := rfl
@[simp] theorem State.demand_freeCtr (n : Nat) : (s.demand n).freeCtr = s.freeCtr := rfl
@[simp] theorem State.demand_pending (n : Nat) : (s.demand n).pending = s.pending := rfl

/-! ### nextOrder -/

@[simp] theorem State.nextOrder_boot : (s.nextOrder).boot = s.boot := rfl
@[simp] theorem State.nextOrder_dp : (s.nextOrder).dp = s.dp := rfl
@[simp] theorem State.nextOrder_pathA : (s.nextOrder).pathA = s.pathA := rfl
@[simp] theorem State.nextOrder_pathB : (s.nextOrder).pathB = s.pathB := rfl
@[simp] theorem State.nextOrder_events : (s.nextOrder).events = s.events := rfl
@[simp] theorem State.nextOrder_time : (s.nextOrder).time = s.time := rfl
@[simp] theorem State.nextOrder_cal : (s.nextOrder).cal = s.cal := rfl
@[simp] theorem State.nextOrder_wins : (s.nextOrder).wins = s.wins := rfl
@[simp] theorem State.nextOrder_gov : (s.nextOrder).gov = s.gov := rfl
@[simp] theorem State.nextOrder_queues : (s.nextOrder).queues = s.queues := rfl
@[simp] theorem State.nextOrder_ports : (s.nextOrder).ports = s.ports := rfl
@[simp] theorem State.nextOrder_sy : (s.nextOrder).sy = s.sy := rfl
@[simp] theorem State.nextOrder_chans : (s.nextOrder).chans = s.chans := rfl
@[simp] theorem State.nextOrder_azl : (s.nextOrder).azl = s.azl := rfl
@[simp] theorem State.nextOrder_land : (s.nextOrder).land = s.land := rfl
@[simp] theorem State.nextOrder_sampleTick : (s.nextOrder).sampleTick = s.sampleTick := rfl
@[simp] theorem State.nextOrder_freeCtr : (s.nextOrder).freeCtr = s.freeCtr := rfl
@[simp] theorem State.nextOrder_pending : (s.nextOrder).pending = s.pending := rfl

/-! ### setEv -/

@[simp] theorem State.setEv_boot (c i : Nat) (x : EvCell) : (s.setEv c i x).boot = s.boot := rfl
@[simp] theorem State.setEv_dp (c i : Nat) (x : EvCell) : (s.setEv c i x).dp = s.dp := rfl
@[simp] theorem State.setEv_pathA (c i : Nat) (x : EvCell) : (s.setEv c i x).pathA = s.pathA := rfl
@[simp] theorem State.setEv_pathB (c i : Nat) (x : EvCell) : (s.setEv c i x).pathB = s.pathB := rfl
@[simp] theorem State.setEv_time (c i : Nat) (x : EvCell) : (s.setEv c i x).time = s.time := rfl
@[simp] theorem State.setEv_cal (c i : Nat) (x : EvCell) : (s.setEv c i x).cal = s.cal := rfl
@[simp] theorem State.setEv_wins (c i : Nat) (x : EvCell) : (s.setEv c i x).wins = s.wins := rfl
@[simp] theorem State.setEv_gov (c i : Nat) (x : EvCell) : (s.setEv c i x).gov = s.gov := rfl
@[simp] theorem State.setEv_queues (c i : Nat) (x : EvCell) : (s.setEv c i x).queues = s.queues := rfl
@[simp] theorem State.setEv_ports (c i : Nat) (x : EvCell) : (s.setEv c i x).ports = s.ports := rfl
@[simp] theorem State.setEv_sy (c i : Nat) (x : EvCell) : (s.setEv c i x).sy = s.sy := rfl
@[simp] theorem State.setEv_chans (c i : Nat) (x : EvCell) : (s.setEv c i x).chans = s.chans := rfl
@[simp] theorem State.setEv_azl (c i : Nat) (x : EvCell) : (s.setEv c i x).azl = s.azl := rfl
@[simp] theorem State.setEv_land (c i : Nat) (x : EvCell) : (s.setEv c i x).land = s.land := rfl
@[simp] theorem State.setEv_sampleTick (c i : Nat) (x : EvCell) : (s.setEv c i x).sampleTick = s.sampleTick := rfl
@[simp] theorem State.setEv_order (c i : Nat) (x : EvCell) : (s.setEv c i x).order = s.order := rfl
@[simp] theorem State.setEv_freeCtr (c i : Nat) (x : EvCell) : (s.setEv c i x).freeCtr = s.freeCtr := rfl
@[simp] theorem State.setEv_pending (c i : Nat) (x : EvCell) : (s.setEv c i x).pending = s.pending := rfl

/-! ### countN -/

@[simp] theorem State.countN_boot (c i n : Nat) : (s.countN c i n).boot = s.boot := by unfold State.countN; split <;> rfl
@[simp] theorem State.countN_dp (c i n : Nat) : (s.countN c i n).dp = s.dp := by unfold State.countN; split <;> rfl
@[simp] theorem State.countN_pathA (c i n : Nat) : (s.countN c i n).pathA = s.pathA := by unfold State.countN; split <;> rfl
@[simp] theorem State.countN_pathB (c i n : Nat) : (s.countN c i n).pathB = s.pathB := by unfold State.countN; split <;> rfl
@[simp] theorem State.countN_time (c i n : Nat) : (s.countN c i n).time = s.time := by unfold State.countN; split <;> rfl
@[simp] theorem State.countN_cal (c i n : Nat) : (s.countN c i n).cal = s.cal := by unfold State.countN; split <;> rfl
@[simp] theorem State.countN_wins (c i n : Nat) : (s.countN c i n).wins = s.wins := by unfold State.countN; split <;> rfl
@[simp] theorem State.countN_gov (c i n : Nat) : (s.countN c i n).gov = s.gov := by unfold State.countN; split <;> rfl
@[simp] theorem State.countN_queues (c i n : Nat) : (s.countN c i n).queues = s.queues := by unfold State.countN; split <;> rfl
@[simp] theorem State.countN_ports (c i n : Nat) : (s.countN c i n).ports = s.ports := by unfold State.countN; split <;> rfl
@[simp] theorem State.countN_sy (c i n : Nat) : (s.countN c i n).sy = s.sy := by unfold State.countN; split <;> rfl
@[simp] theorem State.countN_chans (c i n : Nat) : (s.countN c i n).chans = s.chans := by unfold State.countN; split <;> rfl
@[simp] theorem State.countN_azl (c i n : Nat) : (s.countN c i n).azl = s.azl := by unfold State.countN; split <;> rfl
@[simp] theorem State.countN_land (c i n : Nat) : (s.countN c i n).land = s.land := by unfold State.countN; split <;> rfl
@[simp] theorem State.countN_sampleTick (c i n : Nat) : (s.countN c i n).sampleTick = s.sampleTick := by unfold State.countN; split <;> rfl
@[simp] theorem State.countN_order (c i n : Nat) : (s.countN c i n).order = s.order := by unfold State.countN; split <;> rfl
@[simp] theorem State.countN_freeCtr (c i n : Nat) : (s.countN c i n).freeCtr = s.freeCtr := by unfold State.countN; split <;> rfl
@[simp] theorem State.countN_pending (c i n : Nat) : (s.countN c i n).pending = s.pending := by unfold State.countN; split <;> rfl

/-! ### count -/

@[simp] theorem State.count_boot (c i : Nat) : (s.count c i).boot = s.boot := rfl
@[simp] theorem State.count_dp (c i : Nat) : (s.count c i).dp = s.dp := rfl
@[simp] theorem State.count_pathA (c i : Nat) : (s.count c i).pathA = s.pathA := rfl
@[simp] theorem State.count_pathB (c i : Nat) : (s.count c i).pathB = s.pathB := rfl
@[simp] theorem State.count_time (c i : Nat) : (s.count c i).time = s.time := rfl
@[simp] theorem State.count_cal (c i : Nat) : (s.count c i).cal = s.cal := rfl
@[simp] theorem State.count_wins (c i : Nat) : (s.count c i).wins = s.wins := rfl
@[simp] theorem State.count_gov (c i : Nat) : (s.count c i).gov = s.gov := rfl
@[simp] theorem State.count_queues (c i : Nat) : (s.count c i).queues = s.queues := rfl
@[simp] theorem State.count_ports (c i : Nat) : (s.count c i).ports = s.ports := rfl
@[simp] theorem State.count_sy (c i : Nat) : (s.count c i).sy = s.sy := rfl
@[simp] theorem State.count_chans (c i : Nat) : (s.count c i).chans = s.chans := rfl
@[simp] theorem State.count_azl (c i : Nat) : (s.count c i).azl = s.azl := rfl
@[simp] theorem State.count_land (c i : Nat) : (s.count c i).land = s.land := rfl
@[simp] theorem State.count_sampleTick (c i : Nat) : (s.count c i).sampleTick = s.sampleTick := rfl
@[simp] theorem State.count_order (c i : Nat) : (s.count c i).order = s.order := rfl
@[simp] theorem State.count_freeCtr (c i : Nat) : (s.count c i).freeCtr = s.freeCtr := rfl
@[simp] theorem State.count_pending (c i : Nat) : (s.count c i).pending = s.pending := rfl

/-! ### capture -/

@[simp] theorem State.capture_boot (a : Access) (c r : Nat) : (s.capture a c r).boot = s.boot := rfl
@[simp] theorem State.capture_pathA (a : Access) (c r : Nat) : (s.capture a c r).pathA = s.pathA := rfl
@[simp] theorem State.capture_pathB (a : Access) (c r : Nat) : (s.capture a c r).pathB = s.pathB := rfl
@[simp] theorem State.capture_events (a : Access) (c r : Nat) : (s.capture a c r).events = s.events := rfl
@[simp] theorem State.capture_time (a : Access) (c r : Nat) : (s.capture a c r).time = s.time := rfl
@[simp] theorem State.capture_cal (a : Access) (c r : Nat) : (s.capture a c r).cal = s.cal := rfl
@[simp] theorem State.capture_wins (a : Access) (c r : Nat) : (s.capture a c r).wins = s.wins := rfl
@[simp] theorem State.capture_gov (a : Access) (c r : Nat) : (s.capture a c r).gov = s.gov := rfl
@[simp] theorem State.capture_queues (a : Access) (c r : Nat) : (s.capture a c r).queues = s.queues := rfl
@[simp] theorem State.capture_ports (a : Access) (c r : Nat) : (s.capture a c r).ports = s.ports := rfl
@[simp] theorem State.capture_sy (a : Access) (c r : Nat) : (s.capture a c r).sy = s.sy := rfl
@[simp] theorem State.capture_chans (a : Access) (c r : Nat) : (s.capture a c r).chans = s.chans := rfl
@[simp] theorem State.capture_azl (a : Access) (c r : Nat) : (s.capture a c r).azl = s.azl := rfl
@[simp] theorem State.capture_land (a : Access) (c r : Nat) : (s.capture a c r).land = s.land := rfl
@[simp] theorem State.capture_sampleTick (a : Access) (c r : Nat) : (s.capture a c r).sampleTick = s.sampleTick := rfl
@[simp] theorem State.capture_order (a : Access) (c r : Nat) : (s.capture a c r).order = s.order := rfl
@[simp] theorem State.capture_freeCtr (a : Access) (c r : Nat) : (s.capture a c r).freeCtr = s.freeCtr := rfl
@[simp] theorem State.capture_pending (a : Access) (c r : Nat) : (s.capture a c r).pending = s.pending := rfl

/-! ### reject -/

@[simp] theorem State.reject_boot (a : Access) (c i r : Nat) : (s.reject a c i r).boot = s.boot := rfl
@[simp] theorem State.reject_pathA (a : Access) (c i r : Nat) : (s.reject a c i r).pathA = s.pathA := rfl
@[simp] theorem State.reject_pathB (a : Access) (c i r : Nat) : (s.reject a c i r).pathB = s.pathB := rfl
@[simp] theorem State.reject_time (a : Access) (c i r : Nat) : (s.reject a c i r).time = s.time := rfl
@[simp] theorem State.reject_cal (a : Access) (c i r : Nat) : (s.reject a c i r).cal = s.cal := rfl
@[simp] theorem State.reject_wins (a : Access) (c i r : Nat) : (s.reject a c i r).wins = s.wins := rfl
@[simp] theorem State.reject_gov (a : Access) (c i r : Nat) : (s.reject a c i r).gov = s.gov := rfl
@[simp] theorem State.reject_queues (a : Access) (c i r : Nat) : (s.reject a c i r).queues = s.queues := rfl
@[simp] theorem State.reject_ports (a : Access) (c i r : Nat) : (s.reject a c i r).ports = s.ports := rfl
@[simp] theorem State.reject_sy (a : Access) (c i r : Nat) : (s.reject a c i r).sy = s.sy := rfl
@[simp] theorem State.reject_chans (a : Access) (c i r : Nat) : (s.reject a c i r).chans = s.chans := rfl
@[simp] theorem State.reject_azl (a : Access) (c i r : Nat) : (s.reject a c i r).azl = s.azl := rfl
@[simp] theorem State.reject_land (a : Access) (c i r : Nat) : (s.reject a c i r).land = s.land := rfl
@[simp] theorem State.reject_sampleTick (a : Access) (c i r : Nat) : (s.reject a c i r).sampleTick = s.sampleTick := rfl
@[simp] theorem State.reject_order (a : Access) (c i r : Nat) : (s.reject a c i r).order = s.order := rfl
@[simp] theorem State.reject_freeCtr (a : Access) (c i r : Nat) : (s.reject a c i r).freeCtr = s.freeCtr := rfl
@[simp] theorem State.reject_pending (a : Access) (c i r : Nat) : (s.reject a c i r).pending = s.pending := rfl

/-! ### setLock -/

@[simp] theorem State.setLock_boot (l : LockId) (k : Lock) : (s.setLock l k).boot = s.boot := by cases l <;> rfl
@[simp] theorem State.setLock_pathA (l : LockId) (k : Lock) : (s.setLock l k).pathA = s.pathA := by cases l <;> rfl
@[simp] theorem State.setLock_pathB (l : LockId) (k : Lock) : (s.setLock l k).pathB = s.pathB := by cases l <;> rfl
@[simp] theorem State.setLock_events (l : LockId) (k : Lock) : (s.setLock l k).events = s.events := by cases l <;> rfl
@[simp] theorem State.setLock_time (l : LockId) (k : Lock) : (s.setLock l k).time = s.time := by cases l <;> rfl
@[simp] theorem State.setLock_cal (l : LockId) (k : Lock) : (s.setLock l k).cal = s.cal := by cases l <;> rfl
@[simp] theorem State.setLock_wins (l : LockId) (k : Lock) : (s.setLock l k).wins = s.wins := by cases l <;> rfl
@[simp] theorem State.setLock_gov (l : LockId) (k : Lock) : (s.setLock l k).gov = s.gov := by cases l <;> rfl
@[simp] theorem State.setLock_queues (l : LockId) (k : Lock) : (s.setLock l k).queues = s.queues := by cases l <;> rfl
@[simp] theorem State.setLock_ports (l : LockId) (k : Lock) : (s.setLock l k).ports = s.ports := by cases l <;> rfl
@[simp] theorem State.setLock_sy (l : LockId) (k : Lock) : (s.setLock l k).sy = s.sy := by cases l <;> rfl
@[simp] theorem State.setLock_chans (l : LockId) (k : Lock) : (s.setLock l k).chans = s.chans := by cases l <;> rfl
@[simp] theorem State.setLock_azl (l : LockId) (k : Lock) : (s.setLock l k).azl = s.azl := by cases l <;> rfl
@[simp] theorem State.setLock_land (l : LockId) (k : Lock) : (s.setLock l k).land = s.land := by cases l <;> rfl
@[simp] theorem State.setLock_sampleTick (l : LockId) (k : Lock) : (s.setLock l k).sampleTick = s.sampleTick := by cases l <;> rfl
@[simp] theorem State.setLock_order (l : LockId) (k : Lock) : (s.setLock l k).order = s.order := by cases l <;> rfl
@[simp] theorem State.setLock_freeCtr (l : LockId) (k : Lock) : (s.setLock l k).freeCtr = s.freeCtr := by cases l <;> rfl
@[simp] theorem State.setLock_pending (l : LockId) (k : Lock) : (s.setLock l k).pending = s.pending := by cases l <;> rfl

/-! ### takeLock -/

@[simp] theorem State.takeLock_boot (l : LockId) (k : Word) : (s.takeLock l k).boot = s.boot := by cases l <;> rfl
@[simp] theorem State.takeLock_pathA (l : LockId) (k : Word) : (s.takeLock l k).pathA = s.pathA := by cases l <;> rfl
@[simp] theorem State.takeLock_pathB (l : LockId) (k : Word) : (s.takeLock l k).pathB = s.pathB := by cases l <;> rfl
@[simp] theorem State.takeLock_events (l : LockId) (k : Word) : (s.takeLock l k).events = s.events := by cases l <;> rfl
@[simp] theorem State.takeLock_time (l : LockId) (k : Word) : (s.takeLock l k).time = s.time := by cases l <;> rfl
@[simp] theorem State.takeLock_cal (l : LockId) (k : Word) : (s.takeLock l k).cal = s.cal := by cases l <;> rfl
@[simp] theorem State.takeLock_wins (l : LockId) (k : Word) : (s.takeLock l k).wins = s.wins := by cases l <;> rfl
@[simp] theorem State.takeLock_gov (l : LockId) (k : Word) : (s.takeLock l k).gov = s.gov := by cases l <;> rfl
@[simp] theorem State.takeLock_queues (l : LockId) (k : Word) : (s.takeLock l k).queues = s.queues := by cases l <;> rfl
@[simp] theorem State.takeLock_ports (l : LockId) (k : Word) : (s.takeLock l k).ports = s.ports := by cases l <;> rfl
@[simp] theorem State.takeLock_sy (l : LockId) (k : Word) : (s.takeLock l k).sy = s.sy := by cases l <;> rfl
@[simp] theorem State.takeLock_chans (l : LockId) (k : Word) : (s.takeLock l k).chans = s.chans := by cases l <;> rfl
@[simp] theorem State.takeLock_azl (l : LockId) (k : Word) : (s.takeLock l k).azl = s.azl := by cases l <;> rfl
@[simp] theorem State.takeLock_land (l : LockId) (k : Word) : (s.takeLock l k).land = s.land := by cases l <;> rfl
@[simp] theorem State.takeLock_sampleTick (l : LockId) (k : Word) : (s.takeLock l k).sampleTick = s.sampleTick := by cases l <;> rfl
@[simp] theorem State.takeLock_order (l : LockId) (k : Word) : (s.takeLock l k).order = s.order := by cases l <;> rfl
@[simp] theorem State.takeLock_freeCtr (l : LockId) (k : Word) : (s.takeLock l k).freeCtr = s.freeCtr := by cases l <;> rfl
@[simp] theorem State.takeLock_pending (l : LockId) (k : Word) : (s.takeLock l k).pending = s.pending := by cases l <;> rfl

/-! ### freeLock -/

@[simp] theorem State.freeLock_boot (l : LockId) : (s.freeLock l).boot = s.boot := by cases l <;> rfl
@[simp] theorem State.freeLock_pathA (l : LockId) : (s.freeLock l).pathA = s.pathA := by cases l <;> rfl
@[simp] theorem State.freeLock_pathB (l : LockId) : (s.freeLock l).pathB = s.pathB := by cases l <;> rfl
@[simp] theorem State.freeLock_events (l : LockId) : (s.freeLock l).events = s.events := by cases l <;> rfl
@[simp] theorem State.freeLock_cal (l : LockId) : (s.freeLock l).cal = s.cal := by cases l <;> rfl
@[simp] theorem State.freeLock_wins (l : LockId) : (s.freeLock l).wins = s.wins := by cases l <;> rfl
@[simp] theorem State.freeLock_gov (l : LockId) : (s.freeLock l).gov = s.gov := by cases l <;> rfl
@[simp] theorem State.freeLock_queues (l : LockId) : (s.freeLock l).queues = s.queues := by cases l <;> rfl
@[simp] theorem State.freeLock_ports (l : LockId) : (s.freeLock l).ports = s.ports := by cases l <;> rfl
@[simp] theorem State.freeLock_sy (l : LockId) : (s.freeLock l).sy = s.sy := by cases l <;> rfl
@[simp] theorem State.freeLock_chans (l : LockId) : (s.freeLock l).chans = s.chans := by cases l <;> rfl
@[simp] theorem State.freeLock_azl (l : LockId) : (s.freeLock l).azl = s.azl := by cases l <;> rfl
@[simp] theorem State.freeLock_land (l : LockId) : (s.freeLock l).land = s.land := by cases l <;> rfl
@[simp] theorem State.freeLock_sampleTick (l : LockId) : (s.freeLock l).sampleTick = s.sampleTick := by cases l <;> rfl
@[simp] theorem State.freeLock_order (l : LockId) : (s.freeLock l).order = s.order := by cases l <;> rfl
@[simp] theorem State.freeLock_freeCtr (l : LockId) : (s.freeLock l).freeCtr = s.freeCtr := by cases l <;> rfl
@[simp] theorem State.freeLock_pending (l : LockId) : (s.freeLock l).pending = s.pending := by cases l <;> rfl

/-! ### setOut -/

@[simp] theorem State.setOut_boot (x : OutLink) : (s.setOut x).boot = s.boot := rfl
@[simp] theorem State.setOut_dp (x : OutLink) : (s.setOut x).dp = s.dp := rfl
@[simp] theorem State.setOut_pathA (x : OutLink) : (s.setOut x).pathA = s.pathA := rfl
@[simp] theorem State.setOut_pathB (x : OutLink) : (s.setOut x).pathB = s.pathB := rfl
@[simp] theorem State.setOut_events (x : OutLink) : (s.setOut x).events = s.events := rfl
@[simp] theorem State.setOut_time (x : OutLink) : (s.setOut x).time = s.time := rfl
@[simp] theorem State.setOut_cal (x : OutLink) : (s.setOut x).cal = s.cal := rfl
@[simp] theorem State.setOut_wins (x : OutLink) : (s.setOut x).wins = s.wins := rfl
@[simp] theorem State.setOut_gov (x : OutLink) : (s.setOut x).gov = s.gov := rfl
@[simp] theorem State.setOut_queues (x : OutLink) : (s.setOut x).queues = s.queues := rfl
@[simp] theorem State.setOut_ports (x : OutLink) : (s.setOut x).ports = s.ports := rfl
@[simp] theorem State.setOut_sy (x : OutLink) : (s.setOut x).sy = s.sy := rfl
@[simp] theorem State.setOut_chans (x : OutLink) : (s.setOut x).chans = s.chans := rfl
@[simp] theorem State.setOut_land (x : OutLink) : (s.setOut x).land = s.land := rfl
@[simp] theorem State.setOut_sampleTick (x : OutLink) : (s.setOut x).sampleTick = s.sampleTick := rfl
@[simp] theorem State.setOut_order (x : OutLink) : (s.setOut x).order = s.order := rfl
@[simp] theorem State.setOut_freeCtr (x : OutLink) : (s.setOut x).freeCtr = s.freeCtr := rfl
@[simp] theorem State.setOut_pending (x : OutLink) : (s.setOut x).pending = s.pending := rfl

/-! ### setIn -/

@[simp] theorem State.setIn_boot (x : InLink) : (s.setIn x).boot = s.boot := rfl
@[simp] theorem State.setIn_dp (x : InLink) : (s.setIn x).dp = s.dp := rfl
@[simp] theorem State.setIn_pathA (x : InLink) : (s.setIn x).pathA = s.pathA := rfl
@[simp] theorem State.setIn_pathB (x : InLink) : (s.setIn x).pathB = s.pathB := rfl
@[simp] theorem State.setIn_events (x : InLink) : (s.setIn x).events = s.events := rfl
@[simp] theorem State.setIn_time (x : InLink) : (s.setIn x).time = s.time := rfl
@[simp] theorem State.setIn_cal (x : InLink) : (s.setIn x).cal = s.cal := rfl
@[simp] theorem State.setIn_wins (x : InLink) : (s.setIn x).wins = s.wins := rfl
@[simp] theorem State.setIn_gov (x : InLink) : (s.setIn x).gov = s.gov := rfl
@[simp] theorem State.setIn_queues (x : InLink) : (s.setIn x).queues = s.queues := rfl
@[simp] theorem State.setIn_ports (x : InLink) : (s.setIn x).ports = s.ports := rfl
@[simp] theorem State.setIn_sy (x : InLink) : (s.setIn x).sy = s.sy := rfl
@[simp] theorem State.setIn_chans (x : InLink) : (s.setIn x).chans = s.chans := rfl
@[simp] theorem State.setIn_land (x : InLink) : (s.setIn x).land = s.land := rfl
@[simp] theorem State.setIn_sampleTick (x : InLink) : (s.setIn x).sampleTick = s.sampleTick := rfl
@[simp] theorem State.setIn_order (x : InLink) : (s.setIn x).order = s.order := rfl
@[simp] theorem State.setIn_freeCtr (x : InLink) : (s.setIn x).freeCtr = s.freeCtr := rfl
@[simp] theorem State.setIn_pending (x : InLink) : (s.setIn x).pending = s.pending := rfl

/-! ### setSupply -/

@[simp] theorem State.setSupply_dp (x : Supply) (ok : Bool) : (s.setSupply x ok).dp = s.dp := rfl
@[simp] theorem State.setSupply_pathA (x : Supply) (ok : Bool) : (s.setSupply x ok).pathA = s.pathA := rfl
@[simp] theorem State.setSupply_pathB (x : Supply) (ok : Bool) : (s.setSupply x ok).pathB = s.pathB := rfl
@[simp] theorem State.setSupply_events (x : Supply) (ok : Bool) : (s.setSupply x ok).events = s.events := rfl
@[simp] theorem State.setSupply_time (x : Supply) (ok : Bool) : (s.setSupply x ok).time = s.time := rfl
@[simp] theorem State.setSupply_cal (x : Supply) (ok : Bool) : (s.setSupply x ok).cal = s.cal := rfl
@[simp] theorem State.setSupply_wins (x : Supply) (ok : Bool) : (s.setSupply x ok).wins = s.wins := rfl
@[simp] theorem State.setSupply_gov (x : Supply) (ok : Bool) : (s.setSupply x ok).gov = s.gov := rfl
@[simp] theorem State.setSupply_queues (x : Supply) (ok : Bool) : (s.setSupply x ok).queues = s.queues := rfl
@[simp] theorem State.setSupply_ports (x : Supply) (ok : Bool) : (s.setSupply x ok).ports = s.ports := rfl
@[simp] theorem State.setSupply_sy (x : Supply) (ok : Bool) : (s.setSupply x ok).sy = s.sy := rfl
@[simp] theorem State.setSupply_chans (x : Supply) (ok : Bool) : (s.setSupply x ok).chans = s.chans := rfl
@[simp] theorem State.setSupply_azl (x : Supply) (ok : Bool) : (s.setSupply x ok).azl = s.azl := rfl
@[simp] theorem State.setSupply_land (x : Supply) (ok : Bool) : (s.setSupply x ok).land = s.land := rfl
@[simp] theorem State.setSupply_sampleTick (x : Supply) (ok : Bool) : (s.setSupply x ok).sampleTick = s.sampleTick := rfl
@[simp] theorem State.setSupply_order (x : Supply) (ok : Bool) : (s.setSupply x ok).order = s.order := rfl
@[simp] theorem State.setSupply_freeCtr (x : Supply) (ok : Bool) : (s.setSupply x ok).freeCtr = s.freeCtr := rfl
@[simp] theorem State.setSupply_pending (x : Supply) (ok : Bool) : (s.setSupply x ok).pending = s.pending := rfl

/-! ### Reading back what an update wrote -/

@[simp] theorem State.setQu_qu (i : QId) (x : Queue) : (s.setQu i x).qu i = x := by
  simp [State.setQu, State.qu]
theorem State.setQu_qu_ne (i j : QId) (x : Queue) (h : j ≠ i) : (s.setQu i x).qu j = s.qu j := by
  have : i.val ≠ j.val := fun e => h (Fin.ext e.symm)
  simp [State.setQu, State.qu, this]
@[simp] theorem State.modQu_qu (i : QId) (g : Queue → Queue) : (s.modQu i g).qu i = g (s.qu i) := by
  simp [State.modQu]
theorem State.modQu_qu_ne (i j : QId) (g : Queue → Queue) (h : j ≠ i) : (s.modQu i g).qu j = s.qu j :=
  s.setQu_qu_ne i j _ h
theorem State.modQu_qu_if (i j : QId) (g : Queue → Queue) :
    (s.modQu i g).qu j = if j = i then g (s.qu j) else s.qu j := by
  by_cases h : j = i
  · subst h; simp
  · simp [h, s.modQu_qu_ne i j g h]
@[simp] theorem State.setPo_po (i : PId) (x : Port) : (s.setPo i x).po i = x := by
  simp [State.setPo, State.po]
theorem State.setPo_po_ne (i j : PId) (x : Port) (h : j ≠ i) : (s.setPo i x).po j = s.po j := by
  have : i.val ≠ j.val := fun e => h (Fin.ext e.symm)
  simp [State.setPo, State.po, this]
@[simp] theorem State.modPo_po (i : PId) (g : Port → Port) : (s.modPo i g).po i = g (s.po i) := by
  simp [State.modPo]
theorem State.modPo_po_ne (i j : PId) (g : Port → Port) (h : j ≠ i) : (s.modPo i g).po j = s.po j :=
  s.setPo_po_ne i j _ h
theorem State.modPo_po_if (i j : PId) (g : Port → Port) :
    (s.modPo i g).po j = if j = i then g (s.po j) else s.po j := by
  by_cases h : j = i
  · subst h; simp
  · simp [h, s.modPo_po_ne i j g h]
@[simp] theorem State.setCh_ch (i : YId) (x : Chan) : (s.setCh i x).ch i = x := by
  simp [State.setCh, State.ch]
theorem State.setCh_ch_ne (i j : YId) (x : Chan) (h : j ≠ i) : (s.setCh i x).ch j = s.ch j := by
  have : i.val ≠ j.val := fun e => h (Fin.ext e.symm)
  simp [State.setCh, State.ch, this]
@[simp] theorem State.modCh_ch (i : YId) (g : Chan → Chan) : (s.modCh i g).ch i = g (s.ch i) := by
  simp [State.modCh]
theorem State.modCh_ch_ne (i j : YId) (g : Chan → Chan) (h : j ≠ i) : (s.modCh i g).ch j = s.ch j :=
  s.setCh_ch_ne i j _ h
theorem State.modCh_ch_if (i j : YId) (g : Chan → Chan) :
    (s.modCh i g).ch j = if j = i then g (s.ch j) else s.ch j := by
  by_cases h : j = i
  · subst h; simp
  · simp [h, s.modCh_ch_ne i j g h]
@[simp] theorem State.setWin_win (i : Fin 16) (x : Window) : (s.setWin i x).win i = x := by
  simp [State.setWin, State.win]
theorem State.setWin_win_ne (i j : Fin 16) (x : Window) (h : j ≠ i) : (s.setWin i x).win j = s.win j := by
  have : i.val ≠ j.val := fun e => h (Fin.ext e.symm)
  simp [State.setWin, State.win, this]

@[simp] theorem State.setPath_path (p : Path) (x : PathSt) : (s.setPath p x).path p = x := by cases p <;> rfl
theorem State.setPath_path_ne (p r : Path) (x : PathSt) (h : r ≠ p) : (s.setPath p x).path r = s.path r := by
  cases p <;> cases r <;> first | rfl | exact absurd rfl h
@[simp] theorem State.modPath_path (p : Path) (g : PathSt → PathSt) : (s.modPath p g).path p = g (s.path p) := by
  cases p <;> rfl
theorem State.modPath_path_ne (p r : Path) (g : PathSt → PathSt) (h : r ≠ p) : (s.modPath p g).path r = s.path r := by
  cases p <;> cases r <;> first | rfl | exact absurd rfl h
@[simp] theorem State.setLock_lock (l : LockId) (k : Lock) : (s.setLock l k).lock l = k := by cases l <;> rfl
theorem State.setLock_lock_ne (l m : LockId) (k : Lock) (h : m ≠ l) : (s.setLock l k).lock m = s.lock m := by
  cases l <;> cases m <;> first | rfl | exact absurd rfl h
@[simp] theorem State.freeLock_lock (l : LockId) : (s.freeLock l).lock l = Lock.free := by cases l <;> rfl
theorem State.freeLock_lock_ne (l m : LockId) (h : m ≠ l) : (s.freeLock l).lock m = s.lock m := by
  cases l <;> cases m <;> first | rfl | exact absurd rfl h

/-! ### An accessor looks at its own field alone -/

@[simp] theorem State.setQu_po_frame (q : QId) (x : Queue) (i : PId) : (s.setQu q x).po i = s.po i := rfl
@[simp] theorem State.setQu_ch_frame (q : QId) (x : Queue) (i : YId) : (s.setQu q x).ch i = s.ch i := rfl
@[simp] theorem State.setQu_win_frame (q : QId) (x : Queue) (i : Fin 16) : (s.setQu q x).win i = s.win i := rfl
@[simp] theorem State.setQu_path_frame (q : QId) (x : Queue) (i : Path) : (s.setQu q x).path i = s.path i := by cases i <;> rfl
@[simp] theorem State.setQu_lock_frame (q : QId) (x : Queue) (i : LockId) : (s.setQu q x).lock i = s.lock i := by cases i <;> rfl
@[simp] theorem State.modQu_po_frame (q : QId) (g : Queue → Queue) (i : PId) : (s.modQu q g).po i = s.po i := rfl
@[simp] theorem State.modQu_ch_frame (q : QId) (g : Queue → Queue) (i : YId) : (s.modQu q g).ch i = s.ch i := rfl
@[simp] theorem State.modQu_win_frame (q : QId) (g : Queue → Queue) (i : Fin 16) : (s.modQu q g).win i = s.win i := rfl
@[simp] theorem State.modQu_path_frame (q : QId) (g : Queue → Queue) (i : Path) : (s.modQu q g).path i = s.path i := by cases i <;> rfl
@[simp] theorem State.modQu_lock_frame (q : QId) (g : Queue → Queue) (i : LockId) : (s.modQu q g).lock i = s.lock i := by cases i <;> rfl
@[simp] theorem State.setPo_qu_frame (n : PId) (x : Port) (i : QId) : (s.setPo n x).qu i = s.qu i := rfl
@[simp] theorem State.setPo_ch_frame (n : PId) (x : Port) (i : YId) : (s.setPo n x).ch i = s.ch i := rfl
@[simp] theorem State.setPo_win_frame (n : PId) (x : Port) (i : Fin 16) : (s.setPo n x).win i = s.win i := rfl
@[simp] theorem State.setPo_path_frame (n : PId) (x : Port) (i : Path) : (s.setPo n x).path i = s.path i := by cases i <;> rfl
@[simp] theorem State.setPo_lock_frame (n : PId) (x : Port) (i : LockId) : (s.setPo n x).lock i = s.lock i := by cases i <;> rfl
@[simp] theorem State.modPo_qu_frame (n : PId) (g : Port → Port) (i : QId) : (s.modPo n g).qu i = s.qu i := rfl
@[simp] theorem State.modPo_ch_frame (n : PId) (g : Port → Port) (i : YId) : (s.modPo n g).ch i = s.ch i := rfl
@[simp] theorem State.modPo_win_frame (n : PId) (g : Port → Port) (i : Fin 16) : (s.modPo n g).win i = s.win i := rfl
@[simp] theorem State.modPo_path_frame (n : PId) (g : Port → Port) (i : Path) : (s.modPo n g).path i = s.path i := by cases i <;> rfl
@[simp] theorem State.modPo_lock_frame (n : PId) (g : Port → Port) (i : LockId) : (s.modPo n g).lock i = s.lock i := by cases i <;> rfl
@[simp] theorem State.setCh_qu_frame (c : YId) (x : Chan) (i : QId) : (s.setCh c x).qu i = s.qu i := rfl
@[simp] theorem State.setCh_po_frame (c : YId) (x : Chan) (i : PId) : (s.setCh c x).po i = s.po i := rfl
@[simp] theorem State.setCh_win_frame (c : YId) (x : Chan) (i : Fin 16) : (s.setCh c x).win i = s.win i := rfl
@[simp] theorem State.setCh_path_frame (c : YId) (x : Chan) (i : Path) : (s.setCh c x).path i = s.path i := by cases i <;> rfl
@[simp] theorem State.setCh_lock_frame (c : YId) (x : Chan) (i : LockId) : (s.setCh c x).lock i = s.lock i := by cases i <;> rfl
@[simp] theorem State.modCh_qu_frame (c : YId) (g : Chan → Chan) (i : QId) : (s.modCh c g).qu i = s.qu i := rfl
@[simp] theorem State.modCh_po_frame (c : YId) (g : Chan → Chan) (i : PId) : (s.modCh c g).po i = s.po i := rfl
@[simp] theorem State.modCh_win_frame (c : YId) (g : Chan → Chan) (i : Fin 16) : (s.modCh c g).win i = s.win i := rfl
@[simp] theorem State.modCh_path_frame (c : YId) (g : Chan → Chan) (i : Path) : (s.modCh c g).path i = s.path i := by cases i <;> rfl
@[simp] theorem State.modCh_lock_frame (c : YId) (g : Chan → Chan) (i : LockId) : (s.modCh c g).lock i = s.lock i := by cases i <;> rfl
@[simp] theorem State.modPath_qu_frame (p : Path) (g : PathSt → PathSt) (i : QId) : (s.modPath p g).qu i = s.qu i := by cases p <;> rfl
@[simp] theorem State.modPath_po_frame (p : Path) (g : PathSt → PathSt) (i : PId) : (s.modPath p g).po i = s.po i := by cases p <;> rfl
@[simp] theorem State.modPath_ch_frame (p : Path) (g : PathSt → PathSt) (i : YId) : (s.modPath p g).ch i = s.ch i := by cases p <;> rfl
@[simp] theorem State.modPath_win_frame (p : Path) (g : PathSt → PathSt) (i : Fin 16) : (s.modPath p g).win i = s.win i := by cases p <;> rfl
@[simp] theorem State.modPath_lock_frame (p : Path) (g : PathSt → PathSt) (i : LockId) : (s.modPath p g).lock i = s.lock i := by cases p <;> cases i <;> rfl
@[simp] theorem State.setWin_qu_frame (j : Fin 16) (x : Window) (i : QId) : (s.setWin j x).qu i = s.qu i := rfl
@[simp] theorem State.setWin_po_frame (j : Fin 16) (x : Window) (i : PId) : (s.setWin j x).po i = s.po i := rfl
@[simp] theorem State.setWin_ch_frame (j : Fin 16) (x : Window) (i : YId) : (s.setWin j x).ch i = s.ch i := rfl
@[simp] theorem State.setWin_path_frame (j : Fin 16) (x : Window) (i : Path) : (s.setWin j x).path i = s.path i := by cases i <;> rfl
@[simp] theorem State.setWin_lock_frame (j : Fin 16) (x : Window) (i : LockId) : (s.setWin j x).lock i = s.lock i := by cases i <;> rfl
@[simp] theorem State.demand_qu_frame (n : Nat) (i : QId) : (s.demand n).qu i = s.qu i := rfl
@[simp] theorem State.demand_po_frame (n : Nat) (i : PId) : (s.demand n).po i = s.po i := rfl
@[simp] theorem State.demand_ch_frame (n : Nat) (i : YId) : (s.demand n).ch i = s.ch i := rfl
@[simp] theorem State.demand_win_frame (n : Nat) (i : Fin 16) : (s.demand n).win i = s.win i := rfl
@[simp] theorem State.demand_path_frame (n : Nat) (i : Path) : (s.demand n).path i = s.path i := by cases i <;> rfl
@[simp] theorem State.demand_lock_frame (n : Nat) (i : LockId) : (s.demand n).lock i = s.lock i := by cases i <;> rfl
@[simp] theorem State.nextOrder_qu_frame (i : QId) : (s.nextOrder).qu i = s.qu i := rfl
@[simp] theorem State.nextOrder_po_frame (i : PId) : (s.nextOrder).po i = s.po i := rfl
@[simp] theorem State.nextOrder_ch_frame (i : YId) : (s.nextOrder).ch i = s.ch i := rfl
@[simp] theorem State.nextOrder_win_frame (i : Fin 16) : (s.nextOrder).win i = s.win i := rfl
@[simp] theorem State.nextOrder_path_frame (i : Path) : (s.nextOrder).path i = s.path i := by cases i <;> rfl
@[simp] theorem State.nextOrder_lock_frame (i : LockId) : (s.nextOrder).lock i = s.lock i := by cases i <;> rfl
@[simp] theorem State.setEv_qu_frame (c k : Nat) (x : EvCell) (i : QId) : (s.setEv c k x).qu i = s.qu i := rfl
@[simp] theorem State.setEv_po_frame (c k : Nat) (x : EvCell) (i : PId) : (s.setEv c k x).po i = s.po i := rfl
@[simp] theorem State.setEv_ch_frame (c k : Nat) (x : EvCell) (i : YId) : (s.setEv c k x).ch i = s.ch i := rfl
@[simp] theorem State.setEv_win_frame (c k : Nat) (x : EvCell) (i : Fin 16) : (s.setEv c k x).win i = s.win i := rfl
@[simp] theorem State.setEv_path_frame (c k : Nat) (x : EvCell) (i : Path) : (s.setEv c k x).path i = s.path i := by cases i <;> rfl
@[simp] theorem State.setEv_lock_frame (c k : Nat) (x : EvCell) (i : LockId) : (s.setEv c k x).lock i = s.lock i := by cases i <;> rfl
@[simp] theorem State.countN_qu_frame (c k n : Nat) (i : QId) : (s.countN c k n).qu i = s.qu i := by unfold State.countN; split <;> rfl
@[simp] theorem State.countN_po_frame (c k n : Nat) (i : PId) : (s.countN c k n).po i = s.po i := by unfold State.countN; split <;> rfl
@[simp] theorem State.countN_ch_frame (c k n : Nat) (i : YId) : (s.countN c k n).ch i = s.ch i := by unfold State.countN; split <;> rfl
@[simp] theorem State.countN_win_frame (c k n : Nat) (i : Fin 16) : (s.countN c k n).win i = s.win i := by unfold State.countN; split <;> rfl
@[simp] theorem State.countN_path_frame (c k n : Nat) (i : Path) : (s.countN c k n).path i = s.path i := by unfold State.countN; split <;> cases i <;> rfl
@[simp] theorem State.countN_lock_frame (c k n : Nat) (i : LockId) : (s.countN c k n).lock i = s.lock i := by unfold State.countN; split <;> cases i <;> rfl
@[simp] theorem State.count_qu_frame (c k : Nat) (i : QId) : (s.count c k).qu i = s.qu i := rfl
@[simp] theorem State.count_po_frame (c k : Nat) (i : PId) : (s.count c k).po i = s.po i := rfl
@[simp] theorem State.count_ch_frame (c k : Nat) (i : YId) : (s.count c k).ch i = s.ch i := rfl
@[simp] theorem State.count_win_frame (c k : Nat) (i : Fin 16) : (s.count c k).win i = s.win i := rfl
@[simp] theorem State.count_path_frame (c k : Nat) (i : Path) : (s.count c k).path i = s.path i := by cases i <;> rfl
@[simp] theorem State.count_lock_frame (c k : Nat) (i : LockId) : (s.count c k).lock i = s.lock i := by cases i <;> rfl
@[simp] theorem State.capture_qu_frame (a : Access) (c r : Nat) (i : QId) : (s.capture a c r).qu i = s.qu i := rfl
@[simp] theorem State.capture_po_frame (a : Access) (c r : Nat) (i : PId) : (s.capture a c r).po i = s.po i := rfl
@[simp] theorem State.capture_ch_frame (a : Access) (c r : Nat) (i : YId) : (s.capture a c r).ch i = s.ch i := rfl
@[simp] theorem State.capture_win_frame (a : Access) (c r : Nat) (i : Fin 16) : (s.capture a c r).win i = s.win i := rfl
@[simp] theorem State.capture_path_frame (a : Access) (c r : Nat) (i : Path) : (s.capture a c r).path i = s.path i := by cases i <;> rfl
@[simp] theorem State.capture_lock_frame (a : Access) (c r : Nat) (i : LockId) : (s.capture a c r).lock i = s.lock i := by cases i <;> rfl
@[simp] theorem State.reject_qu_frame (a : Access) (c k r : Nat) (i : QId) : (s.reject a c k r).qu i = s.qu i := rfl
@[simp] theorem State.reject_po_frame (a : Access) (c k r : Nat) (i : PId) : (s.reject a c k r).po i = s.po i := rfl
@[simp] theorem State.reject_ch_frame (a : Access) (c k r : Nat) (i : YId) : (s.reject a c k r).ch i = s.ch i := rfl
@[simp] theorem State.reject_win_frame (a : Access) (c k r : Nat) (i : Fin 16) : (s.reject a c k r).win i = s.win i := rfl
@[simp] theorem State.reject_path_frame (a : Access) (c k r : Nat) (i : Path) : (s.reject a c k r).path i = s.path i := by cases i <;> rfl
@[simp] theorem State.reject_lock_frame (a : Access) (c k r : Nat) (i : LockId) : (s.reject a c k r).lock i = s.lock i := by cases i <;> rfl
@[simp] theorem State.setLock_qu_frame (l : LockId) (k : Lock) (i : QId) : (s.setLock l k).qu i = s.qu i := by cases l <;> rfl
@[simp] theorem State.setLock_po_frame (l : LockId) (k : Lock) (i : PId) : (s.setLock l k).po i = s.po i := by cases l <;> rfl
@[simp] theorem State.setLock_ch_frame (l : LockId) (k : Lock) (i : YId) : (s.setLock l k).ch i = s.ch i := by cases l <;> rfl
@[simp] theorem State.setLock_win_frame (l : LockId) (k : Lock) (i : Fin 16) : (s.setLock l k).win i = s.win i := by cases l <;> rfl
@[simp] theorem State.setLock_path_frame (l : LockId) (k : Lock) (i : Path) : (s.setLock l k).path i = s.path i := by cases l <;> cases i <;> rfl
@[simp] theorem State.freeLock_qu_frame (l : LockId) (i : QId) : (s.freeLock l).qu i = s.qu i := by cases l <;> rfl
@[simp] theorem State.freeLock_po_frame (l : LockId) (i : PId) : (s.freeLock l).po i = s.po i := by cases l <;> rfl
@[simp] theorem State.freeLock_ch_frame (l : LockId) (i : YId) : (s.freeLock l).ch i = s.ch i := by cases l <;> rfl
@[simp] theorem State.freeLock_win_frame (l : LockId) (i : Fin 16) : (s.freeLock l).win i = s.win i := by cases l <;> rfl
@[simp] theorem State.freeLock_path_frame (l : LockId) (i : Path) : (s.freeLock l).path i = s.path i := by cases l <;> cases i <;> rfl
@[simp] theorem State.takeLock_qu_frame (l : LockId) (k : Word) (i : QId) : (s.takeLock l k).qu i = s.qu i := by cases l <;> rfl
@[simp] theorem State.takeLock_po_frame (l : LockId) (k : Word) (i : PId) : (s.takeLock l k).po i = s.po i := by cases l <;> rfl
@[simp] theorem State.takeLock_ch_frame (l : LockId) (k : Word) (i : YId) : (s.takeLock l k).ch i = s.ch i := by cases l <;> rfl
@[simp] theorem State.takeLock_win_frame (l : LockId) (k : Word) (i : Fin 16) : (s.takeLock l k).win i = s.win i := by cases l <;> rfl
@[simp] theorem State.takeLock_path_frame (l : LockId) (k : Word) (i : Path) : (s.takeLock l k).path i = s.path i := by cases l <;> cases i <;> rfl
@[simp] theorem State.setOut_qu_frame (x : OutLink) (i : QId) : (s.setOut x).qu i = s.qu i := rfl
@[simp] theorem State.setOut_po_frame (x : OutLink) (i : PId) : (s.setOut x).po i = s.po i := rfl
@[simp] theorem State.setOut_ch_frame (x : OutLink) (i : YId) : (s.setOut x).ch i = s.ch i := rfl
@[simp] theorem State.setOut_win_frame (x : OutLink) (i : Fin 16) : (s.setOut x).win i = s.win i := rfl
@[simp] theorem State.setOut_path_frame (x : OutLink) (i : Path) : (s.setOut x).path i = s.path i := by cases i <;> rfl
@[simp] theorem State.setOut_lock_frame (x : OutLink) (i : LockId) : (s.setOut x).lock i = s.lock i := by cases i <;> rfl
@[simp] theorem State.setIn_qu_frame (x : InLink) (i : QId) : (s.setIn x).qu i = s.qu i := rfl
@[simp] theorem State.setIn_po_frame (x : InLink) (i : PId) : (s.setIn x).po i = s.po i := rfl
@[simp] theorem State.setIn_ch_frame (x : InLink) (i : YId) : (s.setIn x).ch i = s.ch i := rfl
@[simp] theorem State.setIn_win_frame (x : InLink) (i : Fin 16) : (s.setIn x).win i = s.win i := rfl
@[simp] theorem State.setIn_path_frame (x : InLink) (i : Path) : (s.setIn x).path i = s.path i := by cases i <;> rfl
@[simp] theorem State.setIn_lock_frame (x : InLink) (i : LockId) : (s.setIn x).lock i = s.lock i := by cases i <;> rfl

end Sys2Proof.Machine
end

