-- ==== Sys2Proof/Laws/Scale.lean ====
section
/-!
SUPPORT. What an evaluation of the Scaler does: it sets the stored flags of queues by Table 5.2 and changes nothing else.
-/

namespace Sys2Proof.Machine

variable (s : State)

/-! ### One queue -/

@[simp] theorem Queue.scale_en (x : Queue) (i : ScaleIn) : (x.scale i).en = x.en := rfl
@[simp] theorem Queue.scale_qcfg (x : Queue) (i : ScaleIn) : (x.scale i).qcfg = x.qcfg := rfl
@[simp] theorem Queue.scale_qmapL (x : Queue) (i : ScaleIn) : (x.scale i).qmapL = x.qmapL := rfl
@[simp] theorem Queue.scale_qmapH (x : Queue) (i : ScaleIn) : (x.scale i).qmapH = x.qmapH := rfl
@[simp] theorem Queue.scale_qbaseL (x : Queue) (i : ScaleIn) : (x.scale i).qbaseL = x.qbaseL := rfl
@[simp] theorem Queue.scale_qbaseH (x : Queue) (i : ScaleIn) : (x.scale i).qbaseH = x.qbaseH := rfl
@[simp] theorem Queue.scale_qsizeL (x : Queue) (i : ScaleIn) : (x.scale i).qsizeL = x.qsizeL := rfl
@[simp] theorem Queue.scale_qsizeH (x : Queue) (i : ScaleIn) : (x.scale i).qsizeH = x.qsizeH := rfl
@[simp] theorem Queue.scale_map (x : Queue) (i : ScaleIn) : (x.scale i).map = x.map := rfl
@[simp] theorem Queue.scale_afon (x : Queue) (i : ScaleIn) : (x.scale i).afon = x.afon := rfl
@[simp] theorem Queue.scale_afoff (x : Queue) (i : ScaleIn) : (x.scale i).afoff = x.afoff := rfl
@[simp] theorem Queue.scale_aeon (x : Queue) (i : ScaleIn) : (x.scale i).aeon = x.aeon := rfl
@[simp] theorem Queue.scale_aeoff (x : Queue) (i : ScaleIn) : (x.scale i).aeoff = x.aeoff := rfl
@[simp] theorem Queue.scale_ffres (x : Queue) (i : ScaleIn) : (x.scale i).ffres = x.ffres := rfl
@[simp] theorem Queue.scale_afmode (x : Queue) (i : ScaleIn) : (x.scale i).afmode = x.afmode := rfl
@[simp] theorem Queue.scale_afttf (x : Queue) (i : ScaleIn) : (x.scale i).afttf = x.afttf := rfl
@[simp] theorem Queue.scale_afalpha (x : Queue) (i : ScaleIn) : (x.scale i).afalpha = x.afalpha := rfl
@[simp] theorem Queue.scale_afla (x : Queue) (i : ScaleIn) : (x.scale i).afla = x.afla := rfl
@[simp] theorem Queue.scale_rate (x : Queue) (i : ScaleIn) : (x.scale i).rate = x.rate := rfl
@[simp] theorem Queue.scale_lastAfl (x : Queue) (i : ScaleIn) : (x.scale i).lastAfl = x.lastAfl := rfl
@[simp] theorem Queue.scale_w (x : Queue) (i : ScaleIn) : (x.scale i).w = x.w := rfl
@[simp] theorem Queue.scale_r (x : Queue) (i : ScaleIn) : (x.scale i).r = x.r := rfl
@[simp] theorem Queue.scale_h (x : Queue) (i : ScaleIn) : (x.scale i).h = x.h := rfl
@[simp] theorem Queue.scale_f (x : Queue) (i : ScaleIn) : (x.scale i).f = x.f := rfl
@[simp] theorem Queue.scale_wcnt (x : Queue) (i : ScaleIn) : (x.scale i).wcnt = x.wcnt := rfl
@[simp] theorem Queue.scale_rcnt (x : Queue) (i : ScaleIn) : (x.scale i).rcnt = x.rcnt := rfl
@[simp] theorem Queue.scale_xcnt (x : Queue) (i : ScaleIn) : (x.scale i).xcnt = x.xcnt := rfl
@[simp] theorem Queue.scale_dcnt (x : Queue) (i : ScaleIn) : (x.scale i).dcnt = x.dcnt := rfl
@[simp] theorem Queue.scale_marks (x : Queue) (i : ScaleIn) : (x.scale i).marks = x.marks := rfl
@[simp] theorem Queue.scale_markPend (x : Queue) (i : ScaleIn) : (x.scale i).markPend = x.markPend := rfl
@[simp] theorem Queue.scale_held (x : Queue) (i : ScaleIn) : (x.scale i).held = x.held := rfl
@[simp] theorem Queue.scale_segs (x : Queue) (i : ScaleIn) : (x.scale i).segs = x.segs := rfl
@[simp] theorem Queue.scale_segSeq (x : Queue) (i : ScaleIn) : (x.scale i).segSeq = x.segSeq := rfl
@[simp] theorem Queue.scale_launched (x : Queue) (i : ScaleIn) : (x.scale i).launched = x.launched := rfl
@[simp] theorem Queue.scale_launchPort (x : Queue) (i : ScaleIn) : (x.scale i).launchPort = x.launchPort := rfl
@[simp] theorem Queue.scale_bark1 (x : Queue) (i : ScaleIn) : (x.scale i).bark1 = x.bark1 := rfl
@[simp] theorem Queue.scale_tailCut (x : Queue) (i : ScaleIn) : (x.scale i).tailCut = x.tailCut := rfl
@[simp] theorem Queue.scale_billets (x : Queue) (i : ScaleIn) : (x.scale i).billets = x.billets := rfl
@[simp] theorem Queue.scale_disc (x : Queue) (i : ScaleIn) : (x.scale i).disc = x.disc := rfl
@[simp] theorem Queue.scale_resetting (x : Queue) (i : ScaleIn) : (x.scale i).resetting = x.resetting := rfl
@[simp] theorem Queue.scale_vfail (x : Queue) (i : ScaleIn) : (x.scale i).vfail = x.vfail := rfl
@[simp] theorem Queue.scale_rdStave (x : Queue) (i : ScaleIn) : (x.scale i).rdStave = x.rdStave := rfl
@[simp] theorem Queue.bare_en (x : Queue) : x.bare.en = x.en := rfl
@[simp] theorem Queue.bare_qcfg (x : Queue) : x.bare.qcfg = x.qcfg := rfl
@[simp] theorem Queue.bare_qmapL (x : Queue) : x.bare.qmapL = x.qmapL := rfl
@[simp] theorem Queue.bare_qmapH (x : Queue) : x.bare.qmapH = x.qmapH := rfl
@[simp] theorem Queue.bare_qbaseL (x : Queue) : x.bare.qbaseL = x.qbaseL := rfl
@[simp] theorem Queue.bare_qbaseH (x : Queue) : x.bare.qbaseH = x.qbaseH := rfl
@[simp] theorem Queue.bare_qsizeL (x : Queue) : x.bare.qsizeL = x.qsizeL := rfl
@[simp] theorem Queue.bare_qsizeH (x : Queue) : x.bare.qsizeH = x.qsizeH := rfl
@[simp] theorem Queue.bare_map (x : Queue) : x.bare.map = x.map := rfl
@[simp] theorem Queue.bare_afon (x : Queue) : x.bare.afon = x.afon := rfl
@[simp] theorem Queue.bare_afoff (x : Queue) : x.bare.afoff = x.afoff := rfl
@[simp] theorem Queue.bare_aeon (x : Queue) : x.bare.aeon = x.aeon := rfl
@[simp] theorem Queue.bare_aeoff (x : Queue) : x.bare.aeoff = x.aeoff := rfl
@[simp] theorem Queue.bare_ffres (x : Queue) : x.bare.ffres = x.ffres := rfl
@[simp] theorem Queue.bare_afmode (x : Queue) : x.bare.afmode = x.afmode := rfl
@[simp] theorem Queue.bare_afttf (x : Queue) : x.bare.afttf = x.afttf := rfl
@[simp] theorem Queue.bare_afalpha (x : Queue) : x.bare.afalpha = x.afalpha := rfl
@[simp] theorem Queue.bare_afla (x : Queue) : x.bare.afla = x.afla := rfl
@[simp] theorem Queue.bare_rate (x : Queue) : x.bare.rate = x.rate := rfl
@[simp] theorem Queue.bare_lastAfl (x : Queue) : x.bare.lastAfl = x.lastAfl := rfl
@[simp] theorem Queue.bare_w (x : Queue) : x.bare.w = x.w := rfl
@[simp] theorem Queue.bare_r (x : Queue) : x.bare.r = x.r := rfl
@[simp] theorem Queue.bare_h (x : Queue) : x.bare.h = x.h := rfl
@[simp] theorem Queue.bare_f (x : Queue) : x.bare.f = x.f := rfl
@[simp] theorem Queue.bare_wcnt (x : Queue) : x.bare.wcnt = x.wcnt := rfl
@[simp] theorem Queue.bare_rcnt (x : Queue) : x.bare.rcnt = x.rcnt := rfl
@[simp] theorem Queue.bare_xcnt (x : Queue) : x.bare.xcnt = x.xcnt := rfl
@[simp] theorem Queue.bare_dcnt (x : Queue) : x.bare.dcnt = x.dcnt := rfl
@[simp] theorem Queue.bare_marks (x : Queue) : x.bare.marks = x.marks := rfl
@[simp] theorem Queue.bare_markPend (x : Queue) : x.bare.markPend = x.markPend := rfl
@[simp] theorem Queue.bare_held (x : Queue) : x.bare.held = x.held := rfl
@[simp] theorem Queue.bare_segs (x : Queue) : x.bare.segs = x.segs := rfl
@[simp] theorem Queue.bare_segSeq (x : Queue) : x.bare.segSeq = x.segSeq := rfl
@[simp] theorem Queue.bare_launched (x : Queue) : x.bare.launched = x.launched := rfl
@[simp] theorem Queue.bare_launchPort (x : Queue) : x.bare.launchPort = x.launchPort := rfl
@[simp] theorem Queue.bare_bark1 (x : Queue) : x.bare.bark1 = x.bark1 := rfl
@[simp] theorem Queue.bare_tailCut (x : Queue) : x.bare.tailCut = x.tailCut := rfl
@[simp] theorem Queue.bare_billets (x : Queue) : x.bare.billets = x.billets := rfl
@[simp] theorem Queue.bare_disc (x : Queue) : x.bare.disc = x.disc := rfl
@[simp] theorem Queue.bare_resetting (x : Queue) : x.bare.resetting = x.resetting := rfl
@[simp] theorem Queue.bare_vfail (x : Queue) : x.bare.vfail = x.vfail := rfl
@[simp] theorem Queue.bare_rdStave (x : Queue) : x.bare.rdStave = x.rdStave := rfl
@[simp] theorem Queue.scale_ecc (x : Queue) (i : ScaleIn) : (x.scale i).ecc = x.ecc := rfl
@[simp] theorem Queue.bare_ecc (x : Queue) : x.bare.ecc = x.ecc := rfl
@[simp] theorem Queue.scale_bare (x : Queue) (i : ScaleIn) : (x.scale i).bare = x.bare := rfl

/-! ### The bare state -/

@[simp] theorem State.bare_qu (q : QId) : s.bare.qu q = (s.qu q).bare := by simp [State.bare, State.qu]

@[simp] theorem State.bare_boot : s.bare.boot = s.boot := rfl
@[simp] theorem State.bare_dp : s.bare.dp = s.dp := rfl
@[simp] theorem State.bare_pathA : s.bare.pathA = s.pathA := rfl
@[simp] theorem State.bare_pathB : s.bare.pathB = s.pathB := rfl
@[simp] theorem State.bare_events : s.bare.events = s.events := rfl
@[simp] theorem State.bare_time : s.bare.time = s.time := rfl
@[simp] theorem State.bare_cal : s.bare.cal = s.cal := rfl
@[simp] theorem State.bare_wins : s.bare.wins = s.wins := rfl
@[simp] theorem State.bare_gov : s.bare.gov = s.gov := rfl
@[simp] theorem State.bare_ports : s.bare.ports = s.ports := rfl
@[simp] theorem State.bare_sy : s.bare.sy = s.sy := rfl
@[simp] theorem State.bare_chans : s.bare.chans = s.chans := rfl
@[simp] theorem State.bare_azl : s.bare.azl = s.azl := rfl
@[simp] theorem State.bare_land : s.bare.land = s.land := rfl
@[simp] theorem State.bare_sampleTick : s.bare.sampleTick = s.sampleTick := rfl
@[simp] theorem State.bare_order : s.bare.order = s.order := rfl
@[simp] theorem State.bare_freeCtr : s.bare.freeCtr = s.freeCtr := rfl
@[simp] theorem State.bare_pending : s.bare.pending = s.pending := rfl

/-- A queue replaced by one that differs in its flags leaves the bare state. -/
theorem State.setQu_bare (q : QId) (x : Queue) (h : x.bare = (s.qu q).bare) : (s.setQu q x).bare = s.bare := by
  have e : s.queues.map Queue.bare = (s.setQu q x).queues.map Queue.bare := by
    apply Vector.ext
    intro i hi
    by_cases hq : q.val = i
    · subst hq
      simpa [State.setQu, State.qu] using h.symm
    · simp [State.setQu, hq]
  simp only [State.bare]
  rw [← e]
  rfl

@[simp] theorem State.scale_bare (q : QId) : (s.scale q).bare = s.bare := s.setQu_bare q _ rfl

/-- A list of queues evaluated leaves the bare state. -/
theorem State.foldScale_bare (l : List QId) : (l.foldl State.scale s).bare = s.bare := by
  induction l generalizing s with
  | nil => rfl
  | cons q l ih => rw [List.foldl_cons, ih, State.scale_bare]

@[simp] theorem State.scaleAll_bare : s.scaleAll.bare = s.bare := s.foldScale_bare allQ

/-! ### Frames of one evaluation and of all -/

@[simp] theorem State.scale_boot (q : QId) : (s.scale q).boot = s.boot := rfl
@[simp] theorem State.scale_dp (q : QId) : (s.scale q).dp = s.dp := rfl
@[simp] theorem State.scale_pathA (q : QId) : (s.scale q).pathA = s.pathA := rfl
@[simp] theorem State.scale_pathB (q : QId) : (s.scale q).pathB = s.pathB := rfl
@[simp] theorem State.scale_events (q : QId) : (s.scale q).events = s.events := rfl
@[simp] theorem State.scale_time (q : QId) : (s.scale q).time = s.time := rfl
@[simp] theorem State.scale_cal (q : QId) : (s.scale q).cal = s.cal := rfl
@[simp] theorem State.scale_wins (q : QId) : (s.scale q).wins = s.wins := rfl
@[simp] theorem State.scale_gov (q : QId) : (s.scale q).gov = s.gov := rfl
@[simp] theorem State.scale_ports (q : QId) : (s.scale q).ports = s.ports := rfl
@[simp] theorem State.scale_sy (q : QId) : (s.scale q).sy = s.sy := rfl
@[simp] theorem State.scale_chans (q : QId) : (s.scale q).chans = s.chans := rfl
@[simp] theorem State.scale_azl (q : QId) : (s.scale q).azl = s.azl := rfl
@[simp] theorem State.scale_land (q : QId) : (s.scale q).land = s.land := rfl
@[simp] theorem State.scale_sampleTick (q : QId) : (s.scale q).sampleTick = s.sampleTick := rfl
@[simp] theorem State.scale_order (q : QId) : (s.scale q).order = s.order := rfl
@[simp] theorem State.scale_freeCtr (q : QId) : (s.scale q).freeCtr = s.freeCtr := rfl
@[simp] theorem State.scale_pending (q : QId) : (s.scale q).pending = s.pending := rfl
@[simp] theorem State.scaleAll_boot : s.scaleAll.boot = s.boot := by
  rw [← State.bare_boot s.scaleAll, s.scaleAll_bare, State.bare_boot]
@[simp] theorem State.scaleAll_dp : s.scaleAll.dp = s.dp := by
  rw [← State.bare_dp s.scaleAll, s.scaleAll_bare, State.bare_dp]
@[simp] theorem State.scaleAll_pathA : s.scaleAll.pathA = s.pathA := by
  rw [← State.bare_pathA s.scaleAll, s.scaleAll_bare, State.bare_pathA]
@[simp] theorem State.scaleAll_pathB : s.scaleAll.pathB = s.pathB := by
  rw [← State.bare_pathB s.scaleAll, s.scaleAll_bare, State.bare_pathB]
@[simp] theorem State.scaleAll_events : s.scaleAll.events = s.events := by
  rw [← State.bare_events s.scaleAll, s.scaleAll_bare, State.bare_events]
@[simp] theorem State.scaleAll_time : s.scaleAll.time = s.time := by
  rw [← State.bare_time s.scaleAll, s.scaleAll_bare, State.bare_time]
@[simp] theorem State.scaleAll_cal : s.scaleAll.cal = s.cal := by
  rw [← State.bare_cal s.scaleAll, s.scaleAll_bare, State.bare_cal]
@[simp] theorem State.scaleAll_wins : s.scaleAll.wins = s.wins := by
  rw [← State.bare_wins s.scaleAll, s.scaleAll_bare, State.bare_wins]
@[simp] theorem State.scaleAll_gov : s.scaleAll.gov = s.gov := by
  rw [← State.bare_gov s.scaleAll, s.scaleAll_bare, State.bare_gov]
@[simp] theorem State.scaleAll_ports : s.scaleAll.ports = s.ports := by
  rw [← State.bare_ports s.scaleAll, s.scaleAll_bare, State.bare_ports]
@[simp] theorem State.scaleAll_sy : s.scaleAll.sy = s.sy := by
  rw [← State.bare_sy s.scaleAll, s.scaleAll_bare, State.bare_sy]
@[simp] theorem State.scaleAll_chans : s.scaleAll.chans = s.chans := by
  rw [← State.bare_chans s.scaleAll, s.scaleAll_bare, State.bare_chans]
@[simp] theorem State.scaleAll_azl : s.scaleAll.azl = s.azl := by
  rw [← State.bare_azl s.scaleAll, s.scaleAll_bare, State.bare_azl]
@[simp] theorem State.scaleAll_land : s.scaleAll.land = s.land := by
  rw [← State.bare_land s.scaleAll, s.scaleAll_bare, State.bare_land]
@[simp] theorem State.scaleAll_sampleTick : s.scaleAll.sampleTick = s.sampleTick := by
  rw [← State.bare_sampleTick s.scaleAll, s.scaleAll_bare, State.bare_sampleTick]
@[simp] theorem State.scaleAll_order : s.scaleAll.order = s.order := by
  rw [← State.bare_order s.scaleAll, s.scaleAll_bare, State.bare_order]
@[simp] theorem State.scaleAll_freeCtr : s.scaleAll.freeCtr = s.freeCtr := by
  rw [← State.bare_freeCtr s.scaleAll, s.scaleAll_bare, State.bare_freeCtr]
@[simp] theorem State.scaleAll_pending : s.scaleAll.pending = s.pending := by
  rw [← State.bare_pending s.scaleAll, s.scaleAll_bare, State.bare_pending]

theorem State.bare_eq_qu {s t : State} (h : s.bare = t.bare) (q : QId) : (s.qu q).bare = (t.qu q).bare := by
  rw [← State.bare_qu, ← State.bare_qu, h]

@[simp] theorem State.scale_qu_bare (k q : QId) : ((s.scale k).qu q).bare = (s.qu q).bare :=
  State.bare_eq_qu (s.scale_bare k) q
@[simp] theorem State.scaleAll_qu_bare (q : QId) : (s.scaleAll.qu q).bare = (s.qu q).bare :=
  State.bare_eq_qu s.scaleAll_bare q

@[simp] theorem State.scale_qu_en (k q : QId) : ((s.scale k).qu q).en = (s.qu q).en := by
  rw [← Queue.bare_en ((s.scale k).qu q), s.scale_qu_bare, Queue.bare_en]
@[simp] theorem State.scale_qu_qcfg (k q : QId) : ((s.scale k).qu q).qcfg = (s.qu q).qcfg := by
  rw [← Queue.bare_qcfg ((s.scale k).qu q), s.scale_qu_bare, Queue.bare_qcfg]
@[simp] theorem State.scale_qu_qmapL (k q : QId) : ((s.scale k).qu q).qmapL = (s.qu q).qmapL := by
  rw [← Queue.bare_qmapL ((s.scale k).qu q), s.scale_qu_bare, Queue.bare_qmapL]
@[simp] theorem State.scale_qu_qmapH (k q : QId) : ((s.scale k).qu q).qmapH = (s.qu q).qmapH := by
  rw [← Queue.bare_qmapH ((s.scale k).qu q), s.scale_qu_bare, Queue.bare_qmapH]
@[simp] theorem State.scale_qu_qbaseL (k q : QId) : ((s.scale k).qu q).qbaseL = (s.qu q).qbaseL := by
  rw [← Queue.bare_qbaseL ((s.scale k).qu q), s.scale_qu_bare, Queue.bare_qbaseL]
@[simp] theorem State.scale_qu_qbaseH (k q : QId) : ((s.scale k).qu q).qbaseH = (s.qu q).qbaseH := by
  rw [← Queue.bare_qbaseH ((s.scale k).qu q), s.scale_qu_bare, Queue.bare_qbaseH]
@[simp] theorem State.scale_qu_qsizeL (k q : QId) : ((s.scale k).qu q).qsizeL = (s.qu q).qsizeL := by
  rw [← Queue.bare_qsizeL ((s.scale k).qu q), s.scale_qu_bare, Queue.bare_qsizeL]
@[simp] theorem State.scale_qu_qsizeH (k q : QId) : ((s.scale k).qu q).qsizeH = (s.qu q).qsizeH := by
  rw [← Queue.bare_qsizeH ((s.scale k).qu q), s.scale_qu_bare, Queue.bare_qsizeH]
@[simp] theorem State.scale_qu_map (k q : QId) : ((s.scale k).qu q).map = (s.qu q).map := by
  rw [← Queue.bare_map ((s.scale k).qu q), s.scale_qu_bare, Queue.bare_map]
@[simp] theorem State.scale_qu_afon (k q : QId) : ((s.scale k).qu q).afon = (s.qu q).afon := by
  rw [← Queue.bare_afon ((s.scale k).qu q), s.scale_qu_bare, Queue.bare_afon]
@[simp] theorem State.scale_qu_afoff (k q : QId) : ((s.scale k).qu q).afoff = (s.qu q).afoff := by
  rw [← Queue.bare_afoff ((s.scale k).qu q), s.scale_qu_bare, Queue.bare_afoff]
@[simp] theorem State.scale_qu_aeon (k q : QId) : ((s.scale k).qu q).aeon = (s.qu q).aeon := by
  rw [← Queue.bare_aeon ((s.scale k).qu q), s.scale_qu_bare, Queue.bare_aeon]
@[simp] theorem State.scale_qu_aeoff (k q : QId) : ((s.scale k).qu q).aeoff = (s.qu q).aeoff := by
  rw [← Queue.bare_aeoff ((s.scale k).qu q), s.scale_qu_bare, Queue.bare_aeoff]
@[simp] theorem State.scale_qu_ffres (k q : QId) : ((s.scale k).qu q).ffres = (s.qu q).ffres := by
  rw [← Queue.bare_ffres ((s.scale k).qu q), s.scale_qu_bare, Queue.bare_ffres]
@[simp] theorem State.scale_qu_afmode (k q : QId) : ((s.scale k).qu q).afmode = (s.qu q).afmode := by
  rw [← Queue.bare_afmode ((s.scale k).qu q), s.scale_qu_bare, Queue.bare_afmode]
@[simp] theorem State.scale_qu_afttf (k q : QId) : ((s.scale k).qu q).afttf = (s.qu q).afttf := by
  rw [← Queue.bare_afttf ((s.scale k).qu q), s.scale_qu_bare, Queue.bare_afttf]
@[simp] theorem State.scale_qu_afalpha (k q : QId) : ((s.scale k).qu q).afalpha = (s.qu q).afalpha := by
  rw [← Queue.bare_afalpha ((s.scale k).qu q), s.scale_qu_bare, Queue.bare_afalpha]
@[simp] theorem State.scale_qu_afla (k q : QId) : ((s.scale k).qu q).afla = (s.qu q).afla := by
  rw [← Queue.bare_afla ((s.scale k).qu q), s.scale_qu_bare, Queue.bare_afla]
@[simp] theorem State.scale_qu_rate (k q : QId) : ((s.scale k).qu q).rate = (s.qu q).rate := by
  rw [← Queue.bare_rate ((s.scale k).qu q), s.scale_qu_bare, Queue.bare_rate]
@[simp] theorem State.scale_qu_lastAfl (k q : QId) : ((s.scale k).qu q).lastAfl = (s.qu q).lastAfl := by
  rw [← Queue.bare_lastAfl ((s.scale k).qu q), s.scale_qu_bare, Queue.bare_lastAfl]
@[simp] theorem State.scale_qu_w (k q : QId) : ((s.scale k).qu q).w = (s.qu q).w := by
  rw [← Queue.bare_w ((s.scale k).qu q), s.scale_qu_bare, Queue.bare_w]
@[simp] theorem State.scale_qu_r (k q : QId) : ((s.scale k).qu q).r = (s.qu q).r := by
  rw [← Queue.bare_r ((s.scale k).qu q), s.scale_qu_bare, Queue.bare_r]
@[simp] theorem State.scale_qu_h (k q : QId) : ((s.scale k).qu q).h = (s.qu q).h := by
  rw [← Queue.bare_h ((s.scale k).qu q), s.scale_qu_bare, Queue.bare_h]
@[simp] theorem State.scale_qu_f (k q : QId) : ((s.scale k).qu q).f = (s.qu q).f := by
  rw [← Queue.bare_f ((s.scale k).qu q), s.scale_qu_bare, Queue.bare_f]
@[simp] theorem State.scale_qu_wcnt (k q : QId) : ((s.scale k).qu q).wcnt = (s.qu q).wcnt := by
  rw [← Queue.bare_wcnt ((s.scale k).qu q), s.scale_qu_bare, Queue.bare_wcnt]
@[simp] theorem State.scale_qu_rcnt (k q : QId) : ((s.scale k).qu q).rcnt = (s.qu q).rcnt := by
  rw [← Queue.bare_rcnt ((s.scale k).qu q), s.scale_qu_bare, Queue.bare_rcnt]
@[simp] theorem State.scale_qu_xcnt (k q : QId) : ((s.scale k).qu q).xcnt = (s.qu q).xcnt := by
  rw [← Queue.bare_xcnt ((s.scale k).qu q), s.scale_qu_bare, Queue.bare_xcnt]
@[simp] theorem State.scale_qu_dcnt (k q : QId) : ((s.scale k).qu q).dcnt = (s.qu q).dcnt := by
  rw [← Queue.bare_dcnt ((s.scale k).qu q), s.scale_qu_bare, Queue.bare_dcnt]
@[simp] theorem State.scale_qu_marks (k q : QId) : ((s.scale k).qu q).marks = (s.qu q).marks := by
  rw [← Queue.bare_marks ((s.scale k).qu q), s.scale_qu_bare, Queue.bare_marks]
@[simp] theorem State.scale_qu_markPend (k q : QId) : ((s.scale k).qu q).markPend = (s.qu q).markPend := by
  rw [← Queue.bare_markPend ((s.scale k).qu q), s.scale_qu_bare, Queue.bare_markPend]
@[simp] theorem State.scale_qu_held (k q : QId) : ((s.scale k).qu q).held = (s.qu q).held := by
  rw [← Queue.bare_held ((s.scale k).qu q), s.scale_qu_bare, Queue.bare_held]
@[simp] theorem State.scale_qu_segs (k q : QId) : ((s.scale k).qu q).segs = (s.qu q).segs := by
  rw [← Queue.bare_segs ((s.scale k).qu q), s.scale_qu_bare, Queue.bare_segs]
@[simp] theorem State.scale_qu_segSeq (k q : QId) : ((s.scale k).qu q).segSeq = (s.qu q).segSeq := by
  rw [← Queue.bare_segSeq ((s.scale k).qu q), s.scale_qu_bare, Queue.bare_segSeq]
@[simp] theorem State.scale_qu_launched (k q : QId) : ((s.scale k).qu q).launched = (s.qu q).launched := by
  rw [← Queue.bare_launched ((s.scale k).qu q), s.scale_qu_bare, Queue.bare_launched]
@[simp] theorem State.scale_qu_launchPort (k q : QId) : ((s.scale k).qu q).launchPort = (s.qu q).launchPort := by
  rw [← Queue.bare_launchPort ((s.scale k).qu q), s.scale_qu_bare, Queue.bare_launchPort]
@[simp] theorem State.scale_qu_bark1 (k q : QId) : ((s.scale k).qu q).bark1 = (s.qu q).bark1 := by
  rw [← Queue.bare_bark1 ((s.scale k).qu q), s.scale_qu_bare, Queue.bare_bark1]
@[simp] theorem State.scale_qu_tailCut (k q : QId) : ((s.scale k).qu q).tailCut = (s.qu q).tailCut := by
  rw [← Queue.bare_tailCut ((s.scale k).qu q), s.scale_qu_bare, Queue.bare_tailCut]
@[simp] theorem State.scale_qu_billets (k q : QId) : ((s.scale k).qu q).billets = (s.qu q).billets := by
  rw [← Queue.bare_billets ((s.scale k).qu q), s.scale_qu_bare, Queue.bare_billets]
@[simp] theorem State.scale_qu_disc (k q : QId) : ((s.scale k).qu q).disc = (s.qu q).disc := by
  rw [← Queue.bare_disc ((s.scale k).qu q), s.scale_qu_bare, Queue.bare_disc]
@[simp] theorem State.scale_qu_resetting (k q : QId) : ((s.scale k).qu q).resetting = (s.qu q).resetting := by
  rw [← Queue.bare_resetting ((s.scale k).qu q), s.scale_qu_bare, Queue.bare_resetting]
@[simp] theorem State.scale_qu_vfail (k q : QId) : ((s.scale k).qu q).vfail = (s.qu q).vfail := by
  rw [← Queue.bare_vfail ((s.scale k).qu q), s.scale_qu_bare, Queue.bare_vfail]
@[simp] theorem State.scale_qu_rdStave (k q : QId) : ((s.scale k).qu q).rdStave = (s.qu q).rdStave := by
  rw [← Queue.bare_rdStave ((s.scale k).qu q), s.scale_qu_bare, Queue.bare_rdStave]
@[simp] theorem State.scaleAll_qu_en (q : QId) : (s.scaleAll.qu q).en = (s.qu q).en := by
  rw [← Queue.bare_en (s.scaleAll.qu q), s.scaleAll_qu_bare, Queue.bare_en]
@[simp] theorem State.scaleAll_qu_qcfg (q : QId) : (s.scaleAll.qu q).qcfg = (s.qu q).qcfg := by
  rw [← Queue.bare_qcfg (s.scaleAll.qu q), s.scaleAll_qu_bare, Queue.bare_qcfg]
@[simp] theorem State.scaleAll_qu_qmapL (q : QId) : (s.scaleAll.qu q).qmapL = (s.qu q).qmapL := by
  rw [← Queue.bare_qmapL (s.scaleAll.qu q), s.scaleAll_qu_bare, Queue.bare_qmapL]
@[simp] theorem State.scaleAll_qu_qmapH (q : QId) : (s.scaleAll.qu q).qmapH = (s.qu q).qmapH := by
  rw [← Queue.bare_qmapH (s.scaleAll.qu q), s.scaleAll_qu_bare, Queue.bare_qmapH]
@[simp] theorem State.scaleAll_qu_qbaseL (q : QId) : (s.scaleAll.qu q).qbaseL = (s.qu q).qbaseL := by
  rw [← Queue.bare_qbaseL (s.scaleAll.qu q), s.scaleAll_qu_bare, Queue.bare_qbaseL]
@[simp] theorem State.scaleAll_qu_qbaseH (q : QId) : (s.scaleAll.qu q).qbaseH = (s.qu q).qbaseH := by
  rw [← Queue.bare_qbaseH (s.scaleAll.qu q), s.scaleAll_qu_bare, Queue.bare_qbaseH]
@[simp] theorem State.scaleAll_qu_qsizeL (q : QId) : (s.scaleAll.qu q).qsizeL = (s.qu q).qsizeL := by
  rw [← Queue.bare_qsizeL (s.scaleAll.qu q), s.scaleAll_qu_bare, Queue.bare_qsizeL]
@[simp] theorem State.scaleAll_qu_qsizeH (q : QId) : (s.scaleAll.qu q).qsizeH = (s.qu q).qsizeH := by
  rw [← Queue.bare_qsizeH (s.scaleAll.qu q), s.scaleAll_qu_bare, Queue.bare_qsizeH]
@[simp] theorem State.scaleAll_qu_map (q : QId) : (s.scaleAll.qu q).map = (s.qu q).map := by
  rw [← Queue.bare_map (s.scaleAll.qu q), s.scaleAll_qu_bare, Queue.bare_map]
@[simp] theorem State.scaleAll_qu_afon (q : QId) : (s.scaleAll.qu q).afon = (s.qu q).afon := by
  rw [← Queue.bare_afon (s.scaleAll.qu q), s.scaleAll_qu_bare, Queue.bare_afon]
@[simp] theorem State.scaleAll_qu_afoff (q : QId) : (s.scaleAll.qu q).afoff = (s.qu q).afoff := by
  rw [← Queue.bare_afoff (s.scaleAll.qu q), s.scaleAll_qu_bare, Queue.bare_afoff]
@[simp] theorem State.scaleAll_qu_aeon (q : QId) : (s.scaleAll.qu q).aeon = (s.qu q).aeon := by
  rw [← Queue.bare_aeon (s.scaleAll.qu q), s.scaleAll_qu_bare, Queue.bare_aeon]
@[simp] theorem State.scaleAll_qu_aeoff (q : QId) : (s.scaleAll.qu q).aeoff = (s.qu q).aeoff := by
  rw [← Queue.bare_aeoff (s.scaleAll.qu q), s.scaleAll_qu_bare, Queue.bare_aeoff]
@[simp] theorem State.scaleAll_qu_ffres (q : QId) : (s.scaleAll.qu q).ffres = (s.qu q).ffres := by
  rw [← Queue.bare_ffres (s.scaleAll.qu q), s.scaleAll_qu_bare, Queue.bare_ffres]
@[simp] theorem State.scaleAll_qu_afmode (q : QId) : (s.scaleAll.qu q).afmode = (s.qu q).afmode := by
  rw [← Queue.bare_afmode (s.scaleAll.qu q), s.scaleAll_qu_bare, Queue.bare_afmode]
@[simp] theorem State.scaleAll_qu_afttf (q : QId) : (s.scaleAll.qu q).afttf = (s.qu q).afttf := by
  rw [← Queue.bare_afttf (s.scaleAll.qu q), s.scaleAll_qu_bare, Queue.bare_afttf]
@[simp] theorem State.scaleAll_qu_afalpha (q : QId) : (s.scaleAll.qu q).afalpha = (s.qu q).afalpha := by
  rw [← Queue.bare_afalpha (s.scaleAll.qu q), s.scaleAll_qu_bare, Queue.bare_afalpha]
@[simp] theorem State.scaleAll_qu_afla (q : QId) : (s.scaleAll.qu q).afla = (s.qu q).afla := by
  rw [← Queue.bare_afla (s.scaleAll.qu q), s.scaleAll_qu_bare, Queue.bare_afla]
@[simp] theorem State.scaleAll_qu_rate (q : QId) : (s.scaleAll.qu q).rate = (s.qu q).rate := by
  rw [← Queue.bare_rate (s.scaleAll.qu q), s.scaleAll_qu_bare, Queue.bare_rate]
@[simp] theorem State.scaleAll_qu_lastAfl (q : QId) : (s.scaleAll.qu q).lastAfl = (s.qu q).lastAfl := by
  rw [← Queue.bare_lastAfl (s.scaleAll.qu q), s.scaleAll_qu_bare, Queue.bare_lastAfl]
@[simp] theorem State.scaleAll_qu_w (q : QId) : (s.scaleAll.qu q).w = (s.qu q).w := by
  rw [← Queue.bare_w (s.scaleAll.qu q), s.scaleAll_qu_bare, Queue.bare_w]
@[simp] theorem State.scaleAll_qu_r (q : QId) : (s.scaleAll.qu q).r = (s.qu q).r := by
  rw [← Queue.bare_r (s.scaleAll.qu q), s.scaleAll_qu_bare, Queue.bare_r]
@[simp] theorem State.scaleAll_qu_h (q : QId) : (s.scaleAll.qu q).h = (s.qu q).h := by
  rw [← Queue.bare_h (s.scaleAll.qu q), s.scaleAll_qu_bare, Queue.bare_h]
@[simp] theorem State.scaleAll_qu_f (q : QId) : (s.scaleAll.qu q).f = (s.qu q).f := by
  rw [← Queue.bare_f (s.scaleAll.qu q), s.scaleAll_qu_bare, Queue.bare_f]
@[simp] theorem State.scaleAll_qu_wcnt (q : QId) : (s.scaleAll.qu q).wcnt = (s.qu q).wcnt := by
  rw [← Queue.bare_wcnt (s.scaleAll.qu q), s.scaleAll_qu_bare, Queue.bare_wcnt]
@[simp] theorem State.scaleAll_qu_rcnt (q : QId) : (s.scaleAll.qu q).rcnt = (s.qu q).rcnt := by
  rw [← Queue.bare_rcnt (s.scaleAll.qu q), s.scaleAll_qu_bare, Queue.bare_rcnt]
@[simp] theorem State.scaleAll_qu_xcnt (q : QId) : (s.scaleAll.qu q).xcnt = (s.qu q).xcnt := by
  rw [← Queue.bare_xcnt (s.scaleAll.qu q), s.scaleAll_qu_bare, Queue.bare_xcnt]
@[simp] theorem State.scaleAll_qu_dcnt (q : QId) : (s.scaleAll.qu q).dcnt = (s.qu q).dcnt := by
  rw [← Queue.bare_dcnt (s.scaleAll.qu q), s.scaleAll_qu_bare, Queue.bare_dcnt]
@[simp] theorem State.scaleAll_qu_marks (q : QId) : (s.scaleAll.qu q).marks = (s.qu q).marks := by
  rw [← Queue.bare_marks (s.scaleAll.qu q), s.scaleAll_qu_bare, Queue.bare_marks]
@[simp] theorem State.scaleAll_qu_markPend (q : QId) : (s.scaleAll.qu q).markPend = (s.qu q).markPend := by
  rw [← Queue.bare_markPend (s.scaleAll.qu q), s.scaleAll_qu_bare, Queue.bare_markPend]
@[simp] theorem State.scaleAll_qu_held (q : QId) : (s.scaleAll.qu q).held = (s.qu q).held := by
  rw [← Queue.bare_held (s.scaleAll.qu q), s.scaleAll_qu_bare, Queue.bare_held]
@[simp] theorem State.scaleAll_qu_segs (q : QId) : (s.scaleAll.qu q).segs = (s.qu q).segs := by
  rw [← Queue.bare_segs (s.scaleAll.qu q), s.scaleAll_qu_bare, Queue.bare_segs]
@[simp] theorem State.scaleAll_qu_segSeq (q : QId) : (s.scaleAll.qu q).segSeq = (s.qu q).segSeq := by
  rw [← Queue.bare_segSeq (s.scaleAll.qu q), s.scaleAll_qu_bare, Queue.bare_segSeq]
@[simp] theorem State.scaleAll_qu_launched (q : QId) : (s.scaleAll.qu q).launched = (s.qu q).launched := by
  rw [← Queue.bare_launched (s.scaleAll.qu q), s.scaleAll_qu_bare, Queue.bare_launched]
@[simp] theorem State.scaleAll_qu_launchPort (q : QId) : (s.scaleAll.qu q).launchPort = (s.qu q).launchPort := by
  rw [← Queue.bare_launchPort (s.scaleAll.qu q), s.scaleAll_qu_bare, Queue.bare_launchPort]
@[simp] theorem State.scaleAll_qu_bark1 (q : QId) : (s.scaleAll.qu q).bark1 = (s.qu q).bark1 := by
  rw [← Queue.bare_bark1 (s.scaleAll.qu q), s.scaleAll_qu_bare, Queue.bare_bark1]
@[simp] theorem State.scaleAll_qu_tailCut (q : QId) : (s.scaleAll.qu q).tailCut = (s.qu q).tailCut := by
  rw [← Queue.bare_tailCut (s.scaleAll.qu q), s.scaleAll_qu_bare, Queue.bare_tailCut]
@[simp] theorem State.scaleAll_qu_billets (q : QId) : (s.scaleAll.qu q).billets = (s.qu q).billets := by
  rw [← Queue.bare_billets (s.scaleAll.qu q), s.scaleAll_qu_bare, Queue.bare_billets]
@[simp] theorem State.scaleAll_qu_disc (q : QId) : (s.scaleAll.qu q).disc = (s.qu q).disc := by
  rw [← Queue.bare_disc (s.scaleAll.qu q), s.scaleAll_qu_bare, Queue.bare_disc]
@[simp] theorem State.scaleAll_qu_resetting (q : QId) : (s.scaleAll.qu q).resetting = (s.qu q).resetting := by
  rw [← Queue.bare_resetting (s.scaleAll.qu q), s.scaleAll_qu_bare, Queue.bare_resetting]
@[simp] theorem State.scaleAll_qu_vfail (q : QId) : (s.scaleAll.qu q).vfail = (s.qu q).vfail := by
  rw [← Queue.bare_vfail (s.scaleAll.qu q), s.scaleAll_qu_bare, Queue.bare_vfail]
@[simp] theorem State.scaleAll_qu_rdStave (q : QId) : (s.scaleAll.qu q).rdStave = (s.qu q).rdStave := by
  rw [← Queue.bare_rdStave (s.scaleAll.qu q), s.scaleAll_qu_bare, Queue.bare_rdStave]
@[simp] theorem State.scale_po (q : QId) (i : PId) : (s.scale q).po i = s.po i := rfl
@[simp] theorem State.scale_ch (q : QId) (i : YId) : (s.scale q).ch i = s.ch i := rfl
@[simp] theorem State.scale_win (q : QId) (i : Fin 16) : (s.scale q).win i = s.win i := rfl
@[simp] theorem State.scale_path (q : QId) (i : Path) : (s.scale q).path i = s.path i := by cases i <;> rfl
@[simp] theorem State.scale_lock (q : QId) (i : LockId) : (s.scale q).lock i = s.lock i := by cases i <;> rfl
@[simp] theorem State.scaleAll_po (i : PId) : s.scaleAll.po i = s.po i := by simp [State.po]
@[simp] theorem State.scaleAll_ch (i : YId) : s.scaleAll.ch i = s.ch i := by simp [State.ch]
@[simp] theorem State.scaleAll_win (i : Fin 16) : s.scaleAll.win i = s.win i := by simp [State.win]
@[simp] theorem State.scaleAll_path (i : Path) : s.scaleAll.path i = s.path i := by cases i <;> simp [State.path]
@[simp] theorem State.scaleAll_lock (i : LockId) : s.scaleAll.lock i = s.lock i := by cases i <;> simp [State.lock]

/-! ### What the Scaler reads does not depend on the stored flags -/

@[simp] theorem Queue.bare_rel (x : Queue) (p : Pos) : x.bare.rel p = x.rel p := rfl

theorem segReach_bare (x : Queue) (a w : Int) (gs : List Seg) (r : Int) : segReach x.bare a w gs r = segReach x a w gs r := by
  induction gs generalizing r with
  | nil => rfl
  | cons g gs ih => simp only [segReach, ih, Queue.bare_rel]; rfl

theorem State.frames_bare (q : QId) : s.bare.frames q = s.frames q := by
  simp only [State.frames, State.orphans, s.bare_qu]; rfl

theorem State.pend_bare (q : QId) : s.bare.pend q = s.pend q := rfl

theorem State.free_bare (q : QId) : s.bare.free q = s.free q := by
  simp only [State.free, State.spillHeld, State.unusedShare, s.frames_bare, s.pend_bare, s.bare_qu]; rfl

theorem State.readPort_bare (q : QId) : s.bare.readPort q = s.readPort q := by
  simp only [State.readPort, State.namedPort, s.bare_qu]; rfl

theorem State.qSeg_bare (q : QId) : s.bare.qSeg q = s.qSeg q := by
  simp only [State.qSeg, s.readPort_bare, s.bare_qu]; rfl

theorem State.isOpen_bare (q : QId) : s.bare.isOpen q = s.isOpen q := by
  simp only [State.isOpen, s.bare_qu]; rfl

theorem State.deliverable_bare (q : QId) : s.bare.deliverable q = s.deliverable q := by
  simp only [State.deliverable, s.qSeg_bare, s.isOpen_bare, s.bare_qu, segReach_bare]; rfl

theorem State.spillWant_bare (q : QId) : s.bare.spillWant q = s.spillWant q := by
  simp only [State.spillWant, s.frames_bare, s.bare_qu]; rfl

theorem State.refillWant_bare (q : QId) : s.bare.refillWant q = s.refillWant q := by
  simp only [State.refillWant, s.frames_bare, s.bare_qu]; rfl

theorem State.scaleIn_bare (q : QId) : s.bare.scaleIn q = s.scaleIn q := by
  simp only [State.scaleIn, State.qWidth, s.deliverable_bare, s.readPort_bare, s.qSeg_bare, s.isOpen_bare, s.free_bare,
    s.spillWant_bare, s.refillWant_bare]; rfl

theorem State.scaleIn_congr {s t : State} (h : s.bare = t.bare) (q : QId) : s.scaleIn q = t.scaleIn q := by
  rw [← s.scaleIn_bare, ← t.scaleIn_bare, h]

theorem State.afl_bare (q : QId) : s.bare.afl q = s.afl q := by
  simp only [State.afl, s.free_bare, s.bare_qu]; rfl

/-- A list of distinct queues evaluated: each by what the state showed before. -/
theorem State.foldScale_qu (l : List QId) (hl : l.Nodup) (q : QId) :
    (l.foldl State.scale s).qu q = if q ∈ l then (s.qu q).scale (s.scaleIn q) else s.qu q := by
  induction l generalizing s with
  | nil => simp
  | cons k l ih =>
    have ⟨hk, hl⟩ := List.nodup_cons.1 hl
    rw [List.foldl_cons, ih _ hl]
    by_cases h : q = k
    · subst h
      rw [if_neg hk, if_pos (List.mem_cons_self ..)]
      exact s.setQu_qu q _
    · have e : (s.scale k).qu q = s.qu q := s.setQu_qu_ne k q _ h
      rw [e, State.scaleIn_congr (s.scale_bare k) q]
      simp [h]

theorem State.scaleAll_qu (q : QId) : s.scaleAll.qu q = (s.qu q).scale (s.scaleIn q) := by
  have := s.foldScale_qu allQ (List.nodup_finRange 16) q
  rw [if_pos (show q ∈ allQ from List.mem_finRange q)] at this
  exact this

/-- One evaluation leaves AE and the threshold part of AF as Table 5.2 sets, clears or keeps them. -/
theorem hyst_spec (a d old : Bool) : (a = true → hyst a d old = true) ∧ (a = false → d = true → hyst a d old = false) ∧
    (a = false → d = false → hyst a d old = old) := by
  cases a <;> cases d <;> cases old <;> decide

/-- What sets and clears AE and AF reads no stored flag. -/
theorem State.scaleAll_afl (q : QId) : s.scaleAll.afl q = s.afl q := by
  rw [← s.scaleAll.afl_bare, ← s.afl_bare, s.scaleAll_bare]

@[simp] theorem State.scaleAll_cap (q : QId) : (s.scaleAll.qu q).cap = (s.qu q).cap := by rw [s.scaleAll_qu]; rfl
@[simp] theorem State.scaleAll_rdbl (q : QId) : (s.scaleAll.qu q).rdbl = (s.qu q).rdbl := by rw [s.scaleAll_qu]; rfl

/-- After every queue has been evaluated the stored flags are those of Table 5.2. -/
theorem State.scaleAll_settled : s.scaleAll.flagsSettled := by
  intro q
  have h : s.scaleAll.scaleIn q = s.scaleIn q := State.scaleIn_congr s.scaleAll_bare q
  have a : s.scaleAll.afl q = s.afl q := s.scaleAll_afl q
  have o : s.scaleAll.isOpen q = s.isOpen q := by rw [← s.scaleAll.isOpen_bare, ← s.isOpen_bare, s.scaleAll_bare]
  have ae := hyst_spec (decide ((s.qu q).rdbl ≤ (s.qu q).aeon.toNat) || !s.isOpen q)
    (decide ((s.qu q).aeOffUsed < (s.qu q).rdbl) && s.isOpen q) (s.qu q).ae
  have af := hyst_spec (decide (((s.qu q).afon.toNat : Int) ≤ s.afl q)) (decide (s.afl q < ((s.qu q).afOffUsed : Int))) (s.qu q).afth
  simp only [Bool.or_eq_true, Bool.and_eq_true, Bool.not_eq_true', decide_eq_true_eq, Bool.or_eq_false_iff, decide_eq_false_iff_not] at ae af
  simp only [State.flagsAt, State.aeSet, State.aeClear, State.afSet, State.afClear, h, a, o, s.scaleAll_qu]
  refine ⟨rfl, rfl, rfl, ae.1, fun n c => ae.2.1 ?_ c, af.1, af.2.1⟩
  revert n; cases s.isOpen q <;> simp [Queue.scale, Queue.rdbl]

/-- What the Scaler reads of a queue is the same where two states differ in stored flags alone. -/
theorem State.scale_scaleIn (k q : QId) : (s.scale k).scaleIn q = s.scaleIn q := State.scaleIn_congr (s.scale_bare k) q

end Sys2Proof.Machine
end

