-- ==== Sys2Proof/Laws/Shared.lean ====
section
/-!
SUPPORT. What the shared operations of several meanings can do: the compare of voted words by the block that reads them, the
order in which staves leave a port, the wait of an engine's request, bursts, and the small steps that do nothing where their
condition does not hold.
-/

namespace Sys2Proof.Machine

variable (s : State)

/-! ### Voted words as their block reads them (R379) -/

/-- A compare of copies that agree changes nothing. -/
theorem State.compare_of_agrees {r : VRef} (h : s.agrees r) : s.compare r = s := by
  unfold State.agrees at h
  unfold State.compare
  rw [h]
  simp [VWord.of, VWord.majority]

/-- So does a compare of several words. -/
theorem State.compareAll_of_agrees : ∀ {refs : List VRef}, (∀ r ∈ refs, s.agrees r) → s.compareAll refs = s
  | [], _ => rfl
  | r :: rs, h => by
    have hr := s.compare_of_agrees (h r (by simp))
    simpa [State.compareAll, hr] using State.compareAll_of_agrees (refs := rs) fun x hx => h x (by simp [hx])

theorem State.compareAll_of_agreed (refs : List VRef) (h : s.agreed) : s.compareAll refs = s :=
  s.compareAll_of_agrees fun r _ => h r

/-- An interval takes FLOOR, CEIL and MARGIN over (R439). -/
theorem State.govRenew_of_agrees (hf : s.agrees .floor) (hc : s.agrees .ceil) (hm : s.agrees .margin) :
    s.govRenew = { s with gov := s.gov.renew } := by
  rw [State.govRenew, s.compareAll_of_agrees (by simp [hf, hc, hm])]

/-- The check of a lock whose copies agree changes nothing. -/
theorem State.lockRead_of_agrees {b : Bank} {off : Nat} (h : s.lockAgrees b off) : s.lockRead b off = s := by
  unfold State.lockRead
  split
  · exact s.compare_of_agrees (h _ ‹_›)
  · rfl

/-! ### The order in which staves leave a port (R18, R99, R100) -/

/-- The stave that goes is one of the list that may go. -/
theorem firstFree_mem {ok : DoneStave → Bool} {part : QId → Bool} {d : DoneStave} :
    ∀ {before ds : List DoneStave}, firstFree ok part before ds = some d → d ∈ ds ∧ ok d = true
  | _, [], h => by simp [firstFree] at h
  | before, e :: ds, h => by
    rw [firstFree] at h
    split at h
    · cases h; simp_all
    · exact ⟨by simp [(firstFree_mem h).1], (firstFree_mem h).2⟩

/-- No earlier stave of its queue waits, but one of no segment that may not divide the segment the stave goes on with. -/
theorem firstFree_order {ok : DoneStave → Bool} {part : QId → Bool} {d : DoneStave} :
    ∀ {before ds : List DoneStave}, firstFree ok part before ds = some d →
      ∃ l r, ds = l ++ d :: r ∧ ∀ e ∈ before ++ l, e.q = d.q → e.segment = false ∧ d.segment = true ∧ part d.q = true
  | _, [], h => by simp [firstFree] at h
  | before, e :: ds, h => by
    rw [firstFree] at h
    split at h
    next hc =>
      cases h
      refine ⟨[], ds, rfl, fun x hx hq => ?_⟩
      have := (Bool.and_eq_true _ _ ▸ hc).2
      simp only [List.all_eq_true] at this
      have hx' := this x (by simpa using hx)
      simp_all
    next =>
      obtain ⟨l, r, hl, ho⟩ := firstFree_order h
      exact ⟨e :: l, r, by simp [hl], fun x hx => ho x (by simpa using hx)⟩

/-! ### The wait of an engine's request (R508) -/

@[simp] theorem since_none (old : Option (Nat × Nat)) (now : Nat) : since old now none = none := rfl
@[simp] theorem since_new (now n : Nat) : since none now (some n) = some (n, now) := rfl
/-- A request that goes on for the same billet keeps its instant. -/
@[simp] theorem since_same (n t now : Nat) : since (some (n, t)) now (some n) = some (n, t) := by simp [since]
/-- Another billet is another request. -/
theorem since_other {m n : Nat} (t now : Nat) (h : m ≠ n) : since (some (m, t)) now (some n) = some (n, now) := by
  simp [since, h]

/-! ### Bursts -/

@[simp] theorem State.playBurst_queues (c : YId) (b : Burst) : (s.playBurst c b).queues = s.queues := by
  unfold State.playBurst
  dsimp only
  split <;> split <;> rfl

@[simp] theorem State.testBursts_queues (c : YId) : ∀ (n : Nat) (s : State), (State.testBursts n s c).queues = s.queues
  | 0, _ => rfl
  | n + 1, s => by rw [State.testBursts, State.testBursts_queues c n, State.playBurst_queues]

/-! ### Steps that do nothing where their condition does not hold -/

theorem State.edgeCame_of_running {n : PId} (h : (s.po n).stopped = false) : s.edgeCame n = s := by simp [State.edgeCame, h]
theorem State.holdLow_of_enough {n : PId} (h : (s.po n).starved = false) : s.holdLow n = s := by simp [State.holdLow, h]
theorem State.bootTrain_of_not (h : s.mayTrain = false) : s.bootTrain = s := by simp [State.bootTrain, h]
theorem State.warmOn_of_not (h : s.boot.warm = false) : s.warmOn = s := by simp [State.warmOn, h]
theorem State.govNext_of_runs (h : s.govRuns = true) : s.govNext = s := by simp [State.govNext, h]
theorem Chan.lockSet_of_locked {x : Chan} {f : Freq} (t : Nat) (h : f.locked = true) : x.lockSet f t = x := by
  simp [Chan.lockSet, h]
theorem Chan.freqEdge_of_none {x : Chan} (t : Nat) (h : x.freq = none) : x.freqEdge t = x := by simp [Chan.freqEdge, h]

end Sys2Proof.Machine
end

