-- ==== Sys2Proof/Laws/Table.lean ====
section
/-!
SUPPORT. Laws of the sparse table: reading after a write, and the canonical form that a write keeps.
-/

namespace Sys2Proof

variable {α : Type} [DecidableEq α] (d : α)

/-- Every key of the table is above `k`. -/
def Table.above (k : Nat) (t : Table α) : Prop := ∀ e ∈ t, k < e.1

theorem Table.wf_cons (k : Nat) (v : α) (t : Table α) :
    Table.wf d ((k, v) :: t) = true ↔ v ≠ d ∧ Table.above k t ∧ Table.wf d t = true := by
  induction t generalizing k v with
  | nil => simp [Table.wf, Table.above]
  | cons e t ih =>
    obtain ⟨k', w⟩ := e
    have h := ih k' w
    constructor
    · intro g
      rw [Table.wf] at g
      simp only [Bool.and_eq_true, decide_eq_true_eq] at g
      obtain ⟨⟨g1, g2⟩, g3⟩ := g
      refine ⟨g1, ?_, g3⟩
      obtain ⟨-, h2, -⟩ := h.1 g3
      intro e he
      rcases List.mem_cons.1 he with rfl | he
      · exact g2
      · exact lt_trans g2 (h2 e he)
    · rintro ⟨g1, g2, g3⟩
      rw [Table.wf]
      simp only [Bool.and_eq_true, decide_eq_true_eq]
      exact ⟨⟨g1, g2 _ (List.mem_cons_self ..)⟩, g3⟩

omit [DecidableEq α] in
theorem Table.get_above (k : Nat) (t : Table α) (h : Table.above k t) : Table.get d t k = d := by
  induction t with
  | nil => rfl
  | cons e t ih =>
    obtain ⟨k', w⟩ := e
    have : k < k' := h (k', w) (List.mem_cons_self ..)
    have g := ih fun e he => h e (List.mem_cons_of_mem _ he)
    simp [Table.get, Nat.ne_of_gt this, g]

theorem Table.put_above (j k : Nat) (v : α) (t : Table α) (h : Table.above j t) (hk : j < k) :
    Table.above j (Table.put d t k v) := by
  induction t with
  | nil =>
    unfold Table.put
    split
    · intro e he; cases he
    · intro e he
      rcases List.mem_singleton.1 he with rfl
      exact hk
  | cons e t ih =>
    obtain ⟨k', w⟩ := e
    have h1 : j < k' := h (k', w) (List.mem_cons_self ..)
    have h2 : Table.above j t := fun e he => h e (List.mem_cons_of_mem _ he)
    unfold Table.put
    intro e he
    split at he
    · split at he
      · exact h2 e he
      · rcases List.mem_cons.1 he with rfl | he
        · exact hk
        · exact h2 e he
    · split at he
      · split at he
        · exact h e he
        · rcases List.mem_cons.1 he with rfl | he
          · exact hk
          · exact h e he
      · rcases List.mem_cons.1 he with rfl | he
        · exact h1
        · exact ih h2 e he

/-- A write keeps the canonical form. -/
theorem Table.put_wf (k : Nat) (v : α) (t : Table α) (h : Table.wf d t = true) :
    Table.wf d (Table.put d t k v) = true := by
  induction t with
  | nil =>
    unfold Table.put
    split
    · rfl
    · rename_i hv
      exact (Table.wf_cons d k v []).2 ⟨hv, (fun e he => nomatch he), rfl⟩
  | cons e t ih =>
    obtain ⟨k', w⟩ := e
    obtain ⟨h1, h2, h3⟩ := (Table.wf_cons d k' w t).1 h
    unfold Table.put
    split
    · rename_i hk
      subst hk
      split
      · exact h3
      · rename_i hv
        exact (Table.wf_cons d _ v t).2 ⟨hv, h2, h3⟩
    · split
      · rename_i hk
        split
        · exact h
        · rename_i hv
          refine (Table.wf_cons d k v _).2 ⟨hv, ?_, h⟩
          intro e he
          rcases List.mem_cons.1 he with rfl | he
          · exact hk
          · exact lt_trans hk (h2 e he)
      · rename_i hk hk'
        exact (Table.wf_cons d k' w _).2 ⟨h1, Table.put_above d k' k v t h2 (by omega), ih h3⟩

/-- Reading the key just written. -/
theorem Table.get_put (k : Nat) (v : α) (t : Table α) (h : Table.wf d t = true) :
    Table.get d (Table.put d t k v) k = v := by
  induction t with
  | nil =>
    unfold Table.put
    split
    · rename_i hv; simp [Table.get, hv]
    · simp [Table.get]
  | cons e t ih =>
    obtain ⟨k', w⟩ := e
    obtain ⟨h1, h2, h3⟩ := (Table.wf_cons d k' w t).1 h
    unfold Table.put
    split
    · rename_i hk
      subst hk
      split
      · rename_i hv; rw [Table.get_above d _ t h2, hv]
      · simp [Table.get]
    · split
      · split
        · rename_i hk hv
          rw [hv]
          exact Table.get_above d k _ fun e he => by
            rcases List.mem_cons.1 he with rfl | he
            · exact hk
            · exact lt_trans hk (h2 e he)
        · simp [Table.get]
      · rename_i hk hk'
        simp [Table.get, hk, ih h3]

/-- Reading another key than the one written. -/
theorem Table.get_put_ne (k j : Nat) (v : α) (t : Table α) (hj : j ≠ k) :
    Table.get d (Table.put d t k v) j = Table.get d t j := by
  induction t with
  | nil =>
    unfold Table.put
    split
    · rfl
    · simp [Table.get, hj.symm]
  | cons e t ih =>
    obtain ⟨k', w⟩ := e
    unfold Table.put
    split
    · rename_i hk
      subst hk
      split <;> simp [Table.get, hj.symm]
    · split
      · split
        · rfl
        · simp [Table.get, hj.symm]
      · simp [Table.get, ih]

end Sys2Proof
end

