-- ==== Sys2Proof/WellFormed.lean ====
section
/-!
DEFINITION. Commands whose operands are what the spec's events can carry: list lengths and ranges that the types leave open.
-/

namespace Sys2Proof

/-- A lane's measurement: at most 128 taps of RDDLY, 256 of WRDLY, 26 VrefDQ codes, a gate window in order (Table 9.3). -/
def LaneMeas.wf (m : LaneMeas) : Bool :=
  decide (m.rd.length ≤ 128) && decide (m.wr.length ≤ 256) && decide (m.wr2.length ≤ 256) && decide (m.eyes.length ≤ 26)
  && (match m.gate with
    | some (a, b) => decide (a ≤ b ∧ b < 2048)
    | none => true)

/-- A sweep's measurements: ten lanes per rank. -/
def SweepData.wf (m : SweepData) : Bool :=
  decide (m.rank0.length = 10) && decide (m.rank1.length = 10) && m.rank0.all LaneMeas.wf && m.rank1.all LaneMeas.wf

/-- A tracking update moves each delay by at most one tap (R267). -/
def TrackMove.wf (m : TrackMove) : Bool := decide (-1 ≤ m.rd ∧ m.rd ≤ 1 ∧ -1 ≤ m.gate ∧ m.gate ≤ 1)

/-- A command is well formed. -/
def Instr.wf : Instr → Bool
  | .egressRead _ _ _ ecc _ => decide (ecc.length ≤ 8)
  | .refillStaveArrival _ _ beats => decide (beats.length = 4)
  | .burstIssue _ _ ecc => decide (ecc.length ≤ 2)
  | .sweepDone _ m => m.wf
  | .patternRunDone _ mism clean => decide (clean + mism.length ≤ 1024)
  | .dqsTracking _ _ moves => decide (moves.length = 10) && moves.all TrackMove.wf
  | .staveFrame _ data => decide (data.length = 8)
  | .staveSend _ ecc => decide (ecc.length ≤ 2)
  | .sequentialWrite _ vals odd => odd || !vals.isEmpty
  | _ => true

end Sys2Proof
end

