-- ==== Sys2Proof/Tests/Slice0.lean ====
section
/-!
SUPPORT. Tests on fixed values: the well-formedness checks, a witness for the hypotheses of each statement, clause by clause,
and small one-step tests whose expected results come from the spec.
-/

namespace Sys2Proof.Tests

open Sys2Proof.Machine

/-! ### Small states -/

/-- A part in service: started, READY, enabled, both channels trained and ACTIVE, every timer of REFCLK run out. -/
def up : State :=
  { State.reset with
    boot := { State.reset.boot with porst := true, stage := 8, sensed := true, trained := true }
    dp := { Direct.reset with en := true, ready := true, readySeen := true }
    time := { Time.reset with ticks := 20000000, sec := 86400, adv := 10 ^ 30, ppsMiss := false }
    chans := Vector.replicate 2 { Chan.reset with st := .active, prior := .active, resetN := true, phyClk := true, carryA := true } }

/-- A part in service whose lock `l` path A holds. -/
def upLock (l : LockId) : State := up.takeLock l 1

/-- A queue of 32,768 slots in the Landing, enabled. -/
def qOn : Queue := { Queue.reset with en := true, map := some ⟨4, 0, 0, 1, 0, 0⟩ }

/-- An enabled stream-mode ingress port of width 1 that holds four credits of each queue, its flags up. -/
def pIn : Port :=
  { Port.reset with
    en := true, held := Vector.replicate 16 4, crossed := Vector.replicate 16 (false, false)
    pins := ⟨.high, .high, .high, .z, 0, 0, true⟩ }

/-- An enabled stream-mode egress port of width 1. -/
def pOut : Port :=
  { Port.reset with
    en := true, lcfg := 1, crossed := Vector.replicate 16 (false, false), pins := ⟨.high, .high, .high, .low, 0, 0, false⟩ }

/-- Queue 0 on, filled from port 0, read by port 2 of its own. -/
def flow : State :=
  ((up.setQu 0 { qOn with qcfg := VWord.of 2 }).setPo 0 pIn).setPo 2 pOut

/-- The same with ports 0 and 1 a pair. -/
def pairFlow : State := flow.setPo 0 { pIn with lcfg := 0x20, cfg := 0x20 }

/-! ### Well-formedness: one ill-formed term for each check, and a well-formed one -/

def laneOk : LaneMeas := ⟨none, none, [], [], [], [], false⟩
def sweepOk : SweepData := ⟨List.replicate 10 laneOk, List.replicate 10 laneOk⟩

theorem test_wf_egressRead : (Instr.egressRead 0 true 0 (List.replicate 9 .clean) .enough).wf = false := by decide
theorem test_wf_refillStaveArrival : (Instr.refillStaveArrival 0 0 [.clean]).wf = false := by decide
theorem test_wf_burstIssue : (Instr.burstIssue 0 0 [.clean, .clean, .clean]).wf = false := by decide
theorem test_wf_patternRunDone : (Instr.patternRunDone 0 (List.replicate 5 0) 1020).wf = false := by decide
theorem test_wf_sweepDone_lanes : (Instr.sweepDone 0 ⟨[laneOk], List.replicate 10 laneOk⟩).wf = false := by decide
theorem test_wf_sweepDone_rank1 : (Instr.sweepDone 0 ⟨List.replicate 10 laneOk, [laneOk]⟩).wf = false := by decide
theorem test_wf_lane_gate : ({ laneOk with gate := some (5, 4) } : LaneMeas).wf = false := by decide
theorem test_wf_lane_gate_range : ({ laneOk with gate := some (5, 2048) } : LaneMeas).wf = false := by decide
theorem test_wf_lane_rd : ({ laneOk with rd := List.replicate 129 true } : LaneMeas).wf = false := by
  rw [LaneMeas.wf, List.length_replicate]; decide
theorem test_wf_lane_wr : ({ laneOk with wr := List.replicate 257 true } : LaneMeas).wf = false := by
  rw [LaneMeas.wf, List.length_replicate]; decide
theorem test_wf_lane_wr2 : ({ laneOk with wr2 := List.replicate 257 true } : LaneMeas).wf = false := by
  rw [LaneMeas.wf, List.length_replicate]; decide
theorem test_wf_lane_eyes : ({ laneOk with eyes := List.replicate 27 0 } : LaneMeas).wf = false := by decide
theorem test_wf_dqsTracking_lanes : (Instr.dqsTracking 0 false [⟨0, 0⟩]).wf = false := by decide
theorem test_wf_dqsTracking_move : (Instr.dqsTracking 0 false (⟨2, 0⟩ :: List.replicate 9 ⟨0, 0⟩)).wf = false := by decide
theorem test_wf_staveFrame : (Instr.staveFrame 0 [0]).wf = false := by decide
theorem test_wf_staveSend : (Instr.staveSend 0 [.clean, .clean, .clean]).wf = false := by decide
theorem test_wf_sequentialWrite : (Instr.sequentialWrite 0 [] false).wf = false := by decide
theorem test_wf_good : (Instr.sweepDone 0 sweepOk).wf = true ∧ (Instr.staveFrame 0 (List.replicate 8 0)).wf = true
    ∧ (Instr.dqsTracking 0 true (List.replicate 10 ⟨1, -1⟩)).wf = true ∧ (Instr.sequentialWrite 0 [] true).wf = true := by
  decide

/-! ### Ready proofs of common hypotheses -/

theorem host {s : State} {p : Path} (h : (s.writable p && !s.dp.fatal) = true) : s.hostWrites p := by
  simpa [State.hostWrites] using h

/-- The copies of the three locks agree. -/
def locksAgree (s : State) : Bool :=
  [LockId.config, .time, .dram].all fun l => s.vget (.lock l) == VWord.of (s.vget (.lock l)).val

theorem locks {s : State} (h : locksAgree s = true) (b : Bank) (off : Nat) : s.lockAgrees b off := by
  simp only [locksAgree, List.all_cons, List.all_nil, Bool.and_eq_true, beq_iff_eq] at h
  intro l _
  cases l
  · exact h.1
  · exact h.2.1
  · exact h.2.2.1

theorem may {s : State} {p : Path} {b : Bank} {off : Nat}
    (h : (s.writable p && !s.dp.fatal && (s.writeRefusal p b off == none) && locksAgree s) = true) : s.mayWrite p b off := by
  simp only [Bool.and_eq_true, Bool.not_eq_true', beq_iff_eq] at h
  exact ⟨⟨h.1.1.1, h.1.1.2⟩, h.1.2, locks h.2 b off⟩

theorem lands {s : State} {p : Path} {b : Bank} {off : Nat}
    (h : (s.writable p && !s.dp.fatal && (s.writeRefusal p b off == none) && locksAgree s && !(s.path p).busy && s.clockOn b)
      = true) : s.landsNow p b off := by
  simp only [Bool.and_eq_true, Bool.not_eq_true', beq_iff_eq] at h
  exact ⟨⟨⟨h.1.1.1.1.1, h.1.1.1.1.2⟩, h.1.1.1.2, locks h.1.1.2 b off⟩, h.1.2, h.2⟩

theorem wfEv {s : State} (h : Table.wf EvCell.zero s.events = true) : s.eventsWf := h

theorem quiet {s : State} (h : s.pathA.readWait = none ∧ s.pathB.readWait = none) : s.noReads := by
  intro p; cases p
  · exact h.1
  · exact h.2

theorem up_noReads : up.noReads := quiet (by decide)

/-- A queue whose books balance, each part by its value. -/
theorem books {x : Queue} (h : x.h = x.marks.headD x.r ∧ ((x.marks ++ [x.r, x.f]).map x.off).Pairwise (· ≤ ·) ∧
    x.off x.f ≤ x.held.length ∧ x.occ = x.held.length % 2 ^ 48 ∧ x.wcnt - x.rcnt - x.dcnt = x.w - x.f) : x.Books :=
  ⟨h.1, h.2.1, h.2.2.1, h.2.2.2.1, h.2.2.2.2⟩

theorem up_books (q : QId) : (up.qu q).Books := by
  have h : up.qu q = Queue.reset := by revert q; decide
  rw [h]; exact books (by decide)

theorem up_inv : up.Inv :=
  ⟨by decide, by decide, by decide, by decide, by decide, by decide, by decide, by decide, by decide, up_books⟩

/-- A word is voted as agreed. -/
theorem agreed_of {s : State} {r : VRef} (h : (s.vget r == VWord.of (s.vget r).val) = true) : s.agrees r := beq_iff_eq.1 h

/-- The copies of every voted word of `up` agree. -/
theorem up_agreed : up.agreed := by
  intro r
  apply agreed_of
  cases r with
  | queue q i => revert q i; decide
  | sortYard e hi => revert e hi; decide
  | lock l => cases l <;> decide
  | tset c b i => revert c b i; decide
  | _ => decide

/-! ### Witnesses: the block as a whole -/

theorem witness_StepRunsFront : State.reset.pending = [] := rfl

/-- `up` with a command that waits. -/
def upNext : State := { up with pending := [.hrstRise] }

theorem witness_StepKeepsInvariant : upNext.Inv ∧ ∃ t, step upNext = .next t :=
  ⟨⟨by decide, by decide, by decide, by decide, by decide, by decide, by decide, by decide, by decide, up_books⟩, _, rfl⟩

/-- `up` after both write-once words have been written. -/
def written : State := { up with dp := { up.dp with sealDone := true, sealV := 0x5EA1, slotDone := true, slotId := 7 } }

theorem witness_WriteOnceHolds :
    (∃ t, exec (.sealWrite .a 0) written = .next t) ∧ (∀ ns, Instr.sealWrite .a 0 ≠ .porstLow ns) ∧
    (∀ x, Instr.sealWrite .a 0 ≠ .supplyFault x) ∧ written.dp.sealDone = true ∧ written.dp.slotDone = true :=
  ⟨⟨_, rfl⟩, nofun, nofun, rfl, rfl⟩

/-- `up` in FATAL. -/
def fatal : State := up.enterFatal

theorem witness_FatalEndsByResetAlone :
    ∃ t, exec (.porstLow 200) fatal = .next t ∧ fatal.dp.fatal = true ∧ t.dp.fatal = false := ⟨_, rfl, rfl, rfl⟩

/-! ### Witnesses: power, start-up and resets -/

/-- The levels of the supplies and of PORST# after a command. -/
def supplyOf (c : Instr) (s : State) : Option (Vector Bool 5 × Bool) :=
  match exec c s with
  | .next t => some (t.boot.supplies, t.boot.porst)
  | _ => none

theorem witness_PowerOnReset : (199 : Nat) < 200 ∧ (200 : Nat) ≤ 200 ∧ Supply.vdda ≠ .vddio ∧
    supplyOf (.porstLow 200) up = some (#v[true, true, true, true, true], false) ∧
    supplyOf (.porstLow 200) (up.setSupply .vcore false) = some (#v[false, true, true, true, true], false) ∧
    supplyOf (.supplyFault .vddio) up = some (#v[true, false, true, true, true], true) ∧
    supplyOf (.supplyFault .vddq1) up = some (#v[true, true, true, false, true], true) := by decide

/-- Held in POR by supplies alone. -/
def unsupplied : State := ({ State.reset with boot := { State.reset.boot with porst := true } }).setSupply .vddq1 false

/-- Start-up in step 3, which waits for REFCLK or for the sensors. -/
def step3 (clk sensed train : Bool) : State :=
  { State.reset with
    boot := { State.reset.boot with
      porst := true, stage := 3, sensed := sensed, straps := { State.reset.boot.straps with boottrn := train } }
    time := { Time.reset with refclk := clk } }

/-- Start-up in step 7. -/
def step7 : State :=
  ({ State.reset with boot := { State.reset.boot with porst := true, stage := 7, trained := true } }).takeLock .dram 3

/-- Start-up past step 4, which waits for the lock that path A holds. -/
def step5 : State :=
  ({ State.reset with boot := { State.reset.boot with porst := true, stage := 5, sensed := true } }).takeLock .dram 1

/-- A warm device reset about to end, without and with FATAL. -/
def warm : State := { up with boot := { up.boot with warm := true, warmed := 2 }, dp := { up.dp with ready := false } }
def warmFatal : State := { warm with dp := { warm.dp with fatal := true } }

theorem witness_StartUp : State.reset.boot.porst = false ∧ State.reset.supplied = true ∧
    (State.reset.setSupply .vdda false).boot.porst = false ∧ (State.reset.setSupply .vdda false).supplied = false ∧
    unsupplied.boot.porst = true ∧ unsupplied.supplied = false ∧ (unsupplied.setSupply .vddq1 true).supplied = true ∧
    (unsupplied.setSupply .vddq0 true).supplied = false := by decide

theorem witness_StartUp_stepThree : ∀ train : Bool,
    ((step3 false true train).powered = true ∧ (step3 false true train).boot.stage = 3 ∧
      (step3 false true train).dp.fatal = false ∧ (step3 false true train).boot.carding = false ∧
      (step3 false true train).boot.trained = false ∧
      Table.wf EvCell.zero (step3 false true train).events = true ∧
      (∀ c, ((step3 false true train).ch c).st = .untrained) ∧ (step3 false true train).dramFree = true ∧
      ((step3 false true train).takeLock .dram 1).dramFree = false ∧
      (step3 false true train).time.refclk = false ∧ (step3 false true train).boot.sensed = true) ∧
    ((step3 true false train).powered = true ∧ (step3 true false train).boot.stage = 3 ∧
      (step3 true false train).dp.fatal = false ∧ (step3 true false train).boot.carding = false ∧
      (step3 true false train).time.refclk = true ∧ (619 : Int) < 620) := by decide

theorem witness_StartUp_stepThree_reads : ∀ a b c, (step3 a b c).noReads := fun _ _ _ => quiet ⟨rfl, rfl⟩

theorem witness_StartUp_stepFive : step5.hostWrites .a ∧ step5.time.refclk = true ∧ step5.bootWaits = true ∧
    step5.agrees (.lock .dram) ∧ step5.holds .a .dram = true ∧ ∀ c, (step5.ch c).st = .untrained :=
  ⟨host (by decide), by decide, by decide, agreed_of (by decide), by decide, by decide⟩

theorem witness_StartUpComplete : step7.powered = true ∧ step7.dp.fatal = false ∧ step7.boot.stage = 7 ∧
    (∀ c, (step7.ch c).sweeping = none) ∧ (step7.lock .dram).holder = VWord.of 3 := by decide

theorem witness_WarmResetComplete : warm.powered = true ∧ warm.boot.warm = true ∧ warm.boot.halted = false ∧
    warm.time.refclk = true ∧ warm.dp.fatal = false ∧ warm.boot.warmed = 2 ∧
    (∀ c, (warm.ch c).sweeping = none ∧ (warm.ch c).waiting = none ∧ (warm.ch c).noRef = false ∧
      (warm.ch c).must = Vector.replicate 2 false) ∧
    warmFatal.powered = true ∧ warmFatal.boot.warm = true ∧ warmFatal.boot.halted = false ∧ warmFatal.time.refclk = true ∧
    warmFatal.dp.fatal = true := by decide

/-- The three voltage-governor words agree. -/
def govAgree (s : State) : Bool :=
  [VRef.floor, .ceil, .margin].all fun r => s.vget r == VWord.of (s.vget r).val

theorem govAgrees {s : State} (h : govAgree s = true) : s.agrees .floor ∧ s.agrees .ceil ∧ s.agrees .margin := by
  simpa [govAgree, State.agrees] using h

theorem witness_WarmResetComplete_words : warm.agrees .floor ∧ warm.agrees .ceil ∧ warm.agrees .margin := govAgrees (by decide)

theorem up_cool : ∀ x ∈ up.gov.tsens.toList, sint x < 620 := by
  have h : up.gov.tsens = Vector.replicate 4 0 := by decide
  intro x hx
  rw [h, Vector.mem_toList_iff, Vector.mem_replicate] at hx
  rw [hx.2]; decide

theorem witness_WarmReset : up.writable .a = true ∧ up.writable .b = true ∧ up.boot.stage = 8 ∧ up.dp.fatal = false ∧
    up.agreed ∧ ∀ x ∈ up.gov.tsens.toList, sint x < 620 :=
  ⟨by decide, by decide, by decide, by decide, up_agreed, up_cool⟩

theorem witness_WarmReset_channels :
    (up.time.refclk = true ∧ up.tempMoved 0 = false ∧ (up.ch 0).st = .active) ∧
    ({ up with dp := { up.dp with temp := 80 } } : State).tempMoved 1 = true ∧
    (((up.setCh 0 { up.ch 0 with st := .absent })).ch 0).st = .absent ∧
    ({ up with time := { up.time with refclk := false } } : State).time.refclk = false := by decide

/-- What a warm device reset from path A leaves of a channel: state, whether step 5 is over for it, and its waiting sweep. -/
def warmed (s : State) (c : YId) : Option (Bool × ChState × Bool) :=
  match exec (.warmDeviceReset .a true true 0 []) s with
  | .next t => some ((t.ch 0).warmed, (t.ch c).st, (t.ch c).waiting.isSome)
  | _ => none

set_option maxRecDepth 30000 in
theorem witness_WarmReset_order : warmed up 1 = some (false, .selfref, false) ∧
    warmed (up.setCh 0 { up.ch 0 with st := .untrained, carryA := false }) 1 = some (true, .active, false) := by decide

theorem witness_WarmReset_hot :
    ∃ x ∈ ({ up with gov := { up.gov with tsens := #v[0, 0, 620, 0] } } : State).gov.tsens.toList, 620 ≤ sint x :=
  ⟨620, by decide, by decide⟩

theorem witness_WarmReset_upset : VRef.discMode ∈ porRefs ∧ VRef.queue 3 0 ∈ porRefs ∧ (8 : Word) ≠ 0 ∧ (∀ q i, VRef.discMode ≠ .queue q i) ∧ (1 : Word) ≠ 2 ∧
    (1 : Word) ≠ 4 ∧ (2 : Word) ≠ 4 :=
  ⟨by decide, by decide, by decide, nofun, by decide, by decide, by decide⟩

/-- `up` with every lock held by path A, HOLD set on channel 0, which is held, and on channel 1, which is not. -/
def allHeld : State :=
  (((up.takeLock .config 1).takeLock .time 1).takeLock .dram 1
    |>.setCh 0 { up.ch 0 with st := .drain, hold := true, heldHost := true }).setCh 1 { up.ch 1 with hold := true }

theorem witness_PathResets : (99 : Nat) < 100 ∧ (100 : Nat) ≤ 100 ∧ State.reset.powered = false ∧ up.powered = true ∧
    (0x05 : BitVec 8) ≠ 0x06 ∧ allHeld.powered = true ∧ allHeld.bootWaits = false ∧ allHeld.eventsWf ∧
    (Path.a = .a ∧ ∃ ns, 100 ≤ ns ∧ Instr.pathAReset 100 = .pathAReset ns) ∧
    (Path.b = .b ∧ Instr.generalCallReset 0x06 = .generalCallReset 0x06) ∧
    (∀ l, allHeld.holds .a l = true ∧ up.holds .a l = false) ∧
    ((allHeld.ch 0).hold = true ∧ (allHeld.ch 0).heldHost = true ∧ (allHeld.ch 1).hold = true ∧
      (allHeld.ch 1).heldHost = false ∧ (allHeld.ch 1).st ≠ .drain ∧ (up.ch 0).hold = false) :=
  ⟨by decide, by decide, by decide, by decide, by decide, by decide, by decide, wfEv (by decide), ⟨rfl, 100, by decide, rfl⟩, ⟨rfl, rfl⟩,
    fun l => by cases l <;> decide, by decide⟩

/-- `up` while REFCLK is absent; channel 1 in a drain. -/
def noRefclk : State := { up with
  time := { up.time with refclk := false }
  chans := #v[{ up.ch 0 with st := .selfref, noRef := true, phyClk := false }, { up.ch 1 with st := .drain, phyClk := false }] }

theorem witness_Refclk : up.powered = true ∧ (up.ch 0).st = .active ∧
    ((noRefclk.ch 1).st = .drain ∧ (noRefclk.ch 1).prior = .active) ∧
    ((up.setCh 0 { up.ch 0 with st := .freqsw }).ch 0).prior = .active ∧
    ((up.setCh 0 { up.ch 0 with st := .failed }).ch 0).st = .failed ∧ noRefclk.powered = true ∧
    noRefclk.time.refclk = false ∧ 3 < noRefclk.boot.stage ∧ noRefclk.dp.fatal = false ∧ noRefclk.boot.warm = false ∧
    noRefclk.bootWaits = false ∧ noRefclk.noReads ∧ (noRefclk.ch 0).noRef = true ∧ (noRefclk.ch 0).st = .selfref ∧
    (noRefclk.ch 1).noRef = false :=
  ⟨by decide, by decide, by decide, by decide, by decide, by decide, by decide, by decide, by decide, by decide, by decide, quiet (by decide),
    by decide⟩

/-! ### Witnesses: sensors, HEART, governor, voting -/

theorem witness_Sensors : up.powered = true ∧ 4 ≤ up.boot.stage ∧ up.boot.stage ≠ 3 ∧ up.boot.warm = false ∧ up.noReads ∧
    (620 : Int) ≤ 620 ∧ (619 : Int) < 620 ∧ (up.ch 0).pend = none ∧ (up.ch 0).st = .active ∧ (up.ch 0).holdReq = none ∧
    (up.ch 0).heldHost = false ∧ (up.ch 0).sweeping = none ∧ up.dp.fatal = false ∧ up.tempMoved 0 = false ∧
    ({ up with dp := { up.dp with temp := 400 } } : State).tempMoved 0 = true :=
  ⟨by decide, by decide, by decide, by decide, up_noReads, by decide⟩

theorem witness_Heart : up.dp.heartAt ≤ 32 * up.time.ticks ∧
    (up.powered = true ∧ up.dp.readySeen = true ∧ up.dp.heartEn = true ∧ up.dp.fatal = false ∧ up.time.refclk = true ∧
      up.boot.warm = false ∧ ∀ c, (up.ch c).noRef = false ∧ (up.ch c).must = Vector.replicate 2 false) ∧
    fatal.dp.heartAt ≤ 32 * fatal.time.ticks ∧ fatal.dp.fatal = true ∧
    32 * State.reset.time.ticks < ({ State.reset with dp := { Direct.reset with heartAt := 1 } } : State).dp.heartAt := by decide

/-- `up` with the governor at a code and in a mode. -/
def gov (code : Nat) (mode : Word) : State := { up with gov := { up.gov with code := code, mode := mode } }

theorem witness_Governor : up.powered = true ∧ 7 ≤ up.boot.stage ∧ up.dp.fatal = false ∧ up.boot.warm = false ∧
    up.time.refclk = true ∧ up.gov.tick + 5000 ≤ up.time.ticks ∧ State.reset.time.ticks < State.reset.gov.tick + 5000 ∧
    (fatal.powered = true ∧ fatal.dp.fatal = true ∧ fatal.time.refclk = true ∧ fatal.gov.tick + 5000 ≤ fatal.time.ticks) ∧
    (warm.powered = true ∧ warm.dp.fatal = false ∧ warm.boot.warm = true) := by decide

theorem witness_Governor_cases :
    (gov 5 0).gov.code < (gov 5 0).gov.effFloor ∧ ((gov 16 0).gov.effFloor ≤ (gov 16 0).gov.code ∧
      (gov 16 0).gov.effCeil < (gov 16 0).gov.code) ∧
    ((gov 6 0).gov.effFloor ≤ (gov 6 0).gov.code ∧ (gov 6 0).gov.code ≤ (gov 6 0).gov.effCeil ∧ (gov 6 0).gov.fixed = false ∧
      (gov 6 0).gov.code < (gov 6 0).gov.effCeil ∧ (gov 7 0).gov.effFloor < (gov 7 0).gov.code) ∧
    ((gov 15 1).gov.effFloor ≤ (gov 15 1).gov.code ∧ (gov 15 1).gov.code ≤ (gov 15 1).gov.effCeil ∧
      (gov 15 1).gov.fixed = true) := by decide

theorem witness_Governor_words : up.agrees .floor ∧ up.agrees .ceil ∧ up.agrees .margin := govAgrees (by decide)

theorem witness_Scrubber : up.powered = true ∧ 3 ≤ up.boot.stage ∧ up.eventsWf ∧ up.agreed ∧
    ([⟨.floor, ⟨1, 0, 0⟩⟩, ⟨.queue 15 6, ⟨0, 0, 2⟩⟩] : List Upset).map (·.ref) = [.floor, .queue 15 6] ∧
    [VRef.floor, .queue 15 6].Nodup ∧ (1 : Word) ≠ 0 ∧ (1 : Word) ≠ 2 ∧ (1 : Word) ≠ 4 ∧ (2 : Word) ≠ 4 :=
  ⟨by decide, by decide, wfEv (by decide), up_agreed, rfl, by decide, by decide, by decide, by decide, by decide⟩

/-! ### Witnesses: ports -/

theorem flow_noReads : flow.noReads := quiet (by decide)

theorem notBody {x : Port} (h : x.fsm = .idle) : ∀ l k, x.fsm ≠ .body l k := by
  intro l k e; rw [h] at e; cases e

/-- Port 0 resetting. -/
def resetting : State := flow.setPo 0 { pIn with resetting := true }

/-- Queue 0 with a MARK that waits for port 2. -/
def markWaits : State := flow.setQu 0 { flow.qu 0 with markPend := some .mark }

theorem markWaits_noLost : (markWaits.qu 0).noLost := by unfold Queue.noLost; decide

theorem witness_PortClockAndFlags : flow.powered = true ∧ 3 ≤ flow.boot.stage ∧ flow.noReads ∧ flow.time.refclk = true ∧
    (∀ q, (flow.qu q).markPend = none) ∧ (flow.po (flow.master 0)).staging = [] ∧ flow.portActive 0 = true ∧
    flow.portActive 2 = true ∧ pairFlow.portActive 0 = true ∧ pairFlow.paired 0 = true ∧
    flow.showNow 0 (flow.po 0).shown = (flow.po 0).shown ∧ (flow.po 0).starved = false ∧
    ((flow.modPo 2 fun x => { x with starved := true }).po 2).starved = true :=
  ⟨by decide, by decide, flow_noReads, by decide⟩

theorem witness_PortClockAndFlags_mark : markWaits.powered = true ∧ 3 ≤ markWaits.boot.stage ∧
    (markWaits.qu 0).markPend = some .mark ∧ markWaits.midSegment 0 = false ∧ (markWaits.qu 0).chainRead = false ∧
    markWaits.namedPort 0 = 2 ∧ (markWaits.qu 0).noLost :=
  ⟨by decide, by decide, by decide, by decide, by decide, by decide, markWaits_noLost⟩

/-- Port 0 about to form a pair with port 1, and about to leave it. -/
def pairs : State := up.setPo 0 { Port.reset with cfg := 0x20 }
def unpairs : State := up.setPo 0 { Port.reset with lcfg := 0x20 }

/-- Port 0 about to form its pair while port 1 has a segment open. -/
def pairsOpen : State := pairs.setPo 1 { pIn with lcfg := 0x40, fsm := .body (some 1) 3, staging := [.pay 0 false] }
theorem pairsOpen_noReads : pairsOpen.noReads := quiet (by decide)
theorem pairsOpen_open : ∃ l k, (pairsOpen.po (upperPort 0)).fsm = .body l k := ⟨some 1, 3, by decide⟩

theorem witness_PortEnables_pairing : pairsOpen.landsNow .a (.port 0) 0 ∧ pairsOpen.isUpper 0 = false ∧ pairsOpen.noReads ∧
    (pairsOpen.po 0).en = false ∧ pairsOpen.paired 0 = false ∧ (pairsOpen.po 0).cfg.getLsbD 5 = true :=
  ⟨lands (by decide), by decide, pairsOpen_noReads, by decide⟩

theorem pairs_noReads : pairs.noReads := quiet (by decide)
theorem unpairs_noReads : unpairs.noReads := quiet (by decide)

theorem witness_PortEnables_enable :
    (up.landsNow .a (.port 0) 0 ∧ up.isUpper 0 = false ∧ up.noReads ∧ (up.po 0).en = false ∧ up.paired 0 = false) ∧
    (pairs.landsNow .a (.port 0) 0 ∧ pairs.isUpper 0 = false ∧ pairs.noReads ∧ (pairs.po 0).en = false ∧
      (pairs.po (upperPort 0)).staging = [] ∧ ∀ l k, (pairs.po (upperPort 0)).fsm ≠ .body l k) ∧
    (unpairs.landsNow .a (.port 0) 0 ∧ unpairs.isUpper 0 = false ∧ unpairs.noReads ∧ (unpairs.po 0).en = false ∧
      unpairs.paired 0 = true) :=
  ⟨⟨lands (by decide), by decide, up_noReads, by decide⟩,
    ⟨lands (by decide), by decide, pairs_noReads, by decide, by decide, notBody (by decide)⟩,
    lands (by decide), by decide, unpairs_noReads, by decide⟩

theorem pairFlow_noReads : pairFlow.noReads := quiet (by decide)

theorem witness_PortEnables_disable :
    (flow.landsNow .b (.port 2) 0 ∧ flow.isUpper 2 = false ∧ flow.noReads ∧ (flow.po 2).en = true ∧
      (∀ m, flow.drainOne m = none) ∧ (∀ l k, (flow.po 2).fsm ≠ .body l k) ∧ ∀ q, (flow.qu q).markPend = none) ∧
    (pairFlow.landsNow .b (.port 0) 0 ∧ pairFlow.isUpper 0 = false ∧ pairFlow.noReads ∧ (pairFlow.po 0).en = true ∧
      (∀ m, pairFlow.drainOne m = none) ∧ (∀ l k, (pairFlow.po 0).fsm ≠ .body l k) ∧ (∀ q, (pairFlow.qu q).markPend = none) ∧
      pairFlow.paired 0 = true) :=
  ⟨⟨lands (by decide), by decide, flow_noReads, by decide, by decide, notBody (by decide), by decide⟩,
    lands (by decide), by decide, pairFlow_noReads, by decide, by decide, notBody (by decide), by decide⟩

theorem flow_notBody : ∀ n l k, (flow.po n).fsm ≠ .body l k := by
  have h : ∀ n, (flow.po n).fsm = .idle := by decide
  exact fun n => notBody (h n)

theorem witness_PortEnables_device : flow.hostWrites .a ∧ flow.dp.en = true ∧
    (∀ m, flow.drainOne m = none) ∧ (∀ n l k, (flow.po n).fsm ≠ .body l k) ∧ (∀ q, (flow.qu q).markPend = none) ∧
    ({ flow with dp := { flow.dp with en := false } } : State).dp.en = false :=
  ⟨host (by decide), by decide, by decide, flow_notBody, by decide, by decide⟩

theorem witness_PortResetAndCapture :
    (flow.isUpper 0 = false ∧ flow.noReads ∧ flow.landsNow .a (.port 0) 0 ∧ (flow.po 0).en = true) ∧
    (pairFlow.isUpper 0 = false ∧ pairFlow.noReads ∧ pairFlow.landsNow .a (.port 0) 0 ∧ pairFlow.paired 0 = true) ∧
    (resetting.running = true ∧ (resetting.po 0).resetting = true ∧ resetting.isUpper 0 = false ∧ resetting.noReads) ∧
    (flow.landsNow .b (.port 0) 6 ∧ flow.noReads) ∧ (pairFlow.landsNow .b (.port 0) 6 ∧ pairFlow.paired 0 = true) :=
  ⟨⟨by decide, flow_noReads, lands (by decide), by decide⟩, ⟨by decide, pairFlow_noReads, lands (by decide), by decide⟩,
    ⟨by decide, by decide, by decide, quiet (by decide)⟩, ⟨lands (by decide), flow_noReads⟩, lands (by decide), by decide⟩

/-- Port 0 in segment mode, its staging full or not, with queue 0 flagged. -/
def segPort (st : List Tok) : State := flow.setPo 0 { pIn with lcfg := 0x40, staging := st }

/-- 64 slots of payload behind a lead word that waits for its answer. -/
def fullStaging : List Tok := .lead 5 false false false none :: List.replicate 64 (.pay 0 false)

/-- A word of queue 0 is accepted, and after it the staging has room; queue 1, of which the port has no credit, takes none. -/
def noCredit1 : State := flow.setPo 0 { pIn with held := pIn.held.set 1 0, crossed := pIn.crossed.set 1 (true, true) }

/-- `flow` after the clocks of ports 0 and 2 have stopped. -/
def flowStopped : State := (flow.modPo 0 fun x => { x with stopped := true }).modPo 2 fun x => { x with stopped := true }

/-- A segment-mode port whose open segment the Sort yard has dropped, and one whose segment fills a stave of queue 3. -/
def segOf (q : Option QId) : State :=
  flow.setPo 0 { pIn with lcfg := 0x40, fsm := .body (some 1) 3, cur := some (CurSeg.start 5 false false false ⟨q, flow.stamp, 0⟩) }

theorem witness_StreamWords_clock : (flow.po 0).stopped = false ∧ (flowStopped.po 0).stopped = true ∧
    flowStopped.portActive 0 = true ∧ ((segOf none).po 0).dropping = true ∧ ((segOf none).po 0).openQ = none ∧
    (segOf none).segAccepts 0 = true ∧ ((segOf (some 3)).po 0).dropping = false ∧ ((segOf (some 3)).po 0).openQ = some 3 := by
  decide

theorem witness_StreamWords_stream :
    (flow.portActive 1 = false ∧ (flow.po 2).egress = true) ∧
    (flow.portActive 0 = true ∧ (flow.po 0).egress = false ∧ (flow.po 0).segMode = false ∧ flow.admits 0 0 = true ∧
      (flow.setPo 0 { (pIn.countErrs (oddErrs pIn.mpar (wordSlots 1 0 0))) with
        partials := pIn.partials.set 0 (wordSlots 1 0 0) }).stageRoom 0 = true) ∧
    (noCredit1.portActive 0 = true ∧ (noCredit1.po 0).egress = false ∧ (noCredit1.po 0).segMode = false ∧
      noCredit1.admits 0 1 = false) ∧
    (pairFlow.portActive 0 = true ∧ (pairFlow.po 0).egress = false ∧ pairFlow.paired 0 = true ∧
      pairFlow.admits 0 0 = true) := by decide

theorem witness_StreamWords_segment :
    ((segPort []).portActive 0 = true ∧ ((segPort []).po 0).egress = false ∧ ((segPort []).po 0).segMode = true ∧
      (segPort []).segAccepts 0 = true) ∧
    ((segPort fullStaging).portActive 0 = true ∧ ((segPort fullStaging).po 0).egress = false ∧
      ((segPort fullStaging).po 0).segMode = true ∧ (segPort fullStaging).segAccepts 0 = false) := by decide

theorem witness_StreamWords_room :
    ((((segPort []).setPo 0 { (((segPort []).po 0).countErrs 0) with
      fsm := (frameWord false 1 .idle 1 [0x100]).fsm, staging := (frameWord false 1 .idle 1 [0x100]).toks }).drain 0).stageRoom 0)
      = true ∧
    ({ flow with boot := { flow.boot with straps := { flow.boot.straps with wtwin := true } } } : State).twin = true ∧
    flow.eventsWf := ⟨by decide, by decide, wfEv (by decide)⟩

/-- Port 0 in segment mode with a lead word of tag 5 at its core side, and Sort yard entries 3 and 4 of equal priority that
match it. -/
def lead : State :=
  { flow.setPo 0 { pIn with lcfg := 0x40, staging := [.lead 5 false false false none] } with
    sy := ((((flow.sy.set 6 (VWord.of 0x8000)).set 7 (VWord.of 0x0110)).set 8 (VWord.of 0x8005)).set 9 (VWord.of 0x0111)) }

theorem lead_words : ∀ r ∈ yardRefs, lead.agrees r := by
  have h : (yardRefs.all fun r => lead.vget r == VWord.of (lead.vget r).val) = true := by decide
  intro r hr
  exact agreed_of (List.all_eq_true.1 h r hr)

theorem witness_SegmentSteering_stopped :
    ((lead.modPo 0 fun x => { x with stopped := true })).stoppedAt 0 = true := by decide

theorem witness_SegmentSteering : lead.running = true ∧ lead.stoppedAt 0 = false ∧ unsteered (lead.po 0).staging ≠ none ∧
    unsteered (lead.po 0).staging = some 5 ∧ (lead.po 0).cur = none ∧
    (lead.po 0).staging = [.lead 5 false false false none] ∧ lead.steer 0 5 = some 0 ∧ lead.winner 0 5 = some (0, 1) ∧
    lead.entryMatch 0 5 3 = some (0, 1) ∧ lead.entryMatch 0 5 4 = some (1, 1) ∧ up.winner 0 5 = none ∧
    (State.reset.running = false ∧ unsteered (flow.po 0).staging = none) := by decide

/-- Port 0 with one completed stave of queue 0. -/
def stave0 : DoneStave := ⟨0, List.replicate 32 0, false, false, none, false⟩
def staved : State := flow.setPo 0 { pIn with done := [stave0], spent := pIn.spent.set 0 1 }

/-- Port 0 with the only stave of a segment to queue 0, whose bark header is still to be filled in. -/
def segStave : DoneStave :=
  ⟨0, List.replicate 25 0, true, true, some ⟨1, false, false, false, false, false, 1, 0, flow.stamp, 0⟩, false⟩
def segStaved : State := flow.setPo 0 { pIn with lcfg := 0x40, done := [segStave], spent := pIn.spent.set 0 1 }

theorem flow_noLost : (flow.qu 0).noLost := by unfold Queue.noLost; decide

theorem witness_StavesAndCredits_commit :
    (staved.running = true ∧ (staved.po 0).resetting = false ∧ (staved.po 0).done = stave0 :: [] ∧
      staved.mayCommit 0 stave0 = true ∧ stave0.segment = false ∧ (staved.qu 0).noLost ∧ staved.eventsWf) ∧
    (segStaved.running = true ∧ (segStaved.po 0).resetting = false ∧ (segStaved.po 0).done = segStave :: [] ∧
      segStaved.mayCommit 0 segStave = true) ∧
    (flow.running = true ∧ (flow.po 0).resetting = false ∧ flow.nextDone 0 = none ∧ ∀ m, flow.drainOne m = none) :=
  ⟨⟨by decide, by decide, by decide, by decide, by decide, flow_noLost, wfEv (by decide)⟩, by decide, by decide⟩

theorem witness_StavesAndCredits_commit_drain : ∀ m, (staved.commitStave 0 stave0).drainOne m = none := by decide

/-- Port 0 with three credits of queue 0. -/
def threeCredits : State := flow.setPo 0 { pIn with held := pIn.held.set 0 3 }

theorem witness_StavesAndCredits_grant :
    (threeCredits.takesCredits 0 = true ∧ (threeCredits.qu 0).en = true ∧ (threeCredits.qu 0).resetting = false ∧
      threeCredits.creditsOut 0 0 < threeCredits.creditLimit 0 ∧ threeCredits.segBlocks 0 0 = false ∧
      32 ≤ threeCredits.free 0 - (threeCredits.qu 0).ffresSlots - threeCredits.resv 0 ∧ (threeCredits.po 0).staging = []) ∧
    ((flow.qu 1).en = false ∧ flow.creditLimit 0 ≤ flow.creditsOut 0 0 ∧ flow.takesCredits 2 = false) := by decide

/-- Queue 0 with two slots to deliver. -/
def full2 : State :=
  flow.setQu 0 { flow.qu 0 with
    w := 2, wcnt := 2, held := [0x141, 0x042], billets := [⟨0, true, false, false, false, none, []⟩] }

theorem full2_noLost : (full2.qu 0).noLost := by unfold Queue.noLost; decide

theorem full2_clean : ∀ k, (full2.qu 0).eccOf k = StaveEcc.clean := fun _ => rfl

/-- Queue 0 rewound: of its four slots the first two have been delivered before. -/
def replays : State :=
  flow.setQu 0 { flow.qu 0 with
    w := 4, wcnt := 4, rcnt := 2, f := 2, marks := [0], held := [0x141, 0x042, 0x043, 0x044]
    billets := [⟨0, true, false, false, false, none, []⟩] }

theorem replays_noLost : (replays.qu 0).noLost := by unfold Queue.noLost; decide

theorem witness_StreamWordDelivered_replay : replays.portActive 2 = true ∧ (replays.po 2).egress = true ∧
    (replays.po 2).stopped = false ∧ (replays.po 2).starved = false ∧ (replays.po 2).segMode = false ∧
    (replays.qu 0).noLost ∧ (replays.qu 0).off (replays.qu 0).r < (replays.qu 0).off (replays.qu 0).f ∧
    (replays.qu 0).held.length = (replays.qu 0).occ ∧ replays.holder 0 = some 2 ∧ (replays.qu 0).forced = false ∧
    (replays.po 2).efEdge = false ∧ replays.width 2 ≤ replays.deliverable 0 ∧ (replays.qu 0).launched = none :=
  ⟨by decide, by decide, by decide, by decide, by decide, replays_noLost, by decide⟩

/-- A queue with R six slots before the end of a lost billet and two slots past it. -/
def lostQ (gs : List Seg) : Queue :=
  { flow.qu 0 with
    w := 8194, h := 8186, r := 8186, f := 8186, wcnt := 8194, rcnt := 8186, held := List.replicate 8 0, segs := gs
    billets := [⟨0, false, false, true, false, none, []⟩, ⟨1, true, false, false, false, none, []⟩] }

/-- Queue 0 so, its reading port in stream or in segment mode. -/
def lostRun6 (cfg : Word) (gs : List Seg) : State := (flow.setQu 0 (lostQ gs)).setPo 2 { pOut with lcfg := cfg }

theorem lostRun6_books : ((lostRun6 1 []).qu 0).Books ∧ ((lostRun6 0x41 [⟨8186, 6, true, 6⟩]).qu 0).Books :=
  ⟨books (by decide), books (by decide)⟩

theorem witness_StreamWordDelivered_lost :
    (let s := lostRun6 1 []
     s.portActive 2 = true ∧ (s.po 2).egress = true ∧ (s.po 2).stopped = false ∧ s.holder 0 = some 2 ∧
     (s.qu 0).held.length = (s.qu 0).occ ∧ (s.qu 0).occ < 2 ^ 47 ∧ 6 ≤ (s.qu 0).occ ∧
     s.qSeg 0 = false ∧ (s.qu 0).lostAt ((s.qu 0).off (s.qu 0).r) = true ∧ 6 = (s.qu 0).runEnd ((s.qu 0).off (s.qu 0).r) ∧
     ∀ b ∈ (s.qu 0).billets.drop (((s.qu 0).base + 6) / billetSlots), b.lost = false) ∧
    (let g : Seg := ⟨8186, 6, true, 6⟩
     let s := lostRun6 0x41 [g]
     s.portActive 2 = true ∧ (s.po 2).egress = true ∧ (s.po 2).stopped = false ∧ s.holder 0 = some 2 ∧
     s.qSeg 0 = true ∧ (s.qu 0).launched = none ∧ (s.qu 0).segs = [g] ∧ g.start = (s.qu 0).r ∧
     (s.qu 0).segLost g = true ∧ 6 = (s.qu 0).off (s.qu 0).r + g.len ∧
     ∀ b ∈ (s.qu 0).billets.drop (((s.qu 0).base + 6) / billetSlots), b.lost = false) := by decide

theorem witness_StreamWordDelivered_clock : flowStopped.portActive 2 = true ∧ (flowStopped.po 2).egress = true ∧
    (flowStopped.po 2).stopped = true ∧ Fetched.none ≠ .enough := by decide

theorem witness_StreamWordDelivered :
    (full2.portActive 1 = false ∧ (full2.po 0).egress = false) ∧
    (full2.portActive 2 = true ∧ (full2.po 2).egress = true ∧ (full2.po 2).segMode = false ∧ (full2.po 2).stopped = false ∧
      (full2.po 2).starved = false ∧ (full2.qu 0).off (full2.qu 0).r ≤ (full2.qu 0).off (full2.qu 0).f ∧ (full2.qu 0).noLost ∧
      (full2.qu 0).f = (full2.qu 0).r ∧ (full2.qu 0).held.length = (full2.qu 0).occ ∧ full2.holder 0 = some 2 ∧
      (full2.qu 0).forced = false ∧ (full2.po 2).efEdge = false ∧ full2.width 2 ≤ full2.deliverable 0 ∧
      (full2.qu 0).launched = none ∧ (full2.qu 0).off (full2.qu 0).r + full2.width 2 ≤ (full2.qu 0).occ ∧
      (∀ k, (full2.qu 0).eccOf k = StaveEcc.clean) ∧ full2.twin = false) ∧
    (full2.holder 1 ≠ some 2 ∧ (full2.qu 1).noLost ∧ (full2.qu 1).launched = none) :=
  ⟨by decide, ⟨by decide, by decide, by decide, by decide, by decide, by decide, full2_noLost, by decide, by decide, by decide, by decide, by decide, by decide,
    by decide, by decide, full2_clean, by decide⟩, by decide, by unfold Queue.noLost; decide, by decide⟩

/-- Queue 0 with one segment of 25 slots, read by port 2 in segment mode. -/
def segFull : State :=
  (flow.setQu 0 { flow.qu 0 with
    w := 25, wcnt := 25, held := List.replicate 25 0, billets := [⟨0, true, false, false, false, none, []⟩]
    segs := [⟨0, 25, true, 0⟩] }).setPo 2 { pOut with lcfg := 0x41 }

theorem segFull_noLost : (segFull.qu 0).noLost := by unfold Queue.noLost; decide

/-- The same with a port two slots wide, the segment delivered once before or not. -/
def segWide (k : Nat) : State :=
  (segFull.modQu 0 fun x => { x with f := BitVec.ofNat 48 (25 * k), rcnt := BitVec.ofNat 48 (25 * k), marks := [0] }).setPo 2
    { pOut with lcfg := 0x49 }

theorem witness_StreamWordDelivered_bark : ∀ k : Fin 2, (segWide k.val).portActive 2 = true ∧
    ((segWide k.val).launch 2 0).map (fun l => (l.1.take, l.2.isSome)) = some (2, true) ∧
    ((segWide k.val).qu 0).markPend = none ∧
    (((segWide k.val).qu 0).off ((segWide k.val).qu 0).r < ((segWide k.val).qu 0).off ((segWide k.val).qu 0).f ↔ k = 1) := by
  decide

theorem witness_StreamWordDelivered_segment :
    segFull.portActive 2 = true ∧ (segFull.po 2).egress = true ∧ (segFull.po 2).segMode = true ∧ (segFull.po 2).stopped = false ∧
    (segFull.po 2).starved = false ∧ (segFull.qu 0).noLost ∧
    (segFull.launch 2 0).map (·.1) = some ⟨1, 1, false⟩ ∧ (segFull.qu 0).markPend = none ∧
    (segFull.qu 0).f = (segFull.qu 0).r ∧ (segFull.qu 0).held.length = (segFull.qu 0).occ ∧
    (segFull.qu 0).off (segFull.qu 0).r + 1 ≤ (segFull.qu 0).occ ∧ segFull.launch 2 1 = none :=
  ⟨by decide, by decide, by decide, by decide, by decide, segFull_noLost, by decide⟩

/-! ### Witnesses: queues and marks -/

/-- Queue 0 configured for four frames and not enabled. -/
def configured : State := up.setQu 0 { Queue.reset with qmapL := VWord.of 4 }

theorem queueWords {s : State} {q : QId} (h : ((queueRefs q).all fun r => s.vget r == VWord.of (s.vget r).val) = true) :
    ∀ r ∈ queueRefs q, s.agrees r := fun r hr => agreed_of (List.all_eq_true.1 h r hr)

/-- Queue 0 with three different copies of one configuration word. -/
def torn : State := up.setQu 0 { Queue.reset with qmapL := ⟨1, 2, 4, false⟩ }

theorem torn_others : ∀ k : Fin 7, k ≠ 1 → torn.agrees (.queue 0 k) := by
  have h : ∀ k : Fin 7, k ≠ 1 → (torn.vget (.queue 0 k) == VWord.of (torn.vget (.queue 0 k)).val) = true := by decide
  exact fun k hk => agreed_of (h k hk)

theorem witness_QueueEnableDisable_words :
    (∀ r ∈ queueRefs 0, configured.agrees r) ∧ (∀ r ∈ queueRefs 0, up.agrees r) ∧
    torn.hostWrites .a ∧ torn.eventsWf ∧ (torn.qu 0).en = false ∧ (torn.vget (.queue 0 1)).failed = false ∧
    (torn.vget (.queue 0 1)).majority = none ∧ torn.land.full = false :=
  ⟨queueWords (by decide), queueWords (by decide), host (by decide), wfEv (by decide), by decide⟩

theorem witness_QueueEnableDisable :
    (configured.hostWrites .a ∧ (configured.qu 0).en = false ∧ configured.enableRefusal 0 = none) ∧
    (up.hostWrites .b ∧ up.eventsWf ∧ (up.qu 0).en = false ∧ up.enableRefusal 0 = some Reason.check) ∧
    (flow.hostWrites .a ∧ (flow.qu 0).en = true) :=
  ⟨⟨host (by decide), by decide, by decide⟩, ⟨host (by decide), wfEv (by decide), by decide, by decide⟩,
    host (by decide), by decide⟩

theorem witness_QueueEnableDisable_first :
    (∃ u, exec (.queueEnable .a 0) configured = .next u) ∧ ∃ u, exec (.queueDisable .a 0) flow = .next u :=
  ⟨⟨_, rfl⟩, _, rfl⟩

/-- Queue 0 resetting. -/
def qResetting : State := flow.setQu 0 { flow.qu 0 with resetting := true }

theorem witness_QueueReset : flow.hostWrites .a ∧ (flow.qu 0).resetting = false ∧ (∀ m, (flow.po m).staging = []) ∧
    (flow.portActive 2 = true ∧ flow.stoppedAt 2 = false ∧ (flow.po 2).shown = 0) ∧ qResetting.hostWrites .b ∧
    (qResetting.qu 0).resetting = true ∧ qResetting.running = true :=
  ⟨host (by decide), by decide, by decide, by decide, host (by decide), by decide, by decide⟩

/-- Queue 0 in M mode with 31 slots in port 0's partial stave. -/
def partial31 : State :=
  (flow.setQu 0 { flow.qu 0 with qcfg := VWord.of 0x12 }).setPo 0 { pIn with partials := pIn.partials.set 0 (List.replicate 31 0) }

/-- The same while port 1 has a stave of a segment to queue 0 waiting. -/
def partialBlocked : State := partial31.setPo 1 { pIn with lcfg := 0x40, done := [segStave] }

theorem partial31_noLost : (partial31.qu 0).noLost := by unfold Queue.noLost; decide

theorem witness_FlushCommits :
    (partial31.hostWrites .a ∧ (partial31.po 0).partials[0] ≠ [] ∧ (∀ m, m ≠ 0 → (partial31.po m).partials[0] = []) ∧
      (∀ d ∈ (partial31.po 0).done, d.q ≠ 0) ∧ partial31.segBlocks 0 0 = false ∧ (partial31.po 0).segPart 0 = false ∧
      partial31.frameFor 0 (padTo (partial31.qWidth 0) (partial31.po 0).partials[0]).length = true ∧ (partial31.qu 0).noLost ∧
      partial31.eventsWf ∧ (partial31.qu 0).mmode = true) ∧
    (partialBlocked.hostWrites .a ∧ (partialBlocked.po 0).partials[0] ≠ [] ∧
      (∀ m, m ≠ 0 → (partialBlocked.po m).partials[0] = []) ∧ (∀ d ∈ (partialBlocked.po 0).done, d.q ≠ 0) ∧
      partialBlocked.segBlocks 0 0 = true ∧ partialBlocked.eventsWf) :=
  ⟨⟨host (by decide), by decide, by decide, by decide, by decide, by decide, by decide, partial31_noLost, wfEv (by decide),
    by decide⟩, host (by decide), by decide, by decide, by decide, by decide, wfEv (by decide)⟩

/-- The same with the port's last stave of an ended segment waiting, and with the share of queue 0 filled. -/
def partialSeg : State := partial31.modPo 0 fun x => { x with
  done := [{ segStave with q := 1 }]
  cur := some { CurSeg.start 5 false false false ⟨some 0, flow.stamp, 0⟩ with first := false } }

def partialFull : State := partial31.modQu 0 fun x => { x with
  w := 8191, wcnt := 8191, map := some ⟨1, 0, 0, 1, 0, 0⟩, billets := [⟨0, true, false, false, false, none, []⟩] }

theorem witness_FlushCommits_waits :
    ((partialSeg.po 0).partials[0] ≠ [] ∧ (partialSeg.po 0).segPart 0 = true ∧ ∀ d ∈ (partialSeg.po 0).done, d.q ≠ 0) ∧
    (partialFull.po 0).partials[0] ≠ [] ∧
      partialFull.frameFor 0 (padTo (partialFull.qWidth 0) (partialFull.po 0).partials[0]).length = false := by decide

/-- Queue 1, with no reading port, and its marks. -/
def marked (ms : List Pos) : State := up.setQu 1 { qOn with w := 100, r := 90, f := 90, marks := ms }

theorem marked_noLost (ms : List Pos) : ((marked ms).qu 1).noLost := fun b hb => by cases hb

theorem witness_MarkCommands :
    ((marked []).hostWrites .a ∧ ((marked []).qu 1).resetting = false ∧ ((marked []).qu 1).chainRead = false ∧
      ((marked []).qu 1).markPend = none ∧ ((marked []).qu 1).launched = none ∧ (marked []).readPort 1 = none ∧
      ((marked []).qu 1).noLost ∧ (marked []).eventsWf) ∧
    ((marked [1, 2, 3]).qu 1).marks.length < 4 ∧ ((marked [1, 2, 3, 4]).qu 1).marks.length = 4 ∧
    ((marked [1, 2, 3, 4]).qu 1).marks[(3 : BitVec 2).toNat]? = some 4 ∧
    ((marked [1, 2, 3]).qu 1).marks.length ≤ (3 : BitVec 2).toNat ∧ ((marked [1]).qu 1).marks = 1 :: [] ∧
    ((marked []).qu 1).marks = [] :=
  ⟨⟨host (by decide), by decide, by decide, by decide, by decide, by decide, marked_noLost _, wfEv (by decide)⟩, by decide⟩

/-- `markWaits` while its reading port is in a PORT reset. -/
def markReset : State := markWaits.modPo 2 fun x => { x with resetting := true }

/-- Queue 0 with two marks and a REWIND to the older that waits for port 2. -/
def rewindWaits : State := flow.setQu 0 { flow.qu 0 with
  w := 9, r := 7, f := 7, h := 3, marks := [3, 5], markPend := some (.rewind 0), held := List.replicate 6 0 }

theorem markReset_noLost : (markReset.qu 0).noLost := by unfold Queue.noLost; decide
theorem rewindWaits_noLost : (rewindWaits.qu 0).noLost := by unfold Queue.noLost; decide

theorem witness_MarkCommands_pending :
    ((flow.qu 0).launched = none ∧ (flow.qu 0).noLost ∧ flow.hostWrites .a ∧ (flow.qu 0).resetting = false ∧
      (flow.qu 0).chainRead = false ∧ (flow.qu 0).markPend = none ∧ (flow.qu 0).marks.length < 4 ∧
      flow.readPort 0 = some 2 ∧ (flow.po 2).noclk = false ∧ flow.dp.en = true) ∧
    ((markWaits.qu 0).launched = none ∧ (markWaits.qu 0).noLost ∧ markWaits.running = true ∧
      markWaits.readerResets 0 = false ∧ (markWaits.qu 0).markPend = some .mark) ∧
    ((markReset.qu 0).launched = none ∧ (markReset.qu 0).noLost ∧ markReset.readerResets 0 = true) ∧
    ((rewindWaits.qu 0).launched = none ∧ (rewindWaits.qu 0).noLost ∧ rewindWaits.running = true ∧
      rewindWaits.readerResets 0 = false ∧ (rewindWaits.qu 0).markPend = some (.rewind 0) ∧
      (rewindWaits.qu 0).marks[0]? = some 3) :=
  ⟨⟨by decide, flow_noLost, host (by decide), by decide⟩, ⟨by decide, markWaits_noLost, by decide⟩,
    ⟨by decide, markReset_noLost, by decide⟩, by decide, rewindWaits_noLost, by decide⟩

theorem witness_MarkCommands_segment : markWaits.midSegment 0 = false ∧ (marked []).midSegment 1 = false ∧
    ((markWaits.setQu 0 { markWaits.qu 0 with launched := some 1, launchPort := 2 }).setPo 2
      { pOut with lcfg := 0x41 }).midSegment 0 = true := by decide

theorem witness_Lookahead : up.running = true ∧ up.time.refclk = true ∧ up.sampleTick + 100 ≤ up.time.ticks ∧
    State.reset.running = false ∧ fatal.running = false ∧ State.reset.time.ticks < State.reset.sampleTick + 100 := by decide

theorem witness_FlagsFollowTable : up.landsNow .a (.port 3) 0 ∧ up.isUpper 3 = false ∧ up.noReads ∧ (up.po 3).en = false :=
  ⟨lands (by decide), by decide, up_noReads, by decide⟩

theorem witness_FlagsFollowTable_fill :
    (staved.running = true ∧ (staved.po 0).resetting = false ∧ staved.nextDone 0 = some stave0 ∧
      ∀ m, (staved.commitStave 0 stave0).drainOne m = none) ∧
    (full2.portActive 2 = true ∧ (full2.po 2).egress = true ∧ (full2.po 2).stopped = false ∧ (full2.po 2).starved = false ∧
      (full2.qu 0).noLost ∧ full2.launch 2 0 ≠ none ∧ (full2.qu 0).markPend = none) :=
  ⟨by decide, by decide, by decide, by decide, by decide, full2_noLost, by decide⟩

theorem witness_FlagsFollowTable_marks :
    ((marked [1]).hostWrites .b ∧ ((marked [1]).qu 1).resetting = false ∧ ((marked [1]).qu 1).rewindPending = false ∧
      ((marked [1]).qu 1).marks ≠ []) ∧
    (markWaits.running = true ∧ markWaits.midSegment 0 = false ∧ markWaits.readerResets 0 = false ∧
      (markWaits.qu 0).markPend ≠ none) := ⟨⟨host (by decide), by decide⟩, by decide⟩

/-! ### Witnesses: spill, refill, Landing, Tally -/

/-- A map that spills from frame 4 on to channel 0. -/
def spillMap : QMap := ⟨8, 0, 4, 1, 0, 100⟩

/-- Queue 1 with six whole billets in Landing frames. -/
def spillQ : Queue :=
  { qOn with
    map := some spillMap, w := 49152
    billets := (List.range 6).map fun i => ⟨i, true, false, false, false, none, []⟩ }
def spilling : State := up.setQu 1 spillQ

/-- Queue 1 with its only billet in the Boom. -/
def refillQ : Queue := { qOn with map := some spillMap, w := 8192, billets := [⟨0, false, true, false, false, none, []⟩] }
def refilling : State := up.setQu 1 refillQ

/-- Queues 1 and 2, both with a spill or both with a refill to ask for; queue 1 has waited no longer. -/
def twoSpill : State := (up.setQu 1 spillQ).setQu 2 { spillQ with map := some { spillMap with qbase := 200 } }
def twoRefill : State := (up.setQu 1 refillQ).setQu 2 { refillQ with map := some { spillMap with qbase := 200 } }

set_option maxRecDepth 20000 in
theorem witness_BilletRequests :
    (spilling.running = true ∧ spilling.spillReady 1 = some (2, 0, 2) ∧ spilling.refillReady 1 = none ∧
      spilling.spillTurn 1 0 = true) ∧
    (refilling.running = true ∧ refilling.refillReady 1 = some (0, 0, 0) ∧ refilling.refillTurn 1 0 = true) ∧
    (up.spillReady 0 = none ∧ up.refillReady 0 = none ∧ State.reset.running = false) := by decide

set_option maxRecDepth 20000 in
theorem witness_BilletRequests_turn :
    (twoSpill.spillReady 2 = some (2, 0, 202) ∧ twoSpill.spillReady 1 = some (2, 0, 2) ∧
      sinceAt (twoSpill.qu 1).spillSince = sinceAt (twoSpill.qu 2).spillSince ∧ (1 : QId) < 2) ∧
    (twoRefill.refillReady 2 = some (0, 0, 200) ∧ twoRefill.refillReady 1 = some (0, 0, 0) ∧
      sinceAt (twoRefill.qu 1).refillSince = sinceAt (twoRefill.qu 2).refillSince) ∧
    ((twoSpill.modQu 1 fun x => { x with spillSince := some (2, 5) }).spillReady 1 = some (2, 0, 2) ∧
      sinceAt (twoSpill.qu 2).spillSince < sinceAt ((twoSpill.modQu 1 fun x => { x with spillSince := some (2, 5) }).qu 1).spillSince) := by decide

/-- A request of queue 1 for billet 0 with every burst issued. -/
def req (k : ReqKind) : Req := ⟨k, 1, 0, 0, 0, 7, 0, true, 128, false, true, 0, []⟩

/-- Queue 1's billet 0 on its way, `k` staves arrived where it is a refill. -/
def moving (k : ReqKind) (b : Billet) : State :=
  (up.setQu 1 { qOn with map := some spillMap, w := 8192, billets := [b] }).setCh 0 { up.ch 0 with reqs := [req k] }

theorem witness_BilletRequests_move :
    ((moving .spill ⟨0, true, false, false, true, none, []⟩).ch 0).acked 1 = some (req .spill) ∧ (req .spill).orphan = false ∧
    ((moving .spill ⟨0, true, false, false, true, none, []⟩).ch 0).latMode = false ∧
    (∀ k : Fin 2,
      ((moving .refill ⟨0, true, true, false, false, some (254 + k.val), []⟩).ch 0).arriving 1 = some (req .refill) ∧
      ((moving .refill ⟨0, true, true, false, false, some (254 + k.val), []⟩).qu 1).billets.find?
        (fun b => b.num == (req .refill).num) = some ⟨0, true, true, false, false, some (254 + k.val), []⟩ ∧
      (254 + k.val) / 2 < (req .refill).issued ∧
      ((moving .refill ⟨0, true, true, false, false, some (254 + k.val), []⟩).ch 0).oldest (req .refill) = true) ∧
    ((up.ch 0).acked 1 = none ∧ ({ req .refill with issued := 0 } : Req).issued ≤ 1 / 2) := by decide

/-- An orphan with `k` bursts issued and `m` staves arrived. -/
def orphan (k : ReqKind) (n m : Nat) : Req := { req k with orphan := true, issued := n, arrived := m }
def orphaned (k : ReqKind) (n m : Nat) : State := up.setCh 0 { up.ch 0 with reqs := [orphan k n m] }

theorem witness_BilletRequests_orphan :
    ((orphaned .spill 128 0).ch 0).acked 1 = some (orphan .spill 128 0) ∧
    (∀ m ∈ [254, 255], ((orphaned .refill 128 m).ch 0).arriving 1 = some (orphan .refill 128 m) ∧
      ((orphaned .refill 128 m).ch 0).oldest (orphan .refill 128 m) = true) ∧
    ((orphaned .refill 127 254).ch 0).arriving 1 = some (orphan .refill 127 254) := by decide

/-! States of the Landing: its rest over, its copy running, a full test running, no spare bank. -/

def rested : State := { up with time := { up.time with ticks := 320000000 } }
def copying : State := { up with land := { up.land with copying := true } }
def fullRuns : State := { up.takeLock .config 4 with land := { up.land with full := true } }
def spent : State := { up with land := { up.land with retired := 1, rest := 31 } }

theorem witness_RotationAndTests : rested.restOver = true ∧ up.restOver = false ∧
    (copying.running = true ∧ copying.land.copying = true ∧ (∀ q, (copying.qu q).ecc = []) ∧
      ((copying.qu 0).eccOf 5).ue = false) ∧
    (up.running = true ∧ up.land.rest < 17 ∧ up.land.copying = false ∧ up.land.full = false) ∧
    (up.busyQ = false ∧ up.testRuns = false ∧ (up.lock .config).holder = VWord.of 0 ∧ up.noSpare = false ∧
      (∀ q, (up.qu q).resetting = false) ∧ ∀ m, (up.po m).staging = []) ∧
    (fullRuns.running = true ∧ fullRuns.land.full = true ∧ (fullRuns.lock .config).holder = VWord.of 4) ∧
    flow.busyQ = true ∧ (spent.testRuns = false ∧ spent.noSpare = true) := by decide

theorem witness_RotationAndTests_host : up.hostWrites .a ∧ up.eventsWf ∧ copying.eventsWf ∧ fullRuns.eventsWf ∧
    flow.hostWrites .b ∧ flow.eventsWf ∧ spent.hostWrites .a ∧ spent.eventsWf :=
  ⟨host (by decide), wfEv (by decide), wfEv (by decide), wfEv (by decide), host (by decide), wfEv (by decide),
    host (by decide), wfEv (by decide)⟩

theorem witness_SnapshotTaken : fatal.writable .a = true ∧ up.writable .b = true ∧ up.isUpper 0 = false ∧
    up.portCredit 0 ≤ 16 * up.creditLimit 0 := by decide

/-! ### Witnesses: the Yarder -/

/-- Channel 0 with requests. -/
def asked (rs : List Req) : State := up.setCh 0 { up.ch 0 with reqs := rs }

/-- A spill of queue 1 not started, and one started. -/
def waits : Req := { req .spill with started := false, issued := 0 }
def runs : Req := { req .spill with issued := 127 }

/-- A started refill of queue 2, older than `runs`, whose row is open. -/
def hits : Req := { req .refill with issued := 127, q := 2, age := 3, cb := 16 }

/-- A pattern run with bursts left, and one with none. -/
def patRun (n : Nat) : Run := ⟨0, 1, 1, n, 9, 3, 0xFFFF⟩

/-- Channel 0 with `runs` and `hits`, the row of `hits` open. -/
def twoHeads : State := up.setCh 0 { up.ch 0 with reqs := [runs, hits], rows := (up.ch 0).rows.set 0 (some 1) }

/-- Channel 0 with a pattern run of the host path; with tokens used up. -/
def hostRun : State := up.setCh 0 { up.ch 0 with run := some (patRun 0) }

/-- A sweep of channel 0, and step 8 of a frequency change with its updates done: the test engine has bursts. -/
def testing : State := up.setCh 0 { up.ch 0 with st := .drain, sweeping := some .retrain }
def checking : State := up.setCh 0 { up.ch 0 with
  st := .freqsw, carryB := true, setB := true, freq := some ⟨true, .active, 0, true, Vector.replicate 2 true, 0⟩ }

def noToken : State := up.setCh 0 { up.ch 0 with
  reqs := [waits], qos := Vector.replicate 4 ⟨1, 8, 0⟩, bucket := Vector.replicate 4 999 }

theorem witness_RequestsAndBursts :
    ((asked [waits]).running = true ∧ (asked [waits]).time.refclk = true ∧ ((asked [waits]).ch 0).serving = true ∧
      ((asked [waits]).ch 0).toStart (srcOf 1 false) = some waits ∧ ((asked [waits]).ch 0).tokenOk waits.cls = true) ∧
    (up.ch 0).toStart (srcOf 1 true) = none ∧
    ((noToken.ch 0).toStart (srcOf 1 false) = some waits ∧ (noToken.ch 0).tokenOk waits.cls = false) ∧
    (twoHeads.running = true ∧ twoHeads.time.refclk = true ∧ (twoHeads.ch 0).awake = true ∧
      (twoHeads.ch 0).pick twoHeads.time.ticks 0x1FFFFFFFF = some hits.burst ∧ (twoHeads.ch 0).rowHit hits.burst = true ∧
      hits.burst.req = some hits ∧ hits.kind = .refill) ∧
    ((asked [runs]).ch 0).pick up.time.ticks 0x000000002 = some runs.burst ∧
    ((hostRun.ch 0).pick up.time.ticks 0x100000000 = some (patRun 0).burst ∧ (patRun 0).burst.req = none) ∧
    (∀ s ∈ [testing, checking], s.running = true ∧ s.time.refclk = true ∧ (s.ch 0).awake = true ∧
      ((s.ch 0).pick s.time.ticks 0x200000000).map (·.src) = some .test) ∧ (checking.ch 0).readCheck = true ∧
    (up.ch 0).pick up.time.ticks 0x1FFFFFFFF = none := by decide

theorem witness_BurstChoice : (twoHeads.ch 0).latMode = false ∧
    (twoHeads.ch 0).pick twoHeads.time.ticks 0x1FFFFFFFF = some hits.burst ∧ runs.burst ∈ (twoHeads.ch 0).heads ∧
    (0x1FFFFFFFF : BitVec 34).getLsbD runs.burst.src.idx = true ∧
    (twoHeads.ch 0).throttled twoHeads.time.ticks runs.burst = false ∧
    (twoHeads.ch 0).rankBlocked twoHeads.time.ticks ((twoHeads.ch 0).rankOf runs.burst.cb) = false := by decide

/-- A rank of channel 0 behind or ahead by `n` refreshes, the next due or not, with or without a burst that waits. -/
def refresh (n : Int) (at' : Nat) (rs : List Req) : State :=
  up.setCh 0 { up.ch 0 with owed := Vector.replicate 2 n, refAt := Vector.replicate 2 at', reqs := rs }

theorem witness_ChannelTimersAndRest :
    (up.time.refclk = true ∧ (up.ch 0).trackerTick + 6400000 ≤ up.time.ticks ∧
      (up.ch 0).bucketTick + 100 ≤ up.time.ticks ∧ up.cardingOn = true ∧ (up.ch 0).zqTick + 12800000 ≤ up.time.ticks ∧
      State.reset.time.ticks < (State.reset.ch 0).trackerTick + 6400000) ∧
    (up.running = true ∧ up.time.refclk = true ∧ (up.ch 0).awake = true ∧ (up.ch 0).hasRank true = true ∧
      (up.ch 0).hasRank false = true ∧ (up.ch 0).refAt[0] ≤ up.time.ticks) ∧
    (0 < ((refresh 1 0 []).ch 0).owed[0] ∧ ((refresh (-3) 0 []).ch 0).rankWaits false = false ∧ (-4 : Int) < -3 ∧
      ((refresh 3 0 [runs]).ch 0).rankWaits false = true ∧ (up.time.ticks : Nat) < ((refresh 0 20000001 []).ch 0).refAt[0] ∧
      ((refresh 4 0 []).ch 0).owed[0] = 4 ∧ ((refresh (-4) 0 []).ch 0).owed[0] ≤ -4) ∧
    (up.boot.carding = false ∧ (up.ch 1).st = .active ∧ (up.ch 1).noRef = false ∧ (up.ch 1).idle = true ∧
      (up.ch 1).tracked = true ∧ (up.ch 1).srIdle ≠ 0 ∧ (up.ch 1).idleSince + 100 * (up.ch 1).srIdle ≤ up.time.ticks ∧
      up.time.ticks < 20000000 + 100 * (up.ch 1).srIdle) := by decide

theorem witness_ChannelTimersAndRest_pages :
    ((up.ch 0).bankUse[15] = 0 ∧ (up.ch 0).rowWanted 15 = false) ∧
    ((twoHeads.ch 0).bankUse[0] = 0 ∧ (twoHeads.ch 0).rowWanted 0 = true) ∧
    1 * 200 < (up.time.ticks + 1 - (up.ch 0).bankAt[3]) * (up.ch 0).rate ∧
    (up.time.ticks + 1 - 20000000) * (up.ch 0).rate ≤ 255 * 200 := by decide

/-- Start-up in step 6 without boot training, channel `c` placed in self-refresh already or none. -/
def stepSix (r : BitVec 2) : State :=
  { State.reset with boot := { State.reset.boot with porst := true, stage := 6, carding := true, rested := r } }

theorem witness_ChannelTimersAndRest_boot : ∀ r ∈ [(0 : BitVec 2), 2], (stepSix r).cardingOn = true ∧
    (stepSix r).boot.carding = true ∧ (stepSix r).boot.straps.boottrn = false ∧ (stepSix r).boot.halted = false ∧ govAgree (stepSix r) = true ∧
    ((stepSix r).boot.rested ||| (1#2 <<< (0 : YId).val) = 3 ↔ r = 2) := by decide

/-! ### Witnesses: Carding -/

/-- `up` with LOCKDRAM held by path A. -/
def dram : State := upLock .dram

/-- `dram` with channel 0 held for host training. -/
def hosted : State := dram.setCh 0 { dram.ch 0 with st := .drain, hold := true, heldHost := true }

theorem dram_noReads : dram.noReads := quiet (by decide)
theorem hosted_noReads : hosted.noReads := quiet (by decide)

theorem witness_ChannelAndPhyRegisters_core :
    (dram.mayWrite .a (.chan 0) 8 ∧ dram.mayWrite .a (.chan 0) (8 + 3 * (3 : Fin 4).val)) ∧ dram.mayWrite .a (.chan 0) 0 ∧
    dram.mayWrite .a (.chan 1) 4 ∧ (dram.mayWrite .a (.chan 1) 0x14 ∧ dram.ytregRefusal 1 524272 16 = none) :=
  ⟨⟨may (by decide), may (by decide)⟩, may (by decide), may (by decide), may (by decide), by decide⟩

theorem witness_ChannelAndPhyRegisters_posted :
    (dram.noReads ∧ dram.landsNow .a (.tset 0 true) 14 ∧ (dram.ch 0).freq = none ∧ true ≠ (dram.ch 0).setB ∧
      (((dram.ch 0).tset true)[14]).failed = false) ∧
    (dram.landsNow .a (.tset 0 false) 0 ∧ dram.eventsWf ∧ false = (dram.ch 0).setB) ∧
    (hosted.noReads ∧ hosted.landsNow .a (.phy 0) (tapOff .vref) ∧ (hosted.ch 0).heldHost = true ∧
      (hosted.ch 0).selSet = (hosted.ch 0).setB ∧ (0x72 : Word).toNat % 64 ≤ 0x32 ∧ 0x32 < (0x33 : Word).toNat % 64 ∧
      hosted.eventsWf) ∧
    (dram.landsNow .a (.phy 0) (tapOff .wldly) ∧ (dram.ch 0).heldHost = false) :=
  ⟨⟨dram_noReads, lands (by decide), by decide⟩, ⟨lands (by decide), wfEv (by decide), by decide⟩,
    ⟨hosted_noReads, lands (by decide), by decide, by decide, by decide, by decide, wfEv (by decide)⟩,
    lands (by decide), by decide⟩

/-- `dram` with a word of set B of channel 0 in VOTEFAIL. -/
def setFailed : State := dram.vset (.tset 0 true 3) { VWord.of 0 with failed := true }

/-- `hosted` while TAPSEL names set B, and `dram` while a frequency change of channel 0 is in progress. -/
def otherSet : State := hosted.setCh 0 { hosted.ch 0 with tapsel := 1 }
def changing : State :=
  dram.setCh 0 { dram.ch 0 with freq := some ⟨true, .active, 0, true, Vector.replicate 2 false, 0⟩, st := .freqsw }

theorem setFailed_noReads : setFailed.noReads := quiet (by decide)
theorem otherSet_noReads : otherSet.noReads := quiet (by decide)
theorem changing_noReads : changing.noReads := quiet (by decide)

theorem witness_ChannelAndPhyRegisters_refused :
    (hosted.mayWrite .a (.chan 0) 0x14 ∧ hosted.eventsWf ∧ hosted.ytregRefusal 0 0 16 = some Reason.state ∧
      dram.mayWrite .a (.chan 0) 0x14 ∧ dram.ytregRefusal 0 1 16 = some Reason.range) ∧
    (setFailed.noReads ∧ setFailed.landsNow .a (.tset 0 true) 3 ∧ (setFailed.ch 0).freq = none ∧
      true ≠ (setFailed.ch 0).setB ∧ (((setFailed.ch 0).tset true)[3]).failed = true) ∧
    (changing.noReads ∧ changing.landsNow .a (.tset 0 true) 0 ∧ (changing.ch 0).freq ≠ none ∧ changing.eventsWf) ∧
    (otherSet.noReads ∧ otherSet.landsNow .a (.phy 0) (tapOff .gate) ∧ otherSet.eventsWf ∧
      (otherSet.ch 0).selSet ≠ (otherSet.ch 0).setB) :=
  ⟨⟨may (by decide), wfEv (by decide), by decide, may (by decide), by decide⟩,
    ⟨setFailed_noReads, lands (by decide), by decide⟩,
    ⟨changing_noReads, lands (by decide), by decide, wfEv (by decide)⟩,
    otherSet_noReads, lands (by decide), wfEv (by decide), by decide⟩

/-- `dram` with channel 0 in a state. -/
def chSt (st : ChState) : State := dram.setCh 0 { dram.ch 0 with st := st }

/-- Channel 1 is swept, so that channel 0 has not its turn. -/
def otherSweeps : State := (chSt .failed).setCh 1 { dram.ch 1 with st := .drain, sweeping := some .retrain }

theorem witness_TrainAndFrequency_train :
    ((chSt .untrained).mayWrite .a (.chan 0) 2 ∧ ((chSt .untrained).ch 0).sweeping = none ∧
      ((chSt .untrained).ch 0).holdReq = none ∧ ((chSt .untrained).ch 0).st = .untrained ∧
      ((chSt .untrained).ch 0).waiting = none ∧ ((chSt .untrained).ch 0).freq = none ∧
      (chSt .untrained).time.refclk = true ∧ (chSt .untrained).boot.trained = true ∧ (chSt .untrained).turn 0 (chSt .untrained).order = true) ∧
    (otherSweeps.mayWrite .a (.chan 0) 2 ∧ (otherSweeps.ch 0).sweeping = none ∧ (otherSweeps.ch 0).holdReq = none ∧
      (otherSweeps.ch 0).st = .failed ∧ (otherSweeps.ch 0).waiting = none ∧
      otherSweeps.turn 0 otherSweeps.order = false) ∧
    (dram.mayWrite .a (.chan 0) 2 ∧ (dram.ch 0).sweeping = none ∧ (dram.ch 0).holdReq = none ∧ (dram.ch 0).st = .active ∧
      (dram.ch 0).pend = none ∧ (dram.ch 0).heldHost = false) ∧
    State.reset.lock .dram = Lock.free :=
  ⟨⟨may (by decide), by decide⟩, ⟨may (by decide), by decide⟩, ⟨may (by decide), by decide⟩, by decide⟩

/-- A frequency change of channel 0 to a trained set B with its updates done, and one of an untrained channel. -/
def freqDone : Freq := ⟨true, .active, 0, true, Vector.replicate 2 true, 0⟩
def switching : State := up.setCh 0 { up.ch 0 with st := .freqsw, carryB := true, setB := true, freq := some freqDone }
def untrainedSwitch : State := up.setCh 0 { up.ch 0 with st := .untrained, freq := some { freqDone with came := .untrained } }

theorem switching_noReads : switching.noReads := quiet (by decide)
theorem untrainedSwitch_noReads : untrainedSwitch.noReads := quiet (by decide)

theorem setWords {s : State} {c : YId} (h : ((setRefs c).all fun r => s.vget r == VWord.of (s.vget r).val) = true) :
    ∀ r ∈ setRefs c, s.agrees r := fun r hr => agreed_of (List.all_eq_true.1 h r hr)

theorem witness_TrainAndFrequency_words : (∀ r ∈ setRefs 0, dram.agrees r) ∧ (∀ r ∈ setRefs 0, (chSt .untrained).agrees r) ∧
    (∀ r ∈ setRefs 0, hosted.agrees r) := ⟨setWords (by decide), setWords (by decide), setWords (by decide)⟩

theorem witness_TrainAndFrequency_check : (switching.ch 0).swept = 0 ∧
    10 ≤ ((switching.modCh 0 fun x => { x with swept := 10 }).ch 0).swept ∧
    ((dram.modCh 0 fun x => { x with carryB := true }).freqswRefusal 0 = none ∧
      ((dram.modCh 0 fun x => { x with carryB := true }).ch 0).carry true = true) := by decide

theorem witness_TrainAndFrequency_freqsw :
    (dram.mayWrite .a (.chan 0) 2 ∧ dram.freqswRefusal 0 = none ∧ (dram.ch 0).st = .active) ∧
    ((chSt .untrained).mayWrite .a (.chan 0) 2 ∧ (chSt .untrained).freqswRefusal 0 = none ∧
      ((chSt .untrained).ch 0).st ≠ .active ∧ ((chSt .untrained).ch 0).st ≠ .selfref) ∧
    (hosted.mayWrite .a (.chan 0) 2 ∧ hosted.eventsWf ∧ hosted.freqswRefusal 0 = some Reason.state) ∧
    (switching.running = true ∧ switching.time.refclk = true ∧ switching.noReads ∧ (switching.ch 0).freq = some freqDone ∧
      (switching.ch 0).sweeping = none ∧ (switching.ch 0).quiet = true ∧ (switching.ch 0).noRef = false ∧
      (switching.ch 0).st = .freqsw ∧ (switching.ch 0).carry freqDone.toB = true ∧ freqDone.locked = true ∧
      freqDone.upd[0] = true ∧ freqDone.upd[1] = true) ∧
    (untrainedSwitch.running = true ∧ untrainedSwitch.time.refclk = true ∧ untrainedSwitch.noReads ∧
      (untrainedSwitch.ch 0).sweeping = none ∧ (untrainedSwitch.ch 0).quiet = true ∧ (untrainedSwitch.ch 0).noRef = false ∧
      (untrainedSwitch.ch 0).st ≠ .freqsw) :=
  ⟨⟨may (by decide), by decide⟩, ⟨may (by decide), by decide⟩, ⟨may (by decide), wfEv (by decide), by decide⟩,
    ⟨by decide, by decide, switching_noReads, by decide⟩, by decide, by decide, untrainedSwitch_noReads, by decide⟩

theorem witness_ChannelReset_several : (dram.modPath .a fun x => { x with bankSel := 0x24 }).mayWrite .a (.chan 1) 2 ∧
    ((dram.modPath .a fun x => { x with bankSel := 0x24 }).path .a).bankSel.toNat = (Bank.chan 1).sel ∧
    fld 3 0 4 ∉ [0, 1, 2, 4, 8] ∧ fld 15 0 4 ∉ [0, 1, 2, 4, 8] := ⟨may (by decide), by decide⟩

/-- `dram` with a spill of queue 1 on channel 0, its billet whole in the Landing. -/
def dramSpills : State :=
  (dram.setQu 1 { qOn with map := some spillMap, w := 8192, billets := [⟨0, true, false, false, true, none, []⟩] }).setCh 0
    { dram.ch 0 with reqs := [req .spill] }

theorem witness_ChannelReset :
    (dram.mayWrite .a (.chan 0) 2 ∧ (dram.ch 0).st = .active ∧ (dram.ch 0).freq = none ∧ (dram.ch 0).heldHost = false ∧
      (dram.ch 0).sweeping = none) ∧
    (∀ r ∈ (dramSpills.ch 0).reqs, r.kind = .spill) ∧
    (∀ b ∈ (dramSpills.qu 1).billets, b.lost = false ∧ ((dramSpills.qu 1).home b.num = some 0 → b.frame = true ∧ b.refill = none)) ∧
    (hosted.mayWrite .a (.chan 0) 2 ∧ hosted.eventsWf ∧ (hosted.ch 0).st = .drain) :=
  ⟨⟨may (by decide), by decide⟩, by decide, by decide, may (by decide), wfEv (by decide), by decide⟩

/-- A retrain pends on channel 0, past its deferral; the same while a request runs. -/
def pends : State := up.setCh 0 { up.ch 0 with pend := some ⟨0, 10, 0⟩ }
def pendsBusy : State := pends.setCh 0 { pends.ch 0 with reqs := [runs] }

/-- A host hold pends on channel 0. -/
def holdPends : State := up.setCh 0 { up.ch 0 with hold := true, holdReq := some ⟨0, 10, 0⟩ }

/-- A drained channel, for a host hold or for a retrain; and one that still drains. -/
def drained (hold : Bool) : State := up.setCh 0 { up.ch 0 with st := .drain, drainHold := hold }
def draining : State := up.setCh 0 { up.ch 0 with st := .drain, reqs := [runs] }

/-- A sweep of channel 0 that waits, after a channel reset and in a frequency change. -/
def sweepWaits : State := up.setCh 0 { up.ch 0 with st := .reset, waiting := some (some .keep, 0) }
def freqWaits : State := up.setCh 0 { up.ch 0 with
  st := .freqsw, freq := some { freqDone with locked := false, upd := Vector.replicate 2 false }, waiting := some (some .freqsw, 0) }

theorem sweepWaits_noReads : sweepWaits.noReads := quiet (by decide)
theorem freqWaits_noReads : freqWaits.noReads := quiet (by decide)

theorem witness_DrainsAndSweeps_boot : pends.boot.trained = true ∧ holdPends.boot.trained = true ∧
    pendsBusy.boot.trained = true ∧ State.reset.boot.trained = false := by decide

theorem witness_DrainsAndSweeps_drains :
    (pends.running = true ∧ pends.time.refclk = true ∧ pends.nextDrain 0 = some (false, ⟨0, 10, 0⟩) ∧
      pends.turn 0 0 = true ∧ (pends.ch 0).waiting = none ∧ (pends.ch 0).drainWindow = true ∧ (pends.ch 0).freq = none) ∧
    (holdPends.running = true ∧ holdPends.time.refclk = true ∧ holdPends.nextDrain 0 = some (true, ⟨0, 10, 0⟩) ∧
      holdPends.turn 0 0 = true ∧ (holdPends.ch 0).waiting = none ∧ (holdPends.ch 0).drainWindow = true ∧
      (holdPends.ch 0).freq = none) ∧
    (pendsBusy.running = true ∧ pendsBusy.time.refclk = true ∧ pendsBusy.nextDrain 0 = some (false, ⟨0, 10, 0⟩) ∧
      pendsBusy.turn 0 0 = true ∧ (pendsBusy.ch 0).waiting = none ∧ Table.wf EvCell.zero pendsBusy.events = true ∧
      (pendsBusy.ch 0).st = .active ∧ (pendsBusy.ch 0).drainWindow = false ∧ pendsBusy.due ⟨0, 10, 0⟩ = true) ∧
    up.nextDrain 0 = none := by decide

theorem witness_DrainsAndSweeps_sweeps :
    (∀ h : Bool, (drained h).running = true ∧ (drained h).time.refclk = true ∧ ((drained h).ch 0).sweeping = none ∧
      ((drained h).ch 0).st = .drain ∧ ((drained h).ch 0).waiting = none ∧ ((drained h).ch 0).heldHost = false ∧
      ((drained h).ch 0).quiet = true ∧ ((drained h).ch 0).drainHold = h ∧ (drained h).dramFree = true ∧
      ((drained h).takeLock .dram 1).dramFree = false) ∧
    ((draining.ch 0).st = .drain ∧ (draining.ch 0).quiet = false) ∧
    (sweepWaits.running = true ∧ sweepWaits.time.refclk = true ∧ (sweepWaits.ch 0).sweeping = none ∧
      (sweepWaits.ch 0).waiting = some (some .keep, 0) ∧ sweepWaits.sweepReady 0 .keep 0 = true ∧
      (sweepWaits.setCh 1 { up.ch 1 with sweeping := some .retrain }).sweepReady 0 .keep 0 = false) ∧
    (freqWaits.running = true ∧ freqWaits.time.refclk = true ∧ (freqWaits.ch 0).sweeping = none ∧
      (freqWaits.ch 0).waiting = some (some .freqsw, 0) ∧ freqWaits.sweepReady 0 .freqsw 0 = true) := by decide

theorem witness_DrainsAndSweeps_reads : sweepWaits.noReads ∧ freqWaits.noReads := ⟨sweepWaits_noReads, freqWaits_noReads⟩

/-- A retrain sweep of channel 0. -/
def sweeps : State := up.setCh 0 { up.ch 0 with st := .drain, sweeping := some .retrain }

/-- A lane that passes every step: an eye of 26 codes of 64 taps, gate window of 64 settings. -/
def laneGood : LaneMeas :=
  ⟨some 5, some (100, 164), List.replicate 64 true, List.replicate 64 true, List.replicate 26 64, List.replicate 64 true, true⟩

def sweepGood : SweepData := ⟨List.replicate 10 laneGood, List.replicate 10 laneGood⟩

theorem witness_SweepEnds : sweeps.powered = true ∧ 3 ≤ sweeps.boot.stage ∧ sweeps.dp.fatal = false ∧
    sweeps.time.refclk = true ∧ Table.wf EvCell.zero sweeps.events = true ∧ sweeps.boot.warm = false ∧ sweeps.running = true ∧
    (sweeps.ch 0).waiting = none ∧ (sweeps.ch 0).sweeping = some .retrain ∧
    SweepFor.retrain ≠ .boot ∧ SweepFor.retrain ≠ .final ∧ sweepStep sweepGood (sweeps.ch 0).ranks = 0 ∧
    sweepStep sweepOk (sweeps.ch 0).ranks = 2 := by decide

/-- A sweep of a channel for the final check, and at start-up. -/
def sweepsFor (c : YId) (k : SweepFor) : State := up.setCh c { up.ch c with st := .drain, sweeping := some k }

/-- Start-up's sweep of Y1 after two banks have failed. -/
def haltedSweep : State :=
  ({ sweepsFor 1 .boot with boot := { up.boot with stage := 4, halted := true, carding := true } }).takeLock .dram 3

theorem witness_SweepEnds_boot : govAgree (sweepsFor 1 .boot) = true ∧
    ({ sweepsFor 0 .warm with boot := { up.boot with warm := true, warmed := 2 } } : State).boot.warmed ≠ 1 ∧
    ((sweepsFor 0 .keep).ch 0).sweeping = some .keep ∧ ((sweepsFor 0 .drop).ch 0).sweeping = some .drop ∧
    (sweepsFor 0 .keep).running = true ∧ ((sweepsFor 0 .keep).ch 0).waiting = none := by decide

theorem witness_SweepEnds_other : (∀ c, ∀ k ∈ [SweepFor.final, .boot], (sweepsFor c k).powered = true ∧
    3 ≤ (sweepsFor c k).boot.stage ∧ (sweepsFor c k).dp.fatal = false ∧ (sweepsFor c k).time.refclk = true ∧
    ((sweepsFor c k).ch c).sweeping = some k) ∧ up.boot.halted = false ∧
    (haltedSweep.powered = true ∧ 3 ≤ haltedSweep.boot.stage ∧ haltedSweep.dp.fatal = false ∧ haltedSweep.time.refclk = true ∧
      (haltedSweep.ch 1).sweeping = some .boot ∧ haltedSweep.boot.halted = true ∧
      (haltedSweep.lock .dram).holder = VWord.of 3 ∧ (haltedSweep.ch 0).sweeping = none ∧ haltedSweep.boot.stage ≠ 8) := by
  decide

/-- The gap of a refresh of rank 1 is open; a tracking update must run before any request; step 8 of a frequency change. -/
def gapped : State := up.setCh 0 { up.ch 0 with gap := #v[none, some 5] }
def musts : State := up.setCh 0 { up.ch 0 with must := #v[true, false] }
def stepEight : State := up.setCh 0 { up.ch 0 with
  st := .freqsw, carryB := true, setB := true, freq := some { freqDone with upd := Vector.replicate 2 false } }

theorem witness_TrackingMovesOneTap :
    (gapped.running = true ∧ gapped.time.refclk = true ∧ (gapped.ch 0).noRef = false ∧ (gapped.ch 0).sweeping = none ∧
      (gapped.ch 0).st = .active ∧ (gapped.ch 0).hasRank true = true ∧ (gapped.ch 0).trackDue true = true ∧
      (gapped.ch 0).trackDue false = false ∧ (musts.ch 0).trackDue false = true) ∧
    (stepEight.running = true ∧ stepEight.time.refclk = true ∧ (stepEight.ch 0).noRef = false ∧
      (stepEight.ch 0).sweeping = none ∧ (stepEight.ch 0).st = .freqsw ∧ (stepEight.ch 0).quiet = true ∧
      (stepEight.ch 0).freq = some { freqDone with upd := Vector.replicate 2 false } ∧
      (stepEight.ch 0).carry freqDone.toB = true ∧ (stepEight.ch 0).setB = freqDone.toB ∧
      freqDone.upd[0] = true ∧ ({ freqDone with upd := Vector.replicate 2 false } : Freq).upd[0] = false ∧
      (freqDone.locked = true → (stepEight.ch 0).setB = freqDone.toB)) := by decide

theorem witness_TrackingMovesOneTap_reads : gapped.noReads ∧ stepEight.noReads := ⟨quiet (by decide), quiet (by decide)⟩

/-- HOLD is set on channel 0 and its drain has not begun; channel 0 drains for a hold. -/
def holdAsked : State := dram.setCh 0 { dram.ch 0 with hold := true, holdReq := some ⟨0, 10, 0⟩ }
def drainsForHold : State := dram.setCh 0 { dram.ch 0 with st := .drain, hold := true, drainHold := true }

/-- A pattern run in progress; training billets all used up. -/
def runsAlready : State := dram.setCh 0 { dram.ch 0 with run := some (patRun 2) }
def pastEnd : State := dram.setCh 0 { dram.ch 0 with pgctlH := 0xFFFF, tregLen := 16 }

theorem holdAsked_noReads : holdAsked.noReads := quiet (by decide)
theorem drainsForHold_noReads : drainsForHold.noReads := quiet (by decide)
theorem runsAlready_noReads : runsAlready.noReads := quiet (by decide)
theorem pastEnd_noReads : pastEnd.noReads := quiet (by decide)

theorem witness_HostTraining_hold :
    (dram.noReads ∧ dram.landsNow .a (.phy 0) 0x0B ∧ (dram.ch 0).hold = false) ∧
    (hosted.noReads ∧ hosted.landsNow .a (.phy 0) 0x0B ∧ (hosted.ch 0).hold = true ∧ (hosted.ch 0).heldHost = true) ∧
    (holdAsked.noReads ∧ holdAsked.landsNow .a (.phy 0) 0x0B ∧ (holdAsked.ch 0).hold = true ∧
      (holdAsked.ch 0).heldHost = false ∧ (holdAsked.ch 0).st ≠ .drain) ∧
    (drainsForHold.noReads ∧ drainsForHold.landsNow .a (.phy 0) 0x0B ∧ (drainsForHold.ch 0).hold = true ∧
      (drainsForHold.ch 0).heldHost = false ∧ (drainsForHold.ch 0).st = .drain ∧ (drainsForHold.ch 0).drainHold = true) :=
  ⟨⟨dram_noReads, lands (by decide), by decide⟩, ⟨hosted_noReads, lands (by decide), by decide⟩,
    ⟨holdAsked_noReads, lands (by decide), by decide⟩, drainsForHold_noReads, lands (by decide), by decide⟩

theorem witness_HostTraining_run :
    (dram.noReads ∧ dram.landsNow .a (.phy 0) 0x10 ∧ (dram.ch 0).run = none ∧ (dram.ch 0).st = .active ∧
      (dram.ch 0).noRef = false ∧ (dram.ch 0).pgctlH.toNat < (dram.ch 0).tregLen.toNat) ∧
    (runsAlready.noReads ∧ runsAlready.landsNow .a (.phy 0) 0x10 ∧ runsAlready.eventsWf ∧ (runsAlready.ch 0).run ≠ none) ∧
    (pastEnd.noReads ∧ pastEnd.landsNow .a (.phy 0) 0x10 ∧ pastEnd.eventsWf ∧ (pastEnd.ch 0).run = none ∧
      (pastEnd.ch 0).st = .active ∧ (pastEnd.ch 0).tregLen.toNat ≤ (pastEnd.ch 0).pgctlH.toNat) ∧
    (runsAlready.running = true ∧ runsAlready.time.refclk = true ∧ (runsAlready.ch 0).noRef = false ∧
      (runsAlready.ch 0).run = some (patRun 2) ∧ (patRun 2).issued = (patRun 2).writes + (patRun 2).reads ∧
      (patRun 2).writes ≠ 0) ∧
    ((hostRun.ch 0).run = some (patRun 0) ∧ (patRun 0).issued ≠ (patRun 0).writes + (patRun 0).reads) :=
  ⟨⟨dram_noReads, lands (by decide), by decide⟩, ⟨runsAlready_noReads, lands (by decide), wfEv (by decide), by decide⟩,
    ⟨pastEnd_noReads, lands (by decide), wfEv (by decide), by decide⟩, by decide, by decide⟩

/-! ### Witnesses: the Azlin link -/

/-- The second device of a depth chain: both ends enabled and UP, queue 0 chain-fed and queue 1 chain-read. -/
def linked : State :=
  { (up.setQu 0 qOn).setQu 1 { qOn with
      qcfg := VWord.of 4, w := 32, billets := [⟨0, true, false, false, false, none, []⟩], held := List.replicate 32 0 } with
    boot := { up.boot with straps := ⟨1, false, 0, false, false⟩ }
    azl := { Azl.reset with
      acfg := VWord.of 3, ainq := VWord.of 1
      out := { OutLink.reset with st := .up, fresh := false, cred := Vector.replicate 16 1 }
      inn := { InLink.reset with st := .up, fresh := false } } }

def data8 : List (BitVec 36) := List.replicate 8 0

/-- A stave frame of queue 0 with a number, and a link frame of a kind from position `pos`. -/
def staveCtl (seq : Nat) : BitVec 36 := withCrc seq data8
def linkCtl (sub pos : Nat) : BitVec 36 := withCrc (256 * pos + 8192 + 16384 * sub) []

set_option maxRecDepth 50000 in
theorem witness_StaveReceived :
    (linked.running = true ∧ linked.inEnabled = true ∧ linked.azl.inn.st = .up ∧ linked.azl.inn.hold = false ∧
      linked.chainFed (ctlQueue (staveCtl 0)) = true ∧ (linked.qu 0).en = true ∧ (linked.qu 0).resetting = false ∧
      Table.wf EvCell.zero linked.events = true ∧ (linked.qu 0).billets = []) ∧
    (ctlCrc (staveCtl 0) = frameCrc (staveCtl 0) data8 ∧ ctlType (staveCtl 0) < 2 ∧ ctlSeq (staveCtl 0) = linked.azl.inn.e) ∧
    (ctlCrc (staveCtl 20480) = frameCrc (staveCtl 20480) data8 ∧ ctlType (staveCtl 20480) = 1 ∧
      ctlPoison (staveCtl 20480) = true ∧ ctlSeq (staveCtl 20480) = linked.azl.inn.e ∧ ctlQueue (staveCtl 20480) = 0) ∧
    (ctlCrc (staveCtl 192) = frameCrc (staveCtl 192) data8 ∧ ctlSeq (staveCtl 192) ≠ linked.azl.inn.e ∧
      (linked.azl.inn.e - ctlSeq (staveCtl 192)).toNat ≤ 64) ∧
    ctlCrc 0 ≠ frameCrc 0 data8 := by decide +kernel

/-- `linked` while its receiver discards. -/
def discards : State := linked.setIn { linked.azl.inn with hold := true }

set_option maxRecDepth 50000 in
theorem witness_StaveReceived_other :
    (discards.running = true ∧ discards.inEnabled = true ∧ discards.azl.inn.st = .up ∧ discards.azl.inn.hold = true) ∧
    (ctlCrc (withCrc 256 data8) = frameCrc (withCrc 256 data8) data8 ∧ ctlType (withCrc 256 data8) < 2 ∧
      ctlSeq (withCrc 256 data8) = linked.azl.inn.e ∧ linked.chainFed (ctlQueue (withCrc 256 data8)) = false) ∧
    (ctlCrc (staveCtl 1) = frameCrc (staveCtl 1) data8 ∧ ctlType (staveCtl 1) < 2 ∧
      64 < (linked.azl.inn.e - ctlSeq (staveCtl 1)).toNat) := by decide +kernel

theorem witness_LinkFrameReceived :
    (linked.running = true ∧ linked.inEnabled = true ∧ linked.azl.inn.st ≠ .down ∧ linked.azl.inn.fresh = false ∧
      (linked.setIn InLink.reset).azl.inn.fresh = true) ∧
    (∀ k : Fin 3, ctlCrc (linkCtl k.val 0) = frameCrc (linkCtl k.val 0) [] ∧ ctlType (linkCtl k.val 0) = 2 ∧
      ctlSub (linkCtl k.val 0) = k.val ∧ linked.posMismatch (linkCtl k.val 0) = false) ∧
    (ctlCrc (linkCtl 0 3) = frameCrc (linkCtl 0 3) [] ∧ ctlType (linkCtl 0 3) = 2 ∧ ctlSub (linkCtl 0 3) = 0 ∧
      linked.posMismatch (linkCtl 0 3) = true ∧ Table.wf EvCell.zero linked.events = true) ∧
    (∀ k : Fin 2, linked.posMismatch (linkCtl (k.val + 1) 3) = true ∧
      ctlCrc (linkCtl (k.val + 1) 3) = frameCrc (linkCtl (k.val + 1) 3) [] ∧ ctlSub (linkCtl (k.val + 1) 3) = k.val + 1) ∧
    (ctlCrc (linkCtl 3 0) = frameCrc (linkCtl 3 0) [] ∧ ctlSub (linkCtl 3 0) = 3) ∧ ctlCrc 1 ≠ frameCrc 1 [] := by
  decide +kernel

theorem witness_LinkEndsSend :
    (linked.running = true ∧ linked.inEnabled = true ∧ linked.azl.inn.st = .up ∧ linked.chainFed 0 = true ∧
      (linked.qu 0).en = true ∧ (linked.qu 0).resetting = false ∧ linked.azl.inn.out[0] < 32 ∧ linked.azl.inn.out.sum < 64 ∧
      32 ≤ linked.free 0 - (linked.qu 0).ffresSlots - linked.resv 0 ∧ linked.frameFor 0 32 = true ∧ linked.azl.inn.lastTx + 100 ≤ linked.time.ticks) ∧
    (linked.time.refclk = true ∧ linked.outEnabled = true ∧ linked.azl.out.st = .up ∧ linked.twin = false ∧
      (linked.qu 1).chainRead = true ∧ linked.holder 1 = none ∧ (linked.qu 1).forced = false ∧ 0 < linked.azl.out.cred[1] ∧
      (∀ r ∈ linked.azl.out.resend, r.wait = false) ∧ linked.sendSize 1 = 32 ∧ (linked.qu 1).held.length = (linked.qu 1).occ ∧
      (linked.qu 1).off (linked.qu 1).r + 32 ≤ (linked.qu 1).occ ∧ (linked.qu 0).chainRead = false ∧
      linked.azl.out.lastTx + 100 ≤ linked.time.ticks) := by decide +kernel

/-- `linked` with the receiver at its limit of credits of queue 0, and in all. -/
def granted (per : Nat) : State := linked.setIn { linked.azl.inn with out := Vector.replicate 16 per }

/-- A sender that is asked for a resync again. -/
def resyncAsked (at_ : Nat) : State := linked.setOut { linked.azl.out with rqAt := some at_ }

/-- The share of queue 0 is filled by the frame that waits for a refill. -/
def noFrame : State := linked.modQu 0 fun x => { x with
  map := some ⟨1, 0, 0, 1, 0, 9⟩, w := 8192, billets := [⟨0, true, true, false, false, some 3, []⟩] }

theorem witness_LinkEndsSend_frame : noFrame.running = true ∧ noFrame.inEnabled = true ∧ noFrame.azl.inn.st = .up ∧
    noFrame.chainFed 0 = true ∧ (noFrame.qu 0).en = true ∧ (noFrame.qu 0).resetting = false ∧
    noFrame.frameFor 0 32 = false := by decide +kernel

theorem witness_LinkEndsSend_limits :
    ((granted 32).running = true ∧ (granted 32).inEnabled = true ∧ 32 ≤ (granted 32).azl.inn.out[0] ∧ (granted 4).azl.inn.out[0] < 32 ∧
      64 ≤ (granted 4).azl.inn.out.sum ∧ (granted 4).azl.inn.st = .up ∧ (granted 4).chainFed 0 = true) ∧
    ((resyncAsked 20000000).running = true ∧ (resyncAsked 20000000).outEnabled = true ∧
      (resyncAsked 20000000).azl.out.rqAt = some 20000000 ∧ (resyncAsked 20000000).time.ticks ≤ 20000000 + 100 ∧
      (resyncAsked 20000000).azl.out.lastResync + 200 ≤ (resyncAsked 20000000).time.ticks ∧ (resyncAsked 20000000).azl.out.resend = []) ∧
    linked.azl.out.rqAt = none := by decide +kernel

/-- `linked` with a stave not acknowledged, its number `n`; and with its end fresh or answered. -/
def unacked (n : BitVec 8) : Resend := ⟨n, 1, List.replicate 32 0, false, false, false⟩
def sender (fresh sync : Bool) (l : List Resend) : State :=
  linked.setOut { linked.azl.out with fresh := fresh, sync := sync, resend := l }

theorem witness_CreditFrameReceived :
    linked.running = true ∧ linked.outEnabled = true ∧ linked.azl.out.st ≠ .down ∧
    ((creditBits 0 255 0 3).getLsbD 37 = true ∧ creditOk (creditBits 0 255 0 3) = true ∧
      (creditBits 0 255 0 3).extractLsb' 35 2 = 0 ∧ ∀ r ∈ linked.azl.out.resend, r.wait = false) ∧
    ((creditBits 0 255 0 3 ^^^ 1).getLsbD 37 = true ∧ creditOk (creditBits 0 255 0 3 ^^^ 1) = false ∧
      Table.wf EvCell.zero linked.events = true) := by decide +kernel

theorem witness_CreditFrameReceived_resync :
    (∀ rq : Fin 4, (creditBits rq.val 255 0 3).getLsbD 37 = true ∧ creditOk (creditBits rq.val 255 0 3) = true ∧
      ((creditBits rq.val 255 0 3).extractLsb' 35 2).toNat = rq.val) ∧
    ((sender false false [unacked 7]).azl.out.episode = false ∧ (sender false false [unacked 7]).azl.out.st = .up ∧
      (∀ r ∈ (sender false false [unacked 7]).azl.out.resend, r.need = false) ∧
      ((255 : BitVec 8) - (unacked 7).seq).toNat ≥ 128) ∧
    ((sender true false []).azl.out.fresh = true ∧ (sender true false []).azl.out.sync = false ∧
      (sender true true []).azl.out.sync = true ∧ (sender true true []).azl.out.resend = []) ∧
    ((resyncAsked 0).setOut { (resyncAsked 0).azl.out with episode := true }).azl.out.episode = true ∧
    (linked.setOut { linked.azl.out with st := .train }).azl.out.st ≠ .up ∧
    (sender false false []).azl.out.fresh = false ∧ (∀ r ∈ (sender false true []).azl.out.resend, r.wait = false) := by
  decide +kernel

/-- Both ends of `linked` in TRAIN, answered in this bring-up or not; and DOWN since 10,000 REFCLK ticks or fewer. -/
def training (seen : Bool) : State :=
  { linked with azl := { linked.azl with
      out := { linked.azl.out with st := .train, sync := true, answered := seen }, inn := { linked.azl.inn with st := .train, got := seen } } }
def downSince (k : Nat) : State :=
  { linked with azl := { linked.azl with
      out := { linked.azl.out with st := .down, lost := some k }, inn := { linked.azl.inn with st := .down, lost := some k } } }

theorem witness_LinkStates :
    (linked.running = true ∧ linked.time.refclk = true ∧ Table.wf EvCell.zero linked.events = true ∧
      linked.azl.out.st = .up ∧ linked.azl.out.lastRx + 10000 ≤ linked.time.ticks ∧ linked.azl.inn.st = .up ∧
      linked.azl.inn.lastRx + 10000 ≤ linked.time.ticks ∧ linked.outEnabled = true ∧ linked.inEnabled = true) ∧
    (∀ seen : Bool, (training seen).running = true ∧ (training seen).outEnabled = true ∧ (training seen).azl.out.st = .train ∧
      (training seen).azl.out.answered = seen ∧ (training seen).azl.out.resend = [] ∧ (training seen).inEnabled = true ∧
      (training seen).azl.inn.st = .train ∧ (training seen).azl.inn.got = seen ∧ (training seen).azl.inn.mism = false) ∧
    ((downSince 19990000).azl.out.st = .down ∧ (downSince 19990000).azl.inn.st = .down ∧
      19990000 + 10000 ≤ (downSince 19990000).time.ticks ∧ (downSince 19990001).time.ticks < 19990001 + 10000) := by decide

/-- `linked` with the Azlin bank selected on path A. -/
def azlBank : State := linked.modPath .a fun x => { x with bankSel := 0x30 }

theorem witness_LinkResetAndConfiguration :
    (up.hostWrites .a ∧ up.outEnabled = false ∧ up.inEnabled = false) ∧
    (azlBank.hostWrites .a ∧ azlBank.outEnabled = true ∧ azlBank.inEnabled = true ∧ (azlBank.path .a).bankSel = 0x30) ∧
    ((upLock .config).mayWrite .a .azl 0 ∧ (upLock .config).mayWrite .a .azl 1 ∧ up.powered = true) ∧
    ((upLock .config).strapsBad = false ∧ (1 : Word).getLsbD 0 = true ∧ (1 : Word).getLsbD 1 = false ∧
      (2 : Word).getLsbD 0 = false ∧ (upLock .config).azl.acfg.val.getLsbD 0 = false) :=
  ⟨⟨host (by decide), by decide⟩, ⟨host (by decide), by decide⟩, ⟨may (by decide), may (by decide), by decide⟩, by decide⟩

/-! ### Witnesses: time, calendar, windows -/

/-- `up` with the least remainder of a slew that still ends at the next edge. -/
def slewing : State := { up with time := { up.time with slew := -536870912 } }

/-- A frequency change of channel 0 in step 4 with `k` edges counted. -/
def locking (k : Nat) : State := up.setCh 0 { up.ch 0 with
  st := .freqsw, carryB := true, freq := some ⟨true, .active, 0, false, Vector.replicate 2 false, k⟩ }

theorem witness_TimeAdvances_freq : ∀ k ∈ [70098, 70099], (locking k).noReads ∧ (locking k).timeOn = true ∧
    ((locking k).ch 0).freq = some ⟨true, .active, 0, false, Vector.replicate 2 false, k⟩ ∧ ((locking k).ch 0).quiet = true ∧
    ((locking k).ch 0).noRef = false ∧ ((locking k).ch 1).freq = none :=
  fun k _ => ⟨quiet ⟨rfl, rfl⟩, by simp only [List.mem_cons, List.not_mem_nil, or_false] at *; rcases ‹k = _ ∨ k = _› with rfl | rfl <;> decide⟩

theorem witness_TimeAdvances : up.noReads ∧ up.timeOn = true ∧
    (up.time.total : Int) + 1073741824000 + 250 * up.time.trim + up.time.slewInc < 2 ^ 48 * unitsSec ∧
    State.reset.timeOn = false ∧ slewing.timeOn = true ∧ slewing.time.slew ≠ 0 ∧ slewing.time.slew.natAbs ≤ 536870912 :=
  ⟨up_noReads, by decide⟩

/-- An edge of PPS_IN was accepted 500 ms ago, and 1 unit less. -/
def ppsAt (a : Nat) : State := { up with time := { up.time with ppsLast := some a } }

theorem witness_PpsAndTimeOutput_pps :
    (up.timeOn = true ∧ up.time.ppsLast = none ∧ up.time.ppsLast.getD 0 + 1500000 * unitsUs ≤ up.time.adv) ∧
    ((ppsAt (10 ^ 30 - 500000 * unitsUs)).timeOn = true ∧
      (10 ^ 30 - 500000 * unitsUs) + 500000 * unitsUs ≤ (ppsAt (10 ^ 30 - 500000 * unitsUs)).time.adv) ∧
    ((ppsAt (10 ^ 30 - 500000 * unitsUs + 1)).timeOn = true ∧ Table.wf EvCell.zero up.events = true ∧
      (ppsAt (10 ^ 30 - 500000 * unitsUs + 1)).time.adv < (10 ^ 30 - 500000 * unitsUs + 1) + 500000 * unitsUs) := by decide

/-- TS_OUT in a mode, the time base just past a point; and in a pulse begun `k` units ago. -/
def pulses (mode : Word) (half : Bool) : State := { up with time := { up.time with tsoutNow := mode, pass := some half } }
def inPulse (k : Nat) : State := { up with time := { up.time with pulse := some (10 ^ 30 - k) } }

theorem witness_PpsAndTimeOutput_ts :
    (upLock .time).mayWrite .a .time 0x14 ∧
    ((pulses 1 false).timeOn = true ∧ (pulses 1 false).time.tsoutPend = none ∧ (pulses 1 false).time.tsMode = 1 ∧
      (pulses 1 false).time.pass = some false) ∧
    ((pulses 2 true).timeOn = true ∧ (pulses 2 true).time.tsoutPend = none ∧ (pulses 2 true).time.tsMode = 2 ∧
      (pulses 2 true).time.pass = some true) ∧
    ((10 ^ 30 - unitsUs) + (inPulse unitsUs).time.tsWidth * unitsUs ≤ (inPulse unitsUs).time.adv ∧
      (inPulse 1).time.adv < (10 ^ 30 - 1) + (inPulse 1).time.tsWidth * unitsUs) := ⟨may (by decide), by decide⟩

/-- `up` with LOCKTIME held by path A and the discipline in force. -/
def timed : State := upLock .time

/-- `timed` in FREE. -/
def free : State := { timed with time := { timed.time with disc := VWord.of 0 } }

/-- A UTC change armed for second `n`. -/
def armed (n : BitVec 48) : State := { timed with time := { timed.time with utcArmed := true, utcAt := n, utcNxt := 37 } }

theorem witness_CorrectionsAndCalendar_offset :
    (timed.mayWrite .a .time 4 ∧ timed.eventsWf ∧ free.mayWrite .a .time 4 ∧ free.eventsWf ∧ timed.utcDue = false ∧
      free.utcDue = false) ∧
    (timed.correctionRefusal (offsetUnits 0 1000000) (decide (nsSec ≤ (1000000 : BitVec 30).toNat)) = none ∧
      (offsetUnits 0 1000000).natAbs ≤ timed.time.stepth.toNat * unitsUs) ∧
    (timed.correctionRefusal (offsetUnits 0 1000001) (decide (nsSec ≤ (1000001 : BitVec 30).toNat)) = none ∧
      timed.time.stepth.toNat * unitsUs < (offsetUnits 0 1000001).natAbs) ∧
    timed.correctionRefusal (offsetUnits 0 1000000000) (decide (nsSec ≤ (1000000000 : BitVec 30).toNat)) = some Reason.range ∧
    timed.correctionRefusal (offsetUnits (-3601) 999999999) (decide (nsSec ≤ (999999999 : BitVec 30).toNat))
      = some Reason.arm ∧
    free.correctionRefusal 0 false = some Reason.mode :=
  ⟨⟨may (by decide), wfEv (by decide), may (by decide), wfEv (by decide), by decide⟩, by decide⟩

theorem witness_CorrectionsAndCalendar_due :
    (armed 86400).mayWrite .a .time 4 ∧ (armed 86400).mayWrite .a .cal 6 ∧ (armed 86400).mayWrite .a .cal 7 ∧
    (armed 86400).utcDue = true :=
  ⟨may (by decide), may (by decide), may (by decide), by decide⟩

/-- The calendar staged on the last day of February of a leap year, and one day later. -/
def staged (day : Word) : State := { timed with cal := { timed.cal with year := 2028, mon := 2, day := day } }

theorem witness_CorrectionsAndCalendar_cal :
    ((staged 29).mayWrite .a .cal 6 ∧ (staged 29).utcDue = false ∧ (staged 29).cal.impossible = false ∧
      (staged 29).correctionRefusal
        ((((staged 29).cal.seconds : Int) + sint (staged 29).time.utcOff) * unitsSec - (staged 29).time.total) false = none ∧
      (staged 29).time.stepth.toNat * unitsUs <
        ((((staged 29).cal.seconds : Int) + sint (staged 29).time.utcOff) * unitsSec - (staged 29).time.total).natAbs) ∧
    ((staged 30).mayWrite .a .cal 6 ∧ (staged 30).eventsWf ∧ (staged 30).cal.impossible = true) ∧ timed.mayWrite .a .cal 7 :=
  ⟨⟨may (by decide), by decide⟩, ⟨may (by decide), wfEv (by decide), by decide⟩, may (by decide)⟩

/-- The staged date and time are those of the time base. -/
def stagedNow : State := { timed with cal := { timed.cal with year := 1970, mon := 1, day := 2 } }

theorem witness_CorrectionsAndCalendar_calSlew :
    (stagedNow.mayWrite .a .cal 6 ∧ stagedNow.utcDue = false ∧ stagedNow.cal.impossible = false ∧
      stagedNow.correctionRefusal
        (((stagedNow.cal.seconds : Int) + sint stagedNow.time.utcOff) * unitsSec - stagedNow.time.total) false = none ∧
      (((stagedNow.cal.seconds : Int) + sint stagedNow.time.utcOff) * unitsSec - stagedNow.time.total).natAbs ≤
        stagedNow.time.stepth.toNat * unitsUs) ∧
    ({ stagedNow with time := free.time } : State).correctionRefusal
      (((stagedNow.cal.seconds : Int) + sint free.time.utcOff) * unitsSec - free.time.total) false = some Reason.mode :=
  ⟨⟨may (by decide), by decide⟩, by decide⟩

theorem witness_CorrectionsAndCalendar_word : timed.agrees .discMode ∧ free.agrees .discMode ∧
    (armed 86400).agrees .discMode ∧ (staged 29).agrees .discMode ∧ stagedNow.agrees .discMode :=
  ⟨agreed_of (by decide), agreed_of (by decide), agreed_of (by decide), agreed_of (by decide), agreed_of (by decide)⟩

theorem witness_RateAndUtc :
    (timed.mayWrite .a .time 2 ∧ timed.mayWrite .a .time 0x0F ∧ timed.mayWrite .a .time 0x11 ∧ timed.mayWrite .a .time 0 ∧
      timed.eventsWf) ∧
    ((armed 86401).utcDue = false ∧ (armed 86401).powered = true ∧ (armed 86400).utcDue = true ∧
      (armed 86400).powered = true) ∧
    ((armed 86400).mayWrite .a .time 0 ∧ (armed 86400).mayWrite .a .time 0x0F ∧ (armed 86400).mayWrite .a .time 0x11) :=
  ⟨⟨may (by decide), may (by decide), may (by decide), may (by decide), wfEv (by decide)⟩, by decide, may (by decide),
    may (by decide), may (by decide)⟩

/-- Window 0: every day at second 0 for a minute; and the same while it is open to a countdown. -/
def daily (close : Option Nat) (record : Option Int) : State :=
  timed.setWin 0 ⟨1, 0, 60, 0x8000, close, record⟩

theorem witness_WindowEngine :
    timed.mayWrite .a .win (4 * (15 : Fin 16).val) ∧
    ((daily none none).timeOn = true ∧ ((daily none none).win 0).closeAt = none ∧
      ((daily none none).win 0).hit (clampView (daily none none).view) = some 1 ∧
      ((daily none (some 1)).win 0).hit (clampView (daily none (some 1)).view) = none ∧
      ((daily (some (10 ^ 30)) none).win 0).closeAt.isSome = true) ∧
    (((daily (some (10 ^ 30)) (some 1)).win 0).closeAt = some (10 ^ 30) ∧ 10 ^ 30 ≤ timed.time.adv ∧
      ((daily (some (10 ^ 30)) (some 1)).win 0).hit (clampView (daily (some (10 ^ 30)) (some 1)).view) = none ∧
      ((daily (some (10 ^ 30)) (some 0)).win 0).hit (clampView (daily (some (10 ^ 30)) (some 0)).view) = some 1) ∧
    timed.time.adv < 10 ^ 30 + 1 ∧ (daily none none).utcDue = false ∧ (armed 86400).utcDue = true := ⟨may (by decide), by decide⟩

/-! ### Witnesses: host paths, locks, counters -/

/-- `up` with a bank selected on path A. -/
def bank (sel : BitVec 6) : State := up.modPath .a fun x => { x with bankSel := sel }

theorem bank_noReads (sel : BitVec 6) : (bank sel).noReads := quiet ⟨rfl, rfl⟩

/-- DP:IDENT word 9 has one word and no vote; Qn word 0x20 is the lowest of several, not voted. -/
theorem witness_RegisterAccess_reads : (bank 0x3F).writable .a = true ∧
    bankAt ((bank 0x3F).path .a).bankSel.toNat = some .ident ∧ Bank.ident.has (((73 : BitVec 7).toNat - 64)) = true ∧
    Bank.ident.posted 9 = false ∧ (Bank.ident.group 9).2 = 1 ∧ Bank.ident.vref 9 = none ∧ (bank 0x3F).inView .a = false ∧
    Bank.ident ≠ .time ∧ (63 : BitVec 7).toNat < 64 ∧ (63 : BitVec 7) ≠ 6 ∧ (63 : BitVec 7) ≠ 7 ∧ (63 : BitVec 7) ≠ 8 ∧
    (63 : BitVec 7) ≠ 0x17 := by decide

/-- `bank 0` with its W read once, so that the higher words are held. -/
def latchedQ : State := (bank 0).modPath .a fun x => { x with holdGen := some ⟨.queue 0, 0x20, 0, false, none, [1, 2, 3]⟩ }

theorem witness_RegisterAccess_latch :
    ((bank 0).writable .a = true ∧ bankAt ((bank 0).path .a).bankSel.toNat = some (.queue 0) ∧ (bank 0).inView .a = false ∧
      (Bank.queue 0).has 0x20 = true ∧ (Bank.queue 0).posted 0x20 = false ∧ (Bank.queue 0).vref 0x20 = none ∧
      ((Bank.queue 0).group 0x20).1 = 0x20 ∧ 1 < ((Bank.queue 0).group 0x20).2 ∧ (Bank.queue 0).readRefs 0x20 = []) ∧
    (latchedQ.writable .a = true ∧ bankAt (latchedQ.path .a).bankSel.toNat = some (.queue 0) ∧
      (Bank.queue 0).vref 0x21 = none ∧ ((Bank.queue 0).group 0x21).1 = 0x20 ∧ ((Bank.queue 0).group 0x21).1 ≠ 0x21 ∧
      (latchedQ.path .a).holdGen = some (latchedQ.latchOf .a (.queue 0) 0x20 [1, 2, 3]) ∧
      ([1, 2, 3] : List Word)[0x21 - 0x20]? = some 2 ∧ (bank 0).latched .a (.queue 0) 0x21 = none) := by decide

theorem witness_RegisterAccess : (bank 0x3E).writable .a = true ∧ 64 ≤ (64 : BitVec 7).toNat ∧
    bankAt ((bank 0x3E).path .a).bankSel.toNat = none ∧ 0x22 < (0x23 : BitVec 7).toNat ∧ (63 : BitVec 7).toNat < 64 := by decide

/-- The bank of queue 3 selected; `lockedBank` with DP:LOCKCFG held by the path; path A in FATAL. -/
def lockedBank (sel : BitVec 6) : State := (upLock .config).modPath .a fun x => { x with bankSel := sel }
def lockedTime (sel : BitVec 6) : State := (upLock .time).modPath .a fun x => { x with bankSel := sel }
def fatalBank (sel : BitVec 6) : State := fatal.modPath .a fun x => { x with bankSel := sel }

theorem witness_RegisterAccess_stages : (bank 3).writable .a = true ∧ (bank 3).dp.fatal = false ∧
    bankAt ((bank 3).path .a).bankSel.toNat = some (.queue 3) ∧ (Bank.queue 3).has 9 = true ∧
    (Bank.queue 3).posted 9 = false ∧ (Bank.queue 3).stages 9 = true := by decide

theorem witness_RegisterAccess_puts :
    ((bank 3).mayWrite .a (.queue 3) 8 ∧ (bank 3).mayWrite .a (.queue 3) (8 + 3 * (3 : Fin 4).val) ∧
      (bank 3).mayWrite .a (.queue 3) 0x14 ∧ (bank 3).mayWrite .a (.queue 3) 0x17 ∧
      ((bank 3).path .a).bankSel.toNat = (Bank.queue 3).sel) ∧
    ((lockedBank 3).mayWrite .a (.queue 3) 2 ∧ (lockedBank 3).mayWrite .a (.queue 3) 4 ∧
      (lockedBank 3).mayWrite .a (.queue 3) 6) ∧
    ((lockedBank 0x18).mayWrite .a (.yard false) (2 * (31 : Fin 32).val) ∧
      ((lockedBank 0x18).path .a).bankSel.toNat = (Bank.yard false).sel) :=
  ⟨⟨may (by decide), may (by decide), may (by decide), may (by decide), by decide⟩,
    ⟨may (by decide), may (by decide), may (by decide)⟩, may (by decide), by decide⟩

theorem witness_RegisterAccess_puts_time :
    ((lockedTime (BitVec.ofNat 6 Bank.time.sel)).mayWrite .a .time 1 ∧
      (lockedTime (BitVec.ofNat 6 Bank.time.sel)).mayWrite .a .time 0x10 ∧
      ((lockedTime (BitVec.ofNat 6 Bank.time.sel)).path .a).bankSel.toNat = Bank.time.sel) ∧
    ((lockedTime (BitVec.ofNat 6 Bank.cal.sel)).mayWrite .a .cal 0 ∧
      (lockedTime (BitVec.ofNat 6 Bank.cal.sel)).mayWrite .a .cal 3 ∧
      ((lockedTime (BitVec.ofNat 6 Bank.cal.sel)).path .a).bankSel.toNat = Bank.cal.sel) ∧
    ((lockedBank (BitVec.ofNat 6 Bank.gov.sel)).mayWrite .a .gov 0 ∧
      (lockedBank (BitVec.ofNat 6 Bank.gov.sel)).mayWrite .a .gov 3 ∧
      (lockedBank (BitVec.ofNat 6 Bank.land.sel)).mayWrite .a .land 0 ∧
      govAgree (lockedBank (BitVec.ofNat 6 Bank.gov.sel)) = true) :=
  ⟨⟨may (by decide), may (by decide), by decide⟩, ⟨may (by decide), may (by decide), by decide⟩, may (by decide),
    may (by decide), may (by decide), by decide⟩

theorem witness_RegisterAccess_refused :
    ((bank 3).dp.fatal = false ∧ (bank 3).eventsWf ∧ 64 ≤ (66 : BitVec 7).toNat ∧
      bankAt ((bank 3).path .a).bankSel.toNat = some (.queue 3) ∧ (∀ n, Bank.queue 3 ≠ .port n) ∧
      (Bank.queue 3).has 2 = true ∧ (Bank.queue 3).posted 2 = false ∧ (Bank.queue 3).stages 2 = false ∧
      (bank 3).lockAgrees (.queue 3) 2 ∧ (bank 3).writeRefusal .a (.queue 3) 2 = some Reason.lock) ∧
    ((fatalBank 3).writable .a = true ∧ (fatalBank 3).dp.fatal = true ∧ (fatalBank 3).eventsWf ∧
      (1 : BitVec 7).toNat ≤ 0x22 ∧ fatalOk 0x1E 0 = false ∧
      bankAt ((fatalBank 3).path .a).bankSel.toNat = some (.queue 3)) :=
  ⟨⟨by decide, wfEv (by decide), by decide, by decide, nofun, by decide, by decide, by decide, locks (by decide) _ _, by decide⟩,
    by decide, by decide, wfEv (by decide), by decide⟩

/-- Start-up in step 2. -/
def step2 : State := { State.reset with boot := { State.reset.boot with porst := true, stage := 2 } }

theorem witness_AccessesBeforeStepTwo : step2.pathAlive .a = true ∧ step2.pathAlive .b = true ∧ step2.boot.stage < 3 := by
  decide

theorem witness_PstsWriteIgnored : (bank 0x13).writable .a = true ∧
    ((bank 0x13).path .a).bankSel.toNat = 0x10 + (3 : PId).val := by decide

/-- A posted write of P0:PCFG on its way, and a posted read that waits for it. -/
def posts : State := (bank 0x10).modPath .a fun x => { x with posted := [⟨.port 0, 1, 0x1000, none, 0x10, false⟩] }
def reads : State := (bank 0x10).modPath .a fun x => { x with readWait := some (.port 0, 1) }

theorem witness_PostedAccesses_fatal : ({ posts with dp := { posts.dp with fatal := true } } : State).dp.fatal = true ∧
    ({ posts with dp := { posts.dp with fatal := true } } : State).clockOn (.port 0) = true ∧
    ({ posts with dp := { posts.dp with fatal := true } } : State).eventsWf := ⟨by decide, by decide, wfEv (by decide)⟩

theorem witness_PostedAccesses :
    ((bank 0x10).noReads ∧ (bank 0x10).hostWrites .a ∧ ((bank 0x10).path .a).bankSel.toNat = 0x10 + (0 : PId).val ∧
      ((bank 0x10).path .a).posted = []) ∧
    (posts.noReads ∧ posts.dp.fatal = false ∧ (posts.path .a).posted = [⟨.port 0, 1, 0x1000, none, 0x10, false⟩] ∧
      posts.clockOn (.port 0) = true ∧ posts.eventsWf ∧ posts.hostWrites .a ∧ (posts.path .a).busy = true ∧
      (posts.path .a).bankSel.toNat = 0x10 + (0 : PId).val) ∧
    (reads.hostOn = true ∧ reads.eventsWf ∧ (reads.path .a).readWait.isSome = true) :=
  ⟨⟨bank_noReads _, host (by decide), by decide⟩,
    ⟨quiet ⟨rfl, rfl⟩, by decide, by decide, by decide, wfEv (by decide), host (by decide), by decide⟩,
    by decide, wfEv (by decide), by decide⟩

theorem witness_PathBTransactions : up.writable .b = true ∧ Table.wf EvCell.zero up.events = true ∧
    (0xFF : BitVec 8) ≠ up.pecOf 4 0 ∧ up.irqLine .b = false ∧
    (∃ t, exec (.smbusWriteWord 0x0C 1 none .stop) up = .next t) ∧
    ({ up with events := [(evKey 1 0, ⟨1, 0⟩)], pathB := { up.pathB with irq0 := 0x7FFF } } : State).irqLine .b = true :=
  ⟨by decide, by decide, by decide +kernel, by decide, ⟨_, rfl⟩, by decide⟩

/-- Start-up past step 4 with two locks held by path A, DP:LOCKDRAM among them. -/
def step5Two : State := step5.takeLock .config 1

theorem witness_LocksAndConfig_boot : step5Two.hostWrites .a ∧ step5Two.bootWaits = true ∧ step5Two.time.refclk = true ∧
    (∀ l, step5Two.agrees (.lock l)) ∧ (step5Two.lock .dram).holder.val = lockCode .a ∧
    (step5Two.lock .config).holder.val = lockCode .a ∧ LockId.config ≠ .dram ∧ step5Two.dramFree = false ∧
    timed.bootWaits = false ∧ timed.agrees (.lock .time) ∧ up.agrees (.lock .time) ∧ up.agrees (.lock .config) ∧
    written.agrees (.lock .config) :=
  ⟨host (by decide), by decide, by decide, fun l => agreed_of (by cases l <;> decide), by decide, by decide, by decide,
    by decide, by decide, agreed_of (by decide), agreed_of (by decide), agreed_of (by decide), agreed_of (by decide)⟩

theorem witness_LocksAndConfig :
    (up.hostWrites .b ∧ (up.lock .time).holder.val = 0 ∧ up.eventsWf) ∧
    (timed.hostWrites .a ∧ (timed.lock .time).holder.val = lockCode .a) ∧
    (timed.hostWrites .b ∧ timed.eventsWf ∧
      ¬(2 = lockCode .b ∧ ((timed.lock .time).holder.val = 0 ∨ (timed.lock .time).holder.val = lockCode .b)) ∧
      ¬((2 : Word) = 0 ∧ (timed.lock .time).holder.val = lockCode .b)) ∧
    (({ timed with time := { timed.time with ticks := 120000000 } } : State).hostOn = true ∧
      ({ timed with time := { timed.time with ticks := 120000000 } } : State).holds .a .time = true ∧
      timed.time.refclk = true ∧ (timed.lock .time).since + (timed.lock .time).len ≤ 120000000) ∧
    (up.sealed = false ∧ up.holds .a .config = false ∧ written.hostWrites .a ∧ written.sealed = true ∧ written.eventsWf) :=
  ⟨⟨host (by decide), by decide, wfEv (by decide)⟩, ⟨host (by decide), by decide⟩,
    ⟨host (by decide), wfEv (by decide), by decide, by decide⟩, by decide, by decide, by decide,
    host (by decide), by decide, wfEv (by decide)⟩

/-- `allHeld` when the leases of its locks have run out. -/
def leaseOut : State := { allHeld with time := { allHeld.time with ticks := 120000000 } }

theorem witness_LocksAndConfig_lease : leaseOut.hostOn = true ∧ leaseOut.bootWaits = false ∧ leaseOut.time.refclk = true ∧
    (∀ l, leaseOut.holds .a l = true ∧ (leaseOut.lock l).since + (leaseOut.lock l).len ≤ leaseOut.time.ticks) ∧
    (leaseOut.ch 0).hold = true ∧ (leaseOut.ch 0).heldHost = true ∧ (leaseOut.ch 1).hold = true ∧
    (leaseOut.ch 1).heldHost = false :=
  ⟨by decide, by decide, by decide, fun l => by cases l <;> decide, by decide, by decide, by decide, by decide⟩

theorem witness_WriteOnceWords :
    (up.hostWrites .a ∧ up.dp.sealDone = false ∧ up.dp.slotDone = false) ∧
    (written.hostWrites .b ∧ written.eventsWf ∧ written.dp.sealDone = true ∧ written.dp.slotDone = true) :=
  ⟨⟨host (by decide), by decide⟩, host (by decide), wfEv (by decide), by decide⟩

/-- `up` with the parity errors of queue 15 selected on path A. -/
def selected : State := up.modPath .a fun x => { x with evSel := 0xF13 }

theorem witness_EventCounters : selected.writable .a = true ∧ Table.wf EvCell.zero selected.events = true ∧
    selected.boot.warm = false ∧ evSelected (selected.path .a).evSel = some (0x13, 15) ∧ (1 : Word) ≠ 0 := by decide

theorem witness_CountersClear : up.noReads ∧ up.mayWrite .a (.queue 15) 0x1B ∧ up.landsNow .b (.port 3) 3 ∧
    up.landsNow .b (.port 0) 5 := ⟨up_noReads, may (by decide), lands (by decide), lands (by decide)⟩

/-! ### Small tests: the expected values are those of the spec's check values and worked cases -/

/-- The check value under R114. -/
theorem test_crc32 : crc32 [0x31, 0x32, 0x33, 0x34, 0x35, 0x36, 0x37, 0x38, 0x39] = 0xE3069283 := by decide +kernel

/-- The check value under R285. -/
theorem test_crc16 : crc16 (bitsHigh (0x313233343536373839 : BitVec 72) 72) = 0x29B1 := by decide +kernel

/-- Windows 3 and 4 of the case in chapter 11. -/
def lastDay : Window := ⟨4, 0x3560, 0x3840, 0x8009, none, none⟩
def day29 : Window := ⟨4, 0x3560, 0x0E10, 0x81D9, none, none⟩

theorem test_calendar : daysOf 2100 2 28 = 47540 ∧ dowOf 47540 = 7 ∧ dateOf 47541 = (2100, 3, 1) := by decide
theorem test_windows_february : lastDay.hit 4107535200 = some 47540 ∧ day29.hit 4107535200 = none := by decide
theorem test_windows_march :
    day29.hit (47569 * 86400 + 79200) = some 47569 ∧ lastDay.hit (47569 * 86400 + 79200) = none ∧
    lastDay.hit (47571 * 86400 + 79200) = some 47571 := by decide

/-- Queue 4 of the case under R219, both channels with two ranks of 16 Gb components. -/
def case4 : QMap := ⟨8, 2, 5, 1, 0x20000, 0x100000⟩
def twoRanks : Chan := { Chan.reset with tA := Chan.reset.tA.set 0 (VWord.of 0x30) }

theorem test_home : case4.home 0x1468AF = some (1, 0x43457) ∧ twoRanks.bankOf 0x43457 = 7 ∧ twoRanks.rowOf 0x43457 = 0x4345 ∧
    twoRanks.billets = 2097152 := by decide

/-- The CAP of the queue in the case of chapter 15. -/
theorem test_cap : ({ Queue.reset with map := some ⟨8, 2, 5, 2, 0x10000, 0x20000⟩ } : Queue).cap = 1073799168 := by decide

/-- The Sort yard of the case in chapter 6: entries 3, 9, 12 and 40. -/
def yard : State :=
  ({ up with queues := Vector.replicate 16 qOn }.setPo 1 { Port.reset with lcfg := 0x1900 })
    |>.vset (.sortYard 3 false) (VWord.of 0xB020) |>.vset (.sortYard 3 true) (VWord.of 0x0114)
    |>.vset (.sortYard 9 false) (VWord.of 0xBF2A) |>.vset (.sortYard 9 true) (VWord.of 0x0315)
    |>.vset (.sortYard 12 false) (VWord.of 0xB828) |>.vset (.sortYard 12 true) (VWord.of 0x0E26)
    |>.vset (.sortYard 40 false) (VWord.of 0x8000) |>.vset (.sortYard 40 true) (VWord.of 0x0107)

theorem test_steer : yard.steer 0 0x2A = some 4 ∧ yard.steer 0 0x22 = some 4 ∧ yard.steer 0 0x15 = some 7 ∧
    yard.steer 1 0x2A = some 6 ∧ yard.steer 1 0x15 = some 9 ∧ yard.steer 2 0x15 = none := by decide +kernel

/-- The governor of the case in chapter 14. -/
def govAt (code : Nat) (demand capac capdn : Word) : Gov :=
  { up.gov with
    code := code, mode := 0, useFloor := 4, useCeil := 15, useMargin := 8, demand := demand, capac := capac, capdn := capdn }

theorem test_governor : (govAt 6 500 700 590).nextCode = 5 ∧ (govAt 5 500 590 520).nextCode = 5 ∧
    (govAt 5 560 590 520).nextCode = 6 ∧ (govAt 6 560 700 590).nextCode = 6 := by decide

/-- The lookahead of the case in chapter 5 before a sample: R̂ in 256ths, the last AFL 0. -/
def look (rate : Int) (on : Bool) : Queue :=
  { Queue.reset with afttf := 10000, afalpha := 64, rate := rate, lastAfl := 0, afla := on }

theorem test_lookahead_rate : ((look 0 false).sample 5 39995).rate = 320 ∧ ((look 875 false).sample 5 39975).rate = 976 ∧
    ((look 1052 true).sample 0 39970).rate = 789 ∧ ((look 789 true).sample 0 39970).rate = 591 := by decide
theorem test_lookahead_flag : ((look 875 false).sample 5 39975).afla = false ∧ ((look 976 false).sample 5 39970).afla = true ∧
    ((look 789 true).sample 0 39970).afla = true := by decide

end Sys2Proof.Tests
end

section
/-!
SUPPORT and O5. DP:SEAL and DP:SLOTID once written hold until POR (R14, R397).

Every operation of the model is followed once, from the events up to the host's commands. One that leaves the direct page
alone has a lemma `…_dp`; one that changes other words of the page (FATAL, locks, error capture, the warm device reset) has
a lemma `…_writeOnce`. Only a write of one of the two words can change it, and it does so only while the word is unwritten.
-/

namespace Sys2Proof.Machine

/-- The write-once words of the direct page, each with whether it has been written (R14, R397). -/
structure WriteOnce where
  sealDone : Bool
  sealV : Word
  slotDone : Bool
  slotId : Word

def Direct.writeOnce (d : Direct) : WriteOnce := ⟨d.sealDone, d.sealV, d.slotDone, d.slotId⟩

/-- A word of `w` that has been written is written in `v` and has the same value there. -/
def WriteOnce.KeptBy (w v : WriteOnce) : Prop :=
  (w.sealDone = true → v.sealDone = true ∧ v.sealV = w.sealV) ∧
  (w.slotDone = true → v.slotDone = true ∧ v.slotId = w.slotId)

@[simp] theorem WriteOnce.keptBy_refl (w : WriteOnce) : w.KeptBy w := ⟨fun h => ⟨h, rfl⟩, fun h => ⟨h, rfl⟩⟩

theorem WriteOnce.KeptBy.of_eq {v w : WriteOnce} (h : w = v) : v.KeptBy w := h ▸ v.keptBy_refl

theorem WriteOnce.KeptBy.trans {u v w : WriteOnce} (h : u.KeptBy v) (k : v.KeptBy w) : u.KeptBy w := by
  obtain ⟨hseal, hslot⟩ := h
  obtain ⟨kseal, kslot⟩ := k
  exact ⟨fun d => ⟨(kseal (hseal d).1).1, (kseal (hseal d).1).2.trans (hseal d).2⟩,
    fun d => ⟨(kslot (hslot d).1).1, (kslot (hslot d).1).2.trans (hslot d).2⟩⟩

variable (s : State)

/-! ### Conditionals and folds -/

@[simp] theorem State.dp_ite (c : Prop) [Decidable c] (s t : State) :
    (if c then s else t).dp = if c then s.dp else t.dp := apply_ite ..

@[simp] theorem Direct.writeOnce_ite (c : Prop) [Decidable c] (d e : Direct) :
    (if c then d else e).writeOnce = if c then d.writeOnce else e.writeOnce := apply_ite ..

@[simp] theorem State.foldl_dp {α : Type} {f : State → α → State} (h : ∀ s a, (f s a).dp = s.dp) (l : List α) :
    (l.foldl f s).dp = s.dp := by
  induction l generalizing s with
  | nil => rfl
  | cons a l ih => rw [List.foldl_cons, ih, h]

@[simp] theorem State.foldl_writeOnce {α : Type} {f : State → α → State}
    (h : ∀ s a, (f s a).dp.writeOnce = s.dp.writeOnce) (l : List α) : (l.foldl f s).dp.writeOnce = s.dp.writeOnce := by
  induction l generalizing s with
  | nil => rfl
  | cons a l ih => rw [List.foldl_cons, ih, h]

/-! ### Events, error capture, votes and locks -/

@[simp] theorem State.capture_writeOnce (acc : Access) (code reason : Nat) :
    (s.capture acc code reason).dp.writeOnce = s.dp.writeOnce := rfl

@[simp] theorem State.reject_writeOnce (acc : Access) (code inst reason : Nat) :
    (s.reject acc code inst reason).dp.writeOnce = s.dp.writeOnce := by
  simp [State.reject]

@[simp] theorem State.setLock_writeOnce (l : LockId) (k : Lock) :
    (s.setLock l k).dp.writeOnce = s.dp.writeOnce := by cases l <;> rfl

@[simp] theorem State.vset_writeOnce (r : VRef) (v : VWord) : (s.vset r v).dp.writeOnce = s.dp.writeOnce := by
  unfold State.vset
  split <;> simp

@[simp] theorem State.enterFatal_writeOnce : s.enterFatal.dp.writeOnce = s.dp.writeOnce := by
  unfold State.enterFatal
  split <;> rfl

@[simp] theorem State.voteFail_writeOnce (r : VRef) : (s.voteFail r).dp.writeOnce = s.dp.writeOnce := by
  unfold State.voteFail
  split <;> simp

@[simp] theorem State.compare_writeOnce (r : VRef) : (s.compare r).dp.writeOnce = s.dp.writeOnce := by
  unfold State.compare
  dsimp only
  split
  · rfl
  · split <;> simp

@[simp] theorem State.compareAll_writeOnce (refs : List VRef) :
    (s.compareAll refs).dp.writeOnce = s.dp.writeOnce := by
  simp [State.compareAll]

@[simp] theorem State.govRenew_writeOnce : s.govRenew.dp.writeOnce = s.dp.writeOnce := by simp [State.govRenew]

@[simp] theorem State.takeLock_writeOnce (l : LockId) (code : Word) :
    (s.takeLock l code).dp.writeOnce = s.dp.writeOnce := by
  simp [State.takeLock]

@[simp] theorem State.freeLock_writeOnce (l : LockId) : (s.freeLock l).dp.writeOnce = s.dp.writeOnce := by
  unfold State.freeLock
  split <;> simp

/-! ### The Scaler -/

@[simp] theorem State.clearLookahead_dp (q : QId) : (s.clearLookahead q).dp = s.dp := by simp [State.clearLookahead]

/-! ### Queues: positions, marks, segments, commits and delivery -/

@[simp] theorem State.settle_dp (q : QId) : (s.settle q).dp = s.dp := by simp [State.settle]

@[simp] theorem State.jumpN_dp (n : Nat) (q : QId) : (s.jumpN n q).dp = s.dp := by
  induction n generalizing s with
  | zero => rfl
  | succ n ih =>
    rw [State.jumpN]
    split <;> simp [ih]

@[simp] theorem State.jumpLost_dp (q : QId) : (s.jumpLost q).dp = s.dp := by simp [State.jumpLost]

@[simp] theorem State.readStave_dp (q : QId) (stave : Nat) (e : Ecc) : (s.readStave q stave e).dp = s.dp := by
  simp [State.readStave]

@[simp] theorem State.enterStave_dp (q : QId) (stave : Nat) (ecc : List Ecc) : (s.enterStave q stave ecc).1.dp = s.dp := by
  unfold State.enterStave
  split <;> simp

@[simp] theorem State.takeSlots_dp (n : Nat) (q : QId) (ecc : List Ecc) : (s.takeSlots n q ecc).2.2.dp = s.dp := by
  induction n generalizing s ecc with
  | zero => rfl
  | succ n ih =>
    rw [State.takeSlots]
    dsimp only
    split <;> simp [ih]

@[simp] theorem State.crossReader_dp (q : QId) : (s.crossReader q).dp = s.dp := by
  unfold State.crossReader
  split <;> simp

@[simp] theorem State.applyPend_dp (q : QId) : (s.applyPend q).dp = s.dp := by
  unfold State.applyPend
  split <;> simp

@[simp] theorem State.commitMark_dp (q : QId) : (s.commitMark q).dp = s.dp := by simp [State.commitMark]
@[simp] theorem State.markCmd_dp (q : QId) : (s.markCmd q).dp = s.dp := by simp [State.markCmd]
@[simp] theorem State.rewindCmd_dp (q : QId) (i : Nat) : (s.rewindCmd q i).dp = s.dp := by simp [State.rewindCmd]
@[simp] theorem State.commitCmd_dp (q : QId) : (s.commitCmd q).dp = s.dp := by simp [State.commitCmd]

@[simp] theorem State.checkParity_dp (q : QId) (vs : List Slot9) : (s.checkParity q vs).dp = s.dp := by
  simp [State.checkParity]

@[simp] theorem State.commitDone_dp (d : DoneStave) : (s.commitDone d).dp = s.dp := by simp [State.commitDone]

@[simp] theorem State.commitStave_dp (n : PId) (d : DoneStave) : (s.commitStave n d).dp = s.dp := by
  simp [State.commitStave]

@[simp] theorem State.commitNext_dp (n : PId) : (s.commitNext n).dp = s.dp := by
  unfold State.commitNext
  split <;> simp

@[simp] theorem State.commitWaiting_dp (k : Nat) (n : PId) (q : QId) : (s.commitWaiting k n q).dp = s.dp := by
  induction k generalizing s with
  | zero => rfl
  | succ k ih =>
    rw [State.commitWaiting]
    split <;> simp [ih]

@[simp] theorem State.flushPort_dp (q : QId) (n : PId) : (s.flushPort q n).dp = s.dp := by simp [State.flushPort]
@[simp] theorem State.flush_dp (q : QId) : (s.flush q).dp = s.dp := by simp [State.flush]

/-! ### The Azlin link -/

@[simp] theorem State.chainCommit_dp (q : QId) (vs : List Slot9) (poison part : Bool) :
    (s.chainCommit q vs poison part).dp = s.dp := by
  simp [State.chainCommit]

@[simp] theorem State.frameDiscard_dp : s.frameDiscard.dp = s.dp := by simp [State.frameDiscard]

@[simp] theorem State.rxStave_dp (ctl : BitVec 36) (data : List (BitVec 36)) : (s.rxStave ctl data).dp = s.dp := by
  simp [State.rxStave]

@[simp] theorem State.peerSeen_dp (ctl : BitVec 36) : (s.peerSeen ctl).dp = s.dp := by simp [State.peerSeen]

@[simp] theorem State.rxLink_dp (sub : Nat) (ctl : BitVec 36) : (s.rxLink sub ctl).dp = s.dp := by
  unfold State.rxLink
  dsimp only
  repeat' split
  all_goals simp

@[simp] theorem State.linkGrant_dp (q : QId) : (s.linkGrant q).dp = s.dp := by simp [State.linkGrant]
@[simp] theorem State.creditSend_dp : s.creditSend.dp = s.dp := by simp [State.creditSend]
@[simp] theorem State.sendResync_dp (need : Bool) : (s.sendResync need).dp = s.dp := by simp [State.sendResync]

@[simp] theorem State.drainResend_dp (before : List (List (BitVec 36))) : (s.drainResend before).dp = s.dp := by
  simp [State.drainResend]

@[simp] theorem State.resync_dp (need : Bool) : (s.resync need).dp = s.dp := by
  simp [State.resync]

@[simp] theorem State.rxCredit_dp (b : BitVec 38) : (s.rxCredit b).dp = s.dp := by
  simp [State.rxCredit]

@[simp] theorem State.staveSend_dp (q : QId) (ecc : List Ecc) : (s.staveSend q ecc).dp = s.dp := by
  simp [State.staveSend]

@[simp] theorem State.resyncAgain_dp : s.resyncAgain.dp = s.dp := by simp [State.resyncAgain]

@[simp] theorem State.linkLoss_dp (e : LinkEnd) : (s.linkLoss e).dp = s.dp := by
  unfold State.linkLoss
  split <;> simp

@[simp] theorem State.linkTrain_dp (e : LinkEnd) (pattern : Bool) : (s.linkTrain e pattern).dp = s.dp := by
  unfold State.linkTrain
  split <;> simp

@[simp] theorem State.linkUp_dp (e : LinkEnd) : (s.linkUp e).dp = s.dp := by
  unfold State.linkUp
  split <;> simp

@[simp] theorem State.linkReset_dp (out inn : Bool) : (s.linkReset out inn).dp = s.dp := by simp [State.linkReset]
@[simp] theorem State.acfgCommit_dp (v : Word) : (s.acfgCommit v).dp = s.dp := by simp [State.acfgCommit]
@[simp] theorem State.ainqCommit_dp (v : Word) : (s.ainqCommit v).dp = s.dp := by simp [State.ainqCommit]

/-! ### Channels: requests, bursts, sweeps and resets -/

@[simp] theorem State.handOver_dp (k : ReqKind) (q : QId) (num : Nat) (c : YId) (cb : Nat) :
    (s.handOver k q num c cb).dp = s.dp := by
  simp [State.handOver]

@[simp] theorem State.finishReq_dp (c : YId) (r : Req) : (s.finishReq c r).dp = s.dp := by simp [State.finishReq]
@[simp] theorem State.playBurst_dp (c : YId) (b : Burst) : (s.playBurst c b).dp = s.dp := by simp [State.playBurst]

@[simp] theorem State.testBursts_dp (n : Nat) (c : YId) : (s.testBursts n c).dp = s.dp := by
  induction n generalizing s with
  | zero => rfl
  | succ n ih => simp [State.testBursts, ih]

@[simp] theorem State.overwrite_dp (c : YId) (lo hi slots pat : Nat) (seed : Word) :
    (s.overwrite c lo hi slots pat seed).dp = s.dp := by
  simp [State.overwrite]

@[simp] theorem State.scratch_dp (c : YId) : (s.scratch c).dp = s.dp := by simp [State.scratch]

@[simp] theorem State.trigger_dp (c : YId) : (s.trigger c).dp = s.dp := by
  unfold State.trigger
  dsimp only
  repeat' split
  all_goals simp

@[simp] theorem State.cardingLock_writeOnce : s.cardingLock.dp.writeOnce = s.dp.writeOnce := by
  simp [State.cardingLock]

@[simp] theorem State.cardingFree_writeOnce : s.cardingFree.dp.writeOnce = s.dp.writeOnce := by
  simp [State.cardingFree]

@[simp] theorem State.beginSweep_writeOnce (c : YId) (k : SweepFor) :
    (s.beginSweep c k).dp.writeOnce = s.dp.writeOnce := by
  simp [State.beginSweep]

@[simp] theorem State.cardingOver_writeOnce : s.cardingOver.dp.writeOnce = s.dp.writeOnce := by
  simp [State.cardingOver]

@[simp] theorem State.chanChanged_dp : s.chanChanged.dp = s.dp := by simp [State.chanChanged]

@[simp] theorem State.abortReqs_dp (c : YId) : (s.abortReqs c).dp = s.dp := by
  unfold State.abortReqs
  rw [State.modCh_dp]
  exact s.foldl_dp (fun s q => s.modQu_dp q _) _

@[simp] theorem State.chanReset_dp (c : YId) (drop : Bool) : (s.chanReset c drop).dp = s.dp := by
  unfold State.chanReset
  extract_lets s₁ s₂ s₃
  have h₂ : s₂.dp = s.dp := by rw [State.nextOrder_dp, State.modCh_dp, State.abortReqs_dp]
  have h₃ : s₃.dp = s.dp := by
    dsimp only [s₃]
    split
    · rw [s₂.foldl_dp fun s q => by rw [State.jumpLost_dp, State.modQu_dp], h₂]
    · exact h₂
  rw [State.chanChanged_dp, h₃]

@[simp] theorem State.dropHold_writeOnce (c : YId) : (s.dropHold c).dp.writeOnce = s.dp.writeOnce := by
  simp [State.dropHold]

@[simp] theorem State.lockLeaves_writeOnce (l : LockId) (p : Path) :
    (s.lockLeaves l p).dp.writeOnce = s.dp.writeOnce := by
  unfold State.lockLeaves
  split <;> simp

/-! ### Spill and refill -/

@[simp] theorem State.spillRequest_dp (q : QId) : (s.spillRequest q).dp = s.dp := by
  unfold State.spillRequest
  split <;> simp

@[simp] theorem State.spillAck_dp (c : YId) (q : QId) : (s.spillAck c q).dp = s.dp := by
  unfold State.spillAck
  split <;> simp

@[simp] theorem State.refillRequest_dp (q : QId) : (s.refillRequest q).dp = s.dp := by
  unfold State.refillRequest
  split <;> simp

@[simp] theorem State.reask_dp (n : Nat) (c : YId) : (s.reask n c).dp = s.dp := by
  induction n generalizing s with
  | zero => rfl
  | succ n ih =>
    rw [State.reask]
    split <;> simp [ih]

@[simp] theorem State.countBeats_dp (c : YId) (e : Nat × Nat) : (s.countBeats c e).dp = s.dp := by
  simp [State.countBeats]

@[simp] theorem State.checkBeats_dp (c : YId) (q : QId) (b : Billet) (k : Nat) (beats : List Ecc) :
    (s.checkBeats c q b k beats).dp = s.dp := by
  simp [State.checkBeats]

@[simp] theorem State.orphanArrival_dp (c : YId) (q : QId) (r : Req) (beats : List Ecc) :
    (s.orphanArrival c q r beats).dp = s.dp := by
  simp [State.orphanArrival]

@[simp] theorem State.staveArrival_dp (c : YId) (q : QId) (beats : List Ecc) :
    (s.staveArrival c q beats).dp = s.dp := by
  unfold State.staveArrival
  dsimp only
  repeat' split
  all_goals simp

/-! ### The Yarder -/

@[simp] theorem State.startRequest_dp (c : YId) (k : Src) : (s.startRequest c k).dp = s.dp := by
  unfold State.startRequest
  dsimp only
  split <;> simp

@[simp] theorem State.orphanRead_dp (r : Req) (stave : Nat) (e : Ecc) : (s.orphanRead r stave e).dp = s.dp := by
  simp [State.orphanRead]

@[simp] theorem State.spillRead_dp (r : Req) (ecc : List Ecc) : (s.spillRead r ecc).dp = s.dp := by
  simp [State.spillRead]

@[simp] theorem State.burstIssue_dp (c : YId) (ok : BitVec 34) (ecc : List Ecc) :
    (s.burstIssue c ok ecc).dp = s.dp := by
  unfold State.burstIssue
  dsimp only
  split
  · rfl
  · split
    · rfl
    · split <;> simp

@[simp] theorem State.trackerEnd_dp (c : YId) : (s.trackerEnd c).dp = s.dp := by simp [State.trackerEnd]
@[simp] theorem State.bucketTick_dp (c : YId) : (s.bucketTick c).dp = s.dp := by simp [State.bucketTick]

@[simp] theorem State.refreshDue_dp (c : YId) (rank : Bool) (kind : RefKind) :
    (s.refreshDue c rank kind).dp = s.dp := by
  simp [State.refreshDue]

@[simp] theorem State.bootRest_writeOnce (c : YId) : (s.bootRest c).dp.writeOnce = s.dp.writeOnce := by
  simp [State.bootRest]

@[simp] theorem State.selfRefresh_writeOnce (c : YId) : (s.selfRefresh c).dp.writeOnce = s.dp.writeOnce := by
  simp [State.selfRefresh]

@[simp] theorem State.precharge_dp (c : YId) (bank : Fin 16) : (s.precharge c bank).dp = s.dp := by
  simp [State.precharge]

/-! ### Carding -/

@[simp] theorem State.drainWindow_dp (c : YId) : (s.drainWindow c).dp = s.dp := by
  unfold State.drainWindow
  split <;> simp

@[simp] theorem State.forcedDrain_dp (c : YId) : (s.forcedDrain c).dp = s.dp := by
  unfold State.forcedDrain
  split <;> simp

@[simp] theorem State.drainDone_writeOnce (c : YId) : (s.drainDone c).dp.writeOnce = s.dp.writeOnce := by
  simp [State.drainDone]

@[simp] theorem State.sweepStart_writeOnce (c : YId) : (s.sweepStart c).dp.writeOnce = s.dp.writeOnce := by
  unfold State.sweepStart
  dsimp only
  repeat' split
  all_goals simp

@[simp] theorem State.sweepDone_writeOnce (c : YId) (m : SweepData) :
    (s.sweepDone c m).dp.writeOnce = s.dp.writeOnce := by
  unfold State.sweepDone
  split <;> simp

@[simp] theorem State.trackRank_dp (c : YId) (rank : Bool) (moves : List TrackMove) :
    (s.trackRank c rank moves).dp = s.dp := by
  simp [State.trackRank]

@[simp] theorem State.dqsTracking_dp (c : YId) (rank : Bool) (moves : List TrackMove) :
    (s.dqsTracking c rank moves).dp = s.dp := by
  unfold State.dqsTracking
  dsimp only
  split
  · rfl
  · split <;> simp

@[simp] theorem State.freqsw_writeOnce (acc : Access) (c : YId) : (s.freqsw acc c).dp.writeOnce = s.dp.writeOnce := by
  unfold State.freqsw
  extract_lets s₁ x f y z w
  have h₁ : s₁.dp.writeOnce = s.dp.writeOnce := by simp [s₁]
  split
  · simp [h₁]
  · split <;> simp [h₁]

@[simp] theorem State.freqswComplete_dp (c : YId) : (s.freqswComplete c).dp = s.dp := by
  unfold State.freqswComplete
  dsimp only
  split <;> simp

@[simp] theorem State.train_writeOnce (c : YId) : (s.train c).dp.writeOnce = s.dp.writeOnce := by simp [State.train]

@[simp] theorem State.ychanReset_writeOnce (acc : Access) (c : YId) (drop : Bool) :
    (s.ychanReset acc c drop).dp.writeOnce = s.dp.writeOnce := by
  simp [State.ychanReset]

@[simp] theorem State.ycmd_writeOnce (acc : Access) (c : YId) (v : Word) :
    (s.ycmd acc c v).dp.writeOnce = s.dp.writeOnce := by
  unfold State.ycmd
  split <;> simp

@[simp] theorem State.holdSet_dp (c : YId) : (s.holdSet c).dp = s.dp := by simp [State.holdSet]
@[simp] theorem State.holdClear_dp (c : YId) : (s.holdClear c).dp = s.dp := by simp [State.holdClear]
@[simp] theorem State.htctl_dp (c : YId) (v : Word) : (s.htctl c v).dp = s.dp := by simp [State.htctl]

@[simp] theorem State.tapWrite_writeOnce (acc : Access) (c : YId) (r : TapReg) (v : Word) :
    (s.tapWrite acc c r v).dp.writeOnce = s.dp.writeOnce := by
  simp [State.tapWrite]

@[simp] theorem State.patternRun_writeOnce (acc : Access) (c : YId) :
    (s.patternRun acc c).dp.writeOnce = s.dp.writeOnce := by
  simp [State.patternRun]

@[simp] theorem State.patternDone_dp (c : YId) (mism : List (BitVec 10)) : (s.patternDone c mism).dp = s.dp := by
  unfold State.patternDone
  dsimp only
  split <;> simp

@[simp] theorem State.yctl_dp (c : YId) (lo hi : Word) : (s.yctl c lo hi).dp = s.dp := by simp [State.yctl]
@[simp] theorem State.yham_dp (c : YId) (t sp h : Word) : (s.yham c t sp h).dp = s.dp := by simp [State.yham]

@[simp] theorem State.yqos_dp (c : YId) (cls : Fin 4) (rate burst lat : Word) :
    (s.yqos c cls rate burst lat).dp = s.dp := by
  simp [State.yqos]

@[simp] theorem State.ytreg_writeOnce (acc : Access) (c : YId) (base : BitVec 21) (len : BitVec 22) :
    (s.ytreg acc c base len).dp.writeOnce = s.dp.writeOnce := by
  unfold State.ytreg
  split <;> simp

@[simp] theorem State.tsetWrite_writeOnce (acc : Access) (c : YId) (b : Bool) (i : Fin 15) (v : Word) :
    (s.tsetWrite acc c b i v).dp.writeOnce = s.dp.writeOnce := by
  simp [State.tsetWrite]

/-! ### Sensors, HEART, votes and the governor -/

@[simp] theorem State.sense_writeOnce (t0 t1 t2 t3 : Int) : (s.sense t0 t1 t2 t3).dp.writeOnce = s.dp.writeOnce := by
  unfold State.sense
  extract_lets m b d g t
  have ht : t.dp.writeOnce = s.dp.writeOnce := rfl
  split
  · rfl
  · split
    · simp [ht]
    · split <;> simp [ht]

@[simp] theorem State.scrub_writeOnce (ups : List Upset) : (s.scrub ups).dp.writeOnce = s.dp.writeOnce := by
  simp [State.scrub]

@[simp] theorem State.heartBeat_writeOnce (alive : Bool) : (s.heartBeat alive).dp.writeOnce = s.dp.writeOnce := by
  unfold State.heartBeat
  dsimp only
  split <;> rfl

@[simp] theorem State.intervalEnd_dp (capac capdn : Word) : (s.intervalEnd capac capdn).dp = s.dp := by
  simp [State.intervalEnd]

@[simp] theorem State.interval_writeOnce (capac capdn : Word) :
    (s.interval capac capdn).dp.writeOnce = s.dp.writeOnce := by
  simp [State.interval]

/-! ### Ports: pins, staging, enables and resets -/

@[simp] theorem State.mirror_dp (n : PId) (hi : BitVec 36) : (s.mirror n hi).dp = s.dp := by simp [State.mirror]
@[simp] theorem State.idlePins_dp (n : PId) : (s.idlePins n).dp = s.dp := by simp [State.idlePins]
@[simp] theorem State.showFlags_dp (n : PId) : (s.showFlags n).dp = s.dp := by simp [State.showFlags]
@[simp] theorem State.startPins_dp (n : PId) : (s.startPins n).dp = s.dp := by simp [State.startPins]
@[simp] theorem State.startAllPins_dp : s.startAllPins.dp = s.dp := by simp [State.startAllPins]
@[simp] theorem State.poolCredits_dp (lo up : PId) : (s.poolCredits lo up).dp = s.dp := by simp [State.poolCredits]
@[simp] theorem State.pcaptWrite_dp (n : PId) (v : Word) : (s.pcaptWrite n v).dp = s.dp := by simp [State.pcaptWrite]
@[simp] theorem State.closeNow_dp (q : QId) (b : Bark) : (s.closeNow q b).dp = s.dp := by simp [State.closeNow]

@[simp] theorem State.endSeg_dp (n : PId) (c : CurSeg) (q : QId) (trunc : Bool) :
    (s.endSeg n c q trunc).dp = s.dp := by
  unfold State.endSeg
  dsimp only
  split
  · split <;> simp
  · simp

theorem State.drainOne_dp {n : PId} {t : State} (h : s.drainOne n = some t) : t.dp = s.dp := by
  unfold State.drainOne at h
  dsimp only at h
  repeat' split at h
  all_goals cases h
  all_goals simp

@[simp] theorem State.drainN_dp (k : Nat) (n : PId) : (s.drainN k n).dp = s.dp := by
  induction k generalizing s with
  | zero => rfl
  | succ k ih =>
    rw [State.drainN]
    split
    next => rfl
    next h => rw [ih, s.drainOne_dp h]

@[simp] theorem State.drain_dp (n : PId) : (s.drain n).dp = s.dp := by simp [State.drain]
@[simp] theorem State.drainAll_dp : s.drainAll.dp = s.dp := by simp [State.drainAll]
@[simp] theorem State.latchPort_dp (n : PId) : (s.latchPort n).dp = s.dp := by simp [State.latchPort]
@[simp] theorem State.applyIdleMarks_dp (n : PId) : (s.applyIdleMarks n).dp = s.dp := by simp [State.applyIdleMarks]
@[simp] theorem State.enablePort_dp (n : PId) : (s.enablePort n).dp = s.dp := by simp [State.enablePort]
@[simp] theorem State.disablePort_dp (n : PId) : (s.disablePort n).dp = s.dp := by simp [State.disablePort]

@[simp] theorem State.countDisc_dp (n : PId) : (s.countDisc n).dp = s.dp := by
  unfold State.countDisc
  exact s.foldl_dp (fun s q => s.modQu_dp q _) _

@[simp] theorem State.cutSegs_dp (n : PId) : (s.cutSegs n).dp = s.dp := by
  unfold State.cutSegs
  refine s.foldl_dp (fun s q => ?_) _
  split <;> simp

@[simp] theorem State.resetPort_dp (n : PId) : (s.resetPort n).dp = s.dp := by simp [State.resetPort]
@[simp] theorem State.pctlWrite_dp (n : PId) (v : Word) : (s.pctlWrite n v).dp = s.dp := by simp [State.pctlWrite]

@[simp] theorem State.pflagqWrite_dp (n : PId) (v : Word) : (s.pflagqWrite n v).dp = s.dp := by
  simp [State.pflagqWrite]

@[simp] theorem State.showReset_dp (q : QId) (n : PId) : (s.showReset q n).dp = s.dp := by simp [State.showReset]
@[simp] theorem State.clearQueue_dp (q : QId) : (s.clearQueue q).dp = s.dp := by simp [State.clearQueue]
@[simp] theorem State.resetQueue_dp (q : QId) : (s.resetQueue q).dp = s.dp := by simp [State.resetQueue]

/-! ### The time base, corrections and windows -/

@[simp] theorem State.evalWindows_dp : s.evalWindows.dp = s.dp := by simp [State.evalWindows]
@[simp] theorem State.countMissed_dp (v0 : Nat) : (s.countMissed v0).dp = s.dp := by simp [State.countMissed]
@[simp] theorem State.setUtcOff_dp (v : Word) : (s.setUtcOff v).dp = s.dp := by simp [State.setUtcOff]
@[simp] theorem State.applyUtc_dp : s.applyUtc.dp = s.dp := by simp [State.applyUtc]
@[simp] theorem State.windowsNow_dp : s.windowsNow.dp = s.dp := by simp [State.windowsNow]

@[simp] theorem State.winCommit_dp (j : Fin 16) (w0 w1 w2 w3 : Word) : (s.winCommit j w0 w1 w2 w3).dp = s.dp := by
  simp [State.winCommit]

@[simp] theorem State.utcoffWrite_dp (v : Word) : (s.utcoffWrite v).dp = s.dp := by simp [State.utcoffWrite]
@[simp] theorem State.utcArm_dp (at48 : BitVec 48) : (s.utcArm at48).dp = s.dp := by simp [State.utcArm]
@[simp] theorem State.setUtcNxt_dp (v : Word) : (s.setUtcNxt v).dp = s.dp := by simp [State.setUtcNxt]
@[simp] theorem State.utcCancel_dp : s.utcCancel.dp = s.dp := by simp [State.utcCancel]
@[simp] theorem State.stepTime_dp (off : Int) : (s.stepTime off).dp = s.dp := by simp [State.stepTime]

@[simp] theorem State.correct_writeOnce (acc : Access) (off : Int) (badNs : Bool) :
    (s.correct acc off badNs).dp.writeOnce = s.dp.writeOnce := by
  unfold State.correct
  dsimp only
  split
  · simp
  · split <;> simp

@[simp] theorem State.correctOffset_writeOnce (acc : Access) (offs : BitVec 48) (offns : BitVec 30) :
    (s.correctOffset acc offs offns).dp.writeOnce = s.dp.writeOnce := by
  simp [State.correctOffset]

@[simp] theorem State.calCommit_writeOnce (acc : Access) : (s.calCommit acc).dp.writeOnce = s.dp.writeOnce := by
  simp [State.calCommit]

@[simp] theorem State.calCancel_dp : s.calCancel.dp = s.dp := by simp [State.calCancel]
@[simp] theorem State.ppsEdge_dp : s.ppsEdge.dp = s.dp := by simp [State.ppsEdge]
@[simp] theorem State.tsoutWrite_dp (v : Word) : (s.tsoutWrite v).dp = s.dp := by simp [State.tsoutWrite]

/-! ### Words at the ports -/

@[simp] theorem State.pressCommit_dp (k : Nat) (n : PId) : (s.pressCommit k n).dp = s.dp := by
  induction k generalizing s with
  | zero => rfl
  | succ k ih =>
    rw [State.pressCommit]
    repeat' split
    all_goals simp [ih]

@[simp] theorem State.acceptWord_dp (n : PId) (q : QId) (fr : BitVec 2) (vs : List Slot9) :
    (s.acceptWord n q fr vs).dp = s.dp := by
  simp [State.acceptWord]

@[simp] theorem State.refuseWord_dp (n : PId) (q : Option QId) : (s.refuseWord n q).dp = s.dp := by
  simp [State.refuseWord]

@[simp] theorem State.ownFull_dp (n : PId) (q : QId) : (s.ownFull n q).dp = s.dp := by simp [State.ownFull]
@[simp] theorem State.showEdge_dp (n : PId) (shown : QId) : (s.showEdge n shown).dp = s.dp := by simp [State.showEdge]
@[simp] theorem State.edgeCame_dp (n : PId) : (s.edgeCame n).dp = s.dp := by simp [State.edgeCame]

@[simp] theorem State.ingressWord_dp (n : PId) (en : Bool) (d hi : BitVec 36) (qa : BitVec 4) (fr : BitVec 2) :
    (s.ingressWord n en d hi qa fr).dp = s.dp := by
  unfold State.ingressWord
  split
  · rfl
  · extract_lets s₁ x y pins s₂ s₃ q dst vs ok s₄ err s₅ s₆ s₇ s₈
    have h₃ : s₃.dp = s.dp := by simp [s₃, s₂, s₁]
    have h₆ : s₆.dp = s.dp := by simp [s₆, s₅, s₄, h₃]
    have h₇ : s₇.dp = s.dp := by
      dsimp only [s₇]
      clear_value ok dst
      split <;> simp [h₆]
    split
    · simp [h₃]
    · simp [s₈, h₇]

@[simp] theorem State.steerSegment_writeOnce (n : PId) : (s.steerSegment n).dp.writeOnce = s.dp.writeOnce := by
  unfold State.steerSegment
  split <;> simp

@[simp] theorem State.deliver_dp (n : PId) (q : QId) (l : Launch) (start : Option Pos) (ecc : List Ecc) :
    (s.deliver n q l start ecc).dp = s.dp := by
  unfold State.deliver
  split <;> simp

@[simp] theorem State.endLaunch_dp (q : QId) : (s.endLaunch q).dp = s.dp := by
  unfold State.endLaunch
  split <;> simp

@[simp] theorem State.holdLow_dp (n : PId) : (s.holdLow n).dp = s.dp := by simp [State.holdLow]

@[simp] theorem State.egressPins_dp (n : PId) (q shown : QId) (sent short : Bool) :
    (s.egressPins n q shown sent short).dp = s.dp := by
  simp [State.egressPins]

@[simp] theorem State.egressRead_dp (n : PId) (en : Bool) (qa : BitVec 4) (fetch : Fetched) (ecc : List Ecc) :
    (s.egressRead n en qa fetch ecc).dp = s.dp := by
  unfold State.egressRead
  split
  · rfl
  · extract_lets q s₁ x short s₂ s₃ go s₄ p hi dv err s₅ s₆
    have h₁ : s₁.dp = s.dp := by simp [s₁]
    have h₃ : s₃.dp = s.dp := by simp [s₃, s₂, h₁]
    have h₄ : s₄.dp = s.dp := by
      dsimp only [s₄]
      clear_value go
      split <;> simp [h₃]
    split
    · simp [h₁]
    · simp [s₆, s₅, h₄]

@[simp] theorem State.crossFlags_dp (n : PId) : (s.crossFlags n).dp = s.dp := by simp [State.crossFlags]
@[simp] theorem State.clockResume_dp (n : PId) : (s.clockResume n).dp = s.dp := by simp [State.clockResume]

/-! ### Queue commands -/

@[simp] theorem State.enableQueue_dp (q : QId) : (s.enableQueue q).dp = s.dp := by simp [State.enableQueue]
@[simp] theorem State.disableQueue_dp (q : QId) : (s.disableQueue q).dp = s.dp := by simp [State.disableQueue]

@[simp] theorem State.qctlEn_writeOnce (acc : Access) (q : QId) (en : Bool) :
    (s.qctlEn acc q en).dp.writeOnce = s.dp.writeOnce := by
  unfold State.qctlEn
  dsimp only
  split
  · split <;> simp
  · simp

@[simp] theorem State.qctlMarks_dp (q : QId) (v : Word) : (s.qctlMarks q v).dp = s.dp := by
  unfold State.qctlMarks
  split <;> simp

@[simp] theorem State.qctl_writeOnce (acc : Access) (q : QId) (v : Word) :
    (s.qctl acc q v).dp.writeOnce = s.dp.writeOnce := by
  simp [State.qctl]

@[simp] theorem State.markApply_dp (q : QId) : (s.markApply q).dp = s.dp := by simp [State.markApply]

@[simp] theorem State.sampleAll_dp : s.sampleAll.dp = s.dp := by
  unfold State.sampleAll
  exact s.foldl_dp (fun s q => s.modQu_dp q _) _

/-! ### The Landing, its tests and the ledger -/

@[simp] theorem State.readErrs_dp (errs : List StaveErr) : (s.readErrs errs).dp = s.dp := by simp [State.readErrs]

@[simp] theorem State.bankRotation_dp (errs : List StaveErr) : (s.bankRotation errs).dp = s.dp := by
  simp [State.bankRotation]

@[simp] theorem State.copyEnd_dp (frames : List (QId × Nat)) (errs : List StaveErr) :
    (s.copyEnd frames errs).dp = s.dp := by
  simp [State.copyEnd]

@[simp] theorem State.startFull_writeOnce : s.startFull.dp.writeOnce = s.dp.writeOnce := by simp [State.startFull]

@[simp] theorem State.fullTest_writeOnce (acc : Access) : (s.fullTest acc).dp.writeOnce = s.dp.writeOnce := by
  simp [State.fullTest]

@[simp] theorem State.landSweep_writeOnce (acc : Access) : (s.landSweep acc).dp.writeOnce = s.dp.writeOnce := by
  simp [State.landSweep]

@[simp] theorem State.tcmd_writeOnce (acc : Access) (v : Word) : (s.tcmd acc v).dp.writeOnce = s.dp.writeOnce := by
  unfold State.tcmd
  split <;> simp

@[simp] theorem State.retire_dp (bad : BitVec 17) : (s.retire bad).dp = s.dp := by simp [State.retire]

@[simp] theorem State.rotationFree_writeOnce : s.rotationFree.dp.writeOnce = s.dp.writeOnce := by
  simp [State.rotationFree]

@[simp] theorem State.snapcmd_dp (p : Path) (v : Word) : (s.snapcmd p v).dp = s.dp := by simp [State.snapcmd]

/-! ### Start-up, the warm device reset and PATH resets -/

@[simp] theorem State.landTest_dp (bad : BitVec 17) : (s.landTest bad).dp = s.dp := by simp [State.landTest]
@[simp] theorem State.bootOn_dp : s.bootOn.dp = s.dp := by simp [State.bootOn]
@[simp] theorem State.bootTrain_writeOnce : s.bootTrain.dp.writeOnce = s.dp.writeOnce := by simp [State.bootTrain]
@[simp] theorem State.bootGo_writeOnce : s.bootGo.dp.writeOnce = s.dp.writeOnce := by simp [State.bootGo]
@[simp] theorem State.bootRun_dp : s.bootRun.dp = s.dp := by simp [State.bootRun]

@[simp] theorem State.devReset_writeOnce : s.devReset.dp.writeOnce = s.dp.writeOnce := by
  simp [State.devReset, Direct.writeOnce]

@[simp] theorem State.warmChan_dp (c : YId) : (s.warmChan c).dp = s.dp := by simp [State.warmChan]
@[simp] theorem State.warmNext_dp (n : Nat) : (s.warmNext n).dp = s.dp := by simp [State.warmNext]
@[simp] theorem State.warmOn_dp : s.warmOn.dp = s.dp := by simp [State.warmOn]

@[simp] theorem State.warmVote_writeOnce (ups : List Upset) : (s.warmVote ups).dp.writeOnce = s.dp.writeOnce := by
  simp [State.warmVote]

@[simp] theorem State.warmReset_writeOnce (p : Path) (bad : BitVec 17) (ups : List Upset) :
    (s.warmReset p bad ups).dp.writeOnce = s.dp.writeOnce := by
  unfold State.warmReset
  split <;> simp

@[simp] theorem State.gctlWrite_writeOnce (en heart : Bool) : (s.gctlWrite en heart).dp.writeOnce = s.dp.writeOnce := by
  unfold State.gctlWrite
  extract_lets was d t u
  have ht : t.dp.writeOnce = s.dp.writeOnce := rfl
  have hu : u.dp = t.dp := by
    refine t.foldl_dp (fun s n => ?_) _
    split
    · rw [State.modPo_dp, State.disablePort_dp]
    · rfl
  split
  · simp [hu, ht]
  · split <;> simp [ht]

@[simp] theorem State.govResume_writeOnce : s.govResume.dp.writeOnce = s.dp.writeOnce := by simp [State.govResume]

@[simp] theorem State.breakLock_writeOnce (p : Path) (l : LockId) :
    (s.breakLock p l).dp.writeOnce = s.dp.writeOnce := by
  simp [State.breakLock]

@[simp] theorem State.pathReset_writeOnce (p : Path) : (s.pathReset p).dp.writeOnce = s.dp.writeOnce := by
  simp [State.pathReset]

@[simp] theorem State.refBack_dp (c : YId) : (s.refBack c).dp = s.dp := by
  unfold State.refBack
  dsimp only
  repeat' split
  all_goals simp

@[simp] theorem State.refReturn_writeOnce : s.refReturn.dp.writeOnce = s.dp.writeOnce := by simp [State.refReturn]

/-! ### Register reads -/

@[simp] theorem State.latch_dp (p : Path) (b : Bank) (off : Nat) : (s.latch p b off).dp = s.dp := by
  simp [State.latch]

@[simp] theorem State.flipRef_writeOnce (r : Option VRef) (f : Flips) :
    (s.flipRef r f).dp.writeOnce = s.dp.writeOnce := by
  unfold State.flipRef
  split <;> simp

@[simp] theorem State.readBank_writeOnce (p : Path) (b : Bank) (off : Nat) :
    (s.readBank p b off).dp.writeOnce = s.dp.writeOnce := by
  simp [State.readBank]

@[simp] theorem State.readDirect_writeOnce (p : Path) (off : Nat) :
    (s.readDirect p off).dp.writeOnce = s.dp.writeOnce := by
  unfold State.readDirect
  rw [State.modPath_dp, apply_ite State.dp, State.modPath_dp, ite_self]
  exact s.foldl_writeOnce State.compare_writeOnce _

@[simp] theorem State.answerRead_writeOnce (p : Path) : (s.answerRead p).dp.writeOnce = s.dp.writeOnce := by
  unfold State.answerRead
  split <;> simp

@[simp] theorem State.answerReads_writeOnce : s.answerReads.dp.writeOnce = s.dp.writeOnce := by
  simp [State.answerReads]

@[simp] theorem State.hostRead_writeOnce (p : Path) (word : Nat) (f : Flips) :
    (s.hostRead p word f).dp.writeOnce = s.dp.writeOnce := by
  unfold State.hostRead
  dsimp only
  split
  · simp
  · split
    · simp
    · split <;> simp

@[simp] theorem State.readTimeout_dp (p : Path) : (s.readTimeout p).dp = s.dp := by simp [State.readTimeout]

/-! ### Register writes -/

@[simp] theorem State.qcfgWrite_dp (q : QId) (v : Word) : (s.qcfgWrite q v).dp = s.dp := by simp [State.qcfgWrite]

@[simp] theorem State.queueWrite_writeOnce (acc : Access) (q : QId) (off : Nat) (ws : List Word) :
    (s.queueWrite acc q off ws).dp.writeOnce = s.dp.writeOnce := by
  unfold State.queueWrite
  split
  · simp
  · split <;> simp

@[simp] theorem State.yardWrite_writeOnce (hi : Bool) (off : Nat) (ws : List Word) :
    (s.yardWrite hi off ws).dp.writeOnce = s.dp.writeOnce := by
  simp [State.yardWrite]

@[simp] theorem State.chanWrite_writeOnce (acc : Access) (c : YId) (off : Nat) (ws : List Word) :
    (s.chanWrite acc c off ws).dp.writeOnce = s.dp.writeOnce := by
  unfold State.chanWrite
  dsimp only
  split
  · simp
  · split <;> simp

@[simp] theorem State.discWrite_dp (v : Word) : (s.discWrite v).dp = s.dp := by simp [State.discWrite]

@[simp] theorem State.timeWrite_writeOnce (acc : Access) (off : Nat) (ws : List Word) :
    (s.timeWrite acc off ws).dp.writeOnce = s.dp.writeOnce := by
  unfold State.timeWrite
  split <;> simp

@[simp] theorem State.calWrite_writeOnce (acc : Access) (off : Nat) (ws : List Word) :
    (s.calWrite acc off ws).dp.writeOnce = s.dp.writeOnce := by
  unfold State.calWrite
  split <;> simp

@[simp] theorem State.azlWrite_dp (p : Path) (off : Nat) (v : Word) : (s.azlWrite p off v).dp = s.dp := by
  unfold State.azlWrite
  split <;> simp

@[simp] theorem State.landWrite_writeOnce (acc : Access) (off : Nat) (v : Word) :
    (s.landWrite acc off v).dp.writeOnce = s.dp.writeOnce := by
  unfold State.landWrite
  split <;> simp

@[simp] theorem State.govNext_writeOnce : s.govNext.dp.writeOnce = s.dp.writeOnce := by simp [State.govNext]

@[simp] theorem State.govWrite_writeOnce (off : Nat) (v : Word) :
    (s.govWrite off v).dp.writeOnce = s.dp.writeOnce := by
  unfold State.govWrite
  split <;> simp

@[simp] theorem State.portWrite_dp (n : PId) (off : Nat) (v : Word) : (s.portWrite n off v).dp = s.dp := by
  unfold State.portWrite
  split <;> simp

@[simp] theorem State.phyWrite_writeOnce (acc : Access) (c : YId) (off : Nat) (ws : List Word) :
    (s.phyWrite acc c off ws).dp.writeOnce = s.dp.writeOnce := by
  unfold State.phyWrite
  dsimp only
  repeat' split
  all_goals simp

@[simp] theorem State.effect_writeOnce (acc : Access) (b : Bank) (off : Nat) (ws : List Word) :
    (s.effect acc b off ws).dp.writeOnce = s.dp.writeOnce := by
  unfold State.effect
  dsimp only
  repeat' split
  all_goals simp

@[simp] theorem State.unstage_dp (p : Path) (b : Bank) (off : Nat) (refused : Bool) :
    (s.unstage p b off refused).dp = s.dp := by
  simp [State.unstage]

@[simp] theorem State.lockRead_writeOnce (b : Bank) (off : Nat) :
    (s.lockRead b off).dp.writeOnce = s.dp.writeOnce := by
  unfold State.lockRead
  split <;> simp

@[simp] theorem State.commit_writeOnce (acc : Access) (b : Bank) (off : Nat) (ws : List Word) :
    (s.commit acc b off ws).dp.writeOnce = s.dp.writeOnce := by
  unfold State.commit
  dsimp only
  split
  · simp
  · split <;> simp

@[simp] theorem State.coreWrite_writeOnce (acc : Access) (b : Bank) (off : Nat) (v : Word) :
    (s.coreWrite acc b off v).dp.writeOnce = s.dp.writeOnce := by
  simp [State.coreWrite]

@[simp] theorem State.unstageOther_dp (p : Path) (b : Bank) (off : Nat) : (s.unstageOther p b off).dp = s.dp := by
  simp [State.unstageOther]

@[simp] theorem State.landPosted_writeOnce (acc : Access) (b : Bank) (off : Nat) (v : Word) (hi : Option Word) :
    (s.landPosted acc b off v hi).dp.writeOnce = s.dp.writeOnce := by
  unfold State.landPosted
  dsimp only
  split
  · simp
  · split
    · simp
    · split <;> simp

@[simp] theorem State.dropBusy_writeOnce (acc : Access) : (s.dropBusy acc).dp.writeOnce = s.dp.writeOnce := by
  simp [State.dropBusy]

@[simp] theorem State.postWrite_writeOnce (acc : Access) (b : Bank) (off : Nat) (v : Word) :
    (s.postWrite acc b off v).dp.writeOnce = s.dp.writeOnce := by
  simp [State.postWrite]

@[simp] theorem State.landOne_writeOnce (p : Path) : (s.landOne p).dp.writeOnce = s.dp.writeOnce := by
  unfold State.landOne
  split <;> simp

@[simp] theorem State.gctl_writeOnce (acc : Access) (v : Word) (bad : BitVec 17) (ups : List Upset) :
    (s.gctl acc v bad ups).dp.writeOnce = s.dp.writeOnce := by
  simp [State.gctl]

@[simp] theorem State.lockWrite_writeOnce (acc : Access) (l : LockId) (v : Word) :
    (s.lockWrite acc l v).dp.writeOnce = s.dp.writeOnce := by
  simp [State.lockWrite]

@[simp] theorem State.evcntWrite_dp (p : Path) (v : Word) : (s.evcntWrite p v).dp = s.dp := by
  unfold State.evcntWrite
  split <;> simp

@[simp] theorem State.evackWrite_dp (p : Path) (v : Word) : (s.evackWrite p v).dp = s.dp := by
  unfold State.evackWrite
  split <;> simp

@[simp] theorem State.bankWrite_writeOnce (acc : Access) (b : Bank) (off : Nat) (v : Word) :
    (s.bankWrite acc b off v).dp.writeOnce = s.dp.writeOnce := by
  unfold State.bankWrite
  split
  · simp
  · split <;> simp

@[simp] theorem State.acked_dp (p : Path) (word : Nat) : (s.acked p word).dp = s.dp := by
  unfold State.acked
  split <;> simp

@[simp] theorem State.rowCommit_writeOnce (p : Path) (b : Bank) (off : Nat) (ws : List Word) :
    (s.rowCommit p b off ws).dp.writeOnce = s.dp.writeOnce := by
  simp [State.rowCommit]

@[simp] theorem State.rowPost_writeOnce (p : Path) (b : Bank) (off : Nat) (v : Word) :
    (s.rowPost p b off v).dp.writeOnce = s.dp.writeOnce := by
  simp [State.rowPost]

/-! ### REFCLK and path B -/

@[simp] theorem State.refEdge_writeOnce : s.refEdge.dp.writeOnce = s.dp.writeOnce := by simp [State.refEdge]

@[simp] theorem State.rowQctl_writeOnce (p : Path) (q : QId) (v : Word) :
    (s.rowQctl p q v).dp.writeOnce = s.dp.writeOnce := by
  simp [State.rowQctl]

@[simp] theorem State.rowYcmd_writeOnce (p : Path) (c : YId) (v : Word) :
    (s.rowYcmd p c v).dp.writeOnce = s.dp.writeOnce := by
  simp [State.rowYcmd]

@[simp] theorem State.nacked_dp : s.nacked.dp = s.dp := by simp [State.nacked]

/-! ### Writes of the write-once words -/

/-- R397: a write of DP:SEAL acts only while it is unwritten. -/
theorem State.sealWrite_keeps (acc : Access) (v : Word) : s.dp.writeOnce.KeptBy (s.sealWrite acc v).dp.writeOnce := by
  unfold State.sealWrite
  split
  · simp
  · next h => simp [WriteOnce.KeptBy, Direct.writeOnce, h]

/-- R397: a write of DP:SLOTID acts only while it is unwritten. -/
theorem State.slotWrite_keeps (acc : Access) (v : Word) : s.dp.writeOnce.KeptBy (s.slotWrite acc v).dp.writeOnce := by
  unfold State.slotWrite
  split
  · simp
  · next h => simp [WriteOnce.KeptBy, Direct.writeOnce, h]

theorem State.directWrite_keeps (acc : Access) (off : Nat) (v : Word) (bad : BitVec 17) (ups : List Upset) :
    s.dp.writeOnce.KeptBy (s.directWrite acc off v bad ups).dp.writeOnce := by
  unfold State.directWrite
  split
  · simp
  · split
    case h_6 => exact s.dp.writeOnce.keptBy_refl -- DP:LEASE, another word of the page
    case h_13 => exact s.sealWrite_keeps acc v
    case h_14 => exact s.slotWrite_keeps acc v
    all_goals simp

theorem State.rowDirect_keeps (p : Path) (off : Nat) (v : Word) (bad : BitVec 17) (ups : List Upset) :
    s.dp.writeOnce.KeptBy (s.rowDirect p off v bad ups).dp.writeOnce := by
  unfold State.rowDirect
  dsimp only
  split
  · simp
  · simpa using (s.acked p off).directWrite_keeps _ off v bad ups

theorem State.busWrite_keeps (p : Path) (word : Nat) (v : Word) :
    s.dp.writeOnce.KeptBy (s.busWrite p word v).dp.writeOnce := by
  unfold State.busWrite
  split
  · simp
  · dsimp only
    split
    · split
      · exact s.directWrite_keeps ..
      · simp
    · simp
    · simp

theorem State.seqWrite_keeps (vs : List Word) (a : BitVec 7) :
    s.dp.writeOnce.KeptBy (State.seqWrite vs s a).dp.writeOnce := by
  induction vs generalizing s a with
  | nil => simp [State.seqWrite]
  | cons v vs ih =>
    have h := ih ((s.busWrite .b a.toNat v).acked .b (a + 1).toNat) (a + 1)
    rw [State.acked_dp] at h
    exact (s.busWrite_keeps .b a.toNat v).trans h

/-! ### Commands whose meaning is more than one operation -/

theorem execRefclkLoss_writeOnce {t : State} (h : execRefclkLoss s = .next t) : t.dp.writeOnce = s.dp.writeOnce := by
  cases h
  dsimp only
  split
  · rw [State.chanChanged_dp]
    rfl
  · rfl

theorem execStartupComplete_writeOnce {t : State} (h : execStartupComplete s = .next t) :
    t.dp.writeOnce = s.dp.writeOnce := by
  cases h
  split
  · rw [State.scaleAll_dp, State.startAllPins_dp, State.cardingFree_writeOnce]
    rfl
  · rfl

theorem execWarmResetComplete_writeOnce {t : State} (h : execWarmResetComplete s = .next t) :
    t.dp.writeOnce = s.dp.writeOnce := by
  cases h
  split
  · rw [State.scaleAll_dp, State.startAllPins_dp, State.cardingFree_writeOnce, State.govResume_writeOnce]
    rfl
  · rfl

theorem execWrstall_writeOnce {p : Path} {t : State} (h : execWrstall p s = .next t) :
    t.dp.writeOnce = s.dp.writeOnce := by
  cases h
  split <;> simp

theorem execCounterClear_writeOnce {p : Path} {r : ClearReg} {v : Word} {t : State}
    (h : execCounterClear p r v s = .next t) : t.dp.writeOnce = s.dp.writeOnce := by
  cases h
  cases r <;> simp

theorem execWindowClose_dp {j : Fin 16} {t : State} (h : execWindowClose j s = .next t) : t.dp = s.dp := by
  cases h
  split <;> simp

theorem execTsOutPulseEnd_dp {t : State} (h : execTsOutPulseEnd s = .next t) : t.dp = s.dp := by
  cases h
  split <;> simp

theorem execSetPointer_dp {cmd : Option (BitVec 8)} {astray : Bool} {t : State}
    (h : execSetPointer cmd s astray = .next t) : t.dp = s.dp := by
  cases h
  cases cmd <;> simp

theorem execRegisterRead_writeOnce {p : Path} {word : BitVec 7} {seq : Bool} {flips : Flips} {t : State}
    (h : execRegisterRead p word seq flips s = .next t) : t.dp.writeOnce = s.dp.writeOnce := by
  cases h
  cases p <;> simp

theorem execSmbusWriteWord_keeps {word : BitVec 7} {v : Word} {pec : Option (BitVec 8)} {ending : WordEnd} {t : State}
    (h : execSmbusWriteWord word v pec s ending = .next t) : s.dp.writeOnce.KeptBy t.dp.writeOnce := by
  have hbus := (s.acked .b word.toNat).busWrite_keeps .b word.toNat v
  rw [State.acked_dp] at hbus
  cases h
  cases ending with
  | cut => simp
  | astray => simp
  | stop =>
    cases pec with
    | none => exact hbus
    | some c =>
      dsimp only
      split
      · exact hbus
      · simp

/-! ### Every command -/

/-- Every command but those that put the part in POR keeps the write-once words that have been written. -/
theorem exec_keepsWriteOnce (c : Instr) (s t : State) (h : exec c s = .next t)
    (hporst : ∀ ns, c ≠ .porstLow ns) (hsupply : ∀ x, c ≠ .supplyFault x) :
    s.dp.writeOnce.KeptBy t.dp.writeOnce := by
  cases c with
  | porstLow ns => exact absurd rfl (hporst ns)
  | supplyFault x => exact absurd rfl (hsupply x)
  | warmDeviceReset | deviceEnable | snapshotTake | lockWrite | sealWrite | slotidWrite | evcntClear | evackWrite =>
    cases h; exact s.rowDirect_keeps ..
  | registerWrite p word v =>
    cases h
    simpa using (s.acked p word.toNat).busWrite_keeps p word.toNat v
  | sequentialWrite word vals odd =>
    cases h
    simpa using (s.acked .b word.toNat).seqWrite_keeps vals word
  | smbusWriteWord word v pec ending => exact execSmbusWriteWord_keeps s h
  | refclkLoss => exact .of_eq (execRefclkLoss_writeOnce s h)
  | startupComplete => exact .of_eq (execStartupComplete_writeOnce s h)
  | warmResetComplete => exact .of_eq (execWarmResetComplete_writeOnce s h)
  | registerRead p word seq flips => exact .of_eq (execRegisterRead_writeOnce s h)
  | wrstall p => exact .of_eq (execWrstall_writeOnce s h)
  | counterClear p r v => exact .of_eq (execCounterClear_writeOnce s h)
  | windowClose j => exact .of_eq (congrArg _ (execWindowClose_dp s h))
  | tsOutPulseEnd => exact .of_eq (congrArg _ (execTsOutPulseEnd_dp s h))
  | setPointer cmd astray => exact .of_eq (congrArg _ (execSetPointer_dp s h))
  | _ => cases h; simp

end Sys2Proof.Machine

open Sys2Proof Sys2Proof.Machine

/-- Settles O5: no command but the two that put the part in POR changes a write-once word that has been written. -/
theorem writeOnceHolds : Obligations.WriteOnceHolds := exec_keepsWriteOnce

end

section
/-!
SUPPORT and O19. The Sort yard answers the oldest staged lead word (R113, R148 to R156, R464).

First what a compare of the yard's own words can do: it leaves each word as a second compare would find it. Then the drain of
staged words, as far as steering needs it, the answer itself, and the entry that wins.
-/

namespace Sys2Proof.Machine

variable (s : State)

/-! ### Voted words that a compare has seen (R379, R380) -/

/-- A compare of the copies has nothing left to do: the word is in VOTEFAIL, or its copies agree. -/
def VWord.settled (v : VWord) : Prop := v.failed = true ∨ v = VWord.of v.val

theorem VWord.settled_of (w : Word) : (VWord.of w).settled := .inr (by simp)

theorem VWord.settled_of_copies {v : VWord} {m : Word} (h : v.c0 = m ∧ v.c1 = m ∧ v.c2 = m) : v.settled := by
  obtain ⟨c0, c1, c2, failed⟩ := v
  simp only at h
  obtain ⟨rfl, rfl, rfl⟩ := h
  cases failed with
  | false => exact VWord.settled_of _
  | true => exact .inl rfl

theorem State.compare_of_settled {r : VRef} (h : (s.vget r).settled) : s.compare r = s := by
  cases h with
  | inl hfailed => simp [State.compare, hfailed]
  | inr hagree => exact s.compare_of_agrees hagree

theorem State.compareAll_of_settled {refs : List VRef} (h : ∀ r ∈ refs, (s.vget r).settled) : s.compareAll refs = s := by
  induction refs with
  | nil => rfl
  | cons r rs ih =>
    have hr : s.compare r = s := s.compare_of_settled (h r (by simp))
    simpa [State.compareAll, hr] using ih fun x hx => h x (by simp [hx])

/-! ### What a compare leaves unchanged -/

@[simp] theorem State.vset_boot (r : VRef) (v : VWord) : (s.vset r v).boot = s.boot := by
  unfold State.vset
  split <;> simp

@[simp] theorem State.vset_ports (r : VRef) (v : VWord) : (s.vset r v).ports = s.ports := by
  unfold State.vset
  split <;> simp

@[simp] theorem State.enterFatal_boot : s.enterFatal.boot = s.boot := by
  unfold State.enterFatal
  split <;> rfl

@[simp] theorem State.enterFatal_sy : s.enterFatal.sy = s.sy := by
  unfold State.enterFatal
  split <;> rfl

@[simp] theorem State.voteFail_boot (r : VRef) : (s.voteFail r).boot = s.boot := by
  unfold State.voteFail
  split <;> simp

@[simp] theorem State.compare_boot (r : VRef) : (s.compare r).boot = s.boot := by
  unfold State.compare
  dsimp only
  split
  · rfl
  · split
    · split <;> simp
    · simp

@[simp] theorem State.compareAll_boot (refs : List VRef) : (s.compareAll refs).boot = s.boot := by
  induction refs generalizing s with
  | nil => rfl
  | cons r rs ih => exact (ih (s.compare r)).trans (s.compare_boot r)

theorem State.samePorts_of_ports {s t : State} (h : t.ports = s.ports) : s.samePorts t := fun n => by
  simp [State.po, h]

theorem State.samePorts.trans {s t u : State} (h : s.samePorts t) (k : t.samePorts u) : s.samePorts u :=
  fun n => (k n).trans (h n)

/-- Entry into FATAL changes the pins of a port at most. -/
theorem State.enterFatal_samePorts : s.samePorts s.enterFatal := fun n => by
  unfold State.enterFatal
  split
  · rfl
  · simp [State.po, Port.inner]

theorem State.voteFail_samePorts (r : VRef) : s.samePorts (s.voteFail r) := by
  unfold State.voteFail
  split
  · exact State.samePorts_of_ports rfl
  · exact s.enterFatal_samePorts

theorem State.compare_samePorts (r : VRef) : s.samePorts (s.compare r) := by
  unfold State.compare
  dsimp only
  split
  · exact State.samePorts_of_ports rfl
  · split
    · split <;> exact State.samePorts_of_ports (by simp)
    · exact .trans (State.samePorts_of_ports (by simp)) (State.voteFail_samePorts _ r)

theorem State.compareAll_samePorts (refs : List VRef) : s.samePorts (s.compareAll refs) := by
  induction refs generalizing s with
  | nil => exact State.samePorts_of_ports rfl
  | cons r rs ih => exact (s.compare_samePorts r).trans (ih (s.compare r))

@[simp] theorem Port.inner_staging (x : Port) : x.inner.staging = x.staging := rfl
@[simp] theorem Port.inner_lcfg (x : Port) : x.inner.lcfg = x.lcfg := rfl
@[simp] theorem Port.inner_stopped (x : Port) : x.inner.stopped = x.stopped := rfl

theorem State.samePorts.staging {s t : State} (h : s.samePorts t) (n : PId) : (t.po n).staging = (s.po n).staging := by
  simpa using congrArg Port.staging (h n)

theorem State.samePorts.master {s t : State} (h : s.samePorts t) (n : PId) : t.master n = s.master n := by
  have hcfg : (t.po (lowerPort n)).lcfg = (s.po (lowerPort n)).lcfg := by
    simpa using congrArg Port.lcfg (h (lowerPort n))
  have hpaired : t.paired n = s.paired n := by rw [State.paired, hcfg, State.paired]
  rw [State.master, hpaired, State.master]

theorem State.samePorts.stoppedAt {s t : State} (h : s.samePorts t) (n : PId) : t.stoppedAt n = s.stoppedAt n := by
  simpa [State.stoppedAt, h.master] using congrArg Port.stopped (h (s.master n))

/-! ### The Sort yard's words are compared as they are read (R379, R464) -/

/-- A compare of a word of the yard leaves that word settled, and the others as they are. -/
theorem State.compare_sortYard_sy (e : Fin 64) (hi : Bool) :
    ∃ v : VWord, v.settled ∧ (s.compare (.sortYard e hi)).sy = s.sy.set (syIdx e hi).val v := by
  have hsame : s.sy = s.sy.set (syIdx e hi).val (s.vget (.sortYard e hi)) := by simp [State.vget]
  unfold State.compare
  dsimp only
  split
  next hfailed => exact ⟨_, .inl hfailed, hsame⟩
  next =>
    split
    next m _ =>
      split
      next hcopies => exact ⟨_, VWord.settled_of_copies hcopies, hsame⟩
      next => exact ⟨_, VWord.settled_of m, by simp [State.vset]⟩
    next => exact ⟨{ s.vget (.sortYard e hi) with failed := true }, .inl rfl, by simp [State.voteFail, State.vset]⟩

theorem State.compare_sortYard_settled (e : Fin 64) (hi : Bool) :
    ((s.compare (.sortYard e hi)).vget (.sortYard e hi)).settled := by
  obtain ⟨v, hv, hsy⟩ := s.compare_sortYard_sy e hi
  simpa [State.vget, hsy] using hv

/-- A word of the yard that is settled stays so as another is compared. -/
theorem State.compare_sortYard_keeps_settled (e : Fin 64) (hi : Bool) {e' : Fin 64} {hi' : Bool}
    (h : (s.vget (.sortYard e' hi')).settled) : ((s.compare (.sortYard e hi)).vget (.sortYard e' hi')).settled := by
  obtain ⟨v, hv, hsy⟩ := s.compare_sortYard_sy e hi
  simp only [State.vget, hsy, Vector.getElem_set]
  split
  · exact hv
  · exact h

/-- A compare of words of the yard leaves all of them settled, with those that were. -/
theorem State.compareAll_sortYard_settled (ws seen : List (Fin 64 × Bool))
    (h : ∀ w ∈ seen, (s.vget (.sortYard w.1 w.2)).settled) :
    ∀ w ∈ seen ++ ws, ((s.compareAll (ws.map fun w => .sortYard w.1 w.2)).vget (.sortYard w.1 w.2)).settled := by
  induction ws generalizing s seen with
  | nil => simpa [State.compareAll] using h
  | cons x ws ih =>
    have hseen : ∀ w ∈ seen ++ [x], ((s.compare (.sortYard x.1 x.2)).vget (.sortYard w.1 w.2)).settled := by
      intro w hw
      rcases List.mem_append.1 hw with hw | hw
      · exact s.compare_sortYard_keeps_settled x.1 x.2 (h w hw)
      · rw [List.mem_singleton.1 hw]
        exact s.compare_sortYard_settled x.1 x.2
    simpa [State.compareAll] using ih (s.compare (.sortYard x.1 x.2)) (seen ++ [x]) hseen

/-- The words of the yard, each by its entry and its half. -/
def yardWords : List (Fin 64 × Bool) := (List.finRange 64).flatMap fun e => [(e, false), (e, true)]

theorem yardRefs_eq_map : yardRefs = yardWords.map fun w => .sortYard w.1 w.2 := by
  simp [yardRefs, yardWords, List.map_flatMap]

/-- The yard compared twice is as the yard compared once. -/
theorem State.compareAll_yardRefs_twice : (s.compareAll yardRefs).compareAll yardRefs = s.compareAll yardRefs := by
  refine State.compareAll_of_settled _ ?_
  rw [yardRefs_eq_map]
  intro r hr
  obtain ⟨w, hw, rfl⟩ := List.mem_map.1 hr
  exact s.compareAll_sortYard_settled yardWords [] (by simp) w (by simpa using hw)

/-! ### Staged words move on: PTAGMISS is left alone -/

@[simp] theorem State.ports_ite (c : Prop) [Decidable c] (s t : State) :
    (if c then s else t).ports = if c then s.ports else t.ports := apply_ite ..

@[simp] theorem State.settle_ports (q : QId) : (s.settle q).ports = s.ports := by
  simp [State.settle]

@[simp] theorem State.jumpN_ports (k : Nat) (q : QId) : (s.jumpN k q).ports = s.ports := by
  induction k generalizing s with
  | zero => rfl
  | succ k ih =>
    rw [State.jumpN]
    split <;> simp [ih]

@[simp] theorem State.closeNow_ports (q : QId) (b : Bark) : (s.closeNow q b).ports = s.ports := by
  simp [State.closeNow, State.jumpLost]

@[simp] theorem State.closeNow_po (q : QId) (b : Bark) (i : PId) : (s.closeNow q b).po i = s.po i := by
  simp [State.po]

@[simp] theorem State.endSeg_ptagmiss (n : PId) (c : CurSeg) (q : QId) (trunc : Bool) :
    ((s.endSeg n c q trunc).po n).ptagmiss = (s.po n).ptagmiss := by
  unfold State.endSeg
  dsimp only
  split
  · split <;> simp
  · simp [Port.spend]

theorem State.drainOne_ptagmiss {n : PId} {t : State} (h : s.drainOne n = some t) :
    (t.po n).ptagmiss = (s.po n).ptagmiss := by
  unfold State.drainOne at h
  dsimp only at h
  repeat' split at h
  all_goals cases h
  all_goals simp [Port.spend]

theorem State.drainN_ptagmiss (k : Nat) (n : PId) : ((s.drainN k n).po n).ptagmiss = (s.po n).ptagmiss := by
  induction k generalizing s with
  | zero => rfl
  | succ k ih =>
    rw [State.drainN]
    split
    next => rfl
    next h => rw [ih, s.drainOne_ptagmiss h]

@[simp] theorem State.drain_ptagmiss (n : PId) : ((s.drain n).po n).ptagmiss = (s.po n).ptagmiss :=
  s.drainN_ptagmiss _ n

/-- An answered lead word, alone and with no segment open before it, opens its segment (R113). -/
theorem State.drain_answered {n : PId} {tag : BitVec 6} {lenv crcin par : Bool} {k : Steer}
    (hclock : s.stoppedAt n = false) (hcur : (s.po n).cur = none)
    (hstaging : (s.po n).staging = [.lead tag lenv crcin par (some k)]) :
    s.drain n = s.setPo n { s.po n with staging := [], cur := some (CurSeg.start tag lenv crcin par k) } := by
  simp [State.drain, State.drainN, State.drainOne, hclock, hcur, hstaging]

/-! ### The answer (R113, R153 to R155) -/

/-- Port `n` with its oldest unanswered lead word, of tag `tag`, answered as the yard stands, PTAGMISS counting a drop. -/
def State.answered (s : State) (n : PId) (tag : BitVec 6) : Port :=
  { s.po n with
    staging := answerLead ⟨s.steer n tag, s.stamp, s.order⟩ (s.po n).staging
    ptagmiss := if s.steer n tag = none then satAdd (s.po n).ptagmiss 1 else (s.po n).ptagmiss }

/-- The state with that answer given, before staged words move on. -/
def State.steered (s : State) (n : PId) (tag : BitVec 6) : State :=
  ({ s with order := s.order + 1 } : State).setPo n (s.answered n tag)

/-- The whole of a steering: the yard is compared, and where that has not entered FATAL the answer is given and staged words
move on. -/
theorem State.steerSegment_of_lead {n : PId} {tag : BitVec 6} (hrun : s.running = true) (hclock : s.stoppedAt n = false)
    (hlead : unsteered (s.po n).staging = some tag) :
    s.steerSegment n =
      if (s.compareAll yardRefs).dp.fatal then s.compareAll yardRefs
      else (((s.compareAll yardRefs).steered n tag).drain n).scaleAll := by
  have hanswer (t : State) : (t.modPo n fun x => { x with
        staging := answerLead ⟨t.steer n tag, t.stamp, t.order⟩ x.staging
        ptagmiss := if (t.steer n tag).isNone then satAdd x.ptagmiss 1 else x.ptagmiss }).nextOrder = t.steered n tag := by
    rw [State.steered, State.answered]
    cases t.steer n tag <;> rfl
  simp only [State.steerSegment, hlead, hrun, hclock, Bool.not_true, Bool.or_false, Bool.false_eq_true, if_false, hanswer]

theorem exec_steerSegment (n : PId) : exec (.steerSegment n) s = .next (s.steerSegment n) := rfl

/-- Nothing is steered without a lead word to answer, with the port's clock stopped, or where the part does not run. -/
theorem State.steerSegment_of_idle {n : PId}
    (h : s.running = false ∨ s.stoppedAt n = true ∨ unsteered (s.po n).staging = none) : s.steerSegment n = s := by
  unfold State.steerSegment
  split
  · rfl
  next hlead =>
    have hoff : (!s.running || s.stoppedAt n) = true := by
      rcases h with h | h | h
      · simp [h]
      · simp [h]
      · simp [hlead] at h
    rw [if_pos hoff]

theorem State.running_eq_of_boot {t : State} (h : t.boot = s.boot) : t.running = (s.hostOn && !t.dp.fatal) := by
  simp [State.running, State.hostOn, State.powered, State.supplied, h]

/-- Steering reads the yard as a compare of all its words leaves it (R379). -/
theorem State.steerSegment_compareAll {n : PId} (hrun : s.running = true) (hclock : s.stoppedAt n = false)
    (hlead : unsteered (s.po n).staging ≠ none) : s.steerSegment n = (s.compareAll yardRefs).steerSegment n := by
  obtain ⟨tag, htag⟩ := Option.ne_none_iff_exists'.1 hlead
  have hports := s.compareAll_samePorts yardRefs
  have hrun' := s.running_eq_of_boot (s.compareAll_boot yardRefs)
  have hhost : s.hostOn = true := (Bool.and_eq_true _ _ ▸ hrun).1
  rw [s.steerSegment_of_lead hrun hclock htag]
  cases hfatal : (s.compareAll yardRefs).dp.fatal with
  | true =>
    rw [State.steerSegment_of_idle _ (.inl (by simp [hrun', hfatal]))]
    rfl
  | false =>
    rw [State.steerSegment_of_lead (tag := tag) _ (by simp [hrun', hfatal, hhost]) (by rw [hports.stoppedAt, hclock])
      (by rw [hports.staging, htag]), s.compareAll_yardRefs_twice, hfatal]

/-- With a yard whose copies agree the answer is given as the yard stands. -/
theorem State.steerSegment_of_agrees {n : PId} {tag : BitVec 6} (hrun : s.running = true)
    (hclock : s.stoppedAt n = false) (hyard : ∀ r ∈ yardRefs, s.agrees r)
    (hlead : unsteered (s.po n).staging = some tag) : s.steerSegment n = ((s.steered n tag).drain n).scaleAll := by
  have hfatal : s.dp.fatal = false := by
    simpa using (Bool.and_eq_true _ _ ▸ hrun : s.hostOn = true ∧ (!s.dp.fatal) = true).2
  rw [s.steerSegment_of_lead hrun hclock hlead, s.compareAll_of_agrees hyard, hfatal]
  rfl

@[simp] theorem State.steered_po (n : PId) (tag : BitVec 6) : (s.steered n tag).po n = s.answered n tag :=
  State.setPo_po _ n _

theorem State.steered_po_ne {n m : PId} (tag : BitVec 6) (h : m ≠ n) : (s.steered n tag).po m = s.po m :=
  State.setPo_po_ne _ n m _ h

/-- An answer leaves the clock and the configuration of every port as they are. -/
theorem State.steered_clock (n m : PId) (tag : BitVec 6) :
    ((s.steered n tag).po m).stopped = (s.po m).stopped ∧ ((s.steered n tag).po m).lcfg = (s.po m).lcfg := by
  by_cases h : m = n
  · subst h
    simp [State.answered]
  · simp [s.steered_po_ne tag h]

@[simp] theorem State.steered_stoppedAt (n m : PId) (tag : BitVec 6) :
    (s.steered n tag).stoppedAt m = s.stoppedAt m := by
  have hpaired : (s.steered n tag).paired m = s.paired m := by
    rw [State.paired, (s.steered_clock n _ tag).2, State.paired]
  rw [State.stoppedAt, (s.steered_clock n _ tag).1, State.master, hpaired]
  rfl

/-- A lead word that stands alone opens its segment with the answer. -/
theorem State.steered_drain_alone {n : PId} {tag : BitVec 6} {lenv crcin par : Bool} (hclock : s.stoppedAt n = false)
    (hcur : (s.po n).cur = none) (hstaging : (s.po n).staging = [.lead tag lenv crcin par none]) :
    (s.steered n tag).drain n = (s.steered n tag).setPo n { s.answered n tag with
      staging := [], cur := some (CurSeg.start tag lenv crcin par ⟨s.steer n tag, s.stamp, s.order⟩) } := by
  have hanswer : ((s.steered n tag).po n).staging = [.lead tag lenv crcin par (some ⟨s.steer n tag, s.stamp, s.order⟩)] := by
    simp [State.answered, hstaging, answerLead, dropPays]
  simpa using State.drain_answered _ (by simpa using hclock) (by simpa [State.answered] using hcur) hanswer

/-! ### The entry that wins (R151) -/

/-- One entry taken up into the choice of the winner. -/
def State.better (s : State) (n : PId) (tag : BitVec 6) (acc : Option (QId × Nat)) (e : Fin 64) : Option (QId × Nat) :=
  match s.entryMatch n tag e, acc with
  | none, _ => acc
  | some x, none => some x
  | some x, some y => if y.2 < x.2 then some x else some y

theorem State.winner_eq_foldl (n : PId) (tag : BitVec 6) :
    s.winner n tag = (List.finRange 64).foldl (s.better n tag) none := rfl

/-- Among the entries `l`, `e` matches with `x`, and every other match is of lower PRI, or of the same and no earlier. -/
def State.Wins (s : State) (n : PId) (tag : BitVec 6) (l : List (Fin 64)) (e : Fin 64) (x : QId × Nat) : Prop :=
  s.entryMatch n tag e = some x ∧
    ∀ e' ∈ l, ∀ y, s.entryMatch n tag e' = some y → y.2 < x.2 ∨ (y.2 = x.2 ∧ e ≤ e')

/-- What the choice among the entries `l` answers: nothing where none matches, else a winner. -/
def State.Chosen (s : State) (n : PId) (tag : BitVec 6) (l : List (Fin 64)) : Option (QId × Nat) → Prop
  | none => ∀ e ∈ l, s.entryMatch n tag e = none
  | some x => ∃ e ∈ l, s.Wins n tag l e x

theorem State.wins_concat {n : PId} {tag : BitVec 6} {l : List (Fin 64)} {e w : Fin 64} {x : QId × Nat}
    (h : s.Wins n tag l w x)
    (he : ∀ y, s.entryMatch n tag e = some y → y.2 < x.2 ∨ (y.2 = x.2 ∧ w ≤ e)) :
    s.Wins n tag (l ++ [e]) w x := by
  obtain ⟨hmatch, hbest⟩ := h
  refine ⟨hmatch, fun e' he' => ?_⟩
  rcases List.mem_append.1 he' with he' | he'
  · exact hbest e' he'
  · rw [List.mem_singleton.1 he']
    exact he

/-- An entry after all of `l` is taken up: it wins over one of lower PRI alone. -/
theorem State.chosen_better {n : PId} {tag : BitVec 6} {l : List (Fin 64)} {acc : Option (QId × Nat)} {e : Fin 64}
    (h : s.Chosen n tag l acc) (hlast : ∀ e' ∈ l, e' < e) : s.Chosen n tag (l ++ [e]) (s.better n tag acc e) := by
  unfold State.better
  cases hm : s.entryMatch n tag e with
  | none =>
    cases acc with
    | none => simpa [State.Chosen, or_imp, forall_and, hm] using h
    | some y =>
      obtain ⟨w, hw, hwins⟩ := h
      exact ⟨w, by simp [hw], s.wins_concat hwins (by simp [hm])⟩
  | some x =>
    cases acc with
    | none =>
      have hwins : s.Wins n tag l e x := ⟨hm, fun e' he' => by simp [h e' he']⟩
      exact ⟨e, by simp, s.wins_concat hwins (by simp [hm])⟩
    | some y =>
      obtain ⟨w, hw, hwins⟩ := h
      obtain ⟨-, hbest⟩ := id hwins
      dsimp only
      split
      next hlt =>
        have hover : s.Wins n tag l e x := ⟨hm, fun e' he' z hz => .inl <| by
          rcases hbest e' he' z hz with hp | ⟨hp, -⟩ <;> omega⟩
        exact ⟨e, by simp, s.wins_concat hover (by simp [hm])⟩
      next hle =>
        have hlast := (hlast w hw).le
        exact ⟨w, by simp [hw], s.wins_concat hwins fun z hz => by
          cases hm.symm.trans hz
          exact (Nat.lt_or_eq_of_le (Nat.le_of_not_lt hle)).imp_right (⟨·, hlast⟩)⟩

theorem State.chosen_foldl (n : PId) (tag : BitVec 6) (l : List (Fin 64)) (hl : l.Pairwise (· < ·)) :
    s.Chosen n tag l (l.foldl (s.better n tag) none) := by
  induction l using List.reverseRecOn with
  | nil => simp [State.Chosen]
  | append_singleton l e ih =>
    obtain ⟨hl, -, hlast⟩ := List.pairwise_append.1 hl
    rw [List.foldl_append]
    exact s.chosen_better (ih hl) fun e' he' => hlast e' he' e (by simp)

theorem State.chosen_winner (n : PId) (tag : BitVec 6) : s.Chosen n tag (List.finRange 64) (s.winner n tag) :=
  s.chosen_foldl n tag _ (List.pairwise_lt_finRange 64)

theorem State.winner_eq_none_iff (n : PId) (tag : BitVec 6) :
    s.winner n tag = none ↔ ∀ e, s.entryMatch n tag e = none := by
  have hchosen := s.chosen_winner n tag
  cases hw : s.winner n tag with
  | none =>
    rw [hw] at hchosen
    exact ⟨fun _ e => hchosen e (List.mem_finRange e), fun _ => rfl⟩
  | some x =>
    rw [hw] at hchosen
    obtain ⟨e, -, hmatch, -⟩ := hchosen
    exact ⟨nofun, fun hnone => by simp [hnone e] at hmatch⟩

/-- The winner has the highest PRI of the matching entries, and of those that have it the lowest index (R151). -/
theorem State.winner_eq_some {n : PId} {tag : BitVec 6} {q : QId} {p : Nat} (h : s.winner n tag = some (q, p)) :
    ∃ e, s.entryMatch n tag e = some (q, p) ∧
      ∀ e' q' p', s.entryMatch n tag e' = some (q', p') → p' < p ∨ (p' = p ∧ e ≤ e') := by
  have hchosen := s.chosen_winner n tag
  rw [h] at hchosen
  obtain ⟨e, -, hmatch, hbest⟩ := hchosen
  exact ⟨e, hmatch, fun e' q' p' => hbest e' (List.mem_finRange e') (q', p')⟩

/-- The queue a segment goes to: the winner's, or without a match the port's default queue, and that only while the queue
is enabled and not in a reset (R153, R154). -/
theorem State.steer_eq_some_iff (n : PId) (tag : BitVec 6) (q : QId) :
    s.steer n tag = some q ↔ (s.qu q).en = true ∧ (s.qu q).resetting = false ∧
      ((∃ p, s.winner n tag = some (q, p)) ∨
        (s.winner n tag = none ∧ (s.po n).lcfg.getLsbD 12 = true ∧ (s.po n).lcfg.toNat / 256 % 16 = q.val)) := by
  cases hw : s.winner n tag with
  | some x =>
    obtain ⟨k, p⟩ := x
    have hsteer : s.steer n tag = some q ↔ k = q ∧ (s.qu q).en = true ∧ (s.qu q).resetting = false := by
      simp [State.steer, hw, Option.filter_eq_some_iff]
    have hwinner : (∃ p', some (k, p) = some (q, p')) ↔ k = q := by simp
    simp only [hsteer, hwinner, reduceCtorEq, false_and, or_false]
    exact and_rotate
  | none =>
    have hsteer : s.steer n tag = some q ↔ ((s.po n).lcfg.getLsbD 12 = true ∧ (s.po n).lcfg.toNat / 256 % 16 = q.val) ∧
        (s.qu q).en = true ∧ (s.qu q).resetting = false := by
      simp [State.steer, hw, Option.filter_eq_some_iff, bit, fld, Fin.ext_iff]
    simp only [hsteer, reduceCtorEq, exists_false, false_or, true_and]
    exact and_rotate

end Sys2Proof.Machine

open Sys2Proof Sys2Proof.Machine

/-- Settles O19: the answer and what it moves on, the compare of the yard before it, and the entry that wins. -/
theorem segmentSteering : Obligations.SegmentSteering := by
  unfold Obligations.SegmentSteering
  refine ⟨fun n s => ⟨fun hrun hclock hlead => ?_, fun tag hrun hclock hyard hlead => ?_, fun hidle => ?_⟩,
    fun n tag s => ⟨s.winner_eq_none_iff n tag, fun q p => s.winner_eq_some, s.steer_eq_some_iff n tag⟩⟩
  · rw [exec_steerSegment, exec_steerSegment, s.steerSegment_compareAll hrun hclock hlead]
  · refine ⟨((s.steered n tag).drain n).scaleAll, ?_, ⟨State.scaleAll_bare _, ?_⟩, fun lenv crcin par hcur hstaging => ?_⟩
    · rw [exec_steerSegment, s.steerSegment_of_agrees hrun hclock hyard hlead]
    · simp [State.answered]
    · rw [s.steered_drain_alone hclock hcur hstaging]
      refine ⟨?_, fun m hm => ?_, ?_⟩
      · simp [State.answered]
      · simp [State.setPo_po_ne _ n m _ hm, s.steered_po_ne tag hm]
      · rw [State.scaleAll_bare, State.scaleAll_ports]
        rfl
  · rw [exec_steerSegment, s.steerSegment_of_idle hidle]

end

section
/-!
SUPPORT and O50. The rate, UTCOFF and its staged change (R320, R344, R352, R434, R435).

First what a host's commit of a core register acts on once its checks have passed: the state it met but for staging, path B's
acknowledge and its word address. Then that a change of UTCOFF moves the time base, the windows and event counts alone, and
what it does to the time base and to WINMISS. Last, the commands, each as its register's operation on the state of its commit.
-/

namespace Sys2Proof.Machine

variable (s : State)

/-! ### The state that a host's commit acts on (R363, R375) -/

/-- `u` is `s` but for what every host command may change of the two paths. -/
def State.pathFrame (s u : State) : Prop :=
  (∃ x y, u = { s with pathA := x, pathB := y }) ∧ ∀ r, (u.path r).core = (s.path r).core

theorem State.pathFrame_refl : s.pathFrame s := ⟨⟨_, _, rfl⟩, fun _ => rfl⟩

theorem State.pathFrame.trans {s t u : State} (h : s.pathFrame t) (k : t.pathFrame u) : s.pathFrame u := by
  obtain ⟨⟨_, _, rfl⟩, hcore⟩ := h
  obtain ⟨⟨_, _, rfl⟩, kcore⟩ := k
  exact ⟨⟨_, _, rfl⟩, fun r => (kcore r).trans (hcore r)⟩

theorem State.modPath_pathFrame (p : Path) {g : PathSt → PathSt} (hg : ∀ x, (g x).core = x.core) :
    s.pathFrame (s.modPath p g) := by
  constructor
  · cases p <;> exact ⟨_, _, rfl⟩
  · intro r
    by_cases h : r = p
    · rw [h, State.modPath_path, hg]
    · rw [s.modPath_path_ne p r g h]

theorem State.acked_pathFrame (p : Path) (word : Nat) : s.pathFrame (s.acked p word) := by
  cases p with
  | a => exact s.pathFrame_refl
  | b =>
    rw [State.acked]
    refine s.modPath_pathFrame .b fun x => ?_
    split <;> rfl

theorem State.unstage_pathFrame (p : Path) (b : Bank) (off : Nat) (refused : Bool) :
    s.pathFrame (s.unstage p b off refused) := by
  have hown (s : State) (r : Path) : s.pathFrame (s.modPath r fun x => x.unstage b off) :=
    s.modPath_pathFrame r fun _ => rfl
  unfold State.unstage
  dsimp only
  split
  · exact hown s p
  · exact (hown s p).trans (hown _ _)

theorem State.pathFrame.time {s u : State} (h : s.pathFrame u) : u.time = s.time := by
  obtain ⟨⟨_, _, rfl⟩, -⟩ := h
  rfl

theorem State.pathFrame.utcDue {s u : State} (h : s.pathFrame u) : u.utcDue = s.utcDue := by
  rw [State.utcDue, h.time, State.utcDue]

theorem State.pathFrame.view {s u : State} (h : s.pathFrame u) : u.view = s.view := by
  rw [State.view, h.time, State.view]

theorem State.pathFrame.events {s u : State} (h : s.pathFrame u) : u.events = s.events := by
  obtain ⟨⟨_, _, rfl⟩, -⟩ := h
  rfl

theorem State.pathFrame.counted {s u t : State} {code inst n : Nat} (h : s.pathFrame u)
    (hc : u.counted t code inst n) : s.counted t code inst n := by
  simpa only [State.counted, State.ev, h.events] using hc

theorem State.pathFrame.writable {s u : State} (h : s.pathFrame u) (p : Path) : u.writable p = s.writable p := by
  obtain ⟨⟨_, _, rfl⟩, hcore⟩ := h
  cases p with
  | a =>
    have hreset := congrArg PathSt.inReset (hcore .a)
    simp only [PathSt.core, State.path] at hreset
    simp only [State.writable, State.pathAlive, hreset]
    rfl
  | b => rfl

/-- What a path may write does not depend on what every host command may change. -/
theorem State.pathFrame.mayWrite {s u : State} (h : s.pathFrame u) {p : Path} {b : Bank} {off : Nat}
    (hw : s.mayWrite p b off) : u.mayWrite p b off := by
  obtain ⟨⟨hwritable, hfatal⟩, hrefusal, hlock⟩ := hw
  have hwritable' : u.writable p = true := by rw [h.writable, hwritable]
  obtain ⟨⟨_, _, rfl⟩, -⟩ := h
  exact ⟨⟨hwritable', hfatal⟩, hrefusal, hlock⟩

/-- A commit that neither FATAL nor a lock nor the seal stands against takes effect. -/
theorem State.commit_of_mayWrite {acc : Access} {b : Bank} {off : Nat} (h : s.mayWrite acc.p b off) (ws : List Word) :
    s.commit acc b off ws = (s.unstage acc.p b off (s.rangeRefused b off ws)).effect acc b off ws := by
  obtain ⟨⟨-, hfatal⟩, hrefusal, hlock⟩ := h
  simp [State.commit, s.lockRead_of_agrees hlock, hfatal, hrefusal]

theorem State.rowCommit_of_mayWrite {p : Path} {b : Bank} {off : Nat} (h : s.mayWrite p b off) (ws : List Word) :
    ∃ u, s.pathFrame u ∧ s.rowCommit p b off ws = u.effect ⟨p, 64 + off, b.sel⟩ b off ws := by
  have hacked := s.acked_pathFrame p (64 + off)
  have hmay := hacked.mayWrite h
  obtain ⟨hwritable, hfatal⟩ := hmay.1
  have hcommit := State.commit_of_mayWrite _ (acc := ⟨p, 64 + off, b.sel⟩) hmay ws
  refine ⟨_, hacked.trans (State.unstage_pathFrame _ p b off _), .trans ?_ hcommit⟩
  simp only [State.rowCommit, hwritable, hfatal, Bool.not_true, Bool.false_eq_true, if_false]

/-- A commit in the TIME bank that may be written takes effect. -/
theorem State.rowCommit_time {p : Path} {off : Nat} (h : s.mayWrite p .time off) (ws : List Word) :
    ∃ u, s.pathFrame u ∧ s.rowCommit p .time off ws = u.timeWrite ⟨p, 64 + off, Bank.time.sel⟩ off ws :=
  s.rowCommit_of_mayWrite h ws

/-! ### Words of a wide value (R8) -/

theorem wordOf_eq_extractLsb' {n : Nat} (v : BitVec n) (i : Nat) : wordOf v i = v.extractLsb' (16 * i) 16 := by
  apply BitVec.eq_of_toNat_eq
  simp [wordOf, Nat.shiftRight_eq_div_pow]

theorem join2_wordOf (v : BitVec 32) : join2 (wordOf v 0) (wordOf v 1) = v := by
  simp only [join2, wordOf_eq_extractLsb']
  rw [BitVec.extractLsb'_append_extractLsb'_eq_extractLsb' (by rfl)]
  exact BitVec.extractLsb'_eq_self

theorem join3_wordOf (v : BitVec 48) : join3 (wordOf v 0) (wordOf v 1) (wordOf v 2) = v := by
  simp only [join3, wordOf_eq_extractLsb']
  rw [BitVec.extractLsb'_append_extractLsb'_eq_extractLsb' (by rfl),
    BitVec.extractLsb'_append_extractLsb'_eq_extractLsb' (by rfl)]
  exact BitVec.extractLsb'_eq_self

/-! ### Windows and the time base alone -/

/-- `t` is `s` but for the time base, the windows, event counts and stored flags. -/
def State.timeFrame (s t : State) : Prop :=
  t.bare = ({ s with time := t.time, wins := t.wins, events := t.events } : State).bare

theorem State.timeFrame_refl : s.timeFrame s := rfl

theorem State.timeFrame.trans {s t u : State} (h : s.timeFrame t) (k : t.timeFrame u) : s.timeFrame u := by
  have hlift := congrArg (fun x : State => { x with time := u.time, wins := u.wins, events := u.events }) h
  exact Eq.trans k hlift

theorem State.timeFrame_of_time (x : Time) : s.timeFrame { s with time := x } := rfl

theorem State.evalWindows_timeFrame : s.timeFrame s.evalWindows := by
  simp [State.timeFrame, State.evalWindows]

theorem State.countMissed_timeFrame (v0 : Nat) : s.timeFrame (s.countMissed v0) := by
  unfold State.countMissed State.countN
  dsimp only
  split <;> rfl

theorem State.setUtcOff_timeFrame (v : Word) : s.timeFrame (s.setUtcOff v) :=
  ((s.timeFrame_of_time _).trans (State.countMissed_timeFrame _ _)).trans (State.evalWindows_timeFrame _)

theorem State.applyUtc_timeFrame : s.timeFrame s.applyUtc := by
  unfold State.applyUtc
  split
  · exact (s.timeFrame_of_time _).trans (State.setUtcOff_timeFrame _ _)
  · exact s.timeFrame_refl

theorem State.utcoffWrite_timeFrame (v : Word) : s.timeFrame (s.utcoffWrite v) := by
  have hbefore : s.timeFrame (if s.utcDue then s else s.evalWindows) := by
    split
    · exact s.timeFrame_refl
    · exact s.evalWindows_timeFrame
  exact (hbefore.trans (State.setUtcOff_timeFrame _ v)).trans (State.applyUtc_timeFrame _)

theorem State.utcArm_timeFrame (a : BitVec 48) : s.timeFrame (s.utcArm a) :=
  (s.applyUtc_timeFrame.trans (State.timeFrame_of_time _ _)).trans (State.applyUtc_timeFrame _)

theorem State.utcCancel_timeFrame : s.timeFrame s.utcCancel :=
  s.applyUtc_timeFrame.trans (State.timeFrame_of_time _ _)

theorem State.discWrite_timeFrame (v : Word) : s.timeFrame (s.discWrite v) := by
  unfold State.discWrite
  dsimp only
  split
  · exact (s.timeFrame_of_time _).trans (State.utcCancel_timeFrame _)
  · exact s.timeFrame_of_time _

/-- A commit that changes the time base, windows and event counts alone keeps the frame of a host command. -/
theorem State.pathFrame.hostFrame {s t u : State} (h : s.pathFrame u) (k : u.timeFrame t) :
    s.hostFrame t { s with time := t.time, wins := t.wins, events := t.events } := by
  have hA : t.pathA = u.pathA := (congrArg State.pathA k :)
  have hB : t.pathB = u.pathB := (congrArg State.pathB k :)
  obtain ⟨⟨_, _, rfl⟩, hcore⟩ := h
  refine ⟨by rw [hA, hB]; exact k, fun r => ?_⟩
  rw [← hcore r]
  cases r with
  | a => exact congrArg PathSt.core hA
  | b => exact congrArg PathSt.core hB

/-! ### UTCOFF and its staged change (R344, R434, R435) -/

@[simp] theorem State.evalWindows_time : s.evalWindows.time = s.time := by simp [State.evalWindows]
@[simp] theorem State.evalWindows_events : s.evalWindows.events = s.events := by simp [State.evalWindows]
@[simp] theorem State.countMissed_time (v0 : Nat) : (s.countMissed v0).time = s.time := by simp [State.countMissed]
@[simp] theorem State.setUtcOff_time (v : Word) : (s.setUtcOff v).time = { s.time with utcOff := v } := by
  simp [State.setUtcOff]

@[simp] theorem State.countN_view (code inst n : Nat) : (s.countN code inst n).view = s.view := by simp [State.view]
@[simp] theorem State.evalWindows_view : s.evalWindows.view = s.view := by simp [State.view]
@[simp] theorem State.evalWindows_utcDue : s.evalWindows.utcDue = s.utcDue := by simp [State.utcDue]
@[simp] theorem State.setUtcOff_utcDue (v : Word) : (s.setUtcOff v).utcDue = s.utcDue := by simp [State.utcDue]

theorem State.applyUtc_of_notDue (h : s.utcDue = false) : s.applyUtc = s := by simp [State.applyUtc, h]

theorem State.applyUtc_time : s.applyUtc.time = { s.time with
    utcOff := if s.utcDue then s.time.utcNxt else s.time.utcOff, utcArmed := s.time.utcArmed && !s.utcDue } := by
  cases h : s.utcDue <;> simp [State.applyUtc, h]

/-- With no change due the write of UTCOFF is a move of the view, after the windows by the view that has stood. -/
theorem State.utcoffWrite_of_notDue (v : Word) (h : s.utcDue = false) :
    s.utcoffWrite v = s.evalWindows.setUtcOff v := by
  simp [State.utcoffWrite, State.applyUtc_of_notDue, h]

/-- A change that falls due with the write stands. -/
theorem State.utcoffWrite_time (v : Word) : (s.utcoffWrite v).time =
    if s.utcDue then { s.time with utcOff := s.time.utcNxt, utcArmed := false } else { s.time with utcOff := v } := by
  cases h : s.utcDue with
  | true => simp [State.utcoffWrite, State.applyUtc_time, h]
  | false => simp [s.utcoffWrite_of_notDue v h]

/-- What is armed falls due at once where S has reached its UTCAT. -/
theorem State.utcArm_time (a : BitVec 48) : (s.utcArm a).time = { s.time with
    utcAt := a, utcArmed := decide (s.time.sec < a)
    utcOff := if s.utcDue ∨ a ≤ s.time.sec then s.time.utcNxt else s.time.utcOff } := by
  have harmed : ({ s.applyUtc with time := { s.applyUtc.time with utcAt := a, utcArmed := true } } : State).utcDue =
      decide (a ≤ s.time.sec) := by simp [State.utcDue, State.applyUtc_time]
  rw [State.utcArm, State.applyUtc_time, harmed, State.applyUtc_time]
  by_cases hreached : a ≤ s.time.sec
  · simp [hreached, BitVec.not_lt.2 hreached]
  · simp [hreached, BitVec.not_le.1 hreached]

theorem State.utcCancel_time : s.utcCancel.time = { s.time with
    utcArmed := false, utcOff := if s.utcDue then s.time.utcNxt else s.time.utcOff } := by
  simp [State.utcCancel, State.applyUtc_time]

/-- The word of TIME:DISC with UTCCAN = 1 that names a MODE and ARM (R434). -/
def cancelWord (mode : Word) (arm : Bool) : Word := (mode &&& 3) ||| flagAt arm 4 ||| 0x100

theorem cancelWord_mode (mode : Word) (arm : Bool) : cancelWord mode arm &&& 3 = mode &&& 3 := by
  have hflags : (flagAt arm 4 ||| 0x100) &&& 3 = 0 := by cases arm <;> decide
  rw [cancelWord, BitVec.or_assoc, BitVec.and_or_distrib_right, BitVec.and_assoc, hflags]
  simp

theorem cancelWord_arm (mode : Word) (arm : Bool) : bit (cancelWord mode arm) 4 = arm := by
  cases arm <;> simp [cancelWord, bit, flagAt, at']

theorem cancelWord_cancels (mode : Word) (arm : Bool) : bit (cancelWord mode arm) 8 = true := by
  cases arm <;> simp [cancelWord, bit, flagAt, at']

/-- The cancel, with MODE and ARM written as they stand, changes neither. -/
theorem State.discWrite_cancelWord_time : (s.discWrite (cancelWord s.time.disc.val s.time.arm)).time = { s.time with
    disc := VWord.of (s.time.disc.val &&& 3), utcArmed := false
    utcOff := if s.utcDue then s.time.utcNxt else s.time.utcOff } := by
  have hdue (w : VWord) (b : Bool) :
      ({ s with time := { s.time with disc := w, arm := b } } : State).utcDue = s.utcDue := rfl
  simp only [State.discWrite, cancelWord_mode, cancelWord_arm, cancelWord_cancels, if_true, State.utcCancel_time, hdue]

/-! ### WINMISS (R352, R383) -/

@[simp] theorem satAdd_zero (w : Word) : satAdd w 0 = w := by
  have := w.isLt
  simp [satAdd, Nat.min_eq_right (show w.toNat ≤ 0xFFFF by omega)]

theorem State.countN_events (code inst n : Nat) : (s.countN code inst n).events =
    if n = 0 then s.events
    else Table.put EvCell.zero s.events (evKey code inst) { s.ev code inst with cnt := satAdd (s.ev code inst).cnt n } := by
  rw [State.countN, apply_ite State.events]
  rfl

/-- A table that has taken a count differs from the one before at the cell counted alone (R383). -/
theorem State.counted_of_events {t : State} {code inst n : Nat} (hwf : s.eventsWf)
    (h : t.events = (s.countN code inst n).events) : s.counted t code inst n := by
  rw [State.countN_events] at h
  by_cases hn : n = 0
  · simp [State.counted, State.ev, h, hn]
  · rw [if_neg hn] at h
    have hsame : t.ev code inst = { s.ev code inst with cnt := satAdd (s.ev code inst).cnt n } := by
      rw [State.ev, h, Table.get_put _ _ _ _ hwf]
    refine ⟨by rw [hsame], by rw [hsame], fun c i hne => ?_⟩
    rw [State.ev, h, Table.get_put_ne _ _ _ _ _ hne, State.ev]

/-- A move of the view counts WINMISS for the windows that it passes. -/
theorem State.setUtcOff_counted (v : Word) (hwf : s.eventsWf) : s.counted (s.setUtcOff v) Ev.winmiss 0
    (s.wins.toList.filter fun x => x.missed (clampView s.view) (clampView (s.setUtcOff v).view)).length := by
  apply s.counted_of_events hwf
  simp only [State.setUtcOff, State.countMissed, State.evalWindows_events, State.evalWindows_view, State.countN_view,
    State.countN_events]
  rfl

/-- The windows that a write of UTCOFF passes are those as the view that has stood until then left them (log 44). -/
theorem State.utcoffWrite_counted (v : Word) (hwf : s.eventsWf) (hdue : s.utcDue = false) :
    s.counted (s.utcoffWrite v) Ev.winmiss 0 (s.evalWindows.wins.toList.filter fun x =>
      x.missed (clampView s.view) (clampView (s.utcoffWrite v).view)).length := by
  have hwf' : s.evalWindows.eventsWf := by simpa [State.eventsWf] using hwf
  rw [s.utcoffWrite_of_notDue v hdue]
  simpa [State.counted, State.ev] using s.evalWindows.setUtcOff_counted v hwf'

theorem State.pathFrame.evalWindows_wins {s u : State} (h : s.pathFrame u) : u.evalWindows.wins = s.evalWindows.wins := by
  obtain ⟨⟨_, _, rfl⟩, -⟩ := h
  simp [State.evalWindows, State.view, State.viewUnits]

/-! ### The commands (R320, R344, R434, R435) -/

theorem State.exec_rateadjWrite {p : Path} (v : BitVec 32) (h : s.mayWrite p .time 2) :
    ∃ u, s.pathFrame u ∧ exec (.rateadjWrite p v) s = .next { u with time := { u.time with rate := v } } := by
  obtain ⟨u, hu, hrow⟩ := s.rowCommit_time h [wordOf v 0, wordOf v 1]
  have hrate : u.timeWrite ⟨p, 66, Bank.time.sel⟩ 2 [wordOf v 0, wordOf v 1] =
      { u with time := { u.time with rate := join2 (wordOf v 0) (wordOf v 1) } } := rfl
  rw [join2_wordOf] at hrate
  exact ⟨u, hu, congrArg Host.Outcome.next (hrow.trans hrate)⟩

theorem State.exec_utcoffWrite {p : Path} (v : Word) (h : s.mayWrite p .time 0x0F) :
    ∃ u, s.pathFrame u ∧ exec (.utcoffWrite p v) s = .next (u.utcoffWrite v) := by
  obtain ⟨u, hu, hrow⟩ := s.rowCommit_time h [v]
  exact ⟨u, hu, congrArg Host.Outcome.next hrow⟩

theorem State.exec_utcChangeArm {p : Path} (a : BitVec 48) (h : s.mayWrite p .time 0x11) :
    ∃ u, s.pathFrame u ∧ exec (.utcChangeArm p a) s = .next (u.utcArm a) := by
  obtain ⟨u, hu, hrow⟩ := s.rowCommit_time h [wordOf a 0, wordOf a 1, wordOf a 2]
  have harm : u.timeWrite ⟨p, 81, Bank.time.sel⟩ 0x11 [wordOf a 0, wordOf a 1, wordOf a 2] =
      u.utcArm (join3 (wordOf a 0) (wordOf a 1) (wordOf a 2)) := rfl
  rw [join3_wordOf] at harm
  exact ⟨u, hu, congrArg Host.Outcome.next (hrow.trans harm)⟩

theorem State.exec_utccan {p : Path} (h : s.mayWrite p .time 0) :
    ∃ u, s.pathFrame u ∧ exec (.utccan p) s = .next (u.discWrite (cancelWord u.time.disc.val u.time.arm)) := by
  obtain ⟨u, hu, hrow⟩ := s.rowCommit_time h [cancelWord s.time.disc.val s.time.arm]
  refine ⟨u, hu, ?_⟩
  rw [hu.time]
  exact congrArg Host.Outcome.next hrow

theorem State.exec_utcoffChange (h : s.powered = true) : exec .utcoffChange s = .next s.applyUtc :=
  congrArg Host.Outcome.next (if_pos h)

end Sys2Proof.Machine

open Sys2Proof Sys2Proof.Machine

/-- Settles O50: each write is its register's operation on the state that its commit meets, which keeps a host command's frame. -/
theorem rateAndUtc : Obligations.RateAndUtc := by
  unfold Obligations.RateAndUtc
  intro p s
  refine ⟨fun v h => ?_, fun v h => ?_, fun a h => ?_, fun h => ?_, fun hpow hdue => ?_, fun hpow hdue => ?_⟩
  · obtain ⟨u, hu, hexec⟩ := s.exec_rateadjWrite v h
    refine ⟨_, hexec, ?_⟩
    obtain ⟨⟨_, _, rfl⟩, hcore⟩ := hu
    exact ⟨rfl, hcore⟩
  · obtain ⟨u, hu, hexec⟩ := s.exec_utcoffWrite v h
    refine ⟨_, hexec, ?_, hu.hostFrame (u.utcoffWrite_timeFrame v), fun hdue hwf => ?_⟩
    · rw [u.utcoffWrite_time, hu.time, hu.utcDue]
    · rw [← hu.evalWindows_wins, ← hu.view]
      exact hu.counted (u.utcoffWrite_counted v (by rwa [State.eventsWf, hu.events]) (hu.utcDue ▸ hdue))
  · obtain ⟨u, hu, hexec⟩ := s.exec_utcChangeArm a h
    refine ⟨_, hexec, ?_, hu.hostFrame (u.utcArm_timeFrame a)⟩
    rw [u.utcArm_time, hu.time, hu.utcDue]
  · obtain ⟨u, hu, hexec⟩ := s.exec_utccan h
    refine ⟨_, hexec, ?_, hu.hostFrame (u.discWrite_timeFrame _)⟩
    rw [u.discWrite_cancelWord_time, hu.time, hu.utcDue]
  · refine ⟨_, s.exec_utcoffChange hpow, ?_⟩
    have htime : s.applyUtc.time = { s.time with utcOff := s.time.utcNxt, utcArmed := false } := by
      simp [s.applyUtc_time, hdue]
    rw [← htime]
    exact s.applyUtc_timeFrame
  · rw [s.exec_utcoffChange hpow, s.applyUtc_of_notDue hdue]

end

section
/-!
SUPPORT, O54 and O60. Counters that a write of 0 clears (R453), and Pn:PSTS, which a write does not reach (R456).

First what a posted write that lands at once acts on once its checks have passed, as for a core commit above. Then that an
operation which acts alike on the state a command meets and on that state with its staging, acknowledge and word address
changed keeps the frame of a host command. Last, the word that a bank write names.
-/

namespace Sys2Proof.Machine

variable (s : State)

/-! ### What a command's frame leaves of the paths (R363, R372) -/

theorem State.pathFrame.busy {s u : State} (h : s.pathFrame u) (p : Path) : (u.path p).busy = (s.path p).busy := by
  have hposted := congrArg PathSt.posted (h.2 p)
  exact congrArg (fun l : List Posted => l.any fun w => !w.quiet) hposted

theorem State.pathFrame.bankSel {s u : State} (h : s.pathFrame u) (p : Path) :
    (u.path p).bankSel = (s.path p).bankSel :=
  (congrArg PathSt.bankSel (h.2 p) :)

theorem State.pathFrame.noReads {s u : State} (h : s.pathFrame u) (hs : s.noReads) : u.noReads := fun p =>
  (congrArg PathSt.readWait (h.2 p) :).trans (hs p)

theorem State.pathFrame.landsNow {s u : State} (h : s.pathFrame u) {p : Path} {b : Bank} {off : Nat}
    (hl : s.landsNow p b off) : u.landsNow p b off := by
  obtain ⟨hmay, hbusy, hclock⟩ := hl
  refine ⟨h.mayWrite hmay, (h.busy p).trans hbusy, ?_⟩
  obtain ⟨⟨_, _, rfl⟩, -⟩ := h
  exact hclock

/-- Where no read waits, none is answered. -/
theorem State.answerReads_of_noReads (h : s.noReads) : s.answerReads = s := by
  have hnone (p : Path) : s.answerRead p = s := by simp [State.answerRead, h p]
  rw [State.answerReads, hnone, hnone]

/-! ### A posted write that lands at once (R368, R376) -/

theorem State.landPosted_of_mayWrite {acc : Access} {b : Bank} {off : Nat} (h : s.mayWrite acc.p b off)
    (hone : b.stages (off + 1) = false) (v : Word) (hi : Option Word) :
    s.landPosted acc b off v hi = s.effect acc b off [v] := by
  obtain ⟨⟨-, hfatal⟩, hrefusal, hlock⟩ := h
  simp [State.landPosted, s.lockRead_of_agrees hlock, hfatal, hrefusal, State.unstageOther, State.postedWords, hone]

/-- A posted command of a word that takes no higher word along takes effect, and then the reads are answered. -/
theorem State.rowPost_of_landsNow {p : Path} {b : Bank} {off : Nat} (h : s.landsNow p b off)
    (hone : b.stages (off + 1) = false) (v : Word) :
    ∃ u, s.pathFrame u ∧ s.rowPost p b off v = (u.effect ⟨p, 64 + off, b.sel⟩ b off [v]).answerReads := by
  have hacked := s.acked_pathFrame p (64 + off)
  obtain ⟨hmay, hbusy, hclock⟩ := hacked.landsNow h
  have hland := State.landPosted_of_mayWrite _ (acc := ⟨p, 64 + off, b.sel⟩) hmay hone v none
  refine ⟨_, hacked, ?_⟩
  simp only [State.rowPost, hmay.1.1, hbusy, hclock, hland, Bool.not_true, Bool.false_eq_true, if_false, if_true]

@[simp] theorem Bank.stages_port (n : PId) (off : Nat) : (Bank.port n).stages off = false := by
  simp [Bank.stages]

/-! ### Operations that commute with a command's frame -/

theorem State.pathFrame.modQu {s u : State} (h : s.pathFrame u) (q : QId) (g : Queue → Queue) :
    (s.modQu q g).pathFrame (u.modQu q g) := by
  obtain ⟨⟨_, _, rfl⟩, hcore⟩ := h
  exact ⟨⟨_, _, rfl⟩, fun r => by simpa using hcore r⟩

theorem State.pathFrame.modPo {s u : State} (h : s.pathFrame u) (n : PId) (g : Port → Port) :
    (s.modPo n g).pathFrame (u.modPo n g) := by
  obtain ⟨⟨_, _, rfl⟩, hcore⟩ := h
  exact ⟨⟨_, _, rfl⟩, fun r => by simpa using hcore r⟩

/-- The frame of a host command holds of `u`, whose paths are those of `s`, changed by what every host command may change. -/
theorem State.pathFrame.hostFrame_of_path {s t u : State} (h : u.pathFrame t) (hpath : ∀ r, u.path r = s.path r) :
    s.hostFrame t u := by
  obtain ⟨⟨_, _, rfl⟩, hcore⟩ := h
  exact ⟨rfl, fun r => by rw [hcore r, hpath r]⟩

/-! ### Counters that a write of 0 clears (R453) -/

/-- An operation that only a 0 asks for, of a register that no path holds, keeps the frame of a host command. -/
theorem State.pathFrame.hostFrame_of_zero {s u : State} {f : State → State} (h : s.pathFrame u)
    (hop : (f s).pathFrame (f u)) (hpath : ∀ r, (f s).path r = s.path r) (v : Word) :
    s.hostFrame (if v = 0 then f u else u) (if v = 0 then f s else s) := by
  split
  · exact hop.hostFrame_of_path hpath
  · exact h.hostFrame_of_path fun _ => rfl

theorem State.rowCommit_qevt {p : Path} {q : QId} (v : Word) (h : s.mayWrite p (.queue q) 0x1B) :
    ∃ u, s.pathFrame u ∧ s.rowCommit p (.queue q) 0x1B [v] =
      if v = 0 then u.modQu q fun x => { x with disc := 0 } else u :=
  s.rowCommit_of_mayWrite h [v]

/-- A word of a port of which only a 0 acts, written where it lands at once. -/
theorem State.rowPost_port_of_zero {p : Path} {n : PId} {off : Nat} {g : Port → Port} {v : Word} (hs : s.noReads)
    (h : s.landsNow p (.port n) off)
    (heffect : ∀ u : State, u.portWrite n off v = if v = 0 then u.modPo n g else u) :
    ∃ u, s.pathFrame u ∧ s.rowPost p (.port n) off v = if v = 0 then u.modPo n g else u := by
  obtain ⟨u, hu, hrow⟩ := s.rowPost_of_landsNow h (by simp) v
  have hquiet : (if v = 0 then u.modPo n g else u).noReads := by
    have hreads := hu.noReads hs
    split
    · exact fun r => by simpa using hreads r
    · exact hreads
  exact ⟨u, hu, hrow.trans ((congrArg State.answerReads (heffect u)).trans (State.answerReads_of_noReads _ hquiet))⟩

theorem State.hostFrame_port_of_zero {p : Path} {n : PId} {off : Nat} {g : Port → Port} {v : Word} (hs : s.noReads)
    (h : s.landsNow p (.port n) off)
    (heffect : ∀ u : State, u.portWrite n off v = if v = 0 then u.modPo n g else u) :
    s.hostFrame (s.rowPost p (.port n) off v) (if v = 0 then s.modPo n g else s) := by
  obtain ⟨u, hu, hrow⟩ := s.rowPost_port_of_zero hs h heffect
  rw [hrow]
  exact hu.hostFrame_of_zero (f := fun s => s.modPo n g) (hu.modPo n g) (by simp) v

/-! ### The word that a bank write names (R354, R355, R373) -/

theorem bankAt_sel (b : Bank) : bankAt b.sel = some b := by
  cases b with
  | queue q => simp [bankAt, Bank.sel, q.isLt]
  | port n => revert n; decide
  | yard hi => revert hi; decide
  | chan c => revert c; decide
  | tset c setB => revert c setB; decide
  | phy c => revert c; decide
  | time | cal | win | azl | land | evt | gov | ident => rfl

theorem State.target_of_bankSel {p : Path} {b : Bank} (off : Nat) (h : (s.path p).bankSel.toNat = b.sel) :
    s.target p (64 + off) = .banked b off := by
  simp [State.target, h, bankAt_sel]

/-- Pn:PSTS is a copy in the core, and a write of it does nothing there. -/
theorem State.bankWrite_psts (acc : Access) (n : PId) (v : Word) : s.bankWrite acc (.port n) 2 v = s := rfl

theorem State.busWrite_psts {p : Path} {n : PId} (v : Word) (hw : s.writable p = true)
    (hsel : (s.path p).bankSel.toNat = (Bank.port n).sel) : s.busWrite p 66 v = s := by
  simp only [State.busWrite, hw, Bool.not_true, Bool.false_eq_true, if_false]
  rw [s.target_of_bankSel 2 hsel]
  exact s.bankWrite_psts _ n v

end Sys2Proof.Machine

open Sys2Proof Sys2Proof.Machine

/-- Settles O54: the bus write names the core's copy of Pn:PSTS, which a write leaves as it is. -/
theorem pstsWriteIgnored : Obligations.PstsWriteIgnored := by
  unfold Obligations.PstsWriteIgnored
  intro p n v s hw hsel
  have hacked := s.acked_pathFrame p 66
  have hsel' : ((s.acked p 66).path p).bankSel.toNat = (Bank.port n).sel := by rw [hacked.bankSel, hsel]; rfl
  exact congrArg Host.Outcome.next (State.busWrite_psts _ v ((hacked.writable p).trans hw) hsel')

/-- Settles O60: each write, where its checks have passed, clears its counter for a 0 and does nothing for another value,
on the state that its commit meets. -/
theorem countersClear : Obligations.CountersClear := by
  unfold Obligations.CountersClear
  intro p v s hs
  refine ⟨fun q h => ?_, fun n h => ?_, fun n h => ?_⟩
  · obtain ⟨u, hu, hrow⟩ := s.rowCommit_qevt v h
    exact ⟨_, congrArg Host.Outcome.next hrow, hu.hostFrame_of_zero (f := fun s => s.modQu q _) (hu.modQu q _) (by simp) v⟩
  · exact ⟨_, rfl, s.hostFrame_port_of_zero hs h fun _ => rfl⟩
  · exact ⟨_, rfl, s.hostFrame_port_of_zero hs h fun _ => rfl⟩

end

section
/-!
SUPPORT and O46. Link resets, AZL:ACFG, AZL:AINQ and the twin's WSYNC lines (R300, R301, R480 to R482).

First a host's commit of a word that stands alone, on the bus. Then each operation of the link once: what it leaves of the two
ends, and that a commit of it does the same to the state that the command met.
-/

namespace Sys2Proof.Machine

variable (s : State)

/-! ### A core word that stands alone, written on the bus (R354, R375) -/

theorem State.bankWrite_of_mayWrite {acc : Access} {b : Bank} {off : Nat} (h : s.mayWrite acc.p b off)
    (hcore : b.posted off = false) (hport : ∀ n, b ≠ .port n) (hhas : b.has off = true)
    (halone : b.group off = (off, 1)) (v : Word) :
    s.bankWrite acc b off v = (s.unstage acc.p b off (s.rangeRefused b off [v])).effect acc b off [v] := by
  have hwrite : s.bankWrite acc b off v = s.coreWrite acc b off v := by
    cases b with
    | port n => exact absurd rfl (hport n)
    | _ => simp [State.bankWrite, hcore, hhas]
  have hstages : b.stages off = false := by simp [Bank.stages, halone]
  have hwords : s.commitWords acc.p b off v = [v] := by simp [State.commitWords, halone]
  obtain ⟨⟨-, hfatal⟩, -, -⟩ := id h
  rw [hwrite, State.coreWrite, hfatal, hstages, hwords]
  exact s.commit_of_mayWrite h [v]

theorem State.busWrite_of_mayWrite {p : Path} {b : Bank} {off : Nat} (h : s.mayWrite p b off)
    (hsel : (s.path p).bankSel.toNat = b.sel) (hcore : b.posted off = false) (hport : ∀ n, b ≠ .port n)
    (hhas : b.has off = true) (halone : b.group off = (off, 1)) (v : Word) :
    ∃ u, s.pathFrame u ∧ (s.acked p (64 + off)).busWrite p (64 + off) v = u.effect ⟨p, 64 + off, b.sel⟩ b off [v] := by
  have hacked := s.acked_pathFrame p (64 + off)
  have hmay := hacked.mayWrite h
  have hsel' : ((s.acked p (64 + off)).path p).bankSel.toNat = b.sel := by rw [hacked.bankSel, hsel]
  have hbank := State.bankWrite_of_mayWrite _ (acc := ⟨p, 64 + off, b.sel⟩) hmay hcore hport hhas halone v
  refine ⟨_, hacked.trans (State.unstage_pathFrame _ p b off _), .trans ?_ hbank⟩
  simp only [State.busWrite, hmay.1.1, State.target_of_bankSel _ off hsel', hsel', Bool.not_true, Bool.false_eq_true, if_false]

/-! ### Frames -/

theorem State.running_of_hostWrites {p : Path} (h : s.hostWrites p) : s.running = true := by
  obtain ⟨hwritable, hfatal⟩ := h
  have hhost : s.hostOn = true := (Bool.and_eq_true _ _ ▸ hwritable).2
  simp [State.running, hhost, hfatal]

theorem State.pathFrame.running {s u : State} (h : s.pathFrame u) : u.running = s.running := by
  obtain ⟨⟨_, _, rfl⟩, -⟩ := h
  rfl

theorem State.pathFrame.setAzl {s u : State} (h : s.pathFrame u) (x : Azl) :
    ({ s with azl := x } : State).pathFrame { u with azl := x } := by
  obtain ⟨⟨_, _, rfl⟩, hcore⟩ := h
  exact ⟨⟨_, _, rfl⟩, hcore⟩

theorem State.pathFrame.hostFrame_of_azl {s t : State} {x : Azl} (h : ({ s with azl := x } : State).pathFrame t) :
    s.hostFrame t { s with azl := x } :=
  h.hostFrame_of_path fun _ => rfl

/-- An evaluation of the Scaler after a host command stays within its frame. -/
theorem State.hostFrame.scaleAll {s t u : State} (h : s.hostFrame t u) : s.hostFrame t.scaleAll u := by
  obtain ⟨hbare, hcore⟩ := h
  exact ⟨by simpa using hbare, by simpa using hcore⟩

theorem State.hostFrame.azl {s t u : State} (h : s.hostFrame t u) : t.azl = u.azl := (congrArg State.azl h.1 :)

/-! ### Link resets (R301, R482) -/

/-- Neither the seal nor a lock stands against a write of AZL:ACMD. -/
theorem State.mayWrite_acmd {p : Path} (h : s.hostWrites p) : s.mayWrite p .azl 2 :=
  ⟨h, rfl, nofun⟩

/-- The link with the ends named taken to TRAIN. -/
def Azl.train (x : Azl) (out inn : Bool) : Azl :=
  { x with out := if out then x.out.toTrain else x.out, inn := if inn then x.inn.toTrain else x.inn }

/-- In a part that runs, a link reset takes each end that it names and that is enabled to TRAIN. -/
theorem State.linkReset_of_running (h : s.running = true) (out inn : Bool) :
    s.linkReset out inn = { s with azl := s.azl.train (out && s.outEnabled) (inn && s.inEnabled) } := by
  have hset (x : OutLink) : (s.setOut x).running = s.running ∧ (s.setOut x).inEnabled = s.inEnabled := ⟨rfl, rfl⟩
  unfold State.linkReset
  cases out && s.outEnabled <;> cases hin : inn && s.inEnabled <;> simp [h, hset, hin] <;> rfl

theorem State.pathFrame.linkReset {s u : State} (h : s.pathFrame u) (hrun : s.running = true) (out inn : Bool) :
    ({ s with azl := s.azl.train (out && s.outEnabled) (inn && s.inEnabled) } : State).pathFrame (u.linkReset out inn) := by
  rw [u.linkReset_of_running (h.running.trans hrun)]
  obtain ⟨⟨_, _, rfl⟩, -⟩ := id h
  exact h.setAzl _

theorem State.rowCommit_acmd {p : Path} (h : s.hostWrites p) (w : Word) : s.hostFrame (s.rowCommit p .azl 2 [w])
    { s with azl := s.azl.train (bit w 0 && s.outEnabled) (bit w 1 && s.inEnabled) } := by
  obtain ⟨u, hu, hrow⟩ := s.rowCommit_of_mayWrite (s.mayWrite_acmd h) [w]
  rw [hrow]
  exact (hu.linkReset (s.running_of_hostWrites h) _ _).hostFrame_of_azl

theorem State.rowCommit_rstout {p : Path} (h : s.hostWrites p) {on : Bool} (hon : s.outEnabled = on) :
    s.hostFrame (s.rowCommit p .azl 2 [1]) { s with azl := s.azl.train on false } := by
  subst hon
  exact s.rowCommit_acmd h 1

theorem State.rowCommit_rstin {p : Path} (h : s.hostWrites p) {on : Bool} (hon : s.inEnabled = on) :
    s.hostFrame (s.rowCommit p .azl 2 [2]) { s with azl := s.azl.train false on } := by
  subst hon
  exact s.rowCommit_acmd h 2

theorem State.busWrite_acmd {p : Path} (h : s.hostWrites p) (hsel : (s.path p).bankSel = 0x30) (w : Word) :
    s.hostFrame ((s.acked p 66).busWrite p 66 w)
      { s with azl := s.azl.train (bit w 0 && s.outEnabled) (bit w 1 && s.inEnabled) } := by
  obtain ⟨u, hu, hrow⟩ := s.busWrite_of_mayWrite (s.mayWrite_acmd h) (by rw [hsel]; rfl) rfl nofun rfl rfl w
  rw [hrow]
  exact (hu.linkReset (s.running_of_hostWrites h) _ _).hostFrame_of_azl

/-! ### AZL:ACFG and AZL:AINQ (R480, R481) -/

/-- AZL:ACFG as its commit leaves it, before either end follows. -/
def State.acfgSet (s : State) (v : Word) : State := { s with azl := { s.azl with acfg := VWord.of (v &&& 0x33) } }

/-- The sender after a commit of AZL:ACFG: DOWN where it is no longer enabled, in TRAIN where its RATE changed while UP. -/
def State.acfgOut (s : State) (v : Word) : OutLink :=
  if !(s.acfgSet v).outEnabled then s.azl.out.toDown none
  else if bit s.azl.acfg.val 0 && min 2 (fld s.azl.acfg.val 4 2) != min 2 (fld v 4 2) && s.azl.out.st == .up then
    s.azl.out.toTrain
  else s.azl.out

/-- The receiver after a commit of AZL:ACFG: DOWN where it is no longer enabled. -/
def State.acfgIn (s : State) (v : Word) : InLink :=
  if !(s.acfgSet v).inEnabled then s.azl.inn.toDown none else s.azl.inn

theorem State.acfgCommit_eq (v : Word) : s.acfgCommit v =
    { s with azl := { s.azl with acfg := VWord.of (v &&& 0x33), out := s.acfgOut v, inn := s.acfgIn v } } := by
  have hout : (s.acfgSet v).setOut (s.acfgOut v) =
      if !(s.acfgSet v).outEnabled then (s.acfgSet v).setOut (s.azl.out.toDown none)
      else if bit s.azl.acfg.val 0 && min 2 (fld s.azl.acfg.val 4 2) != min 2 (fld v 4 2) && s.azl.out.st == .up then
        (s.acfgSet v).setOut s.azl.out.toTrain
      else s.acfgSet v := by
    rw [State.acfgOut, apply_ite (s.acfgSet v).setOut, apply_ite (s.acfgSet v).setOut]
    rfl
  have hin (t : State) (h : t.azl.inn = s.azl.inn) (hon : t.inEnabled = (s.acfgSet v).inEnabled) :
      (if !t.inEnabled then t.setIn (t.azl.inn.toDown none) else t) = t.setIn (s.acfgIn v) := by
    rw [State.acfgIn, apply_ite t.setIn, ← h, hon]
    rfl
  rw [State.acfgCommit]
  exact (congrArg (fun t : State => if !t.inEnabled then t.setIn (t.azl.inn.toDown none) else t) hout.symm).trans
    (hin _ rfl rfl)

theorem State.acfgSet_outEnabled (v : Word) : (s.acfgSet v).outEnabled = (bit v 0 && !s.strapsBad) := by
  have hbit : bit (v &&& 0x33) 0 = bit v 0 := by simp [bit]
  simp only [State.outEnabled, State.acfgSet, VWord.of_val, hbit]
  rfl

theorem State.acfgOut_of_cleared {v : Word} (h : bit v 0 = false) : s.acfgOut v = s.azl.out.toDown none := by
  simp [State.acfgOut, s.acfgSet_outEnabled, h]

theorem State.acfgIn_of_cleared {v : Word} (h : bit v 1 = false) : s.acfgIn v = s.azl.inn.toDown none := by
  have hbit : bit (v &&& 0x33) 1 = bit v 1 := by simp [bit]
  have hoff : (s.acfgSet v).inEnabled = false := by
    simp only [State.inEnabled, State.acfgSet, VWord.of_val, hbit, h, Bool.false_and]
  simp [State.acfgIn, hoff]

/-- A commit that leaves the sender enabled changes it only where it was enabled, UP and of another RATE. -/
theorem State.acfgOut_of_kept {v : Word} (hstraps : s.strapsBad = false) (hon : bit v 0 = true)
    (h : fld s.azl.acfg.val 4 2 = fld v 4 2 ∨ bit s.azl.acfg.val 0 = false ∨ s.azl.out.st ≠ .up) :
    s.acfgOut v = s.azl.out := by
  have hrate : (bit s.azl.acfg.val 0 && min 2 (fld s.azl.acfg.val 4 2) != min 2 (fld v 4 2) && s.azl.out.st == .up) =
      false := by
    rcases h with h | h | h <;> simp [h]
  simp [State.acfgOut, s.acfgSet_outEnabled, hstraps, hon, hrate]

theorem State.rowCommit_acfg {p : Path} (h : s.mayWrite p .azl 0) (v : Word) : s.hostFrame (s.rowCommit p .azl 0 [v])
    { s with azl := { s.azl with acfg := VWord.of (v &&& 0x33), out := s.acfgOut v, inn := s.acfgIn v } } := by
  obtain ⟨u, hu, hrow⟩ := s.rowCommit_of_mayWrite h [v]
  have heffect : u.effect ⟨p, 64, Bank.azl.sel⟩ .azl 0 [v] = u.acfgCommit v := rfl
  rw [hrow, heffect, u.acfgCommit_eq]
  obtain ⟨⟨_, _, rfl⟩, -⟩ := id hu
  exact (hu.setAzl _).hostFrame_of_azl

theorem State.rowCommit_ainq {p : Path} (h : s.mayWrite p .azl 1) (v : Word) :
    s.hostFrame (s.rowCommit p .azl 1 [v]) { s with azl := { s.azl with ainq := VWord.of v } } := by
  obtain ⟨u, hu, hrow⟩ := s.rowCommit_of_mayWrite h [v]
  have heffect : u.effect ⟨p, 65, Bank.azl.sel⟩ .azl 1 [v] = u.ainqCommit v := rfl
  rw [hrow, heffect]
  obtain ⟨⟨_, _, rfl⟩, -⟩ := id hu
  exact (hu.setAzl _).hostFrame_of_azl.scaleAll

end Sys2Proof.Machine

open Sys2Proof Sys2Proof.Machine

/-- Settles O46: each write is its register's operation on the state that its commit meets. -/
theorem linkResetAndConfiguration : Obligations.LinkResetAndConfiguration := by
  unfold Obligations.LinkResetAndConfiguration
  refine ⟨fun p s h => ?_, fun p v s => ⟨fun h => ?_, fun lines hpow => ?_⟩⟩
  · refine ⟨fun hout => ?_, fun hin => ?_, fun hout => ?_, fun hin => ?_, fun hout hin hsel => ?_, fun v hcfg => ?_⟩
    · exact ⟨_, rfl, s.rowCommit_rstout h hout⟩
    · exact ⟨_, rfl, s.rowCommit_rstin h hin⟩
    · exact ⟨_, rfl, s.rowCommit_rstout h hout⟩
    · exact ⟨_, rfl, s.rowCommit_rstin h hin⟩
    · have hazl := (s.busWrite_acmd h hsel 3).azl
      rw [hout, hin] at hazl
      exact ⟨_, rfl, hazl⟩
    · have hframe := s.rowCommit_acfg hcfg v
      have hazl := hframe.azl
      refine ⟨_, rfl, congrArg Azl.acfg hazl, fun hoff => ?_, fun hoff => ?_, fun hstraps hon hkept => ?_, ?_⟩
      · exact (congrArg Azl.out hazl).trans (s.acfgOut_of_cleared hoff)
      · exact (congrArg Azl.inn hazl).trans (s.acfgIn_of_cleared hoff)
      · exact (congrArg Azl.out hazl).trans (s.acfgOut_of_kept hstraps hon hkept)
      · rw [hazl]
        exact hframe
  · exact ⟨_, rfl, s.rowCommit_ainq h v⟩
  · exact congrArg Host.Outcome.next (if_pos hpow)

end

section
/-!
SUPPORT and O36. RESETKEEP and RESETDROP (R411 to R413, R467, Table 13.3).

First what the parts of a channel reset do to the queues: requests aborted, Boom copies lost, and the jumps past lost billets,
which change nothing where no billet is lost. Then the reset as a whole, and the commands of Yn:YCMD that ask for it.
-/

namespace Sys2Proof.Machine

variable (s : State)

/-! ### Frames -/

/-- `t` is `s` but for its queues and channels, with `n` order stamps taken. -/
def State.storeFrame (s t : State) (n : Nat) : Prop :=
  t = { s with queues := t.queues, chans := t.chans, order := s.order + n }

theorem State.storeFrame_refl : s.storeFrame s 0 := rfl

theorem State.storeFrame.order {s t : State} {n : Nat} (h : s.storeFrame t n) : t.order = s.order + n :=
  (congrArg State.order h :)

theorem State.storeFrame.ports {s t : State} {n : Nat} (h : s.storeFrame t n) : t.ports = s.ports :=
  (congrArg State.ports h :)

theorem State.storeFrame.events {s t : State} {n : Nat} (h : s.storeFrame t n) : t.events = s.events :=
  (congrArg State.events h :)

theorem State.storeFrame.dp {s t : State} {n : Nat} (h : s.storeFrame t n) : t.dp = s.dp :=
  (congrArg State.dp h :)

theorem State.storeFrame.trans {s t u : State} {m n : Nat} (h : s.storeFrame t m) (k : t.storeFrame u n) :
    s.storeFrame u (m + n) := by
  have hlift := congrArg (fun x : State => { x with queues := u.queues, chans := u.chans, order := t.order + n }) h
  rw [h.order, Nat.add_assoc] at hlift
  rw [State.storeFrame, h.order, Nat.add_assoc] at k
  exact k.trans hlift

theorem State.setQu_storeFrame (q : QId) (x : Queue) : s.storeFrame (s.setQu q x) 0 := rfl
theorem State.modQu_storeFrame (q : QId) (g : Queue → Queue) : s.storeFrame (s.modQu q g) 0 := rfl
theorem State.modCh_storeFrame (c : YId) (g : Chan → Chan) : s.storeFrame (s.modCh c g) 0 := rfl
theorem State.nextOrder_storeFrame : s.storeFrame s.nextOrder 1 := rfl

/-- Steps that each stay within the frame do so together. -/
theorem State.foldl_storeFrame {α : Type} {f : State → α → State} (hf : ∀ (t : State) a, t.storeFrame (f t a) 0)
    (l : List α) : s.storeFrame (l.foldl f s) 0 :=
  List.foldlRecOn (motive := fun t => s.storeFrame t 0) l f s.storeFrame_refl fun t ht a _ =>
    State.storeFrame.trans ht (hf t a)

theorem State.scaleAll_storeFrame : s.storeFrame s.scaleAll 0 :=
  s.foldl_storeFrame (fun t q => t.setQu_storeFrame q _) allQ

theorem State.chanChanged_storeFrame : s.storeFrame s.chanChanged 1 :=
  s.nextOrder_storeFrame.trans (State.scaleAll_storeFrame _)

theorem State.pathFrame.ch {s u : State} (h : s.pathFrame u) : u.ch = s.ch := by
  obtain ⟨⟨_, _, rfl⟩, -⟩ := h
  rfl

theorem State.pathFrame.qu {s u : State} (h : s.pathFrame u) : u.qu = s.qu := by
  obtain ⟨⟨_, _, rfl⟩, -⟩ := h
  rfl

theorem State.pathFrame.order {s u : State} (h : s.pathFrame u) : u.order = s.order := by
  obtain ⟨⟨_, _, rfl⟩, -⟩ := h
  rfl

theorem State.pathFrame.ports {s u : State} (h : s.pathFrame u) : u.ports = s.ports := by
  obtain ⟨⟨_, _, rfl⟩, -⟩ := h
  rfl

theorem State.pathFrame.dp {s u : State} (h : s.pathFrame u) : u.dp = s.dp := by
  obtain ⟨⟨_, _, rfl⟩, -⟩ := h
  rfl

/-- A host command that stays within it on the state of its commit keeps the frame of a host command. -/
theorem State.storeFrame.hostFrame {s t u : State} {n : Nat} (h : u.storeFrame t n) (hu : s.pathFrame u) :
    s.hostFrame t { s with chans := t.chans, queues := t.queues, order := s.order + n } := by
  obtain ⟨⟨_, _, rfl⟩, hcore⟩ := hu
  have hpath : ({ s with chans := t.chans, queues := t.queues, order := s.order + n } : State).pathFrame t :=
    ⟨⟨_, _, h⟩, fun r => by rw [h]; exact hcore r⟩
  exact hpath.hostFrame_of_path fun _ => rfl

/-! ### One change for every queue -/

theorem mem_allQ (q : QId) : q ∈ allQ := List.mem_finRange q

theorem State.foldModQu_qu (f : QId → Queue → Queue) (l : List QId) (hl : l.Nodup) (q : QId) :
    (l.foldl (fun s q => s.modQu q (f q)) s).qu q = if q ∈ l then f q (s.qu q) else s.qu q := by
  induction l generalizing s with
  | nil => simp
  | cons k l ih =>
    obtain ⟨hk, hl⟩ := List.nodup_cons.1 hl
    rw [List.foldl_cons, ih _ hl, State.modQu_qu_if]
    by_cases h : q = k
    · subst h
      simp [hk]
    · simp [h]

theorem State.foldModQu_ch (f : QId → Queue → Queue) (l : List QId) (c : YId) :
    (l.foldl (fun s q => s.modQu q (f q)) s).ch c = s.ch c :=
  List.foldlRecOn (motive := fun t : State => t.ch c = s.ch c) l _ rfl fun _ ht _ _ => ht

/-! ### Requests aborted (Table 13.3 step 2) -/

theorem State.abortReqs_storeFrame (c : YId) : s.storeFrame (s.abortReqs c) 0 := by
  have hfold := s.foldl_storeFrame (fun t q => t.modQu_storeFrame q fun x => x.abortOn q (s.ch c).reqs) allQ
  exact hfold.trans (State.modCh_storeFrame _ c fun x => { x with reqs := [] })

theorem State.abortReqs_qu (c : YId) (q : QId) : (s.abortReqs c).qu q = (s.qu q).abortOn q (s.ch c).reqs := by
  rw [State.abortReqs, State.modCh_qu_frame,
    s.foldModQu_qu (fun q x => x.abortOn q (s.ch c).reqs) allQ (List.nodup_finRange 16), if_pos (mem_allQ q)]

theorem State.abortReqs_ch (c : YId) : (s.abortReqs c).ch c = { s.ch c with reqs := [] } := by
  rw [State.abortReqs, State.modCh_ch, s.foldModQu_ch fun q x => x.abortOn q (s.ch c).reqs]

theorem State.abortReqs_ch_ne {c d : YId} (h : d ≠ c) : (s.abortReqs c).ch d = s.ch d := by
  rw [State.abortReqs, State.modCh_ch_ne _ _ _ _ h, s.foldModQu_ch fun q x => x.abortOn q (s.ch c).reqs]

@[simp] theorem Queue.abortOn_w (x : Queue) (q : QId) (l : List Req) : (x.abortOn q l).w = x.w := rfl
@[simp] theorem Queue.abortOn_wcnt (x : Queue) (q : QId) (l : List Req) : (x.abortOn q l).wcnt = x.wcnt := rfl
@[simp] theorem Queue.abortOn_rcnt (x : Queue) (q : QId) (l : List Req) : (x.abortOn q l).rcnt = x.rcnt := rfl
@[simp] theorem Queue.abortOn_held (x : Queue) (q : QId) (l : List Req) : (x.abortOn q l).held = x.held := rfl
@[simp] theorem Queue.abortOn_home (x : Queue) (q : QId) (l : List Req) (n : Nat) :
    (x.abortOn q l).home n = x.home n := rfl

/-- A billet whose requests are aborted. -/
def Billet.abort (b : Billet) (spill refill : Bool) : Billet :=
  if spill then { b with spilling := false } else if refill then { b with refill := none, frame := false } else b

@[simp] theorem Billet.abort_lost (b : Billet) (spill refill : Bool) : (b.abort spill refill).lost = b.lost := by
  cases spill <;> cases refill <;> rfl

/-- A request of list `l`, no orphan, of kind `k` for billet `b` of queue `q`. -/
def reqFor (q : QId) (l : List Req) (k : ReqKind) (b : Billet) : Bool :=
  l.any fun r => r.q == q && r.num == b.num && !r.orphan && r.kind == k

theorem Queue.abortOn_billets (x : Queue) (q : QId) (l : List Req) :
    (x.abortOn q l).billets = x.billets.map fun b => b.abort (reqFor q l .spill b) (reqFor q l .refill b) := rfl

/-- No billet is lost as its requests are aborted (R411). -/
theorem Queue.abortOn_lost (x : Queue) (q : QId) (l : List Req) :
    (x.abortOn q l).billets.map (·.lost) = x.billets.map (·.lost) := by
  simp [Queue.abortOn_billets, Function.comp_def]

/-! ### What goes from a queue as it jumps past lost billets (Table 7.2, R414) -/

/-- `y` is `x` with billets gone and Boom copies gone: what has been written and read, and the map, are as they were. -/
structure Queue.Sheds (x y : Queue) : Prop where
  w : y.w = x.w
  wcnt : y.wcnt = x.wcnt
  rcnt : y.rcnt = x.rcnt
  map : y.map = x.map
  billets : ∀ b ∈ y.billets, ∃ a ∈ x.billets, a.num = b.num ∧ (b.boom = true → a.boom = true)

theorem Queue.sheds_refl (x : Queue) : x.Sheds x := ⟨rfl, rfl, rfl, rfl, fun b hb => ⟨b, hb, rfl, id⟩⟩

theorem Queue.Sheds.trans {x y z : Queue} (h : x.Sheds y) (k : y.Sheds z) : x.Sheds z where
  w := k.w.trans h.w
  wcnt := k.wcnt.trans h.wcnt
  rcnt := k.rcnt.trans h.rcnt
  map := k.map.trans h.map
  billets b hb := by
    obtain ⟨a, ha, hnum, hboom⟩ := k.billets b hb
    obtain ⟨d, hd, hnum', hboom'⟩ := h.billets a ha
    exact ⟨d, hd, hnum'.trans hnum, hboom' ∘ hboom⟩

/-- A change of the billets one by one, none of which it gives a Boom copy. -/
theorem Queue.sheds_mapBillets (x : Queue) {g : Billet → Billet}
    (hg : ∀ b, (g b).num = b.num ∧ ((g b).boom = true → b.boom = true)) :
    x.Sheds { x with billets := x.billets.map g } where
  w := rfl
  wcnt := rfl
  rcnt := rfl
  map := rfl
  billets b hb := by
    obtain ⟨a, ha, rfl⟩ := List.mem_map.1 hb
    obtain ⟨hnum, hboom⟩ := hg a
    exact ⟨a, ha, hnum.symm, hboom⟩

theorem Queue.sheds_dropLanding (x : Queue) (nums : List Nat) : x.Sheds (x.dropLanding nums) :=
  ⟨rfl, rfl, rfl, rfl, x.sheds_refl.billets⟩

theorem Queue.sheds_freePassed (x : Queue) : x.Sheds x.freePassed := by
  unfold Queue.freePassed
  dsimp only
  split
  · exact x.sheds_refl
  · refine (x.sheds_mapBillets fun b => ?_).trans (Queue.sheds_dropLanding _ _)
    split <;> exact ⟨rfl, id⟩

theorem Queue.sheds_loseOn (x : Queue) (c : YId) : x.Sheds (x.loseOn c) :=
  x.sheds_mapBillets fun b => by split <;> simp

theorem Queue.sheds_jump (x : Queue) (t : Nat) : x.Sheds (x.jump t) := by
  unfold Queue.jump
  dsimp only
  split <;> exact ⟨rfl, rfl, rfl, rfl, x.sheds_refl.billets⟩

/-- `t` is `s` with billets and Boom copies gone from its queues, a channel without requests as it was. -/
structure State.Sheds (s t : State) : Prop where
  frame : s.storeFrame t 0
  idle : ∀ c, (s.ch c).reqs = [] → t.ch c = s.ch c
  queue : ∀ q, (s.qu q).Sheds (t.qu q)

theorem State.sheds_refl : s.Sheds s := ⟨rfl, fun _ _ => rfl, fun q => (s.qu q).sheds_refl⟩

theorem State.Sheds.trans {s t u : State} (h : s.Sheds t) (k : t.Sheds u) : s.Sheds u where
  frame := h.frame.trans k.frame
  idle c hc := by
    have hch := h.idle c hc
    exact (k.idle c (by rw [hch, hc])).trans hch
  queue q := (h.queue q).trans (k.queue q)

theorem State.sheds_setQu {q : QId} {x : Queue} (h : (s.qu q).Sheds x) : s.Sheds (s.setQu q x) where
  frame := s.setQu_storeFrame q x
  idle _ _ := rfl
  queue r := by
    by_cases hr : r = q
    · subst hr
      simpa using h
    · rw [s.setQu_qu_ne q r x hr]
      exact (s.qu r).sheds_refl

/-- Requests of a queue becoming orphans touch no channel that has none. -/
theorem State.sheds_orphan (q : QId) (y : Queue) (nums : List Nat) :
    s.Sheds { s with chans := vmap (Chan.orphan q y nums) s.chans } where
  frame := rfl
  idle c hc := by
    have hch : ({ s with chans := vmap (Chan.orphan q y nums) s.chans } : State).ch c = (s.ch c).orphan q y nums := by
      simp [State.ch]
    rw [hch, Chan.orphan, hc, List.map_nil, ← hc]
  queue r := (s.qu r).sheds_refl

theorem State.sheds_settle (q : QId) : s.Sheds (s.settle q) := by
  unfold State.settle
  extract_lets x h k n gone nums y x' nums' s'
  have hy : x.Sheds y := by
    dsimp only [y]
    split <;> exact ⟨rfl, rfl, rfl, rfl, x.sheds_refl.billets⟩
  have hybillets : y.billets = x.billets := by
    dsimp only [y]
    split <;> rfl
  have hx' : y.Sheds x' := ⟨rfl, rfl, rfl, rfl, fun b hb => ⟨b, hybillets ▸ List.mem_of_mem_drop hb, rfl, id⟩⟩
  have hs' : s.Sheds s' := s.sheds_setQu ((hy.trans hx').trans x'.sheds_freePassed)
  split
  · exact hs'
  · exact hs'.trans (s'.sheds_orphan q x nums')

theorem State.sheds_jumpN (n : Nat) (q : QId) : s.Sheds (s.jumpN n q) := by
  induction n generalizing s with
  | zero => exact s.sheds_refl
  | succ n ih =>
    rw [State.jumpN]
    split
    · exact s.sheds_refl
    next t _ => exact ((s.sheds_setQu ((s.qu q).sheds_jump t)).trans (State.sheds_settle _ q)).trans (ih _)

theorem State.sheds_jumpLost (q : QId) : s.Sheds (s.jumpLost q) := s.sheds_jumpN _ q

/-! ### A jump of one queue leaves the others -/

theorem State.settle_qu_ne {q r : QId} (h : r ≠ q) : (s.settle q).qu r = s.qu r := by
  unfold State.settle
  extract_lets x h k n gone nums y x' nums' s'
  have hs' : s'.qu r = s.qu r := s.setQu_qu_ne q r _ ‹_›
  split <;> exact hs'

theorem State.jumpN_qu_ne (n : Nat) {q r : QId} (h : r ≠ q) : (s.jumpN n q).qu r = s.qu r := by
  induction n generalizing s with
  | zero => rfl
  | succ n ih =>
    rw [State.jumpN]
    split
    · rfl
    · rw [ih, State.settle_qu_ne _ h, s.modQu_qu_ne q r _ h]

/-! ### Without a lost billet there is no jump (R414, R416) -/

theorem Queue.lostAt_of_noLost {x : Queue} (h : x.noLost) (o : Nat) : x.lostAt o = false := by
  unfold Queue.lostAt
  split
  next b hb => exact h b (List.mem_of_getElem? hb)
  next => rfl

theorem Queue.segLost_of_noLost {x : Queue} (h : x.noLost) (g : Seg) : x.segLost g = false := by
  have hnone : ∀ b ∈ x.billets, ¬b.lost = true := fun b hb => by simp [h b hb]
  exact List.any_eq_false.2 fun b hb => hnone b (List.mem_of_mem_drop (List.mem_of_mem_take hb))

theorem Queue.walkLost_of_noLost {x : Queue} (h : x.noLost) (gs : List Seg) (o : Int) : x.walkLost gs o = o := by
  cases gs with
  | nil => rfl
  | cons g gs => simp [Queue.walkLost, Queue.segLost_of_noLost h g]

theorem Queue.jumpTo_of_noLost {x : Queue} (h : x.noLost) (seg : Bool) : x.jumpTo seg = none := by
  unfold Queue.jumpTo
  simp only [Queue.lostAt_of_noLost h, Queue.walkLost_of_noLost h]
  split
  · simp
  · split <;> simp

theorem State.jumpLost_of_noLost {q : QId} (h : (s.qu q).noLost) : s.jumpLost q = s := by
  rw [State.jumpLost, State.jumpN, Queue.jumpTo_of_noLost h]

/-! ### The Boom copies of a channel lost (Table 13.3 step 3) -/

/-- No billet of the queue homed on `c` has a Boom copy. -/
def Queue.NoBoom (x : Queue) (c : YId) : Prop := ∀ b ∈ x.billets, x.home b.num = some c → b.boom = false

/-- No billet of the queue is lost, and each homed on `c` has a frame, so that it outlasts its Boom copy. -/
def Queue.SafeOn (x : Queue) (c : YId) : Prop :=
  ∀ b ∈ x.billets, b.lost = false ∧ (x.home b.num = some c → b.frame = true)

theorem Queue.SafeOn.noLost {x : Queue} {c : YId} (h : x.SafeOn c) : x.noLost := fun b hb => (h b hb).1

theorem Queue.loseOn_noBoom (x : Queue) (c : YId) : (x.loseOn c).NoBoom c := by
  intro b hb hhome
  obtain ⟨a, -, rfl⟩ := List.mem_map.1 hb
  by_cases ha : x.home a.num = some c
  · rw [if_pos ha]
  · rw [if_neg ha] at hhome
    exact absurd hhome ha

theorem Queue.Sheds.noBoom {x y : Queue} {c : YId} (h : x.Sheds y) (hx : x.NoBoom c) : y.NoBoom c := by
  intro b hb hhome
  obtain ⟨a, ha, hnum, hboom⟩ := h.billets b hb
  have hhome' : x.home a.num = some c := by rw [Queue.home, ← h.map, hnum, ← Queue.home, hhome]
  have hnone := hx a ha hhome'
  exact Bool.eq_false_iff.2 fun hb' => by simp [hboom hb'] at hnone

theorem Queue.SafeOn.loseOn {x : Queue} {c : YId} (h : x.SafeOn c) : (x.loseOn c).SafeOn c := by
  intro b hb
  obtain ⟨a, ha, rfl⟩ := List.mem_map.1 hb
  obtain ⟨hlost, hframe⟩ := h a ha
  by_cases hhome : x.home a.num = some c
  · simp [hhome, hlost, hframe hhome]
  · simp only [if_neg hhome]
    exact ⟨hlost, hframe⟩

/-- Where only spills are aborted, the frames stay. -/
theorem Queue.abortOn_safeOn {x : Queue} {q : QId} {l : List Req} {c : YId} (hl : ∀ r ∈ l, r.kind = .spill)
    (h : x.SafeOn c) : (x.abortOn q l).SafeOn c := by
  intro b hb
  rw [Queue.abortOn_billets] at hb
  obtain ⟨a, ha, rfl⟩ := List.mem_map.1 hb
  have hrefill : reqFor q l .refill a = false := by
    refine List.any_eq_false.2 fun r hr => ?_
    simp [hl r hr]
  rw [hrefill]
  cases reqFor q l .spill a <;> exact h a ha

/-- A queue's Boom copies on `c` are lost, and R and F jump past what is lost with them. -/
def State.loseBoom (s : State) (c : YId) (q : QId) : State := (s.modQu q fun x => x.loseOn c).jumpLost q

theorem State.sheds_loseBoom (c : YId) (q : QId) : s.Sheds (s.loseBoom c q) :=
  (s.sheds_setQu ((s.qu q).sheds_loseOn c)).trans (State.sheds_jumpLost _ q)

theorem State.sheds_foldLoseBoom (c : YId) (l : List QId) : s.Sheds (l.foldl (fun t q => t.loseBoom c q) s) :=
  List.foldlRecOn (motive := fun t => s.Sheds t) l _ s.sheds_refl fun t ht q _ =>
    State.Sheds.trans ht (t.sheds_loseBoom c q)

theorem State.loseBoom_qu_ne {q r : QId} (c : YId) (h : r ≠ q) : (s.loseBoom c q).qu r = s.qu r := by
  rw [State.loseBoom, State.jumpLost, State.jumpN_qu_ne _ _ h, s.modQu_qu_ne q r _ h]

theorem State.loseBoom_noBoom (c : YId) (q : QId) : ((s.loseBoom c q).qu q).NoBoom c := by
  have hlose : ((s.modQu q fun x => x.loseOn c).qu q).NoBoom c := by
    rw [State.modQu_qu]
    exact (s.qu q).loseOn_noBoom c
  exact ((State.sheds_jumpLost _ q).queue q).noBoom hlose

theorem State.loseBoom_qu_of_safeOn {c : YId} {q : QId} (h : (s.qu q).SafeOn c) :
    (s.loseBoom c q).qu q = (s.qu q).loseOn c := by
  have hlost : ((s.modQu q fun x => x.loseOn c).qu q).noLost := by
    rw [State.modQu_qu]
    exact h.loseOn.noLost
  rw [State.loseBoom, State.jumpLost_of_noLost _ hlost, State.modQu_qu]

/-- A queue that has no Boom copy on `c` from its own turn on has none at the end. -/
theorem State.foldLoseBoom_noBoom (c : YId) {l : List QId} {q : QId} (h : q ∈ l) :
    ((l.foldl (fun t q => t.loseBoom c q) s).qu q).NoBoom c := by
  obtain ⟨before, after, rfl⟩ := List.append_of_mem h
  rw [List.foldl_append, List.foldl_cons]
  exact ((State.sheds_foldLoseBoom _ c after).queue q).noBoom (State.loseBoom_noBoom _ c q)

/-- A queue that outlasts the loss keeps its slots and loses no billet. -/
theorem State.foldLoseBoom_safeOn {c : YId} {q : QId} (h : (s.qu q).SafeOn c) (l : List QId) :
    ((l.foldl (fun t q => t.loseBoom c q) s).qu q).held = (s.qu q).held ∧
      ((l.foldl (fun t q => t.loseBoom c q) s).qu q).SafeOn c := by
  refine List.foldlRecOn (motive := fun t : State => (t.qu q).held = (s.qu q).held ∧ (t.qu q).SafeOn c) l _ ⟨rfl, h⟩
    fun t ht r _ => ?_
  obtain ⟨hheld, hsafe⟩ := ht
  by_cases hr : q = r
  · subst hr
    rw [t.loseBoom_qu_of_safeOn hsafe]
    exact ⟨hheld, hsafe.loseOn⟩
  · rw [t.loseBoom_qu_ne c hr]
    exact ⟨hheld, hsafe⟩

/-! ### The channel reset (R411 to R413, Table 13.3) -/

/-- A channel with its requests gone as a reset takes it over. -/
def Chan.toReset (x : Chan) (drop : Bool) (order : Nat) : Chan :=
  { x.enter .reset with
    pend := none, hot := [], throttles := [], rows := Vector.replicate 16 none
    owed := Vector.replicate 2 0, gap := Vector.replicate 2 none, must := Vector.replicate 2 false
    run := none, noRef := false, begun := none, resetN := x.resetN && !drop
    waiting := some (some (if drop then .drop else .keep), order) }

/-- Outside a drain, a frequency change and another reset the state before it is the one that it keeps. -/
theorem Chan.toReset_of_free {x : Chan} (h : x.st = .untrained ∨ x.st = .active ∨ x.st = .selfref ∨ x.st = .absent ∨
    x.st = .failed) (drop : Bool) (order : Nat) : Chan.toReset { x with reqs := [] } drop order = { x with
      st := .reset, prior := x.st, reqs := [], pend := none, hot := [], throttles := [], rows := Vector.replicate 16 none
      owed := Vector.replicate 2 0, gap := Vector.replicate 2 none, must := Vector.replicate 2 false, run := none
      noRef := false, begun := none, resetN := x.resetN && !drop
      waiting := some (some (if drop then .drop else .keep), order) } := by
  unfold Chan.toReset Chan.enter
  rcases h with h | h | h | h | h <;> simp only [h]

/-- Steps 1, 2 and 4 of a channel reset: its requests aborted, the channel in RESET with its sweep waiting. -/
def State.enterReset (s : State) (c : YId) (drop : Bool) : State :=
  ((s.abortReqs c).modCh c fun x => x.toReset drop (s.abortReqs c).order).nextOrder

theorem State.chanReset_keep (c : YId) : s.chanReset c false = (s.enterReset c false).chanChanged := rfl

theorem State.chanReset_drop (c : YId) :
    s.chanReset c true = (allQ.foldl (fun t q => t.loseBoom c q) (s.enterReset c true)).chanChanged := rfl

theorem State.enterReset_storeFrame (c : YId) (drop : Bool) : s.storeFrame (s.enterReset c drop) 1 :=
  ((s.abortReqs_storeFrame c).trans (State.modCh_storeFrame _ c _)).trans (State.nextOrder_storeFrame _)

theorem State.enterReset_ch (c : YId) (drop : Bool) :
    (s.enterReset c drop).ch c = Chan.toReset { s.ch c with reqs := [] } drop s.order := by
  have horder : (s.abortReqs c).order = s.order := (s.abortReqs_storeFrame c).order
  rw [State.enterReset, State.nextOrder_ch_frame, State.modCh_ch, State.abortReqs_ch, horder]

theorem State.enterReset_ch_ne {c d : YId} (drop : Bool) (h : d ≠ c) : (s.enterReset c drop).ch d = s.ch d := by
  rw [State.enterReset, State.nextOrder_ch_frame, State.modCh_ch_ne _ _ _ _ h, s.abortReqs_ch_ne h]

theorem State.enterReset_qu (c : YId) (drop : Bool) (q : QId) :
    (s.enterReset c drop).qu q = (s.qu q).abortOn q (s.ch c).reqs := by
  rw [State.enterReset, State.nextOrder_qu_frame, State.modCh_qu_frame, s.abortReqs_qu]

@[simp] theorem State.chanChanged_ch (c : YId) : s.chanChanged.ch c = s.ch c := by simp [State.chanChanged]

/-- What follows the requests' abort and the entry into RESET takes billets and Boom copies from the queues at most. -/
theorem State.chanReset_cases (c : YId) (drop : Bool) :
    ∃ t, (s.enterReset c drop).Sheds t ∧ s.chanReset c drop = t.chanChanged := by
  cases drop with
  | false => exact ⟨_, State.sheds_refl _, s.chanReset_keep c⟩
  | true => exact ⟨_, State.sheds_foldLoseBoom _ c allQ, s.chanReset_drop c⟩

theorem State.chanReset_storeFrame (c : YId) (drop : Bool) : s.storeFrame (s.chanReset c drop) 2 := by
  obtain ⟨t, ht, heq⟩ := s.chanReset_cases c drop
  rw [heq]
  exact ((s.enterReset_storeFrame c drop).trans ht.frame).trans t.chanChanged_storeFrame

theorem State.chanReset_ch (c : YId) (drop : Bool) :
    (s.chanReset c drop).ch c = Chan.toReset { s.ch c with reqs := [] } drop s.order := by
  obtain ⟨t, ht, heq⟩ := s.chanReset_cases c drop
  rw [heq, State.chanChanged_ch, ht.idle c (by rw [s.enterReset_ch]; rfl), s.enterReset_ch]

/-- What has been written to a queue, and what its ports have read of it, is as it was. -/
theorem State.chanReset_counts (c : YId) (drop : Bool) (q : QId) : ((s.chanReset c drop).qu q).w = (s.qu q).w ∧
    ((s.chanReset c drop).qu q).wcnt = (s.qu q).wcnt ∧ ((s.chanReset c drop).qu q).rcnt = (s.qu q).rcnt := by
  obtain ⟨t, ht, heq⟩ := s.chanReset_cases c drop
  have hq := ht.queue q
  rw [s.enterReset_qu] at hq
  simp only [heq, State.chanChanged, State.scaleAll_qu_w, State.scaleAll_qu_wcnt, State.scaleAll_qu_rcnt,
    State.nextOrder_qu_frame]
  exact ⟨hq.w, hq.wcnt, hq.rcnt⟩

/-- RESETKEEP does no more to a queue than abort the requests of it: no billet is lost. -/
theorem State.chanReset_keep_qu (c : YId) (q : QId) :
    ((s.chanReset c false).qu q).bare = ((s.qu q).abortOn q (s.ch c).reqs).bare ∧
      ((s.chanReset c false).qu q).billets.map (·.lost) = (s.qu q).billets.map (·.lost) ∧
      ((s.chanReset c false).qu q).held = (s.qu q).held := by
  rw [s.chanReset_keep, State.chanChanged, State.scaleAll_qu_bare, State.scaleAll_qu_billets, State.scaleAll_qu_held,
    State.nextOrder_qu_frame, s.enterReset_qu, Queue.abortOn_lost, Queue.abortOn_held]
  exact ⟨rfl, rfl, rfl⟩

theorem State.chanReset_keep_ch_ne {c d : YId} (h : d ≠ c) : (s.chanReset c false).ch d = s.ch d := by
  rw [s.chanReset_keep, State.chanChanged_ch, s.enterReset_ch_ne false h]

theorem State.chanReset_drop_noBoom (c : YId) (q : QId) : ((s.chanReset c true).qu q).NoBoom c := by
  have hfold := State.foldLoseBoom_noBoom (s.enterReset c true) c (mem_allQ q)
  rw [s.chanReset_drop, State.chanChanged, State.scaleAll_qu, State.nextOrder_qu_frame]
  exact hfold

/-- Where only spills are aborted, a queue that is safe on the channel loses nothing under RESETDROP. -/
theorem State.chanReset_drop_safeOn {c : YId} {q : QId} (hreqs : ∀ r ∈ (s.ch c).reqs, r.kind = .spill)
    (h : (s.qu q).SafeOn c) :
    ((s.chanReset c true).qu q).held = (s.qu q).held ∧ ((s.chanReset c true).qu q).noLost := by
  have hsafe : ((s.enterReset c true).qu q).SafeOn c := by
    rw [s.enterReset_qu]
    exact Queue.abortOn_safeOn hreqs h
  obtain ⟨hheld, hsafe'⟩ := State.foldLoseBoom_safeOn _ hsafe allQ
  rw [s.enterReset_qu] at hheld
  rw [s.chanReset_drop, State.chanChanged, State.scaleAll_qu, State.nextOrder_qu_frame]
  exact ⟨hheld, hsafe'.noLost⟩

/-! ### Yn:YCMD (R411, R467) -/

/-- A rejection on the state of a commit is one of the write that the command made, and changes nothing else. -/
theorem State.pathFrame.reject {s u : State} (h : s.pathFrame u) (hwf : s.eventsWf) (acc : Access) (code inst reason : Nat) :
    s.rejected (u.reject acc code inst reason) acc code inst reason ∧
      s.hostFrame (u.reject acc code inst reason)
        { s with events := (u.reject acc code inst reason).events, dp := (u.reject acc code inst reason).dp } := by
  obtain ⟨⟨_, _, rfl⟩, hcore⟩ := h
  exact ⟨⟨s.counted_of_events hwf rfl, rfl⟩, rfl, hcore⟩

theorem otherCh_ne (c : YId) : otherCh c ≠ c := by revert c; decide

theorem State.ychanReset_of_free {acc : Access} {c : YId} (drop : Bool) (hst : (s.ch c).st = .untrained ∨
      (s.ch c).st = .active ∨ (s.ch c).st = .selfref ∨ (s.ch c).st = .absent ∨ (s.ch c).st = .failed)
    (hfreq : (s.ch c).freq = none) (hheld : (s.ch c).heldHost = false) (hsweep : (s.ch c).sweeping = none) :
    s.ychanReset acc c drop = s.chanReset c drop := by
  rcases hst with hst | hst | hst | hst | hst <;> simp [State.ychanReset, hst, hfreq, hheld, hsweep]

theorem State.ychanReset_of_stalled {acc : Access} {c : YId} (drop : Bool) (h : (s.ch c).st = .freqsw ∨
      (s.ch c).st = .drain ∨ (s.ch c).st = .reset ∨ (s.ch c).heldHost = true ∨ (s.ch c).freq ≠ none ∨
      (s.ch c).sweeping ≠ none) :
    s.ychanReset acc c drop = s.reject acc Ev.ycmdrej 0 Reason.state := by
  simp only [Option.ne_none_iff_isSome] at h
  rcases h with h | h | h | h | h | h <;> simp [State.ychanReset, h]

theorem State.ycmd_of_several {acc : Access} {c : YId} {v : Word} (h : fld v 0 4 ∉ [0, 1, 2, 4, 8]) :
    s.ycmd acc c v = s.reject acc Ev.ycmdrej 0 Reason.general := by
  unfold State.ycmd
  split <;> simp_all

theorem State.exec_ychanReset {p : Path} {c : YId} (h : s.mayWrite p (.chan c) 2) (drop : Bool) :
    ∃ u, s.pathFrame u ∧ exec (if drop then .resetdrop p c else .resetkeep p c) s =
      .next (u.ychanReset ⟨p, 66, (Bank.chan c).sel⟩ c drop) := by
  cases drop with
  | false =>
    obtain ⟨u, hu, hrow⟩ := s.rowCommit_of_mayWrite h [4]
    exact ⟨u, hu, congrArg Host.Outcome.next hrow⟩
  | true =>
    obtain ⟨u, hu, hrow⟩ := s.rowCommit_of_mayWrite h [8]
    exact ⟨u, hu, congrArg Host.Outcome.next hrow⟩

theorem State.exec_ycmdWrite {p : Path} {c : YId} (h : s.mayWrite p (.chan c) 2)
    (hsel : (s.path p).bankSel.toNat = (Bank.chan c).sel) (v : Word) :
    ∃ u, s.pathFrame u ∧ exec (.registerWrite p 66 v) s = .next (u.ycmd ⟨p, 66, (Bank.chan c).sel⟩ c v) := by
  obtain ⟨u, hu, hrow⟩ := s.busWrite_of_mayWrite h hsel rfl nofun rfl rfl v
  exact ⟨u, hu, congrArg Host.Outcome.next hrow⟩

end Sys2Proof.Machine

open Sys2Proof Sys2Proof.Machine

/-- Settles O36: an accepted reset is that of the channel on the state that its commit meets, and every other write of Yn:YCMD
is rejected there. -/
theorem channelReset : Obligations.ChannelReset := by
  unfold Obligations.ChannelReset
  intro p c s hmay
  refine ⟨fun drop => ⟨fun hst hfreq hheld hsweep => ?_, fun hwf hstall => ?_⟩, fun v hwf hsel hv => ?_⟩
  · obtain ⟨u, hu, hexec⟩ := s.exec_ychanReset hmay drop
    have hframe := u.chanReset_storeFrame c drop
    have hhost := hframe.hostFrame hu
    have hfree := u.ychanReset_of_free (acc := ⟨p, 66, (Bank.chan c).sel⟩) drop (hu.ch ▸ hst) (hu.ch ▸ hfreq)
      (hu.ch ▸ hheld) (hu.ch ▸ hsweep)
    have hch := u.chanReset_ch c drop
    rw [hu.ch, hu.order, Chan.toReset_of_free hst] at hch
    refine ⟨_, hexec.trans (congrArg _ hfree), hch, ?_, ?_, ?_, ?_, ?_, ?_, ?_⟩
    · rw [hframe.ports, hu.ports]
    · rw [hframe.events, hu.events]
    · rw [hframe.dp, hu.dp]
    · rw [hframe.order, hu.order]
    · simpa [hu.qu] using u.chanReset_counts c drop
    · rintro rfl
      refine ⟨?_, fun q => ?_, hhost⟩
      · rw [u.chanReset_keep_ch_ne (otherCh_ne c), hu.ch]
      · simpa only [hu.ch, hu.qu] using u.chanReset_keep_qu c q
    · rintro rfl q
      refine ⟨u.chanReset_drop_noBoom c q, fun hreqs hkept => ?_⟩
      have hsafe : (s.qu q).SafeOn c := fun b hb => (hkept b hb).imp_right fun hframed hhome => (hframed hhome).1
      rw [← hu.ch] at hreqs
      rw [← hu.qu] at hsafe ⊢
      exact u.chanReset_drop_safeOn hreqs hsafe
  · obtain ⟨u, hu, hexec⟩ := s.exec_ychanReset hmay drop
    rw [← hu.ch] at hstall
    rw [u.ychanReset_of_stalled drop hstall] at hexec
    exact ⟨_, hexec, hu.reject hwf _ _ _ _⟩
  · obtain ⟨u, hu, hexec⟩ := s.exec_ycmdWrite hmay hsel v
    rw [u.ycmd_of_several hv] at hexec
    exact ⟨_, hexec, hu.reject hwf _ _ _ _⟩

end

section
/-!
SUPPORT, O3, O4 and O6. The invariant, the queue of commands and FATAL through every operation.

One relation, `State.Keeps`, says of two states that a step from the first to the second leaves the queue of commands alone,
keeps the invariant and does not end FATAL. Every operation of the model is followed once by a lemma `Keeps.<operation>`, from
the events up to the host's commands; O3, O4 and O6 are read off the lemma about all commands.
-/

-- The theorems one after another: side by side they take more threads than the check allows.
set_option Elab.async false

namespace Sys2Proof.Machine

/-! ### The books of a queue -/

/-- What the books of a queue and its limit of marks are made of. -/
structure Queue.Shape where
  w : Pos
  r : Pos
  h : Pos
  f : Pos
  wcnt : Pos
  rcnt : Pos
  dcnt : Pos
  marks : List Pos
  markPend : Option MarkCmd
  len : Nat

def Queue.shape (x : Queue) : Queue.Shape :=
  ⟨x.w, x.r, x.h, x.f, x.wcnt, x.rcnt, x.dcnt, x.marks, x.markPend, x.held.length⟩

/-- The books but for H, which follows the marks and R only where the queue is settled; and no more than four marks. -/
structure Queue.Loose (x : Queue) : Prop where
  order : ((x.marks ++ [x.r, x.f]).map x.off).Pairwise (· ≤ ·)
  within : x.off x.f ≤ x.held.length
  count : x.occ = x.held.length % 2 ^ 48
  ledger : x.wcnt - x.rcnt - x.dcnt = x.w - x.f
  marks : x.markLoad ≤ 4

/-- H is the oldest mark, or R without one. -/
def Queue.Settled (x : Queue) : Prop := x.h = x.marks.headD x.r

theorem Queue.books_and_marks_iff (x : Queue) : x.Books ∧ x.markLoad ≤ 4 ↔ x.Loose ∧ x.Settled :=
  ⟨fun ⟨⟨h, o, w, c, l⟩, m⟩ => ⟨⟨o, w, c, l, m⟩, h⟩, fun ⟨⟨o, w, c, l, m⟩, h⟩ => ⟨⟨h, o, w, c, l⟩, m⟩⟩

section Shape

variable {x y : Queue}

theorem Queue.Loose.of_shape (hx : x.Loose) (h : y.shape = x.shape) : y.Loose := by
  obtain ⟨order, within, count, ledger, marks⟩ := hx
  simp only [Queue.shape, Queue.Shape.mk.injEq] at h
  obtain ⟨hw, hr, hh, hf, hwc, hrc, hdc, hm, hp, hl⟩ := h
  have hoff : y.off = x.off := by funext p; simp [Queue.off, hh]
  exact ⟨by rw [hoff, hm, hr, hf]; exact order, by rw [hoff, hf, hl]; exact within,
    by rw [Queue.occ, hw, hh, hl]; exact count, by rw [hwc, hrc, hdc, hw, hf]; exact ledger,
    by rw [Queue.markLoad, hm, hp]; exact marks⟩

theorem Queue.Settled.of_shape (hx : x.Settled) (h : y.shape = x.shape) : y.Settled := by
  simp only [Queue.shape, Queue.Shape.mk.injEq] at h
  obtain ⟨-, hr, hh, -, -, -, -, hm, -, -⟩ := h
  rw [Queue.Settled, hh, hm, hr]
  exact hx

end Shape

/-! ### Offsets from H -/

theorem Queue.off_lt (x : Queue) (p : Pos) : x.off p < 2 ^ 48 := (p - x.h).isLt

/-- The offset of the position that lies `n` from H. -/
theorem Queue.off_add (x : Queue) {n : Nat} (hn : n < 2 ^ 48) : x.off (x.h + BitVec.ofNat 48 n) = n := by
  unfold Queue.off
  bv_omega

theorem Queue.off_inj (x : Queue) {p q : Pos} (h : x.off p = x.off q) : p = q := by
  unfold Queue.off at h
  bv_omega

theorem Queue.off_succ (x : Queue) {p : Pos} (h : x.off p + 1 < 2 ^ 48) : x.off (p + 1) = x.off p + 1 := by
  unfold Queue.off at *
  bv_omega

/-- An offset from a later hold point. -/
theorem Queue.off_from (x y : Queue) {p : Pos} (h : x.off y.h ≤ x.off p) : y.off p = x.off p - x.off y.h := by
  unfold Queue.off at *
  bv_omega

theorem Queue.Loose.marks_le_r {x : Queue} (hx : x.Loose) {m : Pos} (hm : m ∈ x.marks) : x.off m ≤ x.off x.r := by
  have h := hx.order
  rw [List.map_append, List.pairwise_append] at h
  exact h.2.2 _ (List.mem_map_of_mem hm) _ (by simp)

theorem Queue.Loose.r_le_f {x : Queue} (hx : x.Loose) : x.off x.r ≤ x.off x.f := by
  have h := hx.order
  rw [List.map_append, List.pairwise_append] at h
  simpa using h.2.1

theorem Queue.Loose.marks_ordered {x : Queue} (hx : x.Loose) : (x.marks.map x.off).Pairwise (· ≤ ·) := by
  have h := hx.order
  rw [List.map_append, List.pairwise_append] at h
  exact h.1

/-- The order of the positions: the marks, then R, then F. -/
theorem Queue.order_iff (x : Queue) : ((x.marks ++ [x.r, x.f]).map x.off).Pairwise (· ≤ ·) ↔
    (x.marks.map x.off).Pairwise (· ≤ ·) ∧ (∀ m ∈ x.marks, x.off m ≤ x.off x.r) ∧ x.off x.r ≤ x.off x.f := by
  rw [List.map_append, List.pairwise_append]
  constructor
  · rintro ⟨hm, hrf, h⟩
    exact ⟨hm, fun m hmem => h _ (List.mem_map_of_mem hmem) _ (by simp), by simpa using hrf⟩
  · rintro ⟨hm, h, hrf⟩
    refine ⟨hm, by simpa using hrf, ?_⟩
    intro a ha b hb
    obtain ⟨m, hmem, rfl⟩ := List.mem_map.1 ha
    have hr := h m hmem
    simp only [List.map_cons, List.map_nil, List.mem_cons, List.not_mem_nil, or_false] at hb
    rcases hb with rfl | rfl <;> omega

theorem Queue.Loose.off_r_le_held {x : Queue} (hx : x.Loose) : x.off x.r ≤ x.held.length :=
  hx.r_le_f.trans hx.within

/-- The oldest mark, or R without one, is the first of the positions. -/
theorem Queue.Loose.first_le {x : Queue} (hx : x.Loose) {p : Pos} (hp : p ∈ x.marks ++ [x.r, x.f]) :
    x.off (x.marks.headD x.r) ≤ x.off p := by
  have h := hx.order
  cases hm : x.marks with
  | nil =>
    rw [hm] at hp
    have := hx.r_le_f
    simp only [List.nil_append, List.mem_cons, List.not_mem_nil, or_false] at hp
    rcases hp with rfl | rfl <;> simp [this]
  | cons m ms =>
    rw [hm] at h hp
    simp only [List.cons_append, List.map_cons, List.pairwise_cons] at h
    rw [List.cons_append, List.mem_cons] at hp
    rcases hp with rfl | hp
    · exact le_rfl
    · exact h.1 _ (List.mem_map_of_mem hp)

/-! ### What the operations do to the books -/

/-- H moved up to the oldest mark, or to R without one, with what it passes dropped (R123). -/
theorem Queue.Loose.hold {x y : Queue} (hx : x.Loose)
    (hy : y.shape = { x.shape with h := x.marks.headD x.r, len := x.held.length - x.off (x.marks.headD x.r) }) :
    y.Loose ∧ y.Settled := by
  simp only [Queue.shape, Queue.Shape.mk.injEq] at hy
  obtain ⟨hw, hr, hh, hf, hwc, hrc, hdc, hm, hp, hl⟩ := hy
  have hle : ∀ p ∈ x.marks ++ [x.r, x.f], x.off y.h ≤ x.off p := fun p hp => hh ▸ hx.first_le hp
  have hoff : ∀ p ∈ x.marks ++ [x.r, x.f], y.off p = x.off p - x.off y.h := fun p hp => x.off_from y (hle p hp)
  have hfirst : x.off y.h ≤ x.off x.f := hle x.f (by simp)
  have hwithin := hx.within
  refine ⟨⟨?_, ?_, ?_, by rw [hwc, hrc, hdc, hw, hf]; exact hx.ledger, by rw [Queue.markLoad, hm, hp]; exact hx.marks⟩,
    by rw [Queue.Settled, hh, hm, hr]⟩
  · rw [hm, hr, hf, List.map_congr_left hoff]
    have h := hx.order
    rw [List.pairwise_map] at h ⊢
    exact h.imp fun hab => Nat.sub_le_sub_right hab _
  · rw [hf, hoff x.f (by simp), hl, ← hh]
    omega
  · have hcount := hx.count
    rw [hl, ← hh]
    unfold Queue.occ Queue.off at *
    rw [hw]
    bv_omega

/-- Slots committed at W (R123). -/
theorem Queue.Loose.pushed {x y : Queue} (hx : x.Loose) {n : Nat}
    (hy : y.shape = { x.shape with
      w := x.w + BitVec.ofNat 48 n, wcnt := x.wcnt + BitVec.ofNat 48 n, len := x.held.length + n }) : y.Loose := by
  simp only [Queue.shape, Queue.Shape.mk.injEq] at hy
  obtain ⟨hw, hr, hh, hf, hwc, hrc, hdc, hm, hp, hl⟩ := hy
  have hoff : y.off = x.off := by funext p; simp [Queue.off, hh]
  have hledger := hx.ledger
  have hcount := hx.count
  refine ⟨by rw [hoff, hm, hr, hf]; exact hx.order, by rw [hoff, hf, hl]; exact hx.within.trans (Nat.le_add_right ..), ?_, ?_,
    by rw [Queue.markLoad, hm, hp]; exact hx.marks⟩
  · unfold Queue.occ at *
    rw [hl, hw, hh]
    bv_omega
  · rw [hwc, hrc, hdc, hw, hf]
    bv_omega

/-- R moved on to the offset `t`, and F with it where it lies behind; what F passes is counted once (R160, R195). -/
theorem Queue.Loose.moved {x y : Queue} (hx : x.Loose) {p rcnt dcnt : Pos} (hlo : x.off x.r ≤ x.off p)
    (hhi : x.off p ≤ x.held.length)
    (hcnt : rcnt + dcnt = if x.off x.f < x.off p then x.rcnt + x.dcnt + (p - x.f) else x.rcnt + x.dcnt)
    (hy : y.shape = { x.shape with
      r := p, f := if x.off x.f < x.off p then p else x.f, rcnt := rcnt, dcnt := dcnt }) : y.Loose := by
  simp only [Queue.shape, Queue.Shape.mk.injEq] at hy
  obtain ⟨hw, hr, hh, hf, hwc, hrc, hdc, hm, hp, hl⟩ := hy
  have hoff : y.off = x.off := by funext p; simp [Queue.off, hh]
  have hledger := hx.ledger
  have hwithin := hx.within
  refine ⟨?_, ?_, by rw [Queue.occ, hw, hh, hl]; exact hx.count, ?_, by rw [Queue.markLoad, hm, hp]; exact hx.marks⟩
  · rw [Queue.order_iff, hoff, hm, hr, hf]
    refine ⟨hx.marks_ordered, fun m hm => (hx.marks_le_r hm).trans hlo, ?_⟩
    split <;> omega
  · rw [hoff, hf, hl]
    split <;> omega
  · rw [hwc, hrc, hdc, hw, hf]
    split at hcnt
    · rw [if_pos ‹_›]
      linear_combination hledger - hcnt
    · rw [if_neg ‹_›]
      linear_combination hledger - hcnt

theorem Queue.Loose.jump {x : Queue} (hx : x.Loose) (t : Nat) : (x.jump t).Loose := by
  unfold Queue.jump
  extract_lets u p y
  have hr := hx.off_r_le_held
  have hlt := x.off_lt x.r
  have hu : x.off p = u := x.off_add (by omega)
  have hf : (y.off y.f < u) = (x.off x.f < x.off p) := by rw [hu]; rfl
  have hlo : x.off x.r ≤ x.off p := by omega
  have hhi : x.off p ≤ x.held.length := by omega
  split <;> rename_i hc <;> rw [hf] at hc
  · exact hx.moved hlo hhi (rcnt := x.rcnt) (dcnt := x.dcnt + (p - x.f)) (by rw [if_pos hc]; bv_omega)
      (by rw [if_pos hc]; rfl)
  · exact hx.moved hlo hhi (rcnt := x.rcnt) (dcnt := x.dcnt) (by rw [if_neg hc]) (by rw [if_neg hc]; rfl)

/-- R moves past a slot that the queue holds (R160). -/
theorem Queue.Loose.advance {x : Queue} (hx : x.Loose) {v : Slot9} (hv : x.slotAt (x.off x.r) = some v) :
    x.advance.Loose := by
  have hlt : x.off x.r + 1 < 2 ^ 48 ∧ x.off x.r < x.held.length := by
    unfold Queue.slotAt at hv
    split at hv
    · exact ⟨‹_›, (List.getElem?_eq_some_iff.1 hv).1⟩
    · cases hv
  have hs := x.off_succ hlt.1
  have hrf := hx.r_le_f
  unfold Queue.advance
  split <;> rename_i hc
  · have hf : x.off x.f < x.off (x.r + 1) := by rw [← hc]; omega
    exact hx.moved (p := x.r + 1) (by omega) (by omega) (rcnt := x.rcnt + 1) (dcnt := x.dcnt)
      (by rw [if_pos hf]; bv_omega) (by rw [if_pos hf]; rfl)
  · have hne : x.off x.r ≠ x.off x.f := fun h => hc (x.off_inj h)
    have hf : ¬x.off x.f < x.off (x.r + 1) := by omega
    exact hx.moved (p := x.r + 1) (by omega) (by omega) (rcnt := x.rcnt) (dcnt := x.dcnt) (by rw [if_neg hf])
      (by rw [if_neg hf]; rfl)

/-- The oldest mark removed (R164). -/
theorem Queue.Loose.dropMark {x : Queue} (hx : x.Loose) : ({ x with marks := x.marks.tail } : Queue).Loose := by
  refine ⟨?_, hx.within, hx.count, hx.ledger, ?_⟩
  · exact hx.order.sublist (((List.tail_sublist _).append_right _).map _)
  · have h := hx.marks
    have hlen : x.marks.tail.length ≤ x.marks.length := by simp
    unfold Queue.markLoad at *
    dsimp only at *
    omega

/-- The pending mark command carried out (Table 6.4). -/
theorem Queue.Loose.applyMark {x : Queue} (hx : x.Loose) {c : MarkCmd} (hc : x.markPend = some c) :
    (x.applyMark c).Loose := by
  have hload := hx.marks
  cases c with
  | mark =>
    refine ⟨?_, hx.within, hx.count, hx.ledger, ?_⟩
    · refine (x.applyMark .mark).order_iff.2 ⟨?_, ?_, hx.r_le_f⟩
      · show ((x.marks ++ [x.r]).map x.off).Pairwise (· ≤ ·)
        rw [List.map_append, List.pairwise_append]
        exact ⟨hx.marks_ordered, by simp, by simpa using fun m hm => hx.marks_le_r hm⟩
      · intro m hm
        rcases List.mem_append.1 hm with hm | hm
        · exact hx.marks_le_r hm
        · obtain rfl := List.mem_singleton.1 hm; exact le_rfl
    · simp only [Queue.markLoad, hc] at hload
      simp only [Queue.markLoad, Queue.applyMark, List.length_append, List.length_singleton]
      omega
  | rewind i =>
    have hle : x.off (x.marks.getD i x.r) ≤ x.off x.r := by
      rw [List.getD_eq_getElem?_getD]
      cases h : x.marks[i]? with
      | none => exact le_rfl
      | some m => exact hx.marks_le_r (List.mem_of_getElem? h)
    refine ⟨?_, hx.within, hx.count, hx.ledger, ?_⟩
    · refine (x.applyMark (.rewind i)).order_iff.2 ⟨hx.marks_ordered.sublist ((List.take_sublist ..).map _), ?_,
        hle.trans hx.r_le_f⟩
      intro m hm
      show x.off m ≤ x.off (x.marks.getD i x.r)
      obtain ⟨j, hj, rfl⟩ := List.mem_take_iff_getElem.1 hm
      by_cases hi : i < x.marks.length
      · rw [List.getD_eq_getElem _ _ hi]
        have h := hx.marks_ordered
        rw [List.pairwise_map, List.pairwise_iff_getElem] at h
        rcases Nat.lt_or_ge j i with hji | hji
        · exact h j i (by omega) hi hji
        · obtain rfl : j = i := by omega
          exact le_rfl
      · rw [List.getD_eq_default _ _ (by omega)]
        exact hx.marks_le_r (List.getElem_mem _)
    · simp only [Queue.markLoad, hc] at hload
      simp only [Queue.markLoad, Queue.applyMark, List.length_take]
      omega

/-- A MARK or REWIND becomes pending (R163, R165). -/
theorem Queue.Loose.pending {x : Queue} (hx : x.Loose) (c : MarkCmd) (hc : c = .mark → x.marks.length ≠ 4) :
    ({ x with markPend := some c } : Queue).Loose := by
  refine ⟨hx.order, hx.within, hx.count, hx.ledger, ?_⟩
  have h := hx.marks
  unfold Queue.markLoad at *
  cases c with
  | mark => have := hc rfl; dsimp only at *; omega
  | rewind i => dsimp only at *; omega

theorem Queue.cleared_loose (x : Queue) : x.cleared.Loose :=
  ⟨by simp [Queue.cleared, Queue.off], by simp [Queue.cleared, Queue.off], by simp [Queue.cleared, Queue.occ],
    by simp [Queue.cleared], by simp [Queue.cleared, Queue.markLoad]⟩

theorem Queue.reset_loose : Queue.reset.Loose :=
  ⟨by simp [Queue.reset, Queue.off], by simp [Queue.reset, Queue.off], by simp [Queue.reset, Queue.occ],
    by simp [Queue.reset], by simp [Queue.reset, Queue.markLoad]⟩

/-! ### Operations that leave the shape of a queue alone -/

@[simp] theorem Queue.setEcc_shape (x : Queue) (k : Nat) (e : StaveEcc) : (x.setEcc k e).shape = x.shape := rfl
@[simp] theorem Queue.setBillet_shape (x : Queue) (n : Nat) (g : Billet → Billet) : (x.setBillet n g).shape = x.shape := rfl
@[simp] theorem Queue.dropLanding_shape (x : Queue) (l : List Nat) : (x.dropLanding l).shape = x.shape := rfl
@[simp] theorem Queue.dropEcc_shape (x : Queue) (l : List Nat) : (x.dropEcc l).shape = x.shape := rfl
@[simp] theorem Queue.grow_shape (x : Queue) : x.grow.shape = x.shape := rfl
@[simp] theorem Queue.scale_shape (x : Queue) (i : ScaleIn) : (x.scale i).shape = x.shape := rfl
@[simp] theorem Queue.sample_shape (x : Queue) (a b : Int) : (x.sample a b).shape = x.shape := rfl
@[simp] theorem Queue.setVword_shape (x : Queue) (i : Fin 7) (v : VWord) : (x.setVword i v).shape = x.shape := by
  fin_cases i <;> rfl

@[simp] theorem Queue.shape_ite (c : Prop) [Decidable c] (x y : Queue) :
    (if c then x else y).shape = if c then x.shape else y.shape := apply_ite ..

theorem Queue.foldl_shape {α : Type} {g : Queue → α → Queue} (h : ∀ x a, (g x a).shape = x.shape) (l : List α) (x : Queue) :
    (l.foldl g x).shape = x.shape := by
  induction l generalizing x with
  | nil => rfl
  | cons a l ih => rw [List.foldl_cons, ih, h]

@[simp] theorem Queue.freePassed_shape (x : Queue) : x.freePassed.shape = x.shape := by
  unfold Queue.freePassed
  dsimp only
  split <;> rfl

@[simp] theorem Queue.putVoted_shape (x : Queue) (i : Nat) (ws : List Word) : (x.putVoted i ws).shape = x.shape := by
  have h := Queue.foldl_shape (g := fun (y : Queue) (p : Word × Nat) =>
    if h : i + p.2 < 7 then y.setVword ⟨i + p.2, h⟩ (VWord.of p.1) else y) (fun y p => by split <;> simp) ws.zipIdx x
  exact h

@[simp] theorem Queue.poisonFrom_shape (x y : Queue) (poison : Bool) (n : Nat) : (x.poisonFrom poison n y).shape = y.shape := by
  unfold Queue.poisonFrom
  split
  · exact Queue.foldl_shape (fun y st => y.setEcc_shape st _) ..
  · rfl

@[simp] theorem Queue.parseOne_shape (x : Queue) (p : Pos) (v : Slot9) : (x.parseOne p v).shape = x.shape := by
  unfold Queue.parseOne
  repeat' split
  all_goals rfl

@[simp] theorem Queue.parse_shape (x : Queue) (w : Pos) (vs : List Slot9) (part : Bool) :
    (x.parse w vs part).shape = x.shape :=
  Queue.foldl_shape (fun y _ => y.parseOne_shape _ _) vs.zipIdx x

@[simp] theorem Queue.fillBark_shape (x : Queue) (b : Int) (vs : List Slot9) : (x.fillBark b vs).shape = x.shape := by
  have hlen : min b.toNat x.held.length + (x.held.length - b.toNat) = x.held.length := by omega
  simp [Queue.fillBark, Queue.shape, hlen]

@[simp] theorem Queue.addSeg_shape (x : Queue) (d : DoneStave) (p : Pos) : (x.addSeg d p).shape = x.shape := by
  unfold Queue.addSeg
  dsimp only
  repeat' split
  all_goals rfl

@[simp] theorem Queue.closeSeg_shape (x : Queue) (q : QId) (b : Bark) : (x.closeSeg q b).shape = x.shape := by
  unfold Queue.closeSeg
  split
  · exact x.fillBark_shape ..
  · rfl

@[simp] theorem Queue.landStave_shape (x : Queue) (b : Billet) (k : Nat) : (x.landStave b k).shape = x.shape := by
  unfold Queue.landStave
  split
  · rfl
  · simp [Queue.shape]

theorem Queue.push_shape (x : Queue) (vs : List Slot9) (cut : Bool) : (x.push vs cut).shape = { x.shape with
    w := x.w + BitVec.ofNat 48 vs.length, wcnt := x.wcnt + BitVec.ofNat 48 vs.length, len := x.held.length + vs.length } := by
  have h : ((x.newStaves vs.length).foldl (fun y st => y.setEcc st StaveEcc.clean) x).shape = x.shape :=
    Queue.foldl_shape (fun y st => y.setEcc_shape st _) ..
  simp only [Queue.shape, Queue.Shape.mk.injEq] at h
  obtain ⟨hw, hr, hh, hf, hwc, hrc, hdc, hm, hp, hl⟩ := h
  simp [Queue.push, Queue.shape, Queue.grow, *]

theorem Queue.Loose.push {x : Queue} (hx : x.Loose) (vs : List Slot9) (cut : Bool) : (x.push vs cut).Loose :=
  hx.pushed (x.push_shape vs cut)

end Sys2Proof.Machine
end

section
/-!
SUPPORT, O3, O4 and O6. The relation `State.Keeps`, and the operations on events, locks, the Scaler and the queues.
-/

-- The theorems one after another: side by side they take more threads than the check allows.
set_option Elab.async false

namespace Sys2Proof.Machine

/-! ### The relation -/

/-- What a step may leave open: queues whose H is not at its place yet, and a condition under which FATAL may end. -/
structure Slack where
  loose : QId → Prop
  ends : Prop

/-- The queue `q` may be loose too. -/
def Slack.at (k : Slack) (q : QId) : Slack := { k with loose := fun j => k.loose j ∨ j = q }

/-- No queue may be loose. -/
def Slack.tight (ends : Prop) : Slack := ⟨fun _ => False, ends⟩

/-- The part of the state that the invariant, FATAL and the queue of commands are about. -/
structure State.Vital where
  pending : List Instr
  events : Table EvCell
  once : WriteOnce
  fatal : Bool
  heart : Bool
  code : Nat
  ns : Nat
  frac : Nat
  queues : Vector Queue 16

def State.vital (s : State) : State.Vital :=
  ⟨s.pending, s.events, s.dp.writeOnce, s.dp.fatal, s.dp.heart, s.gov.code, s.time.ns, s.time.frac, s.queues⟩

/-- The invariant, but for the places of H that `k` leaves open. -/
structure State.Sound (k : Slack) (s : State) : Prop where
  events : Table.wf EvCell.zero s.events = true
  sealOnce : s.dp.sealDone = false → s.dp.sealV = 0
  slotOnce : s.dp.slotDone = false → s.dp.slotId = 0
  heart : s.dp.fatal = true → s.dp.heart = false
  codeLow : 3 ≤ s.gov.code
  codeHigh : s.gov.code ≤ 15
  ns : s.time.ns < 1000000000
  frac : s.time.frac < unitsNs
  loose : ∀ q, (s.qu q).Loose
  settled : ∀ q, ¬k.loose q → (s.qu q).Settled

/-- From `s` to `t` the queue of commands stays, FATAL does not end but where `k` lets it, and the invariant is kept. -/
structure State.Keeps (k : Slack) (s t : State) : Prop where
  pending : t.pending = s.pending
  fatal : s.dp.fatal = true → t.dp.fatal = true ∨ k.ends
  sound : s.Sound k → t.Sound k

theorem State.sound_tight_iff {ends : Prop} {s : State} : s.Sound (.tight ends) ↔ s.Inv := by
  constructor
  · rintro ⟨hev, hseal, hslot, hheart, hlow, hhigh, hns, hfrac, hloose, hsettled⟩
    have hq := fun q => (s.qu q).books_and_marks_iff.2 ⟨hloose q, hsettled q id⟩
    exact ⟨hev, hseal, hslot, hheart, hlow, hhigh, hns, hfrac, fun q => (hq q).2, fun q => (hq q).1⟩
  · rintro ⟨hev, hseal, hslot, hheart, hlow, hhigh, hns, hfrac, hmarks, hbooks⟩
    have hq := fun q => (s.qu q).books_and_marks_iff.1 ⟨hbooks q, hmarks q⟩
    exact ⟨hev, hseal, hslot, hheart, hlow, hhigh, hns, hfrac, fun q => (hq q).1, fun q _ => (hq q).2⟩

theorem State.vital_eq_iff {s t : State} : t.vital = s.vital ↔ t.pending = s.pending ∧ t.events = s.events ∧
    t.dp.writeOnce = s.dp.writeOnce ∧ t.dp.fatal = s.dp.fatal ∧ t.dp.heart = s.dp.heart ∧ t.gov.code = s.gov.code ∧
    t.time.ns = s.time.ns ∧ t.time.frac = s.time.frac ∧ t.queues = s.queues := by
  simp only [State.vital, State.Vital.mk.injEq]

theorem WriteOnce.eq_iff {d e : Direct} : d.writeOnce = e.writeOnce ↔
    d.sealDone = e.sealDone ∧ d.sealV = e.sealV ∧ d.slotDone = e.slotDone ∧ d.slotId = e.slotId := by
  simp only [Direct.writeOnce, WriteOnce.mk.injEq]

variable {k : Slack} {s t u : State}

@[refl] theorem State.Keeps.refl (k : Slack) (s : State) : s.Keeps k s := ⟨rfl, .inl, id⟩

theorem State.Keeps.trans (h : s.Keeps k t) (g : t.Keeps k u) : s.Keeps k u :=
  ⟨g.pending.trans h.pending, fun hf => (h.fatal hf).elim g.fatal .inr, g.sound ∘ h.sound⟩

/-- Two states whose queues differ in nothing that the books are about, and that agree in the rest. -/
theorem State.Keeps.of_queues (h : s.Keeps k t) (hu : u.vital = { t.vital with queues := u.queues })
    (hq : ∀ q, ((t.qu q).Loose → (u.qu q).Loose) ∧ (¬k.loose q → (t.qu q).Loose → (t.qu q).Settled → (u.qu q).Settled)) :
    s.Keeps k u := by
  simp only [State.vital, State.Vital.mk.injEq] at hu
  obtain ⟨hpend, hev, honce, hfatal, hheart, hcode, hns, hfrac, -⟩ := hu
  obtain ⟨hsd, hsv, hld, hlv⟩ := WriteOnce.eq_iff.1 honce
  refine h.trans ⟨hpend, fun hf => .inl (hfatal.trans hf), fun hs => ?_⟩
  exact ⟨by rw [hev]; exact hs.events, by rw [hsd, hsv]; exact hs.sealOnce, by rw [hld, hlv]; exact hs.slotOnce,
    by rw [hfatal, hheart]; exact hs.heart, by rw [hcode]; exact hs.codeLow, by rw [hcode]; exact hs.codeHigh,
    by rw [hns]; exact hs.ns, by rw [hfrac]; exact hs.frac, fun q => (hq q).1 (hs.loose q),
    fun q hk => (hq q).2 hk (hs.loose q) (hs.settled q hk)⟩

section Steps

variable (h : s.Keeps k t)
variable {α : Type} {q : QId} {n m : PId} {c : YId} {p : Path} {e : LinkEnd} {acc : Access} {v : Word} {b : Bank} {off : Nat}
  {ws : List Word} {l : LockId} {x : Queue} {g : Queue → Queue} {i j code inst reason : Nat} {r : VRef} {refs : List VRef}
  {ecc : List Ecc}

include h

theorem State.Keeps.same (hu : u.vital = t.vital := by rfl) : s.Keeps k u := by
  obtain ⟨-, -, -, -, -, -, -, -, hqueues⟩ := State.vital_eq_iff.1 hu
  have hq : ∀ q, u.qu q = t.qu q := fun q => by simp only [State.qu, hqueues]
  exact h.of_queues (by rw [hqueues]; exact hu) fun q => by rw [hq q]; exact ⟨id, fun _ _ => id⟩

omit h in
theorem State.Keeps.ite {d : Prop} [Decidable d] (h : s.Keeps k t) (g : s.Keeps k u) : s.Keeps k (if d then t else u) := by
  split
  · exact h
  · exact g

theorem State.Keeps.foldl {f : State → α → State} (hf : ∀ {t : State}, s.Keeps k t → ∀ a, s.Keeps k (f t a)) (l : List α) :
    s.Keeps k (l.foldl f t) := by
  induction l generalizing t with
  | nil => exact h
  | cons a l ih => exact ih (hf h a)

theorem State.Keeps.setQu (hx : (t.qu q).Loose → x.Loose)
    (hset : k.loose q ∨ ((t.qu q).Loose → (t.qu q).Settled → x.Settled)) : s.Keeps k (t.setQu q x) := by
  refine h.of_queues rfl fun j => ?_
  rcases eq_or_ne j q with rfl | hne
  · rw [State.setQu_qu]
    exact ⟨hx, fun hk => hset.resolve_left hk⟩
  · rw [State.setQu_qu_ne _ _ _ _ hne]
    exact ⟨id, fun _ _ => id⟩

theorem State.Keeps.setQu_shape (hx : x.shape = (t.qu q).shape) : s.Keeps k (t.setQu q x) :=
  h.setQu (fun hl => hl.of_shape hx) (.inr fun _ hs => hs.of_shape hx)

/-- A queue changed in nothing that its books are about. -/
theorem State.Keeps.modQu (hg : ∀ x, (g x).shape = x.shape := by intro x; rfl) : s.Keeps k (t.modQu q g) :=
  h.setQu_shape (hg _)

theorem State.Keeps.mapQueues (hg : ∀ x, (g x).shape = x.shape)
    (hu : u.vital = { t.vital with queues := vmap g t.queues } := by rfl) : s.Keeps k u := by
  have hqueues : u.queues = vmap g t.queues := congrArg State.Vital.queues hu
  refine h.of_queues (by rw [hu, hqueues]) fun q => ?_
  have hq : (u.qu q).shape = (t.qu q).shape := by simp [State.qu, hqueues, hg]
  exact ⟨fun hl => hl.of_shape hq, fun _ _ hs => hs.of_shape hq⟩

/-! ### Events, error capture, votes and locks -/

theorem State.Keeps.setEv {cell : EvCell} : s.Keeps k (t.setEv code inst cell) := by
  refine h.trans ⟨rfl, .inl, fun hs => ?_⟩
  obtain ⟨hev, hseal, hslot, hheart, hlow, hhigh, hns, hfrac, hloose, hsettled⟩ := hs
  exact ⟨Table.put_wf _ _ _ _ hev, hseal, hslot, hheart, hlow, hhigh, hns, hfrac, hloose, hsettled⟩

theorem State.Keeps.countN : s.Keeps k (t.countN code inst i) := by
  unfold State.countN
  split
  · exact h
  · exact h.setEv

theorem State.Keeps.count : s.Keeps k (t.count code inst) := h.countN

theorem State.Keeps.reject : s.Keeps k (t.reject acc code inst reason) := h.count.same

theorem State.Keeps.setLock {x : Lock} : s.Keeps k (t.setLock l x) := by cases l <;> exact h.same

theorem State.Keeps.modPath {g : PathSt → PathSt} : s.Keeps k (t.modPath p g) := by cases p <;> exact h.same

theorem State.Keeps.vset {v : VWord} : s.Keeps k (t.vset r v) := by
  cases r with
  | queue q i => exact h.modQu fun x => x.setVword_shape i v
  | lock l => exact h.setLock
  | _ => exact h.same

theorem State.Keeps.enterFatal : s.Keeps k t.enterFatal := by
  unfold State.enterFatal
  split
  · exact h
  · have hcode : (if t.govRuns then t.gov else { t.gov.renew with tick := t.time.ticks }).code = t.gov.code := by
      split <;> rfl
    refine h.trans ⟨rfl, fun _ => .inl rfl, fun hs => ?_⟩
    exact ⟨hs.events, hs.sealOnce, hs.slotOnce, fun _ => rfl, hcode ▸ hs.codeLow, hcode ▸ hs.codeHigh, hs.ns, hs.frac, hs.loose,
      hs.settled⟩

theorem State.Keeps.voteFail : s.Keeps k (t.voteFail r) := by
  cases r with
  | queue q i => exact h.modQu (g := fun x => { x with en := false, vfail := true })
  | _ => exact h.enterFatal

theorem State.Keeps.compare : s.Keeps k (t.compare r) := by
  unfold State.compare
  dsimp only
  split
  · exact h
  · split
    · split
      · exact h
      · exact h.vset.count
    · exact h.vset.voteFail

theorem State.Keeps.compareAll : s.Keeps k (t.compareAll refs) := h.foldl (fun g _ => g.compare) refs

theorem State.Keeps.govRenew : s.Keeps k t.govRenew := h.compareAll.same

theorem State.Keeps.takeLock : s.Keeps k (t.takeLock l v) := h.setLock

theorem State.Keeps.freeLock : s.Keeps k (t.freeLock l) := by
  cases l <;> exact h.same

/-! ### The Scaler -/

theorem State.Keeps.scale : s.Keeps k (t.scale q) := h.setQu_shape (Queue.scale_shape ..)

theorem State.Keeps.scaleAll : s.Keeps k t.scaleAll := h.foldl (fun g _ => g.scale) allQ

theorem State.Keeps.clearLookahead : s.Keeps k (t.clearLookahead q) := by
  unfold State.clearLookahead
  exact h.modQu

theorem State.Keeps.chanChanged : s.Keeps k t.chanChanged := State.Keeps.scaleAll (t := t.nextOrder) h.same

/-! ### The hold point, marks, commits and delivery -/

omit h in
/-- H goes to its place, and what it passes is dropped (R123). -/
theorem State.settle_eq (t : State) (q : QId) : ∃ (x : Queue) (chans : Vector Chan 2),
    t.settle q = { t.setQu q x with chans := chans } ∧ x.shape = { (t.qu q).shape with
      h := (t.qu q).marks.headD (t.qu q).r
      len := (t.qu q).held.length - (t.qu q).off ((t.qu q).marks.headD (t.qu q).r) } := by
  unfold State.settle
  extract_lets x h len n gone nums y x' nums' s'
  have hshape : x'.freePassed.shape = { x.shape with h := h, len := x.held.length - len } := by
    have hy : y.shape = x.shape := by unfold y; split <;> rfl
    simp only [Queue.shape, Queue.Shape.mk.injEq] at hy
    rw [Queue.freePassed_shape]
    simp [x', Queue.shape, hy]
  refine ⟨x'.freePassed, if nums'.isEmpty then t.chans else vmap (Chan.orphan q x nums') t.chans, ?_, hshape⟩
  split <;> rfl

/-- After an operation that may leave H of one queue behind, H follows (R123). -/
theorem State.Keeps.settleAfter (g : t.Keeps (k.at q) u) : s.Keeps k (u.settle q) := by
  obtain ⟨x, chans, hu, hx⟩ := u.settle_eq q
  rw [hu]
  refine h.trans ⟨g.pending, g.fatal, fun hs => ?_⟩
  have hsound := g.sound ⟨hs.events, hs.sealOnce, hs.slotOnce, hs.heart, hs.codeLow, hs.codeHigh, hs.ns, hs.frac, hs.loose,
    fun j hj => hs.settled j fun hk => hj (.inl hk)⟩
  obtain ⟨hev, hseal, hslot, hheart, hlow, hhigh, hns, hfrac, hloose, hsettled⟩ := hsound
  have hhold := (hloose q).hold hx
  have hq (j : QId) : (j = q ∧ (u.setQu q x).qu j = x) ∨ (j ≠ q ∧ (u.setQu q x).qu j = u.qu j) := by
    rcases eq_or_ne j q with rfl | hne
    · exact .inl ⟨rfl, u.setQu_qu _ _⟩
    · exact .inr ⟨hne, u.setQu_qu_ne _ _ _ hne⟩
  refine ⟨hev, hseal, hslot, hheart, hlow, hhigh, hns, hfrac, fun j => ?_, fun j hj => ?_⟩
  · show ((u.setQu q x).qu j).Loose
    rcases hq j with ⟨-, hj⟩ | ⟨-, hj⟩ <;> rw [hj]
    · exact hhold.1
    · exact hloose j
  · show ((u.setQu q x).qu j).Settled
    rcases hq j with ⟨-, hqj⟩ | ⟨hne, hqj⟩ <;> rw [hqj]
    · exact hhold.2
    · exact hsettled j fun hk => hk.elim hj hne

theorem State.Keeps.settle : s.Keeps k (t.settle q) := h.settleAfter (.refl _ t)

/-- A change of a queue that keeps its books, but for H. -/
theorem State.Keeps.modQu_loose (hk : k.loose q) (hx : (t.qu q).Loose → (g (t.qu q)).Loose) : s.Keeps k (t.modQu q g) :=
  h.setQu hx (.inl hk)

theorem State.Keeps.modQu_settle (hx : (t.qu q).Loose → (g (t.qu q)).Loose) : s.Keeps k ((t.modQu q g).settle q) :=
  h.settleAfter ((State.Keeps.refl _ t).modQu_loose (.inr rfl) hx)

theorem State.Keeps.jumpN : s.Keeps k (State.jumpN i t q) := by
  induction i generalizing t with
  | zero => exact h
  | succ i ih =>
    rw [State.jumpN]
    split
    · exact h
    · exact ih (h.modQu_settle fun hl => hl.jump _)

theorem State.Keeps.jumpLost : s.Keeps k (t.jumpLost q) := h.jumpN

theorem State.Keeps.demand : s.Keeps k (t.demand i) := h.same

theorem State.Keeps.nextOrder : s.Keeps k t.nextOrder := h.same

theorem State.Keeps.readStave {ecc : Ecc} : s.Keeps k (t.readStave q i ecc) := by
  unfold State.readStave
  dsimp only
  split
  · exact h.modQu.count
  · split
    · exact h.count
    · exact h

theorem State.Keeps.enterStave : s.Keeps k (t.enterStave q i ecc).1 := by
  unfold State.enterStave
  split
  · exact h
  · exact h.readStave.modQu.demand

theorem State.Keeps.takeSlots (hk : k.loose q) : s.Keeps k (t.takeSlots i q ecc).2.2 := by
  induction i generalizing t ecc with
  | zero => exact h
  | succ i ih =>
    have hg : s.Keeps k ((t.jumpLost q).enterStave q (((t.jumpLost q).qu q).r.toNat / 32) ecc).1 := h.jumpLost.enterStave
    rw [State.takeSlots]
    dsimp only
    split
    · exact hg
    · next hv => exact ih (hg.setQu (fun hl => hl.advance hv) (.inl hk))

theorem State.Keeps.takeSlots_settle : s.Keeps k ((t.takeSlots i q ecc).2.2.settle q) :=
  h.settleAfter ((State.Keeps.refl _ t).takeSlots (.inr rfl))

theorem State.Keeps.setPo {x : Port} : s.Keeps k (t.setPo n x) := h.same

theorem State.Keeps.modPo {g : Port → Port} : s.Keeps k (t.modPo n g) := h.same

theorem State.Keeps.setCh {x : Chan} : s.Keeps k (t.setCh c x) := h.same

theorem State.Keeps.modCh {g : Chan → Chan} : s.Keeps k (t.modCh c g) := h.same

theorem State.Keeps.crossReader : s.Keeps k (t.crossReader q) := by
  unfold State.crossReader
  split
  · exact h
  · exact h.modPo

theorem State.Keeps.applyPend : s.Keeps k (t.applyPend q) := by
  unfold State.applyPend
  split
  · exact h
  · next hc => exact (h.nextOrder.modQu_settle fun hl => hl.applyMark hc).jumpLost.scale.crossReader

theorem State.Keeps.commitMark : s.Keeps k (t.commitMark q) := (h.nextOrder.modQu_settle fun hl => hl.dropMark).scale

/-- A mark command that waits, or is applied at once (R165, R166). -/
theorem State.Keeps.markPending {d : MarkCmd} (hd : d = .mark → (t.qu q).marks.length ≠ 4) :
    s.Keeps k (t.setQu q { t.qu q with markPend := some d }) :=
  h.setQu (fun hl => hl.pending d hd) (.inr fun _ hs => hs)

theorem State.Keeps.markCmd : s.Keeps k (t.markCmd q) := by
  unfold State.markCmd
  dsimp only
  split
  · exact h.count
  · split
    · exact h.count
    · next hlen => exact .ite (h.markPending fun _ => hlen).applyPend (h.markPending fun _ => hlen)

theorem State.Keeps.rewindCmd : s.Keeps k (t.rewindCmd q i) := by
  unfold State.rewindCmd
  dsimp only
  split
  · exact h.count
  · exact .ite (h.markPending (d := .rewind i) nofun).applyPend (h.markPending (d := .rewind i) nofun)

theorem State.Keeps.commitCmd : s.Keeps k (t.commitCmd q) := by
  unfold State.commitCmd
  dsimp only
  exact .ite h.count h.commitMark

theorem State.Keeps.checkParity {vs : List Slot9} : s.Keeps k (t.checkParity q vs) := .ite h.count h

omit h in
/-- Where slots are committed, H and what it follows stay. -/
theorem Queue.Settled.push {x : Queue} (hx : x.Settled) (vs : List Slot9) (cut : Bool) : (x.push vs cut).Settled := by
  have h := x.push_shape vs cut
  simp only [Queue.shape, Queue.Shape.mk.injEq] at h
  obtain ⟨-, hr, hh, -, -, -, -, hm, -, -⟩ := h
  rw [Queue.Settled, hh, hm, hr]
  exact hx

/-- Slots committed, with what the commit does beside (R123, R194). -/
theorem State.Keeps.modQu_push {vs : List Slot9} {cut : Bool} (hg : (g (t.qu q)).shape = ((t.qu q).push vs cut).shape) :
    s.Keeps k (t.modQu q g) :=
  h.setQu (fun hl => (hl.push vs cut).of_shape hg) (.inr fun _ hs => (hs.push vs cut).of_shape hg)

theorem State.Keeps.commitDone {d : DoneStave} : s.Keeps k (t.commitDone d) := by
  unfold State.commitDone
  dsimp only
  refine (State.Keeps.modQu_push (vs := d.slots) (cut := d.last.isSome || d.flush) h.demand ?_).checkParity.jumpLost.scale
  split
  · split
    · rw [Queue.closeSeg_shape, Queue.addSeg_shape]
    · rw [Queue.addSeg_shape]
  · rfl

theorem State.Keeps.commitStave {d : DoneStave} : s.Keeps k (t.commitStave n d) := h.modPo.commitDone

theorem State.Keeps.commitNext : s.Keeps k (t.commitNext n) := by
  unfold State.commitNext
  split
  · exact h
  · exact h.commitStave

theorem State.Keeps.commitWaiting : s.Keeps k (t.commitWaiting i n q) := by
  induction i generalizing t with
  | zero => exact h
  | succ i ih =>
    rw [State.commitWaiting]
    split
    · exact h
    · exact ih h.commitStave

theorem State.Keeps.flushPort : s.Keeps k (t.flushPort q n) := by
  unfold State.flushPort
  dsimp only
  split
  · exact h
  · exact h.setPo.count.commitWaiting

theorem State.Keeps.flush : s.Keeps k (t.flush q) := (h.foldl (fun g _ => g.flushPort) allP).scale

end Steps

end Sys2Proof.Machine
end

section
/-!
SUPPORT, O3, O4 and O6. `State.Keeps` through Azlin, the channels, spill and refill, the Yarder and Carding.
-/

-- The theorems one after another: side by side they take more threads than the check allows.
set_option Elab.async false

namespace Sys2Proof.Machine

section Links

variable {k : Slack} {s t : State} (h : s.Keeps k t)
variable {q : QId} {c : YId} {e : LinkEnd} {i j : Nat} {ecc : List Ecc} {vs : List Slot9} {ctl : BitVec 36}
  {data : List (BitVec 36)} {before : List (List (BitVec 36))} {f g : Bool} {v : Word} {r : Req} {x y : Nat} {seed : Word}

include h

/-! ### The Azlin link -/

theorem State.Keeps.setOut {x : OutLink} : s.Keeps k (t.setOut x) := h.same

theorem State.Keeps.setIn {x : InLink} : s.Keeps k (t.setIn x) := h.same

theorem State.Keeps.chainCommit : s.Keeps k (t.chainCommit q vs f g) := by
  unfold State.chainCommit
  dsimp only
  refine (State.Keeps.modQu_push (vs := vs) (cut := g) h.demand ?_).checkParity.jumpLost.scale
  rw [Queue.parse_shape, Queue.poisonFrom_shape]

theorem State.Keeps.frameDiscard : s.Keeps k t.frameDiscard := by
  unfold State.frameDiscard
  exact h.setIn.count

theorem State.Keeps.rxStave : s.Keeps k (t.rxStave ctl data) := by
  unfold State.rxStave
  dsimp only
  split
  · exact h
  split
  · exact h.frameDiscard
  split
  · exact h.setIn
  split
  · split
    · exact h.setIn.setIn.chainCommit
    · exact h.setIn.setIn.count.scale
  split
  · exact h.setIn.count
  · exact h.setIn.frameDiscard

theorem State.Keeps.peerSeen : s.Keeps k (t.peerSeen ctl) := by
  unfold State.peerSeen
  dsimp only
  split
  · exact h.setIn.count
  · exact h.setIn

theorem State.Keeps.rxLink : s.Keeps k (t.rxLink i ctl) := by
  unfold State.rxLink
  dsimp only
  split
  · exact h
  split
  · exact h.frameDiscard
  split
  · exact h
  split
  · exact h.peerSeen
  split
  · exact h.peerSeen.setIn.scaleAll
  · exact h.peerSeen.setIn.scaleAll
  · exact h.peerSeen

theorem State.Keeps.linkGrant : s.Keeps k (t.linkGrant q) := by
  unfold State.linkGrant
  dsimp only
  split
  · exact h.setIn.scale
  · exact h

theorem State.Keeps.creditSend : s.Keeps k t.creditSend := by
  unfold State.creditSend
  dsimp only
  split
  · exact h.setIn
  · exact h

theorem State.Keeps.drainResend : s.Keeps k (t.drainResend before) := by
  unfold State.drainResend
  dsimp only
  split
  · exact h
  split
  · exact h
  · exact h.setOut.demand.countN

theorem State.Keeps.resync : s.Keeps k (t.resync f) := State.Keeps.drainResend (t := t.sendResync f) h.setOut

theorem State.Keeps.rxCredit {b : BitVec 38} : s.Keeps k (t.rxCredit b) := by
  unfold State.rxCredit
  exact .ite h (.ite h.count (.ite h.setOut.resync (.ite h.setOut.drainResend (.ite h.setOut.drainResend h.setOut.resync))))

theorem State.Keeps.staveSend : s.Keeps k (t.staveSend q ecc) := by
  unfold State.staveSend
  dsimp only
  split
  · have hslots : s.Keeps k (((State.demand
        { (t.takeSlots (t.sendSize q) q ecc).2.2 with
          gov := { (t.takeSlots (t.sendSize q) q ecc).2.2.gov with acc8 := t.gov.acc8 } } 8)).settle q) :=
      h.settleAfter (State.Keeps.demand (State.Keeps.same (State.Keeps.takeSlots (k := k.at q) (.refl _ t) (.inr rfl))))
    exact hslots.setOut.jumpLost.scale
  · exact h

theorem State.Keeps.resyncAgain : s.Keeps k t.resyncAgain := by
  unfold State.resyncAgain
  dsimp only
  exact .ite h.resync h

theorem State.Keeps.linkLoss : s.Keeps k (t.linkLoss e) := by
  unfold State.linkLoss
  dsimp only
  split <;> split
  · exact State.Keeps.count h.same
  · exact h
  · exact State.Keeps.count h.same
  · exact h

theorem State.Keeps.linkTrain : s.Keeps k (t.linkTrain e f) := by
  unfold State.linkTrain
  dsimp only
  split
  · exact .ite h.setOut h
  · exact .ite h.setIn h

theorem State.Keeps.linkUp : s.Keeps k (t.linkUp e) := by
  unfold State.linkUp
  dsimp only
  split <;> split
  · exact State.Keeps.drainResend h.same
  · exact h
  · exact h.same
  · exact h

theorem State.Keeps.linkReset : s.Keeps k (t.linkReset f g) := by
  unfold State.linkReset
  dsimp only
  have hout : s.Keeps k (if f && t.outEnabled && t.running then t.setOut t.azl.out.toTrain else t) := .ite h.setOut h
  exact .ite hout.setIn hout

theorem State.Keeps.acfgCommit : s.Keeps k (t.acfgCommit v) := by
  rw [State.acfgCommit_eq]
  exact h.same

theorem State.Keeps.ainqCommit : s.Keeps k (t.ainqCommit v) := State.Keeps.scaleAll h.same

/-! ### Channels: requests, bursts, sweeps and resets -/

theorem State.Keeps.handOver {d : ReqKind} : s.Keeps k (t.handOver d q i c j) := by
  unfold State.handOver
  exact h.modCh.nextOrder

theorem State.Keeps.finishReq : s.Keeps k (t.finishReq c r) := by
  unfold State.finishReq
  exact .ite h.setCh.count h.setCh

theorem State.Keeps.playBurst {b : Burst} : s.Keeps k (t.playBurst c b) := by
  unfold State.playBurst
  exact .ite h.setCh.count h.setCh

theorem State.Keeps.testBursts : s.Keeps k (t.testBursts i c) := by
  induction i generalizing t with
  | zero => exact h
  | succ i ih => exact ih h.playBurst

theorem State.Keeps.overwrite : s.Keeps k (t.overwrite c i j x y seed) := by
  unfold State.overwrite
  extract_lets o lay
  exact h.mapQueues (g := fun x => { x with billets := x.billets.map (lay x) }) (fun _ => rfl) rfl

theorem State.Keeps.scratch : s.Keeps k (t.scratch c) := h.overwrite

theorem State.Keeps.trigger : s.Keeps k (t.trigger c) := by
  unfold State.trigger
  dsimp only
  split
  · exact h
  split
  · exact h.setCh.nextOrder
  · exact h.setCh.nextOrder
  · split
    · exact .ite h.setCh.nextOrder h
    · exact h
  · exact h

theorem State.Keeps.cardingLock : s.Keeps k t.cardingLock := by
  unfold State.cardingLock
  exact .ite h.takeLock h

theorem State.Keeps.cardingFree : s.Keeps k t.cardingFree := by
  unfold State.cardingFree
  exact .ite h.freeLock h

theorem State.Keeps.beginSweep {d : SweepFor} : s.Keeps k (t.beginSweep c d) := by
  unfold State.beginSweep
  exact h.cardingLock.modCh

theorem State.Keeps.cardingOver : s.Keeps k t.cardingOver := by
  have h₁ : s.Keeps k { t with boot := { t.boot with carding := false, trained := true } } := h.same
  have h₂ : s.Keeps k { t with boot := { t.boot with carding := false, trained := true, stage := max t.boot.stage 7 } } :=
    h.same
  unfold State.cardingOver
  exact .ite h₁.cardingFree h₂.govRenew.same

theorem State.Keeps.abortReqs : s.Keeps k (t.abortReqs c) := by
  unfold State.abortReqs
  exact (h.foldl (fun g q => g.modQu) allQ).modCh

theorem State.Keeps.chanReset : s.Keeps k (t.chanReset c f) := by
  have hreset : s.Keeps k (t.enterReset c f) := by
    unfold State.enterReset
    exact h.abortReqs.modCh.nextOrder
  cases f with
  | false => rw [State.chanReset_keep]; exact hreset.chanChanged
  | true =>
    rw [State.chanReset_drop]
    refine (hreset.foldl (fun g q => ?_) allQ).chanChanged
    unfold State.loseBoom
    exact g.modQu.jumpLost

theorem State.Keeps.dropHold : s.Keeps k (t.dropHold c) := by
  unfold State.dropHold
  dsimp only
  exact .ite h.modCh.beginSweep h.modCh

theorem State.Keeps.lockLeaves {l : LockId} {p : Path} : s.Keeps k (t.lockLeaves l p) := by
  unfold State.lockLeaves
  dsimp only
  split
  · exact h.freeLock.modPath
  · exact h.freeLock
  · exact h.freeLock.dropHold.dropHold

/-! ### Spill and refill -/

theorem State.Keeps.spillRequest : s.Keeps k (t.spillRequest q) := by
  unfold State.spillRequest
  split
  · exact h
  · dsimp only
    exact .ite h h.modQu.handOver.scale

theorem State.Keeps.spillAck : s.Keeps k (t.spillAck c q) := by
  unfold State.spillAck
  split
  · exact h
  · dsimp only
    split
    · exact h.finishReq.nextOrder.scale
    · exact h.finishReq.nextOrder.modQu.scale

theorem State.Keeps.refillRequest : s.Keeps k (t.refillRequest q) := by
  unfold State.refillRequest
  split
  · exact h
  · dsimp only
    exact .ite h h.modQu.handOver.scale

theorem State.Keeps.reask : s.Keeps k (t.reask i c) := by
  induction i generalizing t with
  | zero => exact h
  | succ i ih =>
    rw [State.reask]
    split
    · exact ih h.refillRequest
    · exact h

theorem State.Keeps.countBeats {d : Nat × Nat} : s.Keeps k (t.countBeats c d) := by
  unfold State.countBeats
  exact h.countN.countN

theorem State.Keeps.checkBeats {b : Billet} : s.Keeps k (t.checkBeats c q b i ecc) := by
  unfold State.checkBeats
  dsimp only
  refine (h.modQu fun x => ?_).countBeats
  rw [Queue.setEcc_shape, Queue.landStave_shape]

theorem State.Keeps.orphanArrival : s.Keeps k (t.orphanArrival c q r ecc) := by
  unfold State.orphanArrival
  dsimp only
  split
  · exact h
  split
  · exact h.demand.countBeats.modCh
  · exact h.demand.countBeats.finishReq.scale

theorem State.Keeps.staveArrival : s.Keeps k (t.staveArrival c q ecc) := by
  unfold State.staveArrival
  split
  · exact h
  split
  · exact h.orphanArrival
  split
  · exact h
  split
  · exact h
  dsimp only
  split
  · exact h
  split
  · exact h.demand.checkBeats.modCh.modQu.scale
  · refine State.Keeps.scale (State.Keeps.modQu h.demand.checkBeats.modCh.finishReq fun x => ?_)
    rw [Queue.freePassed_shape]
    rfl

/-! ### The Yarder -/

theorem State.Keeps.startRequest {d : Src} : s.Keeps k (t.startRequest c d) := by
  unfold State.startRequest
  dsimp only
  split
  · exact h
  · exact .ite h.setCh h

theorem State.Keeps.orphanRead {d : Ecc} : s.Keeps k (t.orphanRead r i d) := by
  unfold State.orphanRead
  exact .ite h.count (.ite h.count h)

theorem State.Keeps.spillRead : s.Keeps k (t.spillRead r ecc) := by
  unfold State.spillRead
  dsimp only
  split
  · exact h.orphanRead.orphanRead
  · exact h.readStave.readStave.modQu

theorem State.Keeps.burstIssue {ok : BitVec 34} : s.Keeps k (t.burstIssue c ok ecc) := by
  unfold State.burstIssue
  dsimp only
  split
  · exact h
  split
  · exact h
  split
  · exact .ite h.playBurst.demand.spillRead h.playBurst
  · exact h.playBurst

theorem State.Keeps.trackerEnd : s.Keeps k (t.trackerEnd c) := by
  unfold State.trackerEnd
  exact .ite h.setCh h

theorem State.Keeps.bucketTick : s.Keeps k (t.bucketTick c) := by
  unfold State.bucketTick
  exact .ite h.setCh h

theorem State.Keeps.refreshDue {kind : RefKind} : s.Keeps k (t.refreshDue c f kind) := by
  unfold State.refreshDue
  exact .ite h.setCh h

theorem State.Keeps.bootRest : s.Keeps k (t.bootRest c) := by
  unfold State.bootRest
  dsimp only
  split
  · exact State.Keeps.cardingOver h.same
  · exact h.same

theorem State.Keeps.selfRefresh : s.Keeps k (t.selfRefresh c) := by
  unfold State.selfRefresh
  exact .ite h.bootRest (.ite h.setCh h)

theorem State.Keeps.precharge {b : Fin 16} : s.Keeps k (t.precharge c b) := by
  unfold State.precharge
  exact .ite h.setCh h

/-! ### Carding -/

theorem State.Keeps.drainWindow : s.Keeps k (t.drainWindow c) := by
  unfold State.drainWindow
  split
  · exact h
  · exact .ite h.modCh.chanChanged h

theorem State.Keeps.forcedDrain : s.Keeps k (t.forcedDrain c) := by
  unfold State.forcedDrain
  split
  · exact h
  · exact .ite h.modCh.count.chanChanged h

theorem State.Keeps.drainDone : s.Keeps k (t.drainDone c) := by
  unfold State.drainDone
  exact .ite h (.ite h.setCh (.ite h.beginSweep h.setCh.chanChanged))

theorem State.Keeps.sweepStart : s.Keeps k (t.sweepStart c) := by
  unfold State.sweepStart
  split
  · dsimp only
    split
    · exact h
    split
    · exact h.modCh.beginSweep.chanChanged
    · exact h.modCh.beginSweep.chanChanged
  · exact h

theorem State.Keeps.trackRank {moves : List TrackMove} : s.Keeps k (t.trackRank c f moves) := by
  unfold State.trackRank
  dsimp only
  split <;> split
  · exact h.setCh.count
  · exact h.setCh
  · exact h.setCh.count.trigger
  · exact h.setCh.trigger

theorem State.Keeps.dqsTracking {moves : List TrackMove} : s.Keeps k (t.dqsTracking c f moves) := by
  unfold State.dqsTracking
  dsimp only
  split
  · exact h
  split
  · exact .ite h (.ite h.modCh.trackRank h.modCh)
  · exact .ite h h.modCh.trackRank

theorem State.Keeps.sweepDone {m : SweepData} : s.Keeps k (t.sweepDone c m) := by
  unfold State.sweepDone
  split
  · exact h
  split
  · exact h
  split
  extract_lets s₁ x' s₂ s₃ s₄ s₅ s₆
  have h₁ : s.Keeps k s₁ := .ite h.testBursts h
  have h₃ : s.Keeps k s₃ := .ite h₁.setCh.scratch h₁.setCh
  have h₄ : s.Keeps k s₄ := .ite h₃.count h₃
  have h₅ : s.Keeps k s₅ := .ite h₄ (.ite h₄.beginSweep h₄.cardingOver)
  have h₆ : s.Keeps k s₆ := .ite h₅.chanChanged.reask h₅
  exact State.Keeps.chanChanged (.ite h₆.cardingFree h₆)

theorem State.Keeps.freqsw {acc : Access} : s.Keeps k (t.freqsw acc c) := by
  unfold State.freqsw
  extract_lets s₁ x f y z
  have h₁ : s.Keeps k s₁ := h.compareAll
  split
  · exact h₁.reject
  split
  · exact h₁.reject
  · exact .ite h₁.setCh.nextOrder.chanChanged h₁.setCh

theorem State.Keeps.freqswComplete : s.Keeps k (t.freqswComplete c) := by
  unfold State.freqswComplete
  dsimp only
  split
  · exact h
  · exact .ite h (.ite (.ite h.testBursts.scratch.setCh.chanChanged h) h.setCh)

theorem State.Keeps.train : s.Keeps k (t.train c) := by
  unfold State.train
  exact .ite (.ite h (.ite h.beginSweep.nextOrder.chanChanged h.setCh.nextOrder)) h.trigger

theorem State.Keeps.ychanReset {acc : Access} : s.Keeps k (t.ychanReset acc c f) := by
  unfold State.ychanReset
  exact .ite h.reject h.chanReset

theorem State.Keeps.ycmd {acc : Access} : s.Keeps k (t.ycmd acc c v) := by
  unfold State.ycmd
  split
  · exact h
  · exact h.train
  · exact h.freqsw
  · exact h.ychanReset
  · exact h.ychanReset
  · exact h.reject

theorem State.Keeps.htctl : s.Keeps k (t.htctl c v) := by
  unfold State.htctl
  refine .ite ?_ ?_
  · unfold State.holdSet
    exact .ite h h.setCh.nextOrder
  · unfold State.holdClear
    exact .ite h (.ite h.setCh (.ite h.setCh.chanChanged h.setCh))

theorem State.Keeps.tapWrite {acc : Access} {d : TapReg} : s.Keeps k (t.tapWrite acc c d v) := by
  unfold State.tapWrite
  exact .ite h.reject (.ite h.reject h.setCh)

theorem State.Keeps.patternRun {acc : Access} : s.Keeps k (t.patternRun acc c) := by
  unfold State.patternRun
  exact .ite h.reject (.ite h.reject h.setCh.nextOrder)

theorem State.Keeps.patternDone {mism : List (BitVec 10)} : s.Keeps k (t.patternDone c mism) := by
  unfold State.patternDone
  dsimp only
  split
  · exact h
  · exact .ite h (.ite h.setCh h.setCh.overwrite)

theorem State.Keeps.ytreg {acc : Access} {base : BitVec 21} {len : BitVec 22} : s.Keeps k (t.ytreg acc c base len) := by
  unfold State.ytreg
  split
  · exact h.reject
  · exact h.modCh

theorem State.Keeps.tsetWrite {acc : Access} {d : Fin 15} : s.Keeps k (t.tsetWrite acc c f d v) := by
  unfold State.tsetWrite
  exact .ite h.reject (.ite h h.vset)

end Links

end Sys2Proof.Machine
end

section
/-!
SUPPORT, O3, O4 and O6. `State.Keeps` through the governor, the ports, time, the queues' commands and the Landing.
-/

-- The theorems one after another: side by side they take more threads than the check allows.
set_option Elab.async false

namespace Sys2Proof.Machine

section Ports

variable {k : Slack} {s t u : State} (h : s.Keeps k t)
variable {q : QId} {n m : PId} {c : YId} {i j : Nat} {ecc : List Ecc} {vs : List Slot9} {f g : Bool} {v : Word} {hi d : BitVec 36}
  {qa : BitVec 4} {fr : BitVec 2} {acc : Access} {ws : List Word} {off : Nat} {p : Path} {b : Bark} {cur : CurSeg}

include h

/-! ### The governor and the sensors -/

/-- Only the voltage code changes, between its limits (R439). -/
theorem State.Keeps.code (hu : u.vital = { t.vital with code := u.gov.code })
    (hcode : 3 ≤ t.gov.code → t.gov.code ≤ 15 → 3 ≤ u.gov.code ∧ u.gov.code ≤ 15) : s.Keeps k u := by
  have hg : s.Keeps k { u with gov := t.gov } := h.same (by
    simp only [State.vital, State.Vital.mk.injEq] at hu ⊢
    tauto)
  refine hg.trans ⟨rfl, .inl, fun hs => ?_⟩
  obtain ⟨hev, hseal, hslot, hheart, hlow, hhigh, hns, hfrac, hloose, hsettled⟩ := hs
  exact ⟨hev, hseal, hslot, hheart, (hcode hlow hhigh).1, (hcode hlow hhigh).2, hns, hfrac, hloose, hsettled⟩

/-- Only the nanoseconds and their fraction change, below a second and a nanosecond (R317). -/
theorem State.Keeps.time (hu : u.vital = { t.vital with ns := u.time.ns, frac := u.time.frac })
    (hns : u.time.ns < 1000000000) (hfrac : u.time.frac < unitsNs) : s.Keeps k u := by
  have hg : s.Keeps k { u with time := t.time } := h.same (by
    simp only [State.vital, State.Vital.mk.injEq] at hu ⊢
    tauto)
  refine hg.trans ⟨rfl, .inl, fun hs => ?_⟩
  obtain ⟨hev, hseal, hslot, hheart, hlow, hhigh, -, -, hloose, hsettled⟩ := hs
  exact ⟨hev, hseal, hslot, hheart, hlow, hhigh, hns, hfrac, hloose, hsettled⟩

/-- HEART changes, and is low in FATAL (R53). -/
theorem State.Keeps.heart (hu : u.vital = { t.vital with heart := u.dp.heart })
    (hheart : t.dp.fatal = true → t.dp.heart = false → u.dp.heart = false) : s.Keeps k u := by
  have hg : s.Keeps k { u with dp := { u.dp with heart := t.dp.heart } } := h.same (by
    simp only [State.vital, State.Vital.mk.injEq] at hu ⊢
    tauto)
  have hfatal : u.dp.fatal = t.dp.fatal := congrArg State.Vital.fatal hu
  refine hg.trans ⟨rfl, .inl, fun hs => ?_⟩
  obtain ⟨hev, hseal, hslot, hlowheart, hlow, hhigh, hns, hfrac, hloose, hsettled⟩ := hs
  exact ⟨hev, hseal, hslot, fun hf => hheart (hfatal ▸ hf) (hlowheart hf), hlow, hhigh, hns, hfrac, hloose, hsettled⟩

theorem State.Keeps.sense {x y z w : Int} : s.Keeps k (t.sense x y z w) := by
  unfold State.sense
  extract_lets mx b dp gov s₁
  have h₁ : s.Keeps k s₁ := h.same
  exact .ite h (.ite h₁.enterFatal.scaleAll (.ite h₁ (h₁.foldl (fun g _ => .ite g.trigger g) allY)))

theorem State.Keeps.scrub {ups : List Upset} : s.Keeps k (t.scrub ups) := by
  unfold State.scrub
  exact State.Keeps.scaleAll (State.Keeps.foldl (h.foldl (fun g _ => g.vset) ups) (fun g _ => g.compare) allRefs)

theorem State.Keeps.heartBeat : s.Keeps k (t.heartBeat f) := by
  unfold State.heartBeat
  dsimp only
  split
  · refine h.heart rfl fun hf _ => ?_
    simp [State.heartOn, hf]
  · exact h

omit h in
/-- R439, R440: one step of the governor leaves its code between 3 and 15. -/
theorem Gov.nextCode_bounds (x : Gov) (hlow : 3 ≤ x.code) (hhigh : x.code ≤ 15) : 3 ≤ x.nextCode ∧ x.nextCode ≤ 15 := by
  have hfloor : 3 ≤ x.effFloor ∧ x.effFloor ≤ 15 := by
    have : fld x.useFloor 0 4 < 16 := Nat.mod_lt _ (by decide)
    unfold Gov.effFloor
    omega
  have hceil : x.effFloor ≤ x.effCeil ∧ x.effCeil ≤ 15 := by
    have : fld x.useCeil 0 4 < 16 := Nat.mod_lt _ (by decide)
    unfold Gov.effCeil
    omega
  unfold Gov.nextCode stepToward
  simp only [Bool.and_eq_true, decide_eq_true_eq]
  repeat' split
  all_goals omega

theorem State.Keeps.interval {x y : Word} : s.Keeps k (t.interval x y) := by
  unfold State.interval
  refine .ite (State.Keeps.govRenew ?_) h
  refine h.code rfl fun hlow hhigh => ?_
  have hfloor : 3 ≤ (t.gov.measured x y t.freeCtr).effFloor ∧ (t.gov.measured x y t.freeCtr).effFloor ≤ 15 := by
    have : fld (t.gov.measured x y t.freeCtr).useFloor 0 4 < 16 := Nat.mod_lt _ (by decide)
    unfold Gov.effFloor
    omega
  show 3 ≤ t.codeNext _ ∧ t.codeNext _ ≤ 15
  unfold State.codeNext
  split
  · have hcode : (t.gov.measured x y t.freeCtr).code = t.gov.code := rfl
    unfold stepToward
    split <;> [skip; split] <;> omega
  · exact Gov.nextCode_bounds _ hlow hhigh

/-! ### Ports: pins, staging, enable and reset -/

theorem State.Keeps.mirror : s.Keeps k (t.mirror n hi) := .ite h.modPo h

theorem State.Keeps.idlePins : s.Keeps k (t.idlePins n) := by
  unfold State.idlePins
  extract_lets x f pins s₁
  have h₁ : s.Keeps k s₁ := h.setPo
  exact State.Keeps.mirror h₁.same

theorem State.Keeps.showFlags : s.Keeps k (t.showFlags n) := by
  unfold State.showFlags
  exact h.modPo.mirror

theorem State.Keeps.startPins : s.Keeps k (t.startPins n) := by
  unfold State.startPins
  exact .ite h (.ite h.setPo.mirror (.ite h.setPo.idlePins h.setPo.mirror))

theorem State.Keeps.startAllPins : s.Keeps k t.startAllPins := h.foldl (fun g _ => g.startPins) allP

theorem State.Keeps.poolCredits : s.Keeps k (t.poolCredits n m) := by
  unfold State.poolCredits
  exact h.setPo.setPo

theorem State.Keeps.pcaptWrite : s.Keeps k (t.pcaptWrite n v) := by
  unfold State.pcaptWrite
  exact .ite h.modPo.modPo h.modPo

theorem State.Keeps.closeNow : s.Keeps k (t.closeNow q b) := by
  unfold State.closeNow
  refine (h.modQu fun x => ?_).jumpLost.scale
  split
  · rw [Queue.closeSeg_shape]
    rfl
  · rfl

theorem State.Keeps.endSeg : s.Keeps k (t.endSeg n cur q f) := by
  unfold State.endSeg
  dsimp only
  split
  · split
    · exact h.setPo
    · exact h.setPo.closeNow
  · exact h.setPo

theorem State.Keeps.drainOne (hu : t.drainOne n = some u) : s.Keeps k u := by
  unfold State.drainOne at hu
  dsimp only at hu
  repeat' split at hu
  all_goals cases hu
  · exact h.setPo
  · exact h.setPo
  · exact h.setPo
  · exact h.setPo
  · exact h.setPo
  · exact h.setPo.modPo
  · exact h.setPo.endSeg

theorem State.Keeps.drainN : s.Keeps k (State.drainN i t n) := by
  induction i generalizing t with
  | zero => exact h
  | succ i ih =>
    rw [State.drainN]
    split
    · exact h
    · next hu => exact ih (h.drainOne hu)

theorem State.Keeps.drain : s.Keeps k (t.drain n) := h.drainN

theorem State.Keeps.drainAll : s.Keeps k t.drainAll := h.foldl (fun g _ => g.drain) allP

theorem State.Keeps.latchPort : s.Keeps k (t.latchPort n) := by
  unfold State.latchPort
  exact .ite (.ite h.modPo.poolCredits.modPo.drain (.ite h.modPo.modPo.startPins h.modPo)) h.modPo

theorem State.Keeps.applyIdleMarks : s.Keeps k (t.applyIdleMarks n) := h.foldl (fun g _ => .ite g.applyPend g) allQ

theorem State.Keeps.enablePort : s.Keeps k (t.enablePort n) := by
  unfold State.enablePort
  exact h.latchPort.modPo.startPins.scaleAll

theorem State.Keeps.disablePort : s.Keeps k (t.disablePort n) := by
  unfold State.disablePort
  exact h.modPo.modPo.drain.startPins.applyIdleMarks.drainAll.scaleAll

theorem State.Keeps.countDisc : s.Keeps k (t.countDisc n) := by
  unfold State.countDisc
  exact h.foldl (fun g _ => g.modQu) allQ

theorem State.Keeps.cutSegs : s.Keeps k (t.cutSegs n) := by
  unfold State.cutSegs
  refine h.foldl (fun g q => ?_) allQ
  split
  · exact g.closeNow
  · exact g

theorem State.Keeps.resetPort : s.Keeps k (t.resetPort n) := by
  unfold State.resetPort
  have h₁ : s.Keeps k (if (((t.countDisc n).cutSegs n).po n).en then ((t.countDisc n).cutSegs n).latchPort n
      else (t.countDisc n).cutSegs n) := .ite h.countDisc.cutSegs.latchPort h.countDisc.cutSegs
  exact (State.Keeps.ite h₁.modPo.modPo h₁.modPo).startPins.drainAll.scaleAll

theorem State.Keeps.pctlWrite : s.Keeps k (t.pctlWrite n v) := by
  unfold State.pctlWrite
  have h₁ : s.Keeps k (if bit v 0 && !(t.po n).en then t.enablePort n else if !bit v 0 && (t.po n).en then t.disablePort n
      else t) := .ite h.enablePort (.ite h.disablePort h)
  exact .ite h.modPo (.ite h₁.resetPort h₁)

/-! ### The QUEUE reset -/

theorem State.Keeps.showReset : s.Keeps k (State.showReset q t n) := .ite h.showFlags h

theorem State.Keeps.clearQueue : s.Keeps k (t.clearQueue q) := by
  unfold State.clearQueue
  extract_lets disc s₁ s₂
  have h₁ : s.Keeps k s₁ := h.same
  have h₂ : s.Keeps k s₂ := h₁.setQu (fun _ => (Queue.cleared_loose (s₁.qu q)).of_shape rfl) (.inr fun _ _ => rfl)
  exact State.Keeps.drainAll (h₂.clearLookahead.foldl (fun g _ => g.showReset) allP)

theorem State.Keeps.resetQueue : s.Keeps k (t.resetQueue q) := .ite h h.clearQueue

/-! ### Time, windows and corrections -/

theorem State.Keeps.evalWindows : s.Keeps k t.evalWindows := by
  unfold State.evalWindows
  exact State.Keeps.scaleAll h.same

theorem State.Keeps.countMissed {x : Nat} : s.Keeps k (t.countMissed x) := h.countN

theorem State.Keeps.setUtcOff : s.Keeps k (t.setUtcOff v) := by
  unfold State.setUtcOff
  exact (State.Keeps.countMissed h.same).evalWindows

theorem State.Keeps.applyUtc : s.Keeps k t.applyUtc := by
  unfold State.applyUtc
  exact .ite (State.Keeps.setUtcOff h.same) h

theorem State.Keeps.windowsNow : s.Keeps k t.windowsNow := h.applyUtc.evalWindows

theorem State.Keeps.winCommit {x : Fin 16} {w₀ w₁ w₂ w₃ : Word} : s.Keeps k (t.winCommit x w₀ w₁ w₂ w₃) := by
  unfold State.winCommit
  exact State.Keeps.evalWindows h.applyUtc.same

theorem State.Keeps.utcoffWrite : s.Keeps k (t.utcoffWrite v) := by
  unfold State.utcoffWrite
  exact (State.Keeps.ite h h.evalWindows).setUtcOff.applyUtc

theorem State.Keeps.utcArm {x : BitVec 48} : s.Keeps k (t.utcArm x) := by
  unfold State.utcArm
  exact State.Keeps.applyUtc h.applyUtc.same

theorem State.Keeps.setUtcNxt : s.Keeps k (t.setUtcNxt v) := h.applyUtc.same

theorem State.Keeps.utcCancel : s.Keeps k t.utcCancel := h.applyUtc.same

omit h in
theorem unitsNs_pos : 0 < unitsNs := by decide

omit h in
theorem Time.setTotal_ns_lt (x : Time) (w : Nat) : (x.setTotal w).ns < 1000000000 := Nat.mod_lt _ (by decide)

omit h in
theorem Time.setTotal_frac_lt (x : Time) (w : Nat) : (x.setTotal w).frac < unitsNs := Nat.mod_lt _ unitsNs_pos

theorem State.Keeps.stepTime {x : Int} : s.Keeps k (t.stepTime x) := by
  unfold State.stepTime
  extract_lets s₁ v₀ t₁ t₂ t₃
  have h₁ : s.Keeps k s₁ := h.evalWindows
  have hns : t₃.ns = t₁.ns := by unfold t₃; split <;> rfl
  have hfrac : t₃.frac = t₁.frac := by unfold t₃; split <;> rfl
  have h₃ : s.Keeps k { s₁ with time := t₃ } :=
    h₁.time rfl (by show t₃.ns < _; rw [hns]; exact Time.setTotal_ns_lt _ _)
      (by show t₃.frac < _; rw [hfrac]; exact Time.setTotal_frac_lt _ _)
  exact h₃.countMissed.evalWindows

theorem State.Keeps.correct {x : Int} : s.Keeps k (t.correct acc x f) := by
  unfold State.correct
  extract_lets s₁ r time s₂
  have h₁ : s.Keeps k s₁ := h.applyUtc.compare
  have h₂ : s.Keeps k s₂ := h₁.same
  clear_value s₁ r
  refine .ite h₁.reject ?_
  split
  · exact h₂.reject
  · exact .ite h₂.same h₂.stepTime

theorem State.Keeps.calCommit : s.Keeps k (t.calCommit acc) := by
  unfold State.calCommit
  extract_lets s₁ cal
  have h₁ : s.Keeps k s₁ := h.applyUtc
  clear_value s₁
  split
  · exact State.Keeps.reject h₁.same
  · exact h₁.correct

theorem State.Keeps.setCal {x : Cal} : s.Keeps k { t with cal := x } := h.same

theorem State.Keeps.calCancel : s.Keeps k t.calCancel := by
  unfold State.calCancel
  extract_lets s₁
  have h₁ : s.Keeps k s₁ := h.applyUtc
  split
  exact h₁.setCal

theorem State.Keeps.setPps {sec : BitVec 48} {ns : Nat} {x y : BitVec 8} {last : Option Nat} {miss : Bool} :
    s.Keeps k { t with time := { t.time with
      ppsSec := sec, ppsNs := ns, ppsEpoch := x, ppsSeq := y, ppsLast := last, ppsMiss := miss } } := h.same

theorem State.Keeps.ppsEdge : s.Keeps k t.ppsEdge := by
  unfold State.ppsEdge
  exact .ite h (.ite h.count h.setPps)

/-! ### The commands of the ports -/

theorem State.Keeps.pressCommit : s.Keeps k (t.pressCommit i n) := by
  induction i generalizing t with
  | zero => exact h
  | succ i ih =>
    rw [State.pressCommit]
    split
    · exact h
    split
    · exact h
    · exact ih h.commitStave.drainAll

theorem State.Keeps.acceptWord : s.Keeps k (t.acceptWord n q fr vs) := by
  unfold State.acceptWord
  exact (State.Keeps.ite h.setPo.drain.scaleAll h.setPo.scale).pressCommit

theorem State.Keeps.refuseWord {x : Option QId} : s.Keeps k (t.refuseWord n x) := by
  unfold State.refuseWord
  exact .ite h.modPo.count h.modPo

theorem State.Keeps.ownFull : s.Keeps k (t.ownFull n q) := h.modPo

theorem State.Keeps.showEdge : s.Keeps k (t.showEdge n q) := by
  unfold State.showEdge
  exact h.modPo.showFlags

theorem State.Keeps.edgeCame : s.Keeps k (t.edgeCame n) := by
  unfold State.edgeCame
  exact .ite h.modPo.drain.scaleAll h

theorem State.Keeps.ingressWord : s.Keeps k (t.ingressWord n f d hi qa fr) := by
  unfold State.ingressWord
  split
  · exact h
  extract_lets s₁ x y pins s₂ s₃ q dst vs ok s₄ err s₅ s₆ s₇ s₈
  have h₃ : s.Keeps k s₃ := .ite h.edgeCame.setPo.modPo h.edgeCame.setPo
  have h₄ : s.Keeps k s₄ := .ite h₃.acceptWord h₃.refuseWord
  have h₆ : s.Keeps k s₆ := .ite h₄.modPo.modPo h₄.modPo
  have h₇ : s.Keeps k s₇ := by
    dsimp only [s₇]
    clear_value ok dst
    split
    · exact h₆.ownFull
    · exact h₆
  exact .ite h₃.showEdge h₇.modPo.showEdge

theorem State.Keeps.steerSegment : s.Keeps k (t.steerSegment n) := by
  unfold State.steerSegment
  split
  · exact h
  · exact .ite h (.ite h.compareAll (State.Keeps.scaleAll h.compareAll.modPo.nextOrder.drain))

theorem State.Keeps.deliver {l : Launch} {x : Option Pos} : s.Keeps k (t.deliver n q l x ecc) := by
  unfold State.deliver
  extract_lets w mpar s₁ x' i₁
  have h₁ : s.Keeps k s₁ := by
    dsimp only [s₁]
    split
    · exact h.modQu
    · exact h
  clear_value s₁
  have htake : s₁.Keeps (k.at q) (s₁.takeSlots l.take q ecc).2.2 := State.Keeps.takeSlots (.refl _ s₁) (.inr rfl)
  generalize s₁.takeSlots l.take q ecc = taken at *
  obtain ⟨vs, rest, s₂⟩ := taken
  dsimp -zeta only
  extract_lets poison vs vs' s₃
  have h₃ : s.Keeps k (s₃.settle q) := h₁.settleAfter (.ite htake.count htake)
  exact h₃.jumpLost.scale.modPo.mirror

theorem State.Keeps.endLaunch : s.Keeps k (t.endLaunch q) := by
  unfold State.endLaunch
  split
  · exact .ite (State.Keeps.applyPend h.modQu) h
  · exact h

theorem State.Keeps.holdLow : s.Keeps k (t.holdLow n) := .ite h.modPo.mirror h

theorem State.Keeps.egressPins {x : QId} : s.Keeps k (t.egressPins n q x f g) := by
  unfold State.egressPins
  exact h.modPo.showEdge.holdLow

theorem State.Keeps.egressRead {fetch : Fetched} : s.Keeps k (t.egressRead n f qa fetch ecc) := by
  unfold State.egressRead
  split
  · exact h
  extract_lets q s₁ x short s₂ s₃ go s₄ p hi dv err s₅ s₆
  have h₁ : s.Keeps k s₁ := h.edgeCame
  have h₂ : s.Keeps k s₂ := .ite h₁.count h₁
  have h₃ : s.Keeps k s₃ := .ite h₂.jumpLost h₂
  have h₄ : s.Keeps k s₄ := by
    dsimp only [s₄]
    clear_value go
    split
    · exact h₃.deliver
    · exact h₃.idlePins
  have h₆ : s.Keeps k s₆ := .ite h₄.modPo.modPo h₄.modPo
  exact .ite h₁.idlePins.egressPins h₆.egressPins.endLaunch

theorem State.Keeps.crossFlags : s.Keeps k (t.crossFlags n) := .ite h.modPo.showEdge.holdLow h

theorem State.Keeps.clockResume : s.Keeps k (t.clockResume n) := .ite h.modPo.drain.scaleAll h

/-! ### Queues and the Landing -/

theorem State.Keeps.enableQueue : s.Keeps k (t.enableQueue q) := by
  unfold State.enableQueue
  exact (State.Keeps.clearLookahead h.nextOrder.modQu).scale

theorem State.Keeps.disableQueue : s.Keeps k (t.disableQueue q) := by
  unfold State.disableQueue
  exact State.Keeps.scale h.nextOrder.modQu

theorem State.Keeps.qctlEn : s.Keeps k (t.qctlEn acc q f) := by
  unfold State.qctlEn
  dsimp only
  split
  · split
    · exact h.compareAll.reject
    · exact h.compareAll.enableQueue
  · exact .ite h.disableQueue h

theorem State.Keeps.qctlMarks : s.Keeps k (t.qctlMarks q v) := by
  unfold State.qctlMarks
  split
  · exact h
  · exact h.markCmd
  · exact h.rewindCmd
  · exact h.commitCmd
  · exact h.count

theorem State.Keeps.qctl : s.Keeps k (t.qctl acc q v) := by
  unfold State.qctl
  exact .ite h.qctlEn.resetQueue.scale (State.Keeps.qctlMarks (.ite h.qctlEn.flush h.qctlEn))

theorem State.Keeps.markApply : s.Keeps k (t.markApply q) := .ite h.applyPend h

theorem State.Keeps.sampleAll : s.Keeps k t.sampleAll := h.foldl (fun g _ => g.modQu) allQ

theorem State.Keeps.readErrs {errs : List StaveErr} : s.Keeps k (t.readErrs errs) := h.foldl (fun g _ => g.readStave) errs

theorem State.Keeps.bankRotation {errs : List StaveErr} : s.Keeps k (t.bankRotation errs) := by
  unfold State.bankRotation
  exact .ite (State.Keeps.readErrs h.same) h

theorem State.Keeps.copyEnd {frames : List (QId × Nat)} {errs : List StaveErr} : s.Keeps k (t.copyEnd frames errs) := by
  unfold State.copyEnd
  exact .ite (State.Keeps.readErrs h.same).readErrs h

theorem State.Keeps.startFull : s.Keeps k t.startFull := by
  unfold State.startFull
  extract_lets s₁ s₂
  have h₁ : s.Keeps k s₁ := h.foldl (fun g _ => .ite g.resetQueue.scale g) allQ
  have h₂ : s.Keeps k s₂ := .ite h₁.takeLock h₁
  clear_value s₂
  exact h₂.mapQueues (g := fun x => { x with ecc := [] }) (fun _ => rfl) rfl

theorem State.Keeps.tcmd : s.Keeps k (t.tcmd acc v) := by
  unfold State.tcmd
  split
  · exact h
  · exact h.reject
  · unfold State.fullTest
    exact .ite h.reject (.ite h.reject h.startFull)
  · unfold State.landSweep
    exact .ite h.reject (.ite h.reject h.same)

theorem State.Keeps.retire {bad : BitVec 17} : s.Keeps k (t.retire bad) := by
  unfold State.retire
  exact State.Keeps.countN h.same

theorem State.Keeps.rotationFree : s.Keeps k t.rotationFree := .ite h.freeLock h

theorem State.Keeps.snapcmd : s.Keeps k (t.snapcmd p v) := by
  unfold State.snapcmd
  exact State.Keeps.modPath (.ite h.modPath h)

end Ports

end Sys2Proof.Machine
end

section
/-!
SUPPORT, O3, O4 and O6. `State.Keeps` through resets, reads, register writes and the direct page.
-/

-- The theorems one after another: side by side they take more threads than the check allows.
set_option Elab.async false

namespace Sys2Proof.Machine

/-! ### Queues and time through a reset -/

theorem Queue.devReset_loose (x : Queue) : x.devReset.Loose := Queue.reset_loose.of_shape rfl

theorem Queue.reset_settled : Queue.reset.Settled := rfl

theorem Queue.devReset_settled (x : Queue) : x.devReset.Settled := Queue.reset_settled.of_shape rfl

theorem State.reset_qu (q : QId) : State.reset.qu q = Queue.reset := by simp [State.qu, State.reset]

theorem State.qu_of_vmap {s u : State} {g : Queue → Queue} {q : QId} (hu : u.queues = vmap g s.queues) : u.qu q = g (s.qu q) := by
  simp [State.qu, hu]

theorem Queue.setThreshold_shape (x : Queue) (i : Nat) (v : Pos) : (x.setThreshold i v).shape = x.shape := by
  unfold Queue.setThreshold
  split <;> rfl

/-- The nanoseconds and their fraction lie within a second and a nanosecond. -/
def Time.InRange (x : Time) : Prop := x.ns < 1000000000 ∧ x.frac < unitsNs

theorem Time.InRange.setPass {x : Time} (hx : x.InRange) (p : Option Bool) : ({ x with pass := p } : Time).InRange := hx

theorem Time.InRange.advance {x : Time} (hx : x.InRange) (i j : Nat) (k : Int) :
    ({ x with ticks := i, adv := j, slew := k } : Time).InRange := hx

theorem Time.InRange.takeTsout {x : Time} (hx : x.InRange) (c : Prop) [Decidable c] :
    (if c then { x with tsoutNow := x.tsout, tsoutPend := none } else x).InRange := by split <;> exact hx

theorem Time.setTotal_inRange (x : Time) (w : Nat) : (x.setTotal w).InRange :=
  ⟨Time.setTotal_ns_lt x w, Time.setTotal_frac_lt x w⟩

theorem Time.edge_inRange (x : Time) : x.edge.InRange := by
  unfold Time.edge
  exact (((x.setTotal_inRange _).advance _ _ _).takeTsout _).setPass _
section Whole

variable {k : Slack} {s t u : State} (h : s.Keeps k t)
variable {q : QId} {n m : PId} {c : YId} {p : Path} {l : LockId} {b : Bank} {off i j word : Nat} {ws : List Word} {v : Word}
  {acc : Access} {f g en heart refused : Bool} {r : Option VRef} {flips : Flips} {hi : Option Word} {ups : List Upset}
  {bad : BitVec 17} {a : BitVec 7} {ok : Prop}

include h

/-! ### Resets -/

theorem State.Keeps.por (hk : k.ends) : s.Keeps k t.por := by
  refine h.trans ⟨rfl, fun _ => .inr hk, fun _ => ?_⟩
  have hcode : 3 ≤ State.reset.gov.code ∧ State.reset.gov.code ≤ 15 := by decide
  have htime : Time.reset.ns < 1000000000 ∧ Time.reset.frac < unitsNs := by decide
  exact ⟨rfl, fun _ => rfl, fun _ => rfl, nofun, hcode.1, hcode.2, htime.1, htime.2,
    fun q => (State.reset_qu q).symm ▸ Queue.reset_loose, fun q _ => (State.reset_qu q).symm ▸ Queue.reset_settled⟩

theorem State.Keeps.landTest : s.Keeps k (t.landTest bad) := by
  unfold State.landTest
  extract_lets fresh s₁
  have h₁ : s.Keeps k s₁ := State.Keeps.countN h.same
  clear_value s₁
  exact h₁.same

theorem State.Keeps.bootOn : s.Keeps k t.bootOn := by
  unfold State.bootOn
  have h₁ : s.Keeps k { t with chans := vmap (fun (x : Chan) => { x with phyClk := true }) t.chans } := h.same
  exact h₁.landTest.same

theorem State.Keeps.bootTrain : s.Keeps k t.bootTrain := by
  unfold State.bootTrain
  extract_lets s₁ boot s₂
  have h₁ : s.Keeps k s₁ := State.Keeps.takeLock h.same
  have h₂ : s.Keeps k s₂ := h₁.same
  exact .ite (State.Keeps.ite h₂.beginSweep h₂).scaleAll h

theorem State.Keeps.bootGo : s.Keeps k t.bootGo := .ite h.bootOn.scaleAll.bootTrain h

theorem State.Keeps.bootRun : s.Keeps k t.bootRun := by
  unfold State.bootRun
  exact .ite (State.Keeps.scaleAll h.same) h

theorem State.Keeps.warmChan : s.Keeps k (t.warmChan c) := by
  unfold State.warmChan
  exact .ite h (.ite h.setCh (.ite h.setCh.nextOrder h.setCh))

theorem State.Keeps.warmNext : s.Keeps k (t.warmNext i) := h.same

theorem State.Keeps.warmOn : s.Keeps k t.warmOn := .ite h.warmChan.warmNext h

theorem State.Keeps.warmVote : s.Keeps k (t.warmVote ups) :=
  State.Keeps.foldl (h.foldl (fun g _ => g.vset) _) (fun g _ => g.compare) porRefs

/-- The queues, the counters and FATAL of a warm device reset (Table 3.3). -/
theorem State.Keeps.devReset (hk : k.ends) : s.Keeps k t.devReset := by
  unfold State.devReset
  refine State.Keeps.scaleAll (State.Keeps.foldl (State.Keeps.countN ?_) (fun g _ => g.clearLookahead) allQ)
  refine h.trans ⟨rfl, fun _ => .inr hk, fun hs => ?_⟩
  refine ⟨rfl, hs.sealOnce, hs.slotOnce, nofun, hs.codeLow, hs.codeHigh, hs.ns, hs.frac, fun q => ?_, fun q _ => ?_⟩
  · rw [State.qu_of_vmap (s := t) rfl]
    exact Queue.devReset_loose _
  · rw [State.qu_of_vmap (s := t) rfl]
    exact Queue.devReset_settled _

theorem State.Keeps.warmReset (hk : k.ends) : s.Keeps k (t.warmReset p bad ups) := by
  unfold State.warmReset
  extract_lets s₁ boot s₂ s₃
  have h₁ : s.Keeps k s₁ := h.devReset hk
  clear_value s₁
  have h₂ : s.Keeps k s₂ := h₁.same
  have h₃ : s.Keeps k s₃ := h₂.warmVote
  clear_value s₃
  exact .ite (State.Keeps.scaleAll (State.Keeps.enterFatal h₃.same)) h₃.landTest.warmChan.warmNext.warmOn.scaleAll

theorem State.Keeps.gctlWrite : s.Keeps k (t.gctlWrite en heart) := by
  unfold State.gctlWrite
  extract_lets was dp s₁ s₂
  have h₁ : s.Keeps k s₁ := h.heart rfl fun _ hlow => by
    show (t.dp.heart && heart) = false
    rw [hlow, Bool.false_and]
  have h₂ : s.Keeps k s₂ := h₁.foldl (fun g _ => .ite g.disablePort.modPo g) allP
  exact .ite h₂.startAllPins.scaleAll (.ite h₁.startAllPins.scaleAll h₁)

theorem State.Keeps.govResume : s.Keeps k t.govResume := by
  unfold State.govResume
  exact .ite h h.govRenew.same

theorem State.Keeps.breakLock : s.Keeps k (t.breakLock p l) := .ite h.lockLeaves.count h

theorem State.Keeps.pathReset : s.Keeps k (t.pathReset p) := by
  unfold State.pathReset
  exact h.breakLock.breakLock.breakLock.modPath.chanChanged.bootTrain

theorem State.Keeps.refBack : s.Keeps k (t.refBack c) := by
  unfold State.refBack
  dsimp only
  exact .ite h.setCh (.ite (.ite h.setCh.warmChan h.setCh) (.ite h.setCh.modCh.trigger h.setCh.modCh))

theorem State.Keeps.refReturn : s.Keeps k t.refReturn := by
  unfold State.refReturn
  extract_lets time s₁
  have h₁ : s.Keeps k s₁ := h.same
  exact .ite h (.ite h₁ (.ite h₁.refBack.refBack.warmOn.chanChanged.bootTrain h₁.bootGo))

/-! ### Reads -/

theorem State.Keeps.latch : s.Keeps k (t.latch p b off) := by
  unfold State.latch
  exact .ite h.modPath (.ite h.modPath h)

theorem State.Keeps.flipRef : s.Keeps k (t.flipRef r flips) := by
  cases r with
  | none => exact h
  | some r => exact h.vset

theorem State.Keeps.readBank : s.Keeps k (t.readBank p b off) := by
  unfold State.readBank
  exact .ite h.modPath (State.Keeps.modPath (State.Keeps.latch h.compareAll))

theorem State.Keeps.readDirect : s.Keeps k (t.readDirect p off) := by
  unfold State.readDirect
  have h₁ : s.Keeps k (((Target.direct off).vref.toList).foldl State.compare t) := h.compareAll
  exact State.Keeps.modPath (.ite h₁.modPath h₁)

theorem State.Keeps.answerRead : s.Keeps k (t.answerRead p) := by
  unfold State.answerRead
  split
  · exact .ite h.modPath.readBank h
  · exact h

theorem State.Keeps.answerReads : s.Keeps k t.answerReads := h.answerRead.answerRead

theorem State.Keeps.hostRead : s.Keeps k (t.hostRead p word flips) := by
  unfold State.hostRead
  refine .ite h (.ite h.modPath ?_)
  dsimp only
  split
  · exact h.flipRef.modPath
  · exact h.flipRef.readDirect
  · exact .ite h.flipRef.modPath.answerRead h.flipRef.readBank

theorem State.Keeps.readTimeout : s.Keeps k (t.readTimeout p) := .ite h.modPath.count h

/-! ### The effects of register writes -/

theorem State.Keeps.qcfgWrite : s.Keeps k (t.qcfgWrite q v) := by
  unfold State.qcfgWrite
  have h₁ : s.Keeps k (t.modQu q fun x => x.putVoted 0 [v &&& 0x37]) := h.modQu fun x => x.putVoted_shape ..
  exact (State.Keeps.ite h₁.applyPend h₁).scaleAll

theorem State.Keeps.queueWrite : s.Keeps k (t.queueWrite acc q off ws) := by
  unfold State.queueWrite
  refine .ite (State.Keeps.scale (h.modQu fun x => x.setThreshold_shape ..)) ?_
  split
  · exact h.qctl
  · exact h.qcfgWrite
  · exact h.modQu fun x => x.putVoted_shape ..
  · exact h.modQu fun x => x.putVoted_shape ..
  · exact h.modQu fun x => x.putVoted_shape ..
  · exact h.modQu.scale
  · exact h.modQu
  · exact h.modQu
  · exact h.modQu
  · exact .ite h.modQu h
  · exact h

theorem State.Keeps.yardWrite : s.Keeps k (t.yardWrite f off ws) := by
  unfold State.yardWrite
  exact h.vset.vset

theorem State.Keeps.chanWrite : s.Keeps k (t.chanWrite acc c off ws) := by
  unfold State.chanWrite
  dsimp only
  split
  · exact h.modCh
  · split
    · exact h.modCh
    · exact h.ycmd
    · exact h.modCh
    · exact h.ytreg
    · exact h

theorem State.Keeps.discWrite : s.Keeps k (t.discWrite v) := by
  unfold State.discWrite
  have h₁ : s.Keeps k { t with time := { t.time with disc := VWord.of (v &&& 3), arm := bit v 4 } } := h.same
  exact .ite h₁.utcCancel h₁

theorem State.Keeps.timeWrite : s.Keeps k (t.timeWrite acc off ws) := by
  unfold State.timeWrite
  dsimp only
  split
  · exact h.discWrite
  · exact h.same
  · exact h.same
  · exact h.correct
  · exact h.utcoffWrite
  · exact h.setUtcNxt
  · exact h.utcArm
  · exact h.same
  · exact h

theorem State.Keeps.calWrite : s.Keeps k (t.calWrite acc off ws) := by
  unfold State.calWrite
  dsimp only
  split
  · exact h.setCal
  · exact h.setCal
  · exact h.setCal
  · exact h.setCal
  · exact .ite h.calCommit h
  · exact .ite h.calCancel h
  · exact h.setCal
  · exact h

theorem State.Keeps.azlWrite : s.Keeps k (t.azlWrite p off v) := by
  unfold State.azlWrite
  split
  · exact h.acfgCommit
  · exact h.ainqCommit
  · exact h.linkReset
  · exact h.modPath
  · exact h

theorem State.Keeps.landWrite : s.Keeps k (t.landWrite acc off v) := by
  unfold State.landWrite
  split
  · exact h.same
  · exact h.tcmd
  · exact h

theorem State.Keeps.govNext : s.Keeps k t.govNext := .ite h h.govRenew

theorem State.Keeps.govWrite : s.Keeps k (t.govWrite off v) := by
  unfold State.govWrite
  split
  · exact State.Keeps.govNext h.same
  · exact State.Keeps.govNext h.same
  · exact State.Keeps.govNext h.same
  · exact h.same
  · exact h

theorem State.Keeps.portWrite : s.Keeps k (t.portWrite n off v) := by
  unfold State.portWrite
  split
  · exact h.pctlWrite
  · exact h.modPo
  · exact .ite h.modPo h
  · exact h.modPo
  · exact .ite h.modPo h
  · exact h.pcaptWrite
  · exact h

theorem State.Keeps.phyWrite : s.Keeps k (t.phyWrite acc c off ws) := by
  unfold State.phyWrite
  dsimp only
  split
  · exact h.modCh
  · exact h.modCh
  · exact h.htctl
  · exact h.modCh
  · exact h.modCh
  · exact .ite h.patternRun h
  · split
    · exact h.tapWrite
    · exact h

theorem State.Keeps.effect : s.Keeps k (t.effect acc b off ws) := by
  unfold State.effect
  dsimp only
  split
  · exact h.queueWrite
  · exact h.portWrite
  · exact h.yardWrite
  · exact h.chanWrite
  · split
    · exact h.tsetWrite
    · exact h
  · exact h.phyWrite
  · exact h.timeWrite
  · exact h.calWrite
  · exact h.winCommit
  · exact h.azlWrite
  · exact h.landWrite
  · exact h.govWrite
  · exact h
  · exact h

/-! ### Commits, posted writes and the direct page -/

theorem State.Keeps.unstage : s.Keeps k (t.unstage p b off refused) := by
  unfold State.unstage
  exact .ite h.modPath h.modPath.modPath

theorem State.Keeps.lockRead : s.Keeps k (t.lockRead b off) := by
  unfold State.lockRead
  split
  · exact h.compare
  · exact h

theorem State.Keeps.commit : s.Keeps k (t.commit acc b off ws) := by
  unfold State.commit
  refine .ite h.lockRead.reject ?_
  split
  · exact h.lockRead.unstage.reject
  · exact h.lockRead.unstage.effect

theorem State.Keeps.coreWrite : s.Keeps k (t.coreWrite acc b off v) := by
  unfold State.coreWrite
  exact .ite h.reject (.ite h.modPath h.commit)

theorem State.Keeps.unstageOther : s.Keeps k (t.unstageOther p b off) := .ite h.modPath h

theorem State.Keeps.landPosted : s.Keeps k (t.landPosted acc b off v hi) := by
  unfold State.landPosted
  have h₁ : s.Keeps k (if t.dp.fatal then t else t.lockRead b off) := .ite h h.lockRead
  refine .ite h₁.reject ?_
  split
  · exact h₁.reject
  · exact h₁.unstageOther.effect

theorem State.Keeps.dropBusy : s.Keeps k (t.dropBusy acc) := h.reject

theorem State.Keeps.postWrite : s.Keeps k (t.postWrite acc b off v) := by
  unfold State.postWrite
  exact .ite h.dropBusy (.ite (.ite h.reject h.modPath) h.modPath)

theorem State.Keeps.landOne : s.Keeps k (t.landOne p) := by
  unfold State.landOne
  split
  · exact h
  · exact h.modPath.landPosted.answerReads

/-- A write of DP:GCTL leaves FATAL, with DEVRST = 1 alone (R425, R429). -/
theorem State.Keeps.gctl (hk : bit v 1 = true → k.ends) : s.Keeps k (t.gctl acc v bad ups) := by
  unfold State.gctl
  split
  · next hc => exact h.warmReset (hk (Bool.and_eq_true_iff.1 hc).1)
  · exact h.gctlWrite

theorem State.Keeps.lockWrite : s.Keeps k (t.lockWrite acc l v) := by
  unfold State.lockWrite
  exact .ite h.compare.reject (.ite h.compare.takeLock (.ite h.compare.freeLock.bootTrain h.compare.reject))

/-- The first write of DP:SEAL (R397). -/
theorem State.Keeps.sealWrite : s.Keeps k (t.sealWrite acc v) := by
  unfold State.sealWrite
  refine .ite h.reject (h.trans ⟨rfl, .inl, fun hs => ?_⟩)
  exact ⟨hs.events, nofun, hs.slotOnce, hs.heart, hs.codeLow, hs.codeHigh, hs.ns, hs.frac, hs.loose, hs.settled⟩

/-- The first write of DP:SLOTID (R397). -/
theorem State.Keeps.slotWrite : s.Keeps k (t.slotWrite acc v) := by
  unfold State.slotWrite
  refine .ite h.reject (h.trans ⟨rfl, .inl, fun hs => ?_⟩)
  exact ⟨hs.events, hs.sealOnce, nofun, hs.heart, hs.codeLow, hs.codeHigh, hs.ns, hs.frac, hs.loose, hs.settled⟩

theorem State.Keeps.evcntWrite : s.Keeps k (t.evcntWrite p v) := by
  unfold State.evcntWrite
  split
  · exact .ite h.setEv h
  · exact h

theorem State.Keeps.evackWrite : s.Keeps k (t.evackWrite p v) := by
  unfold State.evackWrite
  split
  · exact h.setEv
  · exact h

theorem State.Keeps.directWrite (hk : off = 2 → bit v 1 = true → k.ends) : s.Keeps k (t.directWrite acc off v bad ups) := by
  unfold State.directWrite
  refine .ite h.reject ?_
  split
  · exact h.gctl (hk rfl)
  · exact h.modPath
  · exact h.lockWrite
  · exact h.lockWrite
  · exact h.lockWrite
  · exact h.same
  · exact h.modPath
  · exact h.modPath
  · exact h.modPath
  · exact h.evcntWrite
  · exact h.evackWrite
  · exact h.snapcmd
  · exact h.sealWrite
  · exact h.slotWrite
  · exact h

theorem State.Keeps.bankWrite : s.Keeps k (t.bankWrite acc b off v) := by
  unfold State.bankWrite
  refine .ite h.postWrite ?_
  split
  · exact h
  · exact .ite h.coreWrite h

omit h in
/-- A word below the window is a word of the direct page. -/
theorem State.target_direct {s : State} (hd : s.target p word = .direct off) : word = off := by
  unfold State.target at hd
  split at hd
  · exact Target.direct.inj hd
  · split at hd <;> cases hd

theorem State.Keeps.busWrite (hk : word = 2 → bit v 1 = true → k.ends) : s.Keeps k (t.busWrite p word v) := by
  unfold State.busWrite
  refine .ite h ?_
  dsimp only
  split
  · next hd => exact .ite (h.directWrite fun ho => hk ((State.target_direct hd).trans ho)) h
  · exact h.bankWrite
  · exact h

theorem State.Keeps.acked : s.Keeps k (t.acked p word) := by
  cases p with
  | a => exact h
  | b =>
    unfold State.acked
    exact h.modPath

theorem State.Keeps.rowCommit : s.Keeps k (t.rowCommit p b off ws) := by
  unfold State.rowCommit
  exact .ite h.acked (.ite h.acked.reject h.acked.commit)

theorem State.Keeps.rowPost : s.Keeps k (t.rowPost p b off v) := by
  unfold State.rowPost
  exact .ite h.acked (.ite h.acked.dropBusy (.ite h.acked.landPosted.answerReads h.acked.postWrite))

theorem State.Keeps.rowDirect (hk : off = 2 → bit v 1 = true → k.ends) : s.Keeps k (t.rowDirect p off v bad ups) := by
  unfold State.rowDirect
  exact .ite h.acked (h.acked.directWrite hk)

theorem State.Keeps.refEdge : s.Keeps k t.refEdge := by
  unfold State.refEdge
  have h₁ : s.Keeps k { t with time := t.time.edge } := h.time rfl t.time.edge_inRange.1 t.time.edge_inRange.2
  exact .ite (State.Keeps.answerReads h₁.same) h

theorem State.Keeps.nacked : s.Keeps k t.nacked := h.modPath

/-- A sequential write: word 2 lies where the address has come to it. -/
theorem State.Keeps.seqWrite (hk : ∀ (j : Nat) (v : Word), ws[j]? = some v → a + BitVec.ofNat 7 j = 2 → bit v 1 = true → k.ends) :
    s.Keeps k (State.seqWrite ws t a) := by
  induction ws generalizing t a with
  | nil => exact h
  | cons v ws ih =>
    have hword : a.toNat = 2 → bit v 1 = true → k.ends := fun ha =>
      hk 0 v rfl (by simpa using BitVec.eq_of_toNat_eq (x := a) (y := 2) ha)
    refine ih (h.busWrite hword).acked fun j w hw ha => hk (j + 1) w (by simpa using hw) ?_
    rw [← ha]
    bv_omega

end Whole

end Sys2Proof.Machine
end

section
/-!
O3, O4 and O6. Every command keeps the invariant and the queue of commands, and FATAL where it may not end.
-/

-- The theorems one after another: side by side they take more threads than the check allows.
set_option Elab.async false

namespace Sys2Proof.Machine

/-! ### Every command -/

/-- The commands that can carry POR or a write of DP:GCTL with DEVRST = 1 (R42, R57, R425). -/
def EndsFatal (c : Instr) : Prop :=
  (∃ ns, c = .porstLow ns) ∨ (∃ x, c = .supplyFault x) ∨ (∃ p en h bad ups, c = .warmDeviceReset p en h bad ups) ∨
  (∃ p v, c = .registerWrite p 2 v ∧ v.getLsbD 1 = true) ∨
  (∃ v pec ending, c = .smbusWriteWord 2 v pec ending ∧ v.getLsbD 1 = true) ∨
  (∃ (w : BitVec 7) (vs : List Word) (odd : Bool) (k : Nat) (v : Word), c = .sequentialWrite w vs odd ∧ vs[k]? = some v ∧
    w + BitVec.ofNat 7 k = 2 ∧ v.getLsbD 1 = true)

section Commands

variable {k : Slack} {s t : State} (h : s.Keeps k t)
variable {n : PId} {q : QId} {c : YId} {p : Path} {l : LockId} {f g : Bool} {v : Word} {word : BitVec 7} {i : Nat}

include h

/-- FATAL is over where REFCLK's loss finds HEART low. -/
theorem State.Keeps.refclkLoss {u : State} (hu : execRefclkLoss t = .next u) : s.Keeps k u := by
  cases hu
  have h₁ : s.Keeps k { t with time := { t.time with refclk := false } } := h.same
  exact .ite (State.Keeps.chanChanged (h₁.heart rfl fun _ _ => rfl)) h₁

theorem State.Keeps.startupComplete {u : State} (hu : execStartupComplete t = .next u) : s.Keeps k u := by
  cases hu
  exact .ite (State.Keeps.scaleAll (State.Keeps.startAllPins (State.Keeps.cardingFree h.same))) h

theorem State.Keeps.warmResetComplete {u : State} (hu : execWarmResetComplete t = .next u) : s.Keeps k u := by
  cases hu
  exact .ite (State.Keeps.scaleAll (State.Keeps.startAllPins (State.Keeps.cardingFree (State.Keeps.govResume h.same)))) h

theorem State.Keeps.pathAReset {u : State} (hu : execPathAReset i t = .next u) : s.Keeps k u := by
  cases hu
  have h₁ : s.Keeps k (if t.powered then t.pathReset .a else t) := .ite h.pathReset h
  exact .ite h h₁.same

theorem State.Keeps.generalCall {cmd : BitVec 8} {u : State} (hu : execGeneralCallReset t cmd = .next u) : s.Keeps k u := by
  cases hu
  exact .ite (.ite h.pathReset.modPath h.modPath) h

theorem State.Keeps.lookaheadSample {u : State} (hu : execLookaheadSample t = .next u) : s.Keeps k u := by
  cases hu
  have h₁ := h.sampleAll
  generalize t.sampleAll = s₁ at *
  exact .ite h₁.same h

theorem State.Keeps.bankTestDone {u : State} (hu : execBankTestDone f t = .next u) : s.Keeps k u := by
  cases hu
  exact .ite (State.Keeps.count h.same) h

theorem State.Keeps.fullTestDone {bad : BitVec 17} {u : State} (hu : execFullTestDone bad t = .next u) : s.Keeps k u := by
  cases hu
  exact .ite (State.Keeps.rotationFree (State.Keeps.retire h.same)) h

theorem State.Keeps.windowClose {j : Fin 16} {u : State} (hu : execWindowClose j t = .next u) : s.Keeps k u := by
  cases hu
  split
  · exact h
  · exact .ite (State.Keeps.windowsNow h.same) h

theorem State.Keeps.tsOutPulseEnd {u : State} (hu : execTsOutPulseEnd t = .next u) : s.Keeps k u := by
  cases hu
  split
  · exact h
  · exact .ite h.same h

theorem State.Keeps.wrstall {u : State} (hu : execWrstall p t = .next u) : s.Keeps k u := by
  cases hu
  split
  · exact h
  · exact h.modPath.count.answerReads

theorem State.Keeps.setPointer {cmd : Option (BitVec 8)} {u : State} (hu : execSetPointer cmd t f = .next u) : s.Keeps k u := by
  cases hu
  cases cmd <;> exact .ite h.acked.nacked h.acked

theorem State.Keeps.alertResponse {u : State} (hu : execAlertResponse t = .next u) : s.Keeps k u := by
  cases hu
  exact .ite h.modPath h.modPath

theorem State.Keeps.leaseExpiry {u : State} (hu : execLeaseExpiry l t = .next u) : s.Keeps k u := by
  cases hu
  exact .ite h (.ite h.lockLeaves.chanChanged.bootTrain (.ite h.lockLeaves.chanChanged.bootTrain h))

theorem State.Keeps.registerRead {flips : Flips} {u : State} (hu : execRegisterRead p word f flips t = .next u) :
    s.Keeps k u := by
  cases hu
  cases p with
  | a => exact h.hostRead.scaleAll
  | b => exact h.hostRead.modPath.scaleAll

theorem State.Keeps.smbusWriteWord {pec : Option (BitVec 8)} {ending : WordEnd} {u : State}
    (hu : execSmbusWriteWord word v pec t ending = .next u) (hk : word.toNat = 2 → bit v 1 = true → k.ends) : s.Keeps k u := by
  cases hu
  dsimp only
  split
  · exact h.acked
  · exact h.acked.nacked
  · split
    · exact h.acked.busWrite hk
    · exact .ite (h.acked.busWrite hk) (.ite h.acked.nacked.count h.acked.nacked)

theorem State.Keeps.counterClear {r : ClearReg} {u : State} (hu : execCounterClear p r v t = .next u) : s.Keeps k u := by
  cases hu
  cases r with
  | qevt q => exact h.rowCommit
  | perrcnt n => exact h.rowPost
  | ptagmiss n => exact h.rowPost

end Commands

/-- Every command ends in a next state, which keeps what `Keeps` says. -/
theorem exec_keeps (c : Instr) (s : State) : ∃ t, exec c s = .next t ∧ s.Keeps (.tight (EndsFatal c)) t := by
  have h := State.Keeps.refl (.tight (EndsFatal c)) s
  cases c with
  | queueEnable | queueDisable | queueReset | flush | mark | rewind | commit | fullTest | sweep | train | freqsw | resetkeep
  | resetdrop | ytregWrite | yqosWrite | yctlWrite | hamWrite | rstout | rstin | acfgWrite | ainqWrite | timeCorrection
  | rateadjWrite | calCommit | calCancel | utcoffWrite | utcChangeArm | utccan | tsoutWrite | windowCommit =>
    exact ⟨_, rfl, h.rowCommit⟩
  | portEnable | portDisable | portReset | captureArm | hostTrainingHold | holdRelease | patternRun | tapWrite
  | timingSetWrite => exact ⟨_, rfl, h.rowPost⟩
  | snapshotTake | sealWrite | slotidWrite | evcntClear | evackWrite => exact ⟨_, rfl, h.rowDirect nofun⟩
  | lockWrite p l v => exact ⟨_, rfl, h.rowDirect (by cases l <;> nofun)⟩
  | deviceEnable p en heart => exact ⟨_, rfl, h.rowDirect fun _ hv => absurd hv (by cases en <;> cases heart <;> decide)⟩
  | warmDeviceReset p en heart bad ups =>
    exact ⟨_, rfl, h.rowDirect fun _ _ => .inr (.inr (.inl ⟨p, en, heart, bad, ups, rfl⟩))⟩
  | registerWrite p word v =>
    refine ⟨_, rfl, h.acked.busWrite fun hw hv => .inr (.inr (.inr (.inl ⟨p, v, ?_, hv⟩)))⟩
    rw [BitVec.eq_of_toNat_eq (x := word) (y := 2) hw]
  | smbusWriteWord word v pec ending =>
    refine ⟨_, rfl, h.smbusWriteWord rfl fun hw hv => .inr (.inr (.inr (.inr (.inl ⟨v, pec, ending, ?_, hv⟩))))⟩
    rw [BitVec.eq_of_toNat_eq (x := word) (y := 2) hw]
  | sequentialWrite word vals odd =>
    exact ⟨_, rfl, h.acked.seqWrite fun j v hj hw hv =>
      .inr (.inr (.inr (.inr (.inr ⟨word, vals, odd, j, v, rfl, hj, hw, hv⟩))))⟩
  | porstLow ns => exact ⟨_, rfl, .ite (h.por (.inl ⟨ns, rfl⟩)).same h⟩
  | supplyFault x =>
    have h₁ : s.Keeps (.tight (EndsFatal (.supplyFault x))) (s.setSupply x false) := h.same
    exact ⟨_, rfl, h₁.por (.inr (.inl ⟨x, rfl⟩))⟩
  | startUp st bad => exact ⟨_, rfl, .ite h (State.Keeps.bootRun h.same)⟩
  | supplyReturn x => exact ⟨_, rfl, .ite h (State.Keeps.bootRun h.same)⟩
  | pathAReset ns => exact ⟨_, rfl, h.pathAReset rfl⟩
  | msclLowTimeout => exact ⟨_, rfl, .ite h.pathReset h⟩
  | generalCallReset cmd => exact ⟨_, rfl, h.generalCall rfl⟩
  | refclkLoss => exact ⟨_, rfl, h.refclkLoss rfl⟩
  | refclkReturn => exact ⟨_, rfl, h.refReturn.answerReads⟩
  | sensorConversion => exact ⟨_, rfl, h.sense.bootGo.answerReads⟩
  | voteScrub ups => exact ⟨_, rfl, .ite h.scrub h⟩
  | heartToggle => exact ⟨_, rfl, h.heartBeat⟩
  | governorInterval => exact ⟨_, rfl, h.interval⟩
  | vcoreSample mv => exact ⟨_, rfl, .ite h.same h⟩
  | ingressWord => exact ⟨_, rfl, h.ingressWord⟩
  | steerSegment => exact ⟨_, rfl, h.steerSegment⟩
  | staveCommit n => exact ⟨_, rfl, .ite h.commitNext.drainAll.scaleAll h⟩
  | creditGrant n q => exact ⟨_, rfl, .ite h.modPo.drain.scaleAll h⟩
  | egressRead => exact ⟨_, rfl, h.egressRead⟩
  | flagCrossing => exact ⟨_, rfl, h.crossFlags⟩
  | portNoclk n => exact ⟨_, rfl, .ite h.modPo.applyIdleMarks h⟩
  | portClockResume => exact ⟨_, rfl, h.clockResume.answerReads⟩
  | syncDepthMeasure => exact ⟨_, rfl, .ite h.modPo h⟩
  | portResetComplete => exact ⟨_, rfl, .ite h.modPo.startPins.scaleAll h⟩
  | markApply => exact ⟨_, rfl, h.markApply⟩
  | lookaheadSample => exact ⟨_, rfl, h.lookaheadSample rfl⟩
  | queueResetComplete => exact ⟨_, rfl, .ite h.modQu.scale h⟩
  | spillRequest => exact ⟨_, rfl, h.spillRequest⟩
  | spillAck => exact ⟨_, rfl, h.spillAck⟩
  | refillRequest => exact ⟨_, rfl, h.refillRequest⟩
  | refillStaveArrival => exact ⟨_, rfl, h.staveArrival⟩
  | bankRotation => exact ⟨_, rfl, h.bankRotation⟩
  | rotationCopyEnd => exact ⟨_, rfl, h.copyEnd⟩
  | bankTestDone => exact ⟨_, rfl, h.bankTestDone rfl⟩
  | fullTestDone => exact ⟨_, rfl, h.fullTestDone rfl⟩
  | billetRequestStart => exact ⟨_, rfl, h.startRequest⟩
  | burstIssue => exact ⟨_, rfl, h.burstIssue⟩
  | trackerWindowEnd => exact ⟨_, rfl, h.trackerEnd⟩
  | tokenBucketTick => exact ⟨_, rfl, h.bucketTick⟩
  | refreshDue => exact ⟨_, rfl, h.refreshDue⟩
  | thermalChange => exact ⟨_, rfl, .ite h.modCh h⟩
  | selfRefreshEntry => exact ⟨_, rfl, h.selfRefresh⟩
  | drainWindow => exact ⟨_, rfl, h.drainWindow⟩
  | forcedDrain => exact ⟨_, rfl, h.forcedDrain⟩
  | drainDone => exact ⟨_, rfl, h.drainDone⟩
  | sweepStart => exact ⟨_, rfl, h.sweepStart.answerReads⟩
  | sweepDone => exact ⟨_, rfl, h.sweepDone.warmOn⟩
  | dqsTracking => exact ⟨_, rfl, h.dqsTracking.warmOn.answerReads⟩
  | zqCalibration => exact ⟨_, rfl, .ite h.setCh h⟩
  | patternRunDone => exact ⟨_, rfl, h.patternDone⟩
  | freqswComplete => exact ⟨_, rfl, h.freqswComplete.answerReads⟩
  | pageidlePrecharge => exact ⟨_, rfl, h.precharge⟩
  | staveFrame => exact ⟨_, rfl, h.rxStave⟩
  | keepalive => exact ⟨_, rfl, h.rxLink⟩
  | resync => exact ⟨_, rfl, h.rxLink⟩
  | restart => exact ⟨_, rfl, h.rxLink⟩
  | creditFrame => exact ⟨_, rfl, h.rxCredit⟩
  | staveSend => exact ⟨_, rfl, h.staveSend⟩
  | linkCreditGrant => exact ⟨_, rfl, h.linkGrant⟩
  | keepaliveSend => exact ⟨_, rfl, .ite h.setOut h⟩
  | creditFrameSend => exact ⟨_, rfl, h.creditSend⟩
  | resyncRetry => exact ⟨_, rfl, h.resyncAgain⟩
  | linkLoss => exact ⟨_, rfl, h.linkLoss⟩
  | linkTrainEntry => exact ⟨_, rfl, h.linkTrain⟩
  | linkUp => exact ⟨_, rfl, h.linkUp⟩
  | wsyncChange => exact ⟨_, rfl, .ite h.same h⟩
  | ppsEdge => exact ⟨_, rfl, h.ppsEdge⟩
  | ppsmissTimeout => exact ⟨_, rfl, .ite h.same h⟩
  | slewEnd => exact ⟨_, rfl, .ite h.refEdge h⟩
  | utcoffChange => exact ⟨_, rfl, .ite h.applyUtc h⟩
  | tsOutPulse => exact ⟨_, rfl, .ite h.same h⟩
  | windowEvaluate => exact ⟨_, rfl, .ite h.windowsNow h⟩
  | windowClose => exact ⟨_, rfl, h.windowClose rfl⟩
  | postedWriteLand => exact ⟨_, rfl, h.landOne⟩
  | wrstall => exact ⟨_, rfl, h.wrstall rfl⟩
  | rdto => exact ⟨_, rfl, h.readTimeout⟩
  | stallLimit => exact ⟨_, rfl, h.readTimeout⟩
  | setPointer => exact ⟨_, rfl, h.setPointer rfl⟩
  | alertResponse => exact ⟨_, rfl, h.alertResponse rfl⟩
  | leaseExpiry => exact ⟨_, rfl, h.leaseExpiry rfl⟩
  | counterClear => exact ⟨_, rfl, h.counterClear rfl⟩
  | hrstRise => exact ⟨_, rfl, h.same⟩
  | registerRead => exact ⟨_, rfl, h.registerRead rfl⟩
  | refclkEdge => exact ⟨_, rfl, h.refEdge⟩
  | startupComplete => exact ⟨_, rfl, h.startupComplete rfl⟩
  | warmResetComplete => exact ⟨_, rfl, h.warmResetComplete rfl⟩
  | tsOutPulseEnd => exact ⟨_, rfl, h.tsOutPulseEnd rfl⟩

theorem exec_inv {c : Instr} {s t : State} (hs : s.Inv) (ht : exec c s = .next t) : t.Inv := by
  obtain ⟨u, hu, hk⟩ := exec_keeps c s
  obtain rfl : u = t := by rw [hu] at ht; exact Host.Outcome.next.inj ht
  exact State.sound_tight_iff.1 (hk.sound (State.sound_tight_iff.2 hs))

end Sys2Proof.Machine

open Sys2Proof Sys2Proof.Machine

/-- Settles O3: a step is the front command's, and `exec_keeps` says that every command keeps the invariant. -/
theorem stepKeepsInvariant : Obligations.StepKeepsInvariant := by
  intro s t hs ht
  unfold step at ht
  split at ht
  · exact Host.Outcome.next.inj ht ▸ hs
  · next c rest _ =>
    have hrest : ({ s with pending := rest } : State).Inv :=
      ⟨hs.events, hs.sealOnce, hs.slotOnce, hs.heart, hs.codeLow, hs.codeHigh, hs.ns, hs.frac, hs.marks, hs.books⟩
    exact exec_inv hrest ht

/-- Settles O4: `exec_keeps` names the next state of every command. -/
theorem commandsComplete : Obligations.CommandsComplete := by
  intro c s
  obtain ⟨t, ht, hk⟩ := exec_keeps c s
  exact ⟨t, ht, hk.pending⟩

/-- Settles O6: FATAL stays but under a condition that names the commands, `EndsFatal`. -/
theorem fatalEndsByResetAlone : Obligations.FatalEndsByResetAlone := by
  intro c s t ht hs hfatal
  obtain ⟨u, hu, hk⟩ := exec_keeps c s
  obtain rfl : u = t := by rw [hu] at ht; exact Host.Outcome.next.inj ht
  exact (hk.fatal hs).resolve_left (by simp [hfatal])
end

section
/-!
O1, O2, O53, O58, O59 and O30. The step, the reset state, and the words of the direct page that a path writes for itself.
-/

-- The theorems one after another: side by side they take more threads than the check allows.
set_option Elab.async false

namespace Sys2Proof.Machine

variable (s : State)

/-! ### Writes of the direct page -/

/-- A path that writes a word of the direct page: the write acts on the state in which path B has acknowledged it. -/
theorem State.rowDirect_of_writable {p : Path} (h : s.writable p = true) (off : Nat) (v : Word) (bad : BitVec 17)
    (ups : List Upset) : ∃ u, s.pathFrame u ∧ s.rowDirect p off v bad ups =
      u.directWrite ⟨p, off, (s.path p).bankSel.toNat⟩ off v bad ups := by
  have hu := s.acked_pathFrame p off
  have hw : (s.acked p off).writable p = true := (hu.writable p).trans h
  exact ⟨_, hu, by simp [State.rowDirect, hw]⟩

theorem State.hostWrites_writable {s : State} {p : Path} (h : s.hostWrites p) : s.writable p = true := h.1

theorem State.hostWrites_fatal {s : State} {p : Path} (h : s.hostWrites p) : s.dp.fatal = false := h.2

/-- Outside FATAL a word of the direct page takes its write. -/
theorem State.rowDirect_of_hostWrites {p : Path} (h : s.hostWrites p) (off : Nat) (v : Word) (bad : BitVec 17)
    (ups : List Upset) : ∃ u, s.pathFrame u ∧ u.dp.fatal = false ∧ s.rowDirect p off v bad ups =
      u.directWrite ⟨p, off, (s.path p).bankSel.toNat⟩ off v bad ups := by
  obtain ⟨u, hu, heq⟩ := s.rowDirect_of_writable h.1 off v bad ups
  exact ⟨u, hu, by rw [hu.dp]; exact h.2, heq⟩

theorem State.exec_sealWrite {p : Path} (h : s.hostWrites p) (v : Word) :
    ∃ u, s.pathFrame u ∧ exec (.sealWrite p v) s = .next (u.sealWrite ⟨p, 0x1E, (s.path p).bankSel.toNat⟩ v) := by
  obtain ⟨u, hu, hfatal, heq⟩ := s.rowDirect_of_hostWrites h 0x1E v s.boot.badBanks []
  refine ⟨u, hu, congrArg _ (heq.trans ?_)⟩
  simp [State.directWrite, hfatal]

theorem State.exec_slotidWrite {p : Path} (h : s.hostWrites p) (v : Word) :
    ∃ u, s.pathFrame u ∧ exec (.slotidWrite p v) s = .next (u.slotWrite ⟨p, 0x1F, (s.path p).bankSel.toNat⟩ v) := by
  obtain ⟨u, hu, hfatal, heq⟩ := s.rowDirect_of_hostWrites h 0x1F v s.boot.badBanks []
  refine ⟨u, hu, congrArg _ (heq.trans ?_)⟩
  simp [State.directWrite, hfatal]

/-- A change of the direct page's shared words alone is within the frame. -/
theorem State.pathFrame.setDp {s u : State} (h : s.pathFrame u) (d : Direct) : s.hostFrame { u with dp := d } { s with dp := d } := by
  obtain ⟨⟨_, _, rfl⟩, hcore⟩ := h
  exact ⟨rfl, hcore⟩

theorem State.pathFrame.setEvents {s u : State} (h : s.pathFrame u) (e : Table EvCell) :
    s.hostFrame { u with events := e } { s with events := e } := by
  obtain ⟨⟨_, _, rfl⟩, hcore⟩ := h
  exact ⟨rfl, hcore⟩

theorem State.pathFrame.ev {s u : State} (h : s.pathFrame u) (c i : Nat) : u.ev c i = s.ev c i := by
  rw [State.ev, State.ev, h.events]

/-! ### Event counters -/

theorem State.ev_setEv (h : s.eventsWf) (c i : Nat) (x : EvCell) : (s.setEv c i x).ev c i = x := Table.get_put _ _ _ _ h

theorem State.ev_setEv_ne (c i : Nat) (x : EvCell) {c' i' : Nat} (h : evKey c' i' ≠ evKey c i) :
    (s.setEv c i x).ev c' i' = s.ev c' i' := Table.get_put_ne _ _ _ _ _ h

theorem State.pathFrame.eventsWf {s u : State} (h : s.pathFrame u) (hs : s.eventsWf) : u.eventsWf := by
  rw [State.eventsWf, h.events]
  exact hs

/-- The words of the event counters may be written in FATAL too (R424). -/
theorem State.exec_evWrites {p : Path} {c i : Nat} (h : s.writable p = true)
    (hsel : evSelected (s.path p).evSel = some (c, i)) (v : Word) :
    (∃ u, s.pathFrame u ∧ exec (.evcntClear p) s = .next (u.setEv c i EvCell.zero)) ∧
    (∃ u, s.pathFrame u ∧ exec (.evackWrite p v) s = .next (u.setEv c i { u.ev c i with ack := v })) := by
  have hev {u : State} (hu : s.pathFrame u) : evSelected (u.path p).evSel = some (c, i) :=
    (congrArg (fun x : PathSt => evSelected x.evSel) (hu.2 p)).trans hsel
  constructor
  · obtain ⟨u, hu, heq⟩ := s.rowDirect_of_writable h 0x13 0 s.boot.badBanks []
    refine ⟨u, hu, congrArg _ (heq.trans ?_)⟩
    simp [State.directWrite, fatalOk, State.evcntWrite, hev hu]
  · obtain ⟨u, hu, heq⟩ := s.rowDirect_of_writable h 0x14 v s.boot.badBanks []
    refine ⟨u, hu, congrArg _ (heq.trans ?_)⟩
    simp [State.directWrite, fatalOk, State.evackWrite, hev hu]

/-- R385: a write of DP:EVCNT that is not 0 does nothing. -/
theorem State.evcntWrite_ignored {p : Path} {v : Word} (hv : v ≠ 0) : s.evcntWrite p v = s := by
  unfold State.evcntWrite
  split
  · exact if_neg hv
  · rfl

theorem State.exec_evcntWrite_ignored {p : Path} {v : Word} (h : s.writable p = true) (hv : v ≠ 0) :
    ∃ u, s.pathFrame u ∧ exec (.registerWrite p 0x13 v) s = .next u := by
  have hu := s.acked_pathFrame p 0x13
  have hw : (s.acked p 0x13).writable p = true := (hu.writable p).trans h
  refine ⟨_, hu, congrArg Host.Outcome.next ?_⟩
  show (s.acked p 0x13).busWrite p 0x13 v = _
  simp [State.busWrite, hw, State.target, Target.has, State.directWrite, fatalOk, State.evcntWrite_ignored _ hv]

/-! ### Snapshots -/

/-- What path B's acknowledge changes is no part of the ledger. -/
theorem State.pathFrame.snapshot {s u : State} (h : s.pathFrame u) : u.snapshot = s.snapshot := by
  obtain ⟨⟨_, _, rfl⟩, -⟩ := h
  rfl

/-- A path's snapshot with VIEW as written (R198, R199). -/
def PathSt.snapped (x : PathSt) (k : Snapshot) (view : Bool) : PathSt := { x with snap := k, snapValid := true, snapView := view }

theorem State.snapcmd_take (p : Path) (view : Bool) :
    s.snapcmd p (1 ||| flagAt view 1) = s.modPath p fun x => x.snapped s.snapshot view := by
  have hbits : bit (1 ||| flagAt view 1) 0 = true ∧ bit (1 ||| flagAt view 1) 1 = view := by cases view <;> decide
  unfold State.snapcmd
  rw [hbits.1, hbits.2]
  cases p <;> rfl

theorem State.exec_snapshotTake {p : Path} (h : s.writable p = true) (view : Bool) :
    exec (.snapshotTake p view) s = .next ((s.acked p 0x1D).modPath p fun x => x.snapped s.snapshot view) := by
  have hu := s.acked_pathFrame p 0x1D
  have hw : (s.acked p 0x1D).writable p = true := (hu.writable p).trans h
  have hsnap := (s.acked p 0x1D).snapcmd_take p view
  rw [hu.snapshot] at hsnap
  refine congrArg Host.Outcome.next (Eq.trans ?_ hsnap)
  simp [State.rowDirect, hw, State.directWrite, fatalOk]

theorem State.acked_path_other (p : Path) (word : Nat) : (s.acked p word).path (otherPath p) = s.path (otherPath p) := by
  cases p <;> rfl

theorem otherPath_ne (p : Path) : otherPath p ≠ p := by cases p <;> decide

/-- A lower port's credits in flight are those of its limit that are not held (R92). -/
theorem State.portSnap_sum {n : PId} (hup : s.isUpper n = false) (hle : s.portCredit n ≤ 16 * s.creditLimit n) :
    (s.portSnap n).held + (s.portSnap n).inflight = 16 * s.creditLimit n := by
  simp only [State.portSnap, hup]
  simp
  omega

/-! ### Before start-up step 2 -/

theorem State.writable_of_early {p : Path} (h : s.boot.stage < 3) : s.writable p = false := by
  have hstage : ¬3 ≤ s.boot.stage := by omega
  simp [State.writable, State.hostOn, hstage]

theorem State.acked_boot (p : Path) (word : Nat) : (s.acked p word).boot = s.boot := by cases p <;> rfl

theorem State.busWrite_of_not_writable {p : Path} (h : s.writable p = false) (word : Nat) (v : Word) :
    s.busWrite p word v = s := by simp [State.busWrite, h]

theorem State.hostRead_of_early {p : Path} (halive : s.pathAlive p = true) (h : s.boot.stage < 3) (word : Nat) (f : Flips) :
    s.hostRead p word f = s.modPath p fun x => { x with readData := 0 } := by
  have hstage : ¬3 ≤ s.boot.stage := by omega
  simp [State.hostRead, halive, State.hostOn, hstage]

end Sys2Proof.Machine

open Sys2Proof Sys2Proof.Machine

/-- Settles O1. -/
theorem stepRunsFront : Obligations.StepRunsFront := by
  refine ⟨fun c rest s => rfl, fun s h => ?_⟩
  simp only [step, h]

/-- Settles O2: every queue of the reset state is empty, and the other clauses are about fixed words. -/
theorem resetMeetsInvariant : Obligations.ResetMeetsInvariant := by
  have hcode : 3 ≤ State.reset.gov.code ∧ State.reset.gov.code ≤ 15 := by decide
  have htime : Time.reset.ns < 1000000000 ∧ Time.reset.frac < unitsNs := by decide
  have hq : Queue.reset.Books ∧ Queue.reset.markLoad ≤ 4 :=
    (Queue.books_and_marks_iff _).2 ⟨Queue.reset_loose, Queue.reset_settled⟩
  exact ⟨rfl, fun _ => rfl, fun _ => rfl, nofun, hcode.1, hcode.2, htime.1, htime.2,
    fun q => (State.reset_qu q).symm ▸ hq.2, fun q => (State.reset_qu q).symm ▸ hq.1⟩

/-- Settles O53: before step 2 the paths carry no access out. -/
theorem accessesBeforeStepTwo : Obligations.AccessesBeforeStepTwo := by
  intro p s halive hstage
  refine ⟨fun word v => congrArg Host.Outcome.next ?_, fun word seq f => ?_⟩
  · exact State.busWrite_of_not_writable _
      ((s.acked p word.toNat).writable_of_early (by rw [State.acked_boot]; exact hstage)) word.toNat v
  · refine ⟨_, rfl, ?_⟩
    rw [s.hostRead_of_early halive hstage]
    cases p with
    | a =>
      refine ⟨by simp [State.path, State.modPath, State.setPath], ?_, ?_⟩
      · simp [State.path, State.modPath, State.setPath, otherPath]
      · rw [State.scaleAll_bare, State.scaleAll_pathA, State.scaleAll_pathB]
        rfl
    | b =>
      refine ⟨?_, ?_, ?_⟩
      · simp only [State.scaleAll_path, State.modPath_path]
        split <;> rfl
      · simp [State.path, State.modPath, State.setPath, otherPath]
      · rw [State.scaleAll_bare, State.scaleAll_pathA, State.scaleAll_pathB]
        rfl

/-- Settles O58. -/
theorem writeOnceWords : Obligations.WriteOnceWords := by
  intro p v s hw
  obtain ⟨u, hu, hseal⟩ := s.exec_sealWrite hw v
  obtain ⟨w, hw, hslot⟩ := s.exec_slotidWrite hw v
  refine ⟨fun hdone => ?_, fun hdone => ?_, fun hwf hdone => ?_, fun hwf hdone => ?_⟩
  · have heq : u.sealWrite ⟨p, 0x1E, (s.path p).bankSel.toNat⟩ v = { u with dp := { s.dp with sealV := v, sealDone := true } } := by
      simp [State.sealWrite, hu.dp, hdone]
    rw [heq] at hseal
    exact ⟨_, hseal, rfl, by simp [State.sealed], hu.setDp _⟩
  · have heq : w.slotWrite ⟨p, 0x1F, (s.path p).bankSel.toNat⟩ v = { w with dp := { s.dp with slotId := v, slotDone := true } } := by
      simp [State.slotWrite, hw.dp, hdone]
    rw [heq] at hslot
    exact ⟨_, hslot, hw.setDp _⟩
  · have heq : u.sealWrite ⟨p, 0x1E, (s.path p).bankSel.toNat⟩ v = u.reject ⟨p, 0x1E, (s.path p).bankSel.toNat⟩ Ev.worej 0 Reason.wonce := by
      simp [State.sealWrite, hu.dp, hdone]
    rw [heq] at hseal
    exact ⟨_, hseal, hu.reject hwf _ _ _ _⟩
  · have heq : w.slotWrite ⟨p, 0x1F, (s.path p).bankSel.toNat⟩ v = w.reject ⟨p, 0x1F, (s.path p).bankSel.toNat⟩ Ev.worej 0 Reason.wonce := by
      simp [State.slotWrite, hw.dp, hdone]
    rw [heq] at hslot
    exact ⟨_, hslot, hw.reject hwf _ _ _ _⟩

/-- Settles O59. -/
theorem eventCounters : Obligations.EventCounters := by
  intro p v c i s hw hwf _ hsel
  obtain ⟨⟨u, hu, hclear⟩, w, hw', hack⟩ := s.exec_evWrites hw hsel v
  refine ⟨⟨_, hclear, ?_, ?_, fun c' i' hne => ?_, hu.setEvents _⟩, fun hv => ?_, ⟨_, hack, ?_, ?_, fun c' i' hne => ?_, hw'.setEvents _⟩⟩
  · rw [u.ev_setEv (hu.eventsWf hwf)]; rfl
  · rw [u.ev_setEv (hu.eventsWf hwf)]; rfl
  · rw [u.ev_setEv_ne c i _ hne, hu.ev]
  · obtain ⟨t, ht, hexec⟩ := s.exec_evcntWrite_ignored hw hv
    exact ⟨t, hexec, ht.hostFrame_of_path fun _ => rfl⟩
  · rw [w.ev_setEv (hw'.eventsWf hwf)]
  · rw [w.ev_setEv (hw'.eventsWf hwf), hw'.ev]
  · rw [w.ev_setEv_ne c i _ hne, hw'.ev]

/-- Settles O30. -/
theorem snapshotTaken : Obligations.SnapshotTaken := by
  intro p view s hw
  have hu := s.acked_pathFrame p 0x1D
  refine ⟨_, s.exec_snapshotTake hw view, ?_, ?_, fun q => ?_, fun c => ?_, fun n => ?_, ?_, ?_⟩
  · rw [State.modPath_path]
    exact congrArg (PathSt.snapped · s.snapshot view) (hu.2 p)
  · rw [State.modPath_path]; rfl
  · rw [State.modPath_path]
    have hq : s.snapshot.q[q.val] = s.queueSnap q := by simp [State.snapshot]
    simp only [PathSt.snapped, hq]
    exact ⟨trivial, rfl, rfl, rfl, rfl, rfl, rfl, rfl⟩
  · rw [State.modPath_path]
    simp [PathSt.snapped, State.snapshot]
  · rw [State.modPath_path]
    have hp : s.snapshot.p[n.val] = s.portSnap n := by simp [State.snapshot]
    simp only [PathSt.snapped, hp]
    exact ⟨rfl, s.portSnap_sum⟩
  · rw [State.modPath_path_ne _ _ _ _ (otherPath_ne p), State.acked_path_other]
  · cases p <;> rfl
end

section
/-!
O56. The transactions of path B (chapter 12, Table 12.4).
-/

-- The theorems one after another: side by side they take more threads than the check allows.
set_option Elab.async false

namespace Sys2Proof.Machine

variable (s : State)

theorem State.powered_of_writable {s : State} {p : Path} (h : s.writable p = true) : s.powered = true := by
  simp only [State.writable, State.pathAlive, Bool.and_eq_true] at h
  exact h.1.1

/-- Path B, out of POR, acknowledges a transaction and holds its word address. -/
theorem State.acked_b (h : s.powered = true) (w : BitVec 7) :
    s.acked .b w.toNat = { s with pathB := { s.pathB with ack := true, ptr := w } } := by
  simp [State.acked, State.modPath, State.setPath, State.path, h]

theorem State.writable_acked {p : Path} (r : Path) (word : Nat) : (s.acked r word).writable p = s.writable p :=
  (s.acked_pathFrame r word).writable p

theorem State.writable_nacked (p : Path) : s.nacked.writable p = s.writable p :=
  (s.modPath_pathFrame .b fun _ => rfl).writable p

theorem State.smbusWriteWord_eq {w : BitVec 7} {v : Word} {pec : Option (BitVec 8)} (h : pec = none ∨ pec = some (s.pecOf w v)) :
    exec (.smbusWriteWord w v pec .stop) s = .next ((s.acked .b w.toNat).busWrite .b w.toNat v) := by
  rcases h with rfl | rfl
  · rfl
  · exact congrArg Host.Outcome.next (if_pos rfl)

theorem State.smbusWriteWord_badPec {w : BitVec 7} {v : Word} {c : BitVec 8} (hw : s.writable .b = true)
    (h : c ≠ s.pecOf w v) :
    exec (.smbusWriteWord w v (some c) .stop) s = .next ((s.acked .b w.toNat).nacked.count Ev.pecerr 0) := by
  have hn : (s.acked .b w.toNat).nacked.writable .b = true := by rw [State.writable_nacked, State.writable_acked, hw]
  refine congrArg Host.Outcome.next ((if_neg h).trans ?_)
  exact if_pos hn

theorem State.nacked_acked (h : s.powered = true) (w : BitVec 7) :
    (s.acked .b w.toNat).nacked = { s with pathB := { s.pathB with ack := false, ptr := w } } := by
  rw [s.acked_b h]
  rfl

/-- A sequential write is its first word's write, then a sequential write of the others one word on. -/
theorem State.sequentialWrite_cons (w : BitVec 7) (v : Word) (vs : List Word) (odd : Bool) :
    exec (.sequentialWrite w (v :: vs) odd) s =
      exec (.sequentialWrite (w + 1) vs odd) ((s.acked .b w.toNat).busWrite .b w.toNat v) := rfl

/-- Words of the direct page that a path writes for itself. -/
theorem State.busWrite_direct {p : Path} {word : Nat} (hw : s.writable p = true) (hword : word < 64) (v : Word)
    (hhas : (Target.direct word).has = true) :
    s.busWrite p word v = s.directWrite ⟨p, word, (s.path p).bankSel.toNat⟩ word v s.boot.badBanks [] := by
  simp [State.busWrite, hw, State.target, hword, hhas]

theorem State.busWrite_irq0 {p : Path} (hw : s.writable p = true) (v : Word) :
    s.busWrite p 0x0C v = s.modPath p fun x => { x with irq0 := v &&& 0x7FFF } := by
  rw [s.busWrite_direct hw (by decide) _ (by decide)]
  simp [State.directWrite, fatalOk]

theorem State.busWrite_irq1 {p : Path} (hw : s.writable p = true) (v : Word) :
    s.busWrite p 0x0D v = s.modPath p fun x => { x with irq1 := v } := by
  rw [s.busWrite_direct hw (by decide) _ (by decide)]
  simp [State.directWrite, fatalOk]

/-- Both words of DP:IRQEN by one sequential write. -/
theorem State.sequentialWrite_irq (hw : s.writable .b = true) (v0 v1 : Word) (odd : Bool) :
    exec (.sequentialWrite 0x0C [v0, v1] odd) s = .next { s with
      pathB := { s.pathB with irq0 := v0 &&& 0x7FFF, irq1 := v1, ack := true, ptr := 0x0E } } := by
  have hp := State.powered_of_writable hw
  have h₀ : (s.acked .b (0x0C : BitVec 7).toNat).busWrite .b 0x0C v0 =
      { s with pathB := { s.pathB with irq0 := v0 &&& 0x7FFF, ack := true, ptr := 0x0C } } := by
    rw [State.busWrite_irq0 _ (by rw [State.writable_acked, hw]), s.acked_b (State.powered_of_writable hw)]
    rfl
  have h₁ (t : State) (ht : t.writable .b = true) : (t.acked .b (0x0D : BitVec 7).toNat).busWrite .b 0x0D v1 =
      { t with pathB := { t.pathB with irq1 := v1, ack := true, ptr := 0x0D } } := by
    rw [State.busWrite_irq1 _ (by rw [State.writable_acked, ht]), t.acked_b (State.powered_of_writable ht)]
    rfl
  rw [s.sequentialWrite_cons]
  refine (congrArg (exec (.sequentialWrite 0x0D [v1] odd)) h₀).trans ?_
  rw [State.sequentialWrite_cons]
  refine (congrArg (exec (.sequentialWrite 0x0E [] odd)) (h₁ _ ?_)).trans ?_
  · exact hw
  · refine congrArg Host.Outcome.next (State.acked_b _ ?_ 0x0E)
    exact hp

theorem State.hostRead_boot (p : Path) (word : Nat) (f : Flips) : (s.hostRead p word f).boot = s.boot := by
  have hlatch (t : State) (b : Bank) (off : Nat) : (t.latch p b off).boot = t.boot := by
    unfold State.latch
    dsimp only
    split
    · simp
    · split <;> simp
  have hbank (t : State) (b : Bank) (off : Nat) : (t.readBank p b off).boot = t.boot := by
    unfold State.readBank
    dsimp only
    split
    · simp
    · rw [State.modPath_boot, hlatch]
      exact t.compareAll_boot _
  have hanswer (t : State) : (t.answerRead p).boot = t.boot := by
    unfold State.answerRead
    split
    · split
      · rw [hbank, State.modPath_boot]
      · rfl
    · rfl
  have hdirect (t : State) (off : Nat) : (t.readDirect p off).boot = t.boot := by
    unfold State.readDirect
    dsimp only
    rw [State.modPath_boot]
    split
    · rw [State.modPath_boot]
      exact t.compareAll_boot _
    · exact t.compareAll_boot _
  have hflip (r : Option VRef) : (s.flipRef r f).boot = s.boot := by cases r <;> simp [State.flipRef]
  unfold State.hostRead
  split
  · rfl
  · split
    · simp
    · dsimp only
      split
      · rw [State.modPath_boot, hflip]
      · rw [hdirect, hflip]
      · split
        · rw [hanswer, State.modPath_boot, hflip]
        · rw [hbank, hflip]

theorem State.registerRead_b (h : s.powered = true) (w : BitVec 7) (seq : Bool) (f : Flips) :
    ∃ t, exec (.registerRead .b w seq f) s = .next t ∧ t.pathB.ptr = (if seq then w + 1 else w) ∧ t.pathB.ack = true ∧
      t.pathB.readSeq = seq ∧ t.boot = s.boot := by
  refine ⟨_, rfl, ?_⟩
  have hp : (s.hostRead .b w.toNat f).powered = true := by
    simp only [State.powered, State.supplied, s.hostRead_boot] at h ⊢
    exact h
  refine ⟨?_, ?_, ?_, ?_⟩
  · simp [State.modPath, State.setPath, hp]
  · simp [State.modPath, State.setPath, hp]
  · simp [State.modPath, State.setPath, hp]
  · rw [State.scaleAll_boot, State.modPath_boot, s.hostRead_boot]

end Sys2Proof.Machine

open Sys2Proof Sys2Proof.Machine

/-- Settles O56. -/
theorem pathBTransactions : Obligations.PathBTransactions := by
  intro s hw
  have hp := State.powered_of_writable hw
  refine ⟨fun w v pec hpec => ⟨_, s.smbusWriteWord_eq hpec, rfl⟩, fun v pec hpec => ?_, fun w v c hwf hc => ?_,
    fun w v c => ⟨?_, ?_⟩, fun w v vs odd t ht => ?_, fun w odd => ?_, fun v0 v1 odd => ?_, fun c astray => ?_, fun astray => ?_,
    fun w f => ?_, fun h => ?_, fun h => ?_⟩
  · rw [s.smbusWriteWord_eq hpec, State.busWrite_direct _ (by rw [State.writable_acked, hw]) (by decide) _ (by decide), s.acked_b hp]
    simp [State.directWrite, fatalOk, State.modPath, State.setPath, State.path]
  · refine ⟨_, s.smbusWriteWord_badPec hw hc, ?_, ?_⟩
    · exact s.counted_of_events hwf (by rw [s.nacked_acked hp]; rfl)
    · rw [s.nacked_acked hp]
      rfl
  · exact congrArg Host.Outcome.next (s.acked_b hp w)
  · exact congrArg Host.Outcome.next (s.nacked_acked hp w)
  · rw [s.smbusWriteWord_eq (.inl rfl)] at ht
    cases ht
    exact s.sequentialWrite_cons w v vs odd
  · exact congrArg Host.Outcome.next (s.acked_b hp w)
  · exact s.sequentialWrite_irq hw v0 v1 odd
  · cases astray
    · exact congrArg Host.Outcome.next (s.acked_b hp _)
    · exact congrArg Host.Outcome.next (s.nacked_acked hp _)
  · cases astray
    · exact congrArg Host.Outcome.next (s.acked_b hp _)
    · exact congrArg Host.Outcome.next (s.nacked_acked hp _)
  · obtain ⟨t, ht, htptr, htack, htseq, htboot⟩ := s.registerRead_b hp w false f
    obtain ⟨u, hu, huptr, huack, huseq, -⟩ := s.registerRead_b hp w true f
    refine ⟨t, u, ht, hu, htptr, huptr, htack, huack, by simp [State.readPec, huseq], ?_⟩
    simp [State.readPec, htseq, htptr, State.pathBAddr, htboot]
  · exact congrArg Host.Outcome.next (if_pos h)
  · exact congrArg Host.Outcome.next (if_neg (by simp [h]))
end

section
/-!
SUPPORT, O57 and O10. What a lock that leaves its holder takes along: host holds on the channels, staging and ARM.
-/

-- The theorems one after another: side by side they take more threads than the check allows.
set_option Elab.async false

namespace Sys2Proof.Machine

/-! ### The start of a sweep on a channel -/

/-- A channel on which a hardware sweep begins (R256, R275). -/
def Chan.toSweep (x : Chan) (k : SweepFor) (tick order : Nat) : Chan :=
  let y := match k with
    | .freqsw | .keep | .drop => x
    | _ => x.enter .drain
  { (y.roused x.awake tick) with
    sweeping := some k, swept := 0, sweptAge := order, waiting := none, begun := none
    rows := Vector.replicate 16 none, gap := Vector.replicate 2 none }

variable (s : State)

@[simp] theorem State.cardingLock_chans : s.cardingLock.chans = s.chans := by
  unfold State.cardingLock; split <;> simp

@[simp] theorem State.cardingLock_ch (c : YId) : s.cardingLock.ch c = s.ch c := by simp [State.ch]

@[simp] theorem State.cardingLock_time : s.cardingLock.time = s.time := by
  unfold State.cardingLock; split <;> simp

@[simp] theorem State.cardingLock_order : s.cardingLock.order = s.order := by
  unfold State.cardingLock; split <;> simp

theorem State.beginSweep_eq (c : YId) (k : SweepFor) :
    s.beginSweep c k = s.cardingLock.modCh c fun x => x.toSweep k s.time.ticks s.order := by
  have ht := s.cardingLock_time
  have ho := s.cardingLock_order
  unfold State.beginSweep
  dsimp only
  rw [ht, ho]
  rfl

theorem Chan.toSweep_retrain (x : Chan) (tick order : Nat) :
    (x.toSweep .retrain tick order).sweeping = some .retrain ∧ (x.toSweep .retrain tick order).st = .drain := by
  refine ⟨rfl, ?_⟩
  show ((x.enter .drain).roused x.awake tick).st = .drain
  unfold Chan.roused
  split <;> rfl

/-- What a start of a sweep for a retrain leaves on its channel. -/
theorem Chan.toSweep_keeps (x : Chan) (k : SweepFor) (tick order : Nat) :
    (x.toSweep k tick order).hold = x.hold ∧ (x.toSweep k tick order).holdReq = x.holdReq ∧
    (x.toSweep k tick order).heldHost = x.heldHost ∧ (x.toSweep k tick order).reqs = x.reqs ∧
    (x.toSweep k tick order).taps = x.taps := by
  unfold Chan.toSweep Chan.roused
  cases k <;> dsimp only <;> split <;> exact ⟨rfl, rfl, rfl, rfl, rfl⟩

/-! ### The end of a host hold -/

/-- A channel whose host hold ends with the lock (R266, R275). -/
def Chan.leaveHost (x : Chan) (tick order : Nat) : Chan :=
  if x.hold && x.heldHost then (x.clearHold tick).toSweep .retrain tick order else x.clearHold tick

theorem Chan.clearHold_of_free {x : Chan} (h : x.hold = false) (tick : Nat) : x.clearHold tick = x := by
  simp [Chan.clearHold, h]

theorem Chan.undrain_keeps (x : Chan) (tick : Nat) :
    (x.undrain tick).hold = x.hold ∧ (x.undrain tick).holdReq = x.holdReq ∧ (x.undrain tick).heldHost = x.heldHost ∧
    (x.undrain tick).reqs = x.reqs ∧ (x.undrain tick).taps = x.taps := by
  unfold Chan.undrain
  split
  · exact ⟨rfl, rfl, rfl, rfl, rfl⟩
  · split <;> exact ⟨rfl, rfl, rfl, rfl, rfl⟩

theorem Chan.clearHold_held {x : Chan} (h : x.hold = true) (tick : Nat) :
    (x.clearHold tick).hold = false ∧ (x.clearHold tick).holdReq = none ∧ (x.clearHold tick).heldHost = false ∧
    (x.clearHold tick).reqs = x.reqs ∧ (x.clearHold tick).taps = x.taps := by
  simp only [Chan.clearHold, h, Bool.not_true, Bool.false_eq_true, if_false]
  split
  · exact Chan.undrain_keeps ..
  · exact ⟨rfl, rfl, rfl, rfl, rfl⟩

/-- The end of a hold moves the channel only out of a drain for it (R275). -/
theorem Chan.clearHold_st {x : Chan} (h : x.st ≠ .drain ∨ x.drainHold = false) (tick : Nat) : (x.clearHold tick).st = x.st := by
  unfold Chan.clearHold
  split
  · rfl
  · rw [if_neg]
    rintro ⟨hst, hdrain, -⟩
    rcases h with h | h
    · exact h hst
    · simp [h] at hdrain

theorem Chan.leaveHost_of_free {x : Chan} (h : x.hold = false) (tick order : Nat) : x.leaveHost tick order = x := by
  simp [Chan.leaveHost, h, Chan.clearHold_of_free h]

theorem Chan.leaveHost_held {x : Chan} (h : x.hold = true) (tick order : Nat) :
    (x.leaveHost tick order).hold = false ∧ (x.leaveHost tick order).holdReq = none ∧
    (x.leaveHost tick order).heldHost = false ∧ (x.leaveHost tick order).reqs = x.reqs ∧
    (x.leaveHost tick order).taps = x.taps := by
  obtain ⟨hhold, hreq, hheld, hreqs, htaps⟩ := Chan.clearHold_held h tick
  unfold Chan.leaveHost
  split
  · obtain ⟨khold, kreq, kheld, kreqs, ktaps⟩ := (x.clearHold tick).toSweep_keeps .retrain tick order
    exact ⟨khold.trans hhold, kreq.trans hreq, kheld.trans hheld, kreqs.trans hreqs, ktaps.trans htaps⟩
  · exact ⟨hhold, hreq, hheld, hreqs, htaps⟩

theorem Chan.leaveHost_swept {x : Chan} (h : x.hold = true) (hheld : x.heldHost = true) (tick order : Nat) :
    (x.leaveHost tick order).sweeping = some .retrain ∧ (x.leaveHost tick order).st = .drain := by
  rw [Chan.leaveHost, h, hheld]
  exact Chan.toSweep_retrain ..

theorem Chan.leaveHost_st {x : Chan} (hheld : x.heldHost = false) (h : x.st ≠ .drain ∨ x.drainHold = false) (tick order : Nat) :
    (x.leaveHost tick order).st = x.st := by
  rw [Chan.leaveHost, hheld, Bool.and_false]
  exact Chan.clearHold_st h tick

/-! ### Locks that leave their holder -/

theorem State.modCh_modCh (c : YId) (f g : Chan → Chan) : (s.modCh c f).modCh c g = s.modCh c fun x => g (f x) := by
  simp [State.modCh, State.setCh, State.ch]

theorem State.cardingLock_modCh (c : YId) (g : Chan → Chan) : (s.modCh c g).cardingLock = s.cardingLock.modCh c g := by
  have h : (s.modCh c g).dramFree = s.dramFree := rfl
  unfold State.cardingLock
  rw [h]
  split <;> rfl

theorem State.dropHold_eq (c : YId) : s.dropHold c =
    (if (s.ch c).hold && (s.ch c).heldHost then s.cardingLock else s).modCh c fun x => x.leaveHost s.time.ticks s.order := by
  unfold State.dropHold
  cases h : (s.ch c).hold && (s.ch c).heldHost
  · simp only [Bool.false_eq_true, if_false]
    simp [State.modCh, Chan.leaveHost, h]
  · simp only [if_true]
    rw [State.beginSweep_eq, State.cardingLock_modCh, State.modCh_modCh]
    simp [State.modCh, Chan.leaveHost, h]

theorem State.dropHold_ch (c : YId) : (s.dropHold c).ch c = (s.ch c).leaveHost s.time.ticks s.order := by
  rw [s.dropHold_eq, State.modCh_ch]
  split <;> simp

theorem State.dropHold_ch_ne {c d : YId} (h : d ≠ c) : (s.dropHold c).ch d = s.ch d := by
  rw [s.dropHold_eq, State.modCh_ch_ne _ _ _ _ h]
  split <;> simp

/-- Only the channel and DP:LOCKDRAM change with the end of a hold. -/
theorem State.dropHold_frame (c : YId) : s.dropHold c =
    { s with chans := (s.dropHold c).chans, dp := { s.dp with lockDram := (s.dropHold c).dp.lockDram } } := by
  rw [s.dropHold_eq]
  unfold State.cardingLock
  split
  · split <;> rfl
  · rfl

theorem State.cardingLock_dram : (s.cardingLock.lock .dram).holder = if s.dramFree then VWord.of 3 else (s.lock .dram).holder := by
  unfold State.cardingLock
  split <;> rfl

theorem State.dropHold_dram (c : YId) : ((s.dropHold c).lock .dram).holder =
    if (s.ch c).hold && (s.ch c).heldHost && s.dramFree then VWord.of 3 else (s.lock .dram).holder := by
  have h := s.cardingLock_dram
  rw [s.dropHold_eq]
  cases (s.ch c).hold && (s.ch c).heldHost
  · rfl
  · simp only [if_true, Bool.true_and]
    exact h

/-- Only the channels and DP:LOCKDRAM change as DP:LOCKDRAM leaves its holder. -/
theorem State.lockLeaves_dram (p : Path) :
    ∃ chans k, s.lockLeaves .dram p = { s with chans := chans, dp := { s.dp with lockDram := k } } := by
  have h (t : State) (c : YId) (ht : ∃ chans k, t = { s with chans := chans, dp := { s.dp with lockDram := k } }) :
      ∃ chans k, t.dropHold c = { s with chans := chans, dp := { s.dp with lockDram := k } } := by
    obtain ⟨_, _, rfl⟩ := ht
    exact ⟨_, _, State.dropHold_frame _ c⟩
  exact h _ 1 (h _ 0 ⟨s.chans, Lock.free, rfl⟩)

/-- Only the lock, its holder's staging, ARM and the channels change as a lock leaves its holder. -/
theorem State.lockLeaves_frame (l : LockId) (p : Path) : s.lockLeaves l p =
    { s.setLock l ((s.lockLeaves l p).lock l) with
      pathA := (s.lockLeaves l p).pathA, pathB := (s.lockLeaves l p).pathB, time := (s.lockLeaves l p).time
      chans := (s.lockLeaves l p).chans } := by
  cases l with
  | config => cases p <;> rfl
  | time => rfl
  | dram =>
    obtain ⟨chans, k, h⟩ := s.lockLeaves_dram p
    rw [h]
    rfl

theorem State.lockLeaves_time (l : LockId) (p : Path) :
    (s.lockLeaves l p).time = { s.time with arm := s.time.arm && l != .time } := by
  cases l with
  | config => simp [State.lockLeaves, State.freeLock, show (LockId.config != LockId.time) = true from rfl]
  | time => simp [State.lockLeaves, State.freeLock]
  | dram =>
    obtain ⟨chans, k, h⟩ := s.lockLeaves_dram p
    simp [h, show (LockId.dram != LockId.time) = true from rfl]

theorem State.lockLeaves_path (l : LockId) (p : Path) : (s.lockLeaves l p).path p =
    if l = .config then { s.path p with staging := (s.path p).staging.filter fun e => !e.isConfig } else s.path p := by
  cases l with
  | config => cases p <;> rfl
  | time => cases p <;> rfl
  | dram =>
    obtain ⟨chans, k, h⟩ := s.lockLeaves_dram p
    rw [h, if_neg (by decide)]
    cases p <;> rfl

theorem State.lockLeaves_path_other (l : LockId) (p : Path) : (s.lockLeaves l p).path (otherPath p) = s.path (otherPath p) := by
  cases l with
  | config => cases p <;> rfl
  | time => cases p <;> rfl
  | dram =>
    obtain ⟨chans, k, h⟩ := s.lockLeaves_dram p
    rw [h]
    cases p <;> rfl

theorem State.lockLeaves_lock_ne {l k : LockId} (p : Path) (h : k ≠ l) : (s.lockLeaves l p).lock k = s.lock k := by
  rw [s.lockLeaves_frame]
  exact s.setLock_lock_ne _ _ _ h

theorem State.lockLeaves_ch_of_ne {l : LockId} (p : Path) (h : l ≠ .dram) (c : YId) : (s.lockLeaves l p).ch c = s.ch c := by
  cases l with
  | config => cases p <;> rfl
  | time => rfl
  | dram => exact absurd rfl h

theorem State.lockLeaves_dram_ch (p : Path) (c : YId) :
    (s.lockLeaves .dram p).ch c = (s.ch c).leaveHost s.time.ticks s.order := by
  have h₀ := (s.freeLock .dram).dropHold_frame 0
  have htime : ((s.freeLock .dram).dropHold 0).time = s.time := by rw [h₀]; rfl
  have horder : ((s.freeLock .dram).dropHold 0).order = s.order := by rw [h₀]; rfl
  show (((s.freeLock .dram).dropHold 0).dropHold 1).ch c = _
  have hc : c = 0 ∨ c = 1 := by revert c; decide
  rcases hc with rfl | rfl
  · rw [State.dropHold_ch_ne _ (by decide), State.dropHold_ch]
    rfl
  · rw [State.dropHold_ch, htime, horder, State.dropHold_ch_ne _ (by decide)]
    rfl

theorem State.lockLeaves_holder (l : LockId) (p : Path) : ((s.lockLeaves l p).lock l).holder =
    VWord.of (if l = .dram ∧ (∃ k, (s.ch k).hold = true ∧ (s.ch k).heldHost = true) then 3 else 0) := by
  cases l with
  | config => cases p <;> rfl
  | time => rfl
  | dram =>
    have h₀ := (s.freeLock .dram).dropHold_dram 0
    have h₁ := ((s.freeLock .dram).dropHold 0).dropHold_dram 1
    rw [State.dropHold_ch_ne _ (by decide)] at h₁
    have hfree : (s.freeLock .dram).dramFree = true := rfl
    rw [hfree, Bool.and_true] at h₀
    simp only [State.dramFree, h₀] at h₁
    show (((s.freeLock .dram).dropHold 0).dropHold 1 |>.lock .dram).holder = _
    rw [h₁]
    have hex : (∃ k, (s.ch k).hold = true ∧ (s.ch k).heldHost = true) ↔
        ((s.ch 0).hold && (s.ch 0).heldHost) = true ∨ ((s.ch 1).hold && (s.ch 1).heldHost) = true := by
      simp [Fin.exists_fin_two]
    have hch (c : YId) : (s.freeLock .dram).ch c = s.ch c := rfl
    have hlock : ((s.freeLock .dram).lock .dram).holder = VWord.of 0 := rfl
    simp only [hex, hch, hlock, true_and]
    cases (s.ch 0).hold && (s.ch 0).heldHost <;> cases (s.ch 1).hold && (s.ch 1).heldHost <;> simp

/-! ### Start-up that waits for DP:LOCKDRAM -/

theorem State.mayTrain_of_not {t : State} (hb : t.boot = s.boot) (h : s.bootWaits = false ∨ t.dramFree = false) :
    t.mayTrain = false := by
  have hw : t.bootWaits = s.bootWaits := by rw [State.bootWaits, State.bootWaits, hb]
  rcases h with h | h
  · simp [State.mayTrain, hw, h]
  · simp [State.mayTrain, h]

/-! ### Writes of the lock registers (Table 12.8) -/

theorem State.pathFrame.setLock {s u : State} (h : s.pathFrame u) (l : LockId) (x : Lock) :
    (s.setLock l x).pathFrame (u.setLock l x) := by
  obtain ⟨⟨_, _, rfl⟩, hcore⟩ := h
  cases l <;> exact ⟨⟨_, _, rfl⟩, hcore⟩

theorem State.pathFrame.freeLock {s u : State} (h : s.pathFrame u) (l : LockId) : (s.freeLock l).pathFrame (u.freeLock l) := by
  obtain ⟨⟨_, _, rfl⟩, hcore⟩ := h
  cases l <;> exact ⟨⟨_, _, rfl⟩, hcore⟩

/-- A departure of DP:LOCKTIME clears ARM (R332). -/
theorem State.freeLock_time (l : LockId) : (s.freeLock l).time = { s.time with arm := s.time.arm && l != .time } := by
  cases l with
  | config => simp [State.freeLock, show (LockId.config != LockId.time) = true from rfl]
  | time => simp [State.freeLock]
  | dram => simp [State.freeLock, show (LockId.dram != LockId.time) = true from rfl]

theorem State.freeLock_eq (l : LockId) : s.freeLock l = { s.setLock l ((s.freeLock l).lock l) with time := (s.freeLock l).time } := by
  cases l <;> rfl

theorem State.freeLock_path (l : LockId) (r : Path) : (s.freeLock l).path r = s.path r := by
  cases l <;> cases r <;> rfl

theorem State.pathFrame.lock {s u : State} (h : s.pathFrame u) (l : LockId) : u.lock l = s.lock l := by
  obtain ⟨⟨_, _, rfl⟩, -⟩ := h
  cases l <;> rfl

/-- A path that writes a lock register whose copies agree. -/
theorem State.exec_lockWrite {p : Path} {l : LockId} (h : s.hostWrites p) (hl : s.agrees (.lock l)) (v : Word) :
    ∃ u, s.pathFrame u ∧ exec (.lockWrite p l v) s = .next (
      if v = lockCode p ∧ ((s.lock l).holder.val = 0 ∨ (s.lock l).holder.val = lockCode p) then u.takeLock l v
      else if v = 0 ∧ (s.lock l).holder.val = lockCode p then (u.freeLock l).bootTrain
      else u.reject ⟨p, lockOff l, (s.path p).bankSel.toNat⟩ Ev.lockrej 0 Reason.lock) := by
  obtain ⟨u, hu, hfatal, heq⟩ := s.rowDirect_of_hostWrites h (lockOff l) v s.boot.badBanks []
  have hagrees : u.agrees (.lock l) := by
    show (u.lock l).holder = VWord.of (u.lock l).holder.val
    rw [hu.lock]
    exact hl
  refine ⟨u, hu, congrArg Host.Outcome.next (heq.trans ?_)⟩
  have hdirect : u.directWrite ⟨p, lockOff l, (s.path p).bankSel.toNat⟩ (lockOff l) v s.boot.badBanks [] =
      u.lockWrite ⟨p, lockOff l, (s.path p).bankSel.toNat⟩ l v := by
    cases l <;> simp [State.directWrite, hfatal, lockOff]
  rw [hdirect, State.lockWrite, State.compare_of_agrees _ hagrees, hu.lock]
  simp [hfatal]

/-- DP:LOCKDRAM is Carding's once start-up goes on with steps 5 and 6 (R65). -/
theorem State.bootTrain_takes (h : s.mayTrain = true) :
    s.bootTrain.boot.carding = true ∧ (s.bootTrain.lock .dram).holder = VWord.of 3 := by
  have hk (t : State) (c : YId) (k : SweepFor) (ht : t.boot.carding = true ∧ (t.lock .dram).holder = VWord.of 3) :
      (t.beginSweep c k).boot.carding = true ∧ ((t.beginSweep c k).lock .dram).holder = VWord.of 3 := by
    have hl := t.cardingLock_dram
    have hb : t.cardingLock.boot = t.boot := by unfold State.cardingLock; split <;> simp
    rw [t.beginSweep_eq]
    refine ⟨by rw [State.modCh_boot, hb]; exact ht.1, ?_⟩
    rw [State.modCh_lock_frame, hl]
    split
    · rfl
    · exact ht.2
  unfold State.bootTrain
  rw [if_pos h]
  dsimp only
  rw [State.scaleAll_boot, State.scaleAll_lock]
  split
  · exact hk _ _ _ ⟨rfl, rfl⟩
  · exact ⟨rfl, rfl⟩

/-! ### A lease that runs out (R394) -/

theorem State.holds_unique {p r : Path} {l : LockId} (hp : s.holds p l = true) (hr : s.holds r l = true) : p = r := by
  have h := (beq_iff_eq.1 hp).symm.trans (beq_iff_eq.1 hr)
  have hne : lockCode .a ≠ lockCode .b := by decide
  cases p with
  | a => cases r with
    | a => rfl
    | b => exact absurd h hne
  | b => cases r with
    | a => exact absurd h.symm hne
    | b => rfl

theorem State.exec_leaseExpiry {p : Path} {l : LockId} (hon : s.hostOn = true) (hl : s.holds p l = true)
    (hclk : s.time.refclk = true) (hover : (s.lock l).since + (s.lock l).len ≤ s.time.ticks) :
    exec (.leaseExpiry l) s = .next (s.lockLeaves l p).chanChanged.bootTrain := by
  have h (r : Path) : s.leaseOver l r = s.holds r l := by simp [State.leaseOver, hclk, hover]
  refine congrArg Host.Outcome.next ?_
  cases p with
  | a => simp [hon, h, hl]
  | b =>
    have ha : s.holds .a l = false := by
      by_contra ha
      exact absurd (s.holds_unique hl (Bool.not_eq_false _ ▸ ha)) (by decide)
    simp [hon, h, hl, ha]

end Sys2Proof.Machine
end

section
/-!
O57 and O10. Lock registers, leases, and the PATH resets.
-/

-- The theorems one after another: side by side they take more threads than the check allows.
set_option Elab.async false

namespace Sys2Proof.Machine

variable (s : State)

/-! ### CONFIG words that a lock or the seal stands against -/

theorem State.writeRefusal_config {p : Path} {b : Bank} {off : Nat} (hlock : b.lockOf off = some .config)
    (h : s.sealed = true ∨ s.holds p .config = false) :
    s.writeRefusal p b off = some (if s.sealed then Reason.sealed else Reason.lock) := by
  cases hs : s.sealed
  · simp [State.writeRefusal, hlock, hs, h.resolve_left (by simp [hs])]
  · simp [State.writeRefusal, hlock, hs]

theorem State.lockAgrees_of {b : Bank} {off : Nat} {l : LockId} (h : b.lockOf off = some l) (hl : s.agrees (.lock l)) :
    s.lockAgrees b off := fun _ hk => Option.some.inj (h.symm.trans hk) ▸ hl

theorem State.pathFrame.writeRefusal {s u : State} (h : s.pathFrame u) (p : Path) (b : Bank) (off : Nat) :
    u.writeRefusal p b off = s.writeRefusal p b off := by
  obtain ⟨⟨_, _, rfl⟩, -⟩ := h
  rfl

theorem State.pathFrame.lockAgrees {s u : State} (h : s.pathFrame u) {b : Bank} {off : Nat} (hs : s.lockAgrees b off) :
    u.lockAgrees b off := by
  obtain ⟨⟨_, _, rfl⟩, -⟩ := h
  exact hs

/-- A commit that a lock or the seal stands against is discarded as LOCKREJ (R393, R397). -/
theorem State.rowCommit_refused {p : Path} {b : Bank} {off r : Nat} (hw : s.hostWrites p) (hl : s.lockAgrees b off)
    (hr : s.writeRefusal p b off = some r) (ws : List Word) :
    ∃ u, s.pathFrame u ∧ s.rowCommit p b off ws = u.reject ⟨p, 64 + off, b.sel⟩ Ev.lockrej 0 r := by
  have hu := s.acked_pathFrame p (64 + off)
  have hwritable : (s.acked p (64 + off)).writable p = true := (hu.writable p).trans hw.1
  have hlock := State.lockRead_of_agrees _ (hu.lockAgrees hl)
  have hrefusal := (hu.writeRefusal p b off).trans hr
  refine ⟨_, hu.trans (State.unstage_pathFrame _ p b off true), ?_⟩
  simp [State.rowCommit, hwritable, hw.2, State.commit, hlock, hrefusal]

/-! ### Frames of a lock that leaves its holder -/

/-- Only paths, time, events, channels and locks differ. -/
def State.lockFrame (s t : State) : Prop :=
  ∃ a b time events chans cfg tim dram, t = { s with
    pathA := a, pathB := b, time := time, events := events, chans := chans
    dp := { s.dp with lockCfg := cfg, lockTime := tim, lockDram := dram } }

theorem State.lockFrame_refl : s.lockFrame s := ⟨_, _, _, _, _, _, _, _, rfl⟩

theorem State.lockFrame.trans {s t u : State} (h : s.lockFrame t) (k : t.lockFrame u) : s.lockFrame u := by
  obtain ⟨_, _, _, _, _, _, _, _, rfl⟩ := h
  obtain ⟨_, _, _, _, _, _, _, _, rfl⟩ := k
  exact ⟨_, _, _, _, _, _, _, _, rfl⟩

theorem State.lockLeaves_lockFrame (l : LockId) (p : Path) : s.lockFrame (s.lockLeaves l p) := by
  rw [s.lockLeaves_frame]
  cases l <;> exact ⟨_, _, _, _, _, _, _, _, rfl⟩

theorem State.count_lockFrame (code inst : Nat) : s.lockFrame (s.count code inst) := ⟨_, _, _, _, _, _, _, _, rfl⟩

theorem State.modPath_lockFrame (p : Path) (g : PathSt → PathSt) : s.lockFrame (s.modPath p g) := by
  cases p <;> exact ⟨_, _, _, _, _, _, _, _, rfl⟩

/-! ### Locks that a reset of their path breaks (R366, R395) -/

theorem State.breakLock_of_free {p : Path} {l : LockId} (h : s.holds p l = false) : s.breakLock p l = s := by
  simp [State.breakLock, h]

theorem State.breakLock_of_held {p : Path} {l : LockId} (h : s.holds p l = true) :
    s.breakLock p l = (s.lockLeaves l p).count Ev.lockbrk 0 := by
  simp [State.breakLock, h]

theorem State.breakLock_lockFrame (p : Path) (l : LockId) : s.lockFrame (s.breakLock p l) := by
  unfold State.breakLock
  split
  · exact (s.lockLeaves_lockFrame l p).trans (State.count_lockFrame ..)
  · exact s.lockFrame_refl

theorem State.breakLock_lock_ne {l k : LockId} (p : Path) (h : k ≠ l) : (s.breakLock p l).lock k = s.lock k := by
  unfold State.breakLock
  split
  · rw [State.count_lock_frame, s.lockLeaves_lock_ne p h]
  · rfl

theorem State.breakLock_holds_ne {l k : LockId} (p : Path) (h : k ≠ l) : (s.breakLock p l).holds p k = s.holds p k := by
  simp [State.holds, s.breakLock_lock_ne p h]

theorem State.breakLock_holder {p : Path} {l : LockId} (h : s.holds p l = true) : ((s.breakLock p l).lock l).holder =
    VWord.of (if l = .dram ∧ (∃ k, (s.ch k).hold = true ∧ (s.ch k).heldHost = true) then 3 else 0) := by
  rw [s.breakLock_of_held h, State.count_lock_frame, s.lockLeaves_holder]

theorem State.breakLock_time (p : Path) (l : LockId) :
    (s.breakLock p l).time = { s.time with arm := s.time.arm && !(s.holds p l && l == .time) } := by
  cases h : s.holds p l
  · simp [s.breakLock_of_free h]
  · rw [s.breakLock_of_held h, State.count_time, s.lockLeaves_time]
    simp [bne]

theorem State.breakLock_path_other (p : Path) (l : LockId) : (s.breakLock p l).path (otherPath p) = s.path (otherPath p) := by
  unfold State.breakLock
  split
  · rw [State.count_path_frame, s.lockLeaves_path_other]
  · rfl

/-- A path's own state as a lock leaves it, but for its staging. -/
theorem State.breakLock_path (p : Path) (l : LockId) :
    { (s.breakLock p l).path p with staging := [] } = { s.path p with staging := [] } := by
  unfold State.breakLock
  split
  · rw [State.count_path_frame, s.lockLeaves_path]
    split <;> rfl
  · rfl

theorem State.breakLock_order (p : Path) (l : LockId) : (s.breakLock p l).order = s.order := by
  obtain ⟨_, _, _, _, _, _, _, _, h⟩ := s.breakLock_lockFrame p l
  rw [h]

theorem State.breakLock_ch_of_ne {l : LockId} (p : Path) (h : l ≠ .dram) (c : YId) : (s.breakLock p l).ch c = s.ch c := by
  unfold State.breakLock
  split
  · rw [State.count_ch_frame, s.lockLeaves_ch_of_ne p h]
  · rfl

theorem State.breakLock_dram_ch (p : Path) (c : YId) : (s.breakLock p .dram).ch c =
    if s.holds p .dram then (s.ch c).leaveHost s.time.ticks s.order else s.ch c := by
  unfold State.breakLock
  split
  · rw [State.count_ch_frame, s.lockLeaves_dram_ch]
  · rfl

theorem satAdd_satAdd (w : Word) (m n : Nat) : satAdd (satAdd w m) n = satAdd w (m + n) := by
  unfold satAdd
  apply BitVec.eq_of_toNat_eq
  simp only [BitVec.toNat_ofNat]
  omega

theorem State.counted.trans {s t u : State} {code inst m n : Nat} (h : s.counted t code inst m) (k : t.counted u code inst n) :
    s.counted u code inst (m + n) := by
  obtain ⟨hcnt, hack, hother⟩ := h
  obtain ⟨kcnt, kack, kother⟩ := k
  exact ⟨by rw [kcnt, hcnt, satAdd_satAdd], kack.trans hack, fun c i hne => (kother c i hne).trans (hother c i hne)⟩

theorem State.counted.congr {s t u : State} {code inst n : Nat} (h : s.counted t code inst n) (hu : u.events = t.events) :
    s.counted u code inst n := by
  simpa only [State.counted, State.ev, hu] using h

theorem State.counted_of_events_eq {s t : State} (code inst : Nat) (h : t.events = s.events) : s.counted t code inst 0 := by
  simp [State.counted, State.ev, h]

theorem State.eventsWf_count {s : State} (h : s.eventsWf) (code inst n : Nat) : (s.countN code inst n).eventsWf := by
  unfold State.countN
  split
  · exact h
  · exact Table.put_wf _ _ _ _ h

theorem State.lockLeaves_events (l : LockId) (p : Path) : (s.lockLeaves l p).events = s.events := by
  rw [s.lockLeaves_frame]
  exact s.setLock_events ..

theorem State.breakLock_counted (hwf : s.eventsWf) (p : Path) (l : LockId) :
    (s.breakLock p l).eventsWf ∧ s.counted (s.breakLock p l) Ev.lockbrk 0 (if s.holds p l then 1 else 0) := by
  have he := s.lockLeaves_events l p
  cases h : s.holds p l
  · rw [s.breakLock_of_free h]
    exact ⟨hwf, s.counted_of_events_eq _ _ rfl⟩
  · rw [s.breakLock_of_held h]
    have hwf' : (s.lockLeaves l p).eventsWf := by rw [State.eventsWf, he]; exact hwf
    refine ⟨State.eventsWf_count hwf' .., s.counted_of_events hwf ?_⟩
    simp [State.count, State.countN_events, State.ev, he]

/-! ### A PATH reset -/

/-- The three locks broken, each counted where the path held it. -/
def State.breakLocks (s : State) (p : Path) : State := ((s.breakLock p .config).breakLock p .time).breakLock p .dram

theorem State.breakLocks_lockFrame (p : Path) : s.lockFrame (s.breakLocks p) :=
  ((s.breakLock_lockFrame p .config).trans (State.breakLock_lockFrame _ p .time)).trans (State.breakLock_lockFrame _ p .dram)

theorem State.breakLocks_holds_time (p : Path) : (s.breakLock p .config).holds p .time = s.holds p .time :=
  s.breakLock_holds_ne p (by decide)

theorem State.breakLocks_holds_dram (p : Path) :
    ((s.breakLock p .config).breakLock p .time).holds p .dram = s.holds p .dram := by
  rw [State.breakLock_holds_ne _ p (by decide), s.breakLock_holds_ne p (by decide)]

theorem State.breakLocks_lock (p : Path) (l : LockId) : (s.holds p l = false → (s.breakLocks p).lock l = s.lock l) ∧
    (s.holds p l = true → ((s.breakLocks p).lock l).holder =
      VWord.of (if l = .dram ∧ (∃ k, (s.ch k).hold = true ∧ (s.ch k).heldHost = true) then 3 else 0)) := by
  unfold State.breakLocks
  cases l with
  | config =>
    rw [State.breakLock_lock_ne _ p (by decide), State.breakLock_lock_ne _ p (by decide)]
    exact ⟨fun h => by rw [s.breakLock_of_free h], s.breakLock_holder⟩
  | time =>
    rw [State.breakLock_lock_ne _ p (by decide)]
    refine ⟨fun h => ?_, fun h => ?_⟩
    · rw [State.breakLock_of_free _ ((s.breakLocks_holds_time p).trans h), State.breakLock_lock_ne _ p (by decide)]
    · rw [State.breakLock_holder _ ((s.breakLocks_holds_time p).trans h)]
      rfl
  | dram =>
    refine ⟨fun h => ?_, fun h => ?_⟩
    · rw [State.breakLock_of_free _ ((s.breakLocks_holds_dram p).trans h), State.breakLock_lock_ne _ p (by decide),
        State.breakLock_lock_ne _ p (by decide)]
    · rw [State.breakLock_holder _ ((s.breakLocks_holds_dram p).trans h)]
      simp only [State.breakLock_ch_of_ne _ p (show LockId.time ≠ .dram by decide),
        State.breakLock_ch_of_ne _ p (show LockId.config ≠ .dram by decide)]

theorem State.breakLocks_time (p : Path) :
    (s.breakLocks p).time = { s.time with arm := s.time.arm && !s.holds p .time } := by
  unfold State.breakLocks
  rw [State.breakLock_time, State.breakLock_time, State.breakLock_time, s.breakLocks_holds_time]
  simp [show (LockId.dram == LockId.time) = false from rfl, show (LockId.config == LockId.time) = false from rfl]

theorem State.breakLocks_path_other (p : Path) : (s.breakLocks p).path (otherPath p) = s.path (otherPath p) := by
  unfold State.breakLocks
  rw [State.breakLock_path_other, State.breakLock_path_other, State.breakLock_path_other]

theorem State.breakLocks_path (p : Path) : ((s.breakLocks p).path p).pathReset = (s.path p).pathReset := by
  have hp (x : PathSt) : x.pathReset = ({ x with staging := [] } : PathSt).pathReset := rfl
  unfold State.breakLocks
  rw [hp, State.breakLock_path, State.breakLock_path, State.breakLock_path, ← hp]

theorem State.breakLocks_ch (p : Path) (c : YId) : (s.breakLocks p).ch c =
    if s.holds p .dram then (s.ch c).leaveHost s.time.ticks s.order else s.ch c := by
  unfold State.breakLocks
  rw [State.breakLock_dram_ch, s.breakLocks_holds_dram, State.breakLock_ch_of_ne _ p (by decide),
    State.breakLock_ch_of_ne _ p (by decide), State.breakLock_time, State.breakLock_time, State.breakLock_order,
    State.breakLock_order]

theorem length_filter_locks (f : LockId → Bool) : ([LockId.config, .time, .dram].filter f).length =
    (if f .config then 1 else 0) + (if f .time then 1 else 0) + (if f .dram then 1 else 0) := by
  simp only [List.filter_cons, List.filter_nil]
  cases f .config <;> cases f .time <;> cases f .dram <;> rfl

theorem State.breakLocks_counted (hwf : s.eventsWf) (p : Path) : s.counted (s.breakLocks p) Ev.lockbrk 0
    (([LockId.config, .time, .dram].filter fun l => s.holds p l).length) := by
  obtain ⟨hwf₁, hc₁⟩ := s.breakLock_counted hwf p .config
  obtain ⟨hwf₂, hc₂⟩ := State.breakLock_counted _ hwf₁ p .time
  obtain ⟨-, hc₃⟩ := State.breakLock_counted _ hwf₂ p .dram
  rw [s.breakLocks_holds_time] at hc₂
  rw [s.breakLocks_holds_dram] at hc₃
  have h := (hc₁.trans hc₂).trans hc₃
  rw [length_filter_locks]
  exact h

/-- A PATH reset where start-up does not wait for DP:LOCKDRAM. -/
theorem State.pathReset_eq (h : s.bootWaits = false) (p : Path) :
    s.pathReset p = ((s.breakLocks p).modPath p PathSt.pathReset).chanChanged := by
  obtain ⟨_, _, _, _, _, _, _, _, hf⟩ := (s.breakLocks_lockFrame p).trans (State.modPath_lockFrame _ p PathSt.pathReset)
  refine State.bootTrain_of_not _ ?_
  have hw : ((s.breakLocks p).modPath p PathSt.pathReset).chanChanged.bootWaits = s.bootWaits := by
    simp [State.chanChanged, State.bootWaits, hf]
  show State.mayTrain ((s.breakLocks p).modPath p PathSt.pathReset).chanChanged = false
  rw [State.mayTrain, hw, h, Bool.and_false, Bool.false_and]

theorem lockCode_ne_zero (p : Path) : lockCode p ≠ 0 := by cases p <;> decide

/-- With DP:LOCKDRAM freed, a start-up that waited for it goes on. -/
theorem State.pathFrame.freeDram_mayTrain {s u : State} (h : s.pathFrame u) {p : Path} (hw : s.hostWrites p)
    (hwaits : s.bootWaits = true) (hclk : s.time.refclk = true) : (u.freeLock .dram).mayTrain = true := by
  obtain ⟨⟨_, _, rfl⟩, -⟩ := h
  obtain ⟨hwritable, hfatal⟩ := hw
  have hon := hwritable
  simp only [State.writable, State.hostOn, Bool.and_eq_true, Bool.not_eq_true'] at hon
  obtain ⟨-, ⟨hp, hstage⟩, -⟩ := hon
  simp only [State.mayTrain, State.cardingOn, Bool.and_eq_true, Bool.not_eq_true']
  exact ⟨⟨⟨⟨⟨hp, hstage⟩, hfatal⟩, hclk⟩, hwaits⟩, rfl⟩

/-- What the three ways to a PATH reset do beside it: HRST# holds path A in its reset, a general call is acknowledged. -/
def resetEnd (c : Instr) (p : Path) (x : PathSt) : PathSt :=
  { x with inReset := if p = .a then true else x.inReset, ack := if c = .generalCallReset 0x06 then true else x.ack }

theorem exec_pathReset {s : State} {c : Instr} {p : Path} (hp : s.powered = true)
    (hc : (p = .a ∧ ∃ ns, 100 ≤ ns ∧ c = .pathAReset ns) ∨ (p = .b ∧ (c = .msclLowTimeout ∨ c = .generalCallReset 0x06))) :
    exec c s = .next ((s.pathReset p).modPath p (resetEnd c p)) := by
  rcases hc with ⟨rfl, ns, hns, rfl⟩ | ⟨rfl, rfl | rfl⟩
  · refine congrArg Host.Outcome.next ((if_neg (by omega)).trans ?_)
    simp [hp, State.modPath, State.setPath, State.path, resetEnd]
  · refine congrArg Host.Outcome.next ((if_pos hp).trans ?_)
    rfl
  · refine congrArg Host.Outcome.next ((if_pos hp).trans ((if_pos rfl).trans ?_))
    rfl

theorem State.modPath_bare (p : Path) (g : PathSt → PathSt) :
    (s.modPath p g).bare = { s.bare with pathA := (s.modPath p g).pathA, pathB := (s.modPath p g).pathB } := by
  cases p <;> rfl

/-- Beside the paths, what the frame of a broken lock names is all that differs. -/
theorem State.lockFrame.modPath_nextOrder_bare {s t : State} (h : s.lockFrame t) (p : Path) (g : PathSt → PathSt) (a b : PathSt) :
    ({ (t.modPath p g).nextOrder.bare with pathA := a, pathB := b } : State) = ({ s with
      pathA := a, pathB := b, time := (t.modPath p g).nextOrder.time, events := (t.modPath p g).nextOrder.events
      chans := (t.modPath p g).nextOrder.chans, order := (t.modPath p g).nextOrder.order
      dp := { s.dp with lockCfg := (t.modPath p g).nextOrder.dp.lockCfg, lockTime := (t.modPath p g).nextOrder.dp.lockTime, lockDram := (t.modPath p g).nextOrder.dp.lockDram } } : State).bare := by
  obtain ⟨_, _, _, _, _, _, _, _, rfl⟩ := h
  cases p <;> rfl

theorem PathSt.pathReset_busy (x : PathSt) : x.pathReset.busy = false := by
  simp [PathSt.busy, PathSt.pathReset]

end Sys2Proof.Machine

open Sys2Proof Sys2Proof.Machine

/-- Settles O57. -/
theorem locksAndConfig : Obligations.LocksAndConfig := by
  refine ⟨fun p l s => ⟨fun hw hl hfree => ?_, fun hw hl hown hdram hwaits hclk => ?_, fun hw hl hown hwaits => ?_,
    fun v hw hl hwf htake hfree => ?_, fun hon hwaits hown hclk hover => ?_⟩, fun p v s hw hl hwf href => ⟨?_, ?_⟩⟩
  · obtain ⟨u, hu, hexec⟩ := s.exec_lockWrite hw hl (lockCode p)
    rw [if_pos ⟨rfl, hfree⟩] at hexec
    have htime := hu.time
    have hdp := hu.dp
    have ht : u.takeLock l (lockCode p) = u.setLock l ⟨VWord.of (lockCode p), s.time.ticks, (max 1 s.dp.lease.toNat) * 100000⟩ := by
      simp [State.takeLock, htime, hdp, msTicks]
    rw [ht] at hexec
    refine ⟨_, hexec, by simp, fun k hk => ?_, ?_⟩
    · rw [State.setLock_lock_ne _ _ _ _ hk, hu.lock]
    · rw [State.setLock_lock]
      exact (hu.setLock l _).hostFrame_of_path fun r => State.setLock_path_frame ..
  · obtain ⟨u, hu, hexec⟩ := s.exec_lockWrite hw hl 0
    rw [if_neg fun h => lockCode_ne_zero p h.1.symm, if_pos ⟨rfl, hown⟩] at hexec
    subst hdram
    exact ⟨_, hexec, State.bootTrain_takes _ (hu.freeDram_mayTrain hw hwaits hclk)⟩
  · obtain ⟨u, hu, hexec⟩ := s.exec_lockWrite hw hl 0
    rw [if_neg fun h => lockCode_ne_zero p h.1.symm, if_pos ⟨rfl, hown⟩] at hexec
    have hfree := hu.freeLock l
    have hboot : (u.freeLock l).boot = s.boot := by
      rw [State.freeLock_boot]
      obtain ⟨⟨_, _, rfl⟩, -⟩ := hu
      rfl
    rw [State.bootTrain_of_not] at hexec
    · refine ⟨_, hexec, by rw [State.freeLock_lock]; rfl, by rw [State.freeLock_time, hu.time], fun k hk => ?_, ?_⟩
      · rw [State.freeLock_lock_ne _ _ _ hk, hu.lock]
      · have hlock := hfree.lock l
        have htime := hfree.time
        rw [hlock, htime, ← State.freeLock_eq]
        exact hfree.hostFrame_of_path fun r => s.freeLock_path l r
    · refine s.mayTrain_of_not hboot (hwaits.imp_right fun ⟨hne, hfree⟩ => ?_)
      rw [State.dramFree, State.freeLock_lock_ne _ _ _ (Ne.symm hne), hu.lock]
      exact hfree
  · obtain ⟨u, hu, hexec⟩ := s.exec_lockWrite hw hl v
    rw [if_neg htake, if_neg hfree] at hexec
    obtain ⟨hrej, hframe⟩ := hu.reject hwf ⟨p, lockOff l, (s.path p).bankSel.toNat⟩ Ev.lockrej 0 Reason.lock
    exact ⟨_, hexec, hrej, hframe⟩
  · have hexec := s.exec_leaseExpiry hon hown hclk hover
    rw [State.bootTrain_of_not] at hexec
    · refine ⟨_, hexec, ?_, fun k hk => ?_, ?_, ?_, ?_, fun k hk => ?_, fun k hdram hk => ?_, ?_⟩
      · simp [State.chanChanged, s.lockLeaves_holder]
      · simp [State.chanChanged, s.lockLeaves_lock_ne p hk]
      · simp [State.chanChanged, s.lockLeaves_time]
      · simp [State.chanChanged, s.lockLeaves_path]
      · simp [State.chanChanged, s.lockLeaves_path_other]
      · rw [State.chanChanged_ch]
        rcases hk with hne | hfree
        · exact s.lockLeaves_ch_of_ne p hne k
        · by_cases hdram : l = .dram
          · rw [hdram, s.lockLeaves_dram_ch, Chan.leaveHost_of_free hfree]
          · exact s.lockLeaves_ch_of_ne p hdram k
      · rw [State.chanChanged_ch, hdram, s.lockLeaves_dram_ch]
        obtain ⟨hhold, hreq, hheld, -, -⟩ := Chan.leaveHost_held hk s.time.ticks s.order
        exact ⟨hhold, hreq, hheld, fun h => Chan.leaveHost_swept hk h ..⟩
      · have hf := congrArg (fun x : State => x.nextOrder.bare) (s.lockLeaves_frame l p)
        simp only [State.chanChanged, State.scaleAll_bare, State.scaleAll_lock, State.scaleAll_pathA, State.scaleAll_pathB,
          State.scaleAll_time, State.scaleAll_chans, State.nextOrder_lock_frame]
        cases l <;> exact hf
    · refine s.mayTrain_of_not ?_ (hwaits.imp_right fun ⟨hne, hfree⟩ => ?_)
      · rw [State.chanChanged, State.scaleAll_boot, State.nextOrder_boot, s.lockLeaves_frame]
        exact s.setLock_boot ..
      · rw [State.dramFree, State.chanChanged, State.scaleAll_lock, State.nextOrder_lock_frame,
          s.lockLeaves_lock_ne p (Ne.symm hne)]
        exact hfree
  · obtain ⟨u, hu, heq⟩ := s.rowCommit_refused hw (b := .azl) (off := 0) (s.lockAgrees_of rfl hl) (s.writeRefusal_config rfl href) [v]
    exact ⟨_, congrArg Host.Outcome.next heq, hu.reject hwf _ _ _ _⟩
  · obtain ⟨u, hu, heq⟩ := s.rowCommit_refused hw (b := .azl) (off := 1) (s.lockAgrees_of rfl hl) (s.writeRefusal_config rfl href) [v]
    exact ⟨_, congrArg Host.Outcome.next heq, hu.reject hwf _ _ _ _⟩

/-- Settles O10. -/
theorem pathResets : Obligations.PathResets := by
  refine ⟨fun ns s h => congrArg Host.Outcome.next (if_pos h), fun ns s h hp => ?_, fun s => rfl, fun cmd s hp hc => ?_,
    fun c p s hp hwf hwaits hc => ?_⟩
  · refine congrArg Host.Outcome.next ((if_neg (by omega)).trans ?_)
    simp [hp]
  · exact congrArg Host.Outcome.next ((if_pos hp).trans (if_neg hc))
  · have hexec := exec_pathReset hp hc
    rw [s.pathReset_eq hwaits] at hexec
    have hother := otherPath_ne p
    refine ⟨_, hexec, ?_, ?_, ?_, fun l hl => ?_, fun l hl => ?_, ?_, ?_, fun k hk => ?_, fun k hd hk => ?_, ?_⟩
    · rw [State.modPath_path, State.chanChanged, State.scaleAll_path, State.nextOrder_path_frame, State.modPath_path,
        s.breakLocks_path]
      rfl
    · rw [State.modPath_path, State.chanChanged, State.scaleAll_path, State.nextOrder_path_frame, State.modPath_path]
      exact PathSt.pathReset_busy _
    · rw [State.modPath_path_ne _ _ _ _ hother, State.chanChanged, State.scaleAll_path, State.nextOrder_path_frame,
        State.modPath_path_ne _ _ _ _ hother, s.breakLocks_path_other]
    · rw [State.modPath_lock_frame, State.chanChanged, State.scaleAll_lock, State.nextOrder_lock_frame, State.modPath_lock_frame]
      exact (s.breakLocks_lock p l).1 hl
    · rw [State.modPath_lock_frame, State.chanChanged, State.scaleAll_lock, State.nextOrder_lock_frame, State.modPath_lock_frame]
      exact (s.breakLocks_lock p l).2 hl
    · exact (s.breakLocks_counted hwf p).congr (by simp [State.chanChanged])
    · simp [State.chanChanged, s.breakLocks_time]
    · simp only [State.modPath_ch_frame, State.chanChanged_ch, s.breakLocks_ch]
      split
      · next hd => exact Chan.leaveHost_of_free (hk.resolve_left (by simp [hd])) ..
      · rfl
    · simp only [State.modPath_ch_frame, State.chanChanged_ch, s.breakLocks_ch, hd, if_true]
      obtain ⟨hhold, hreq, hheld, hreqs, htaps⟩ := Chan.leaveHost_held hk s.time.ticks s.order
      exact ⟨hhold, hreq, hheld, hreqs, htaps, fun h => Chan.leaveHost_swept hk h .., fun h hst => Chan.leaveHost_st h hst ..⟩
    · rw [State.modPath_bare, State.chanChanged, State.scaleAll_bare, State.modPath_events, State.modPath_time,
        State.modPath_chans, State.modPath_order, State.modPath_dp, State.scaleAll_events, State.scaleAll_time,
        State.scaleAll_chans, State.scaleAll_order, State.scaleAll_dp]
      exact (s.breakLocks_lockFrame p).modPath_nextOrder_bare p _ _ _
end

section
/-!
O13 and O26. The governor's interval and the lookahead sample.
-/

-- The theorems one after another: side by side they take more threads than the check allows.
set_option Elab.async false

namespace Sys2Proof.Machine

variable (s : State)

/-! ### The governor's interval (R438 to R440, R496) -/

theorem demandWord_toNat (acc8 free : Nat) : (demandWord acc8 free).toNat =
    min 65535 (acc8 / 400 + (if acc8 % 400 != 0 && Config.demandRoundsUp free then 1 else 0)) := by
  simp only [demandWord, BitVec.toNat_ofNat]
  omega

/-- DEMAND is the quotient by 400, rounded down or up. -/
theorem demandWord_rounds (acc8 free : Nat) : (demandWord acc8 free).toNat = min 65535 (acc8 / 400) ∨
    (demandWord acc8 free).toNat = min 65535 ((acc8 + 399) / 400) := by
  rw [demandWord_toNat]
  cases Config.demandRoundsUp free with
  | false => simp
  | true =>
    by_cases hzero : acc8 % 400 = 0
    · simp [hzero]
    · refine Or.inr ?_
      rw [if_pos (by simpa using hzero)]
      omega

theorem Gov.nextCode_of_low {g : Gov} (h : g.code < g.effFloor) : g.nextCode = g.code + 1 := by
  rw [Gov.nextCode, if_pos h]

theorem Gov.nextCode_of_high {g : Gov} (hlow : g.effFloor ≤ g.code) (h : g.effCeil < g.code) : g.nextCode = g.code - 1 := by
  rw [Gov.nextCode, if_neg (by omega), if_pos h]

theorem Gov.nextCode_of_fixed {g : Gov} (hlow : g.effFloor ≤ g.code) (hhigh : g.code ≤ g.effCeil) (h : g.fixed = true) :
    g.nextCode = stepToward g.code (max g.effFloor (min g.effCeil (fld g.mode 4 4))) := by
  rw [Gov.nextCode, if_neg (by omega), if_neg (by omega), if_pos h]

theorem Gov.nextCode_of_auto {g : Gov} (hlow : g.effFloor ≤ g.code) (hhigh : g.code ≤ g.effCeil) (h : g.fixed = false) :
    g.nextCode = if 64 * g.capac.toNat < g.demand.toNat * g.weight ∧ g.code < g.effCeil then g.code + 1
      else if g.demand.toNat * g.weight ≤ 64 * g.capdn.toNat ∧ g.effFloor < g.code then g.code - 1 else g.code := by
  rw [Gov.nextCode, if_neg (by omega), if_neg (by omega), if_neg (by simp [h])]
  simp only [Gov.lacks, Gov.spare, Bool.and_eq_true, decide_eq_true_eq]

/-- The code at the end of an interval of service, for each of the cases of R438 and R440. -/
theorem Gov.nextCode_spec (g : Gov) :
    (g.code < g.effFloor → g.nextCode = g.code + 1) ∧
    (g.effFloor ≤ g.code → g.effCeil < g.code → g.nextCode = g.code - 1) ∧
    (g.effFloor ≤ g.code → g.code ≤ g.effCeil → g.fixed = false →
      (64 * g.capac.toNat < g.demand.toNat * g.weight → g.code < g.effCeil → g.nextCode = g.code + 1) ∧
      (¬(64 * g.capac.toNat < g.demand.toNat * g.weight ∧ g.code < g.effCeil) →
        (g.demand.toNat * g.weight ≤ 64 * g.capdn.toNat ∧ g.effFloor < g.code → g.nextCode = g.code - 1) ∧
        (¬(g.demand.toNat * g.weight ≤ 64 * g.capdn.toNat ∧ g.effFloor < g.code) → g.nextCode = g.code))) ∧
    (g.effFloor ≤ g.code → g.code ≤ g.effCeil → g.fixed = true →
      g.nextCode = stepToward g.code (max g.effFloor (min g.effCeil (fld g.mode 4 4)))) := by
  refine ⟨Gov.nextCode_of_low, Gov.nextCode_of_high, fun hlow hhigh hauto => ?_, Gov.nextCode_of_fixed⟩
  rw [Gov.nextCode_of_auto hlow hhigh hauto]
  exact ⟨fun hlacks hroom => if_pos ⟨hlacks, hroom⟩, fun hstays => by
    rw [if_neg hstays]
    exact ⟨fun hspare => if_pos hspare, fun hkeeps => if_neg hkeeps⟩⟩

/-- No interval ends where the governor does not run or its 50 µs are not over. -/
theorem State.interval_of_not (capac capdn : Word) (h : s.time.ticks < s.gov.tick + 5000 ∨ s.powered = false ∨
    s.time.refclk = false ∨ (s.dp.fatal = false ∧ (s.boot.stage < 7 ∨ s.boot.warm = true))) :
    s.interval capac capdn = s := by
  refine if_neg fun hgo => ?_
  simp only [State.govRuns, Bool.and_eq_true, Bool.or_eq_true, decide_eq_true_eq, Bool.not_eq_true'] at hgo
  obtain ⟨⟨⟨hpow, hruns⟩, href⟩, htick⟩ := hgo
  rcases h with h | h | h | ⟨hfatal, h⟩
  · omega
  · simp [h] at hpow
  · simp [h] at href
  · rcases hruns with hruns | ⟨hstage, hwarm⟩
    · simp [hfatal] at hruns
    · rcases h with h | h
      · omega
      · simp [h] at hwarm

/-- An interval that ends publishes its counts, moves the code and renews FLOOR, CEIL and MARGIN. -/
theorem State.interval_of_runs (capac capdn : Word) (hpow : s.powered = true)
    (hruns : (7 ≤ s.boot.stage ∧ s.boot.warm = false) ∨ s.dp.fatal = true) (href : s.time.refclk = true)
    (htick : s.gov.tick + 5000 ≤ s.time.ticks) (hf : s.agrees .floor) (hc : s.agrees .ceil) (hm : s.agrees .margin) :
    s.interval capac capdn = { s.intervalEnd capac capdn with gov := (s.intervalEnd capac capdn).gov.renew } := by
  have hgov : s.govRuns = true := by
    rcases hruns with ⟨hstage, hwarm⟩ | hfatal
    · simp [State.govRuns, hstage, hwarm]
    · simp [State.govRuns, hfatal]
  rw [State.interval, if_pos (by simp [hpow, hgov, href, htick])]
  exact State.govRenew_of_agrees _ hf hc hm

end Sys2Proof.Machine

open Sys2Proof Sys2Proof.Machine

/-- Settles O13: the interval's end in one equation, and the code by the cases of R438 and R440. -/
theorem governor : Obligations.Governor := by
  intro capac capdn s
  refine ⟨fun h => congrArg Host.Outcome.next (s.interval_of_not capac capdn h), fun hpow hruns href htick hf hc hm => ?_⟩
  have hend := s.interval_of_runs capac capdn hpow hruns href htick hf hc hm
  refine ⟨_, congrArg Host.Outcome.next hend, rfl, ⟨rfl, demandWord_rounds _ _⟩, fun hfatal => ?_, fun hfatal => ?_⟩
  · exact if_pos hfatal
  · have hcode : s.codeNext (s.gov.measured capac capdn s.freeCtr) = (s.gov.measured capac capdn s.freeCtr).nextCode :=
      if_neg (by simp [hfatal])
    have hspec := (s.gov.measured capac capdn s.freeCtr).nextCode_spec
    rw [← hcode] at hspec
    exact hspec
end

section
namespace Sys2Proof.Machine

variable (s : State)

/-! ### The lookahead sample (R134, R135) -/

/-- A sample sets the estimate, the apparent fill it was taken at and the lookahead part. -/
theorem Queue.sample_eq (x : Queue) (a room : Int) : x.sample a room =
    { x with rate := (x.sample a room).rate, lastAfl := (x.sample a room).lastAfl, afla := (x.sample a room).afla } := rfl

/-- A queue changed in its sample alone: FREE of every queue stays. -/
theorem State.modQu_sample_free (k q : QId) (a room : Int) : (s.modQu k fun x => x.sample a room).free q = s.free q := by
  by_cases h : q = k
  · subst h
    simp only [State.free, State.spillHeld, State.unusedShare, State.frames, State.orphans, State.modQu_qu]
    rfl
  · simp only [State.free, State.spillHeld, State.unusedShare, State.frames, State.orphans, State.modQu_qu_ne _ _ _ _ h]
    rfl

theorem State.modQu_sample_afl (k q : QId) (a room : Int) : (s.modQu k fun x => x.sample a room).afl q = s.afl q := by
  rw [State.afl, State.afl, s.modQu_sample_free]
  by_cases h : q = k
  · subst h
    rw [State.modQu_qu]
    rfl
  · rw [State.modQu_qu_ne _ _ _ _ h]

/-- The step of one queue in a sample of every queue. -/
def State.sampleOne (s : State) (q : QId) : State := s.modQu q fun x => x.sample (s.afl q) (s.free q - x.ffresSlots)

theorem State.sampleOne_qu (q : QId) :
    (s.sampleOne q).qu q = (s.qu q).sample (s.afl q) (s.free q - (s.qu q).ffresSlots) := s.modQu_qu q _

theorem State.sampleOne_qu_ne {q k : QId} (h : k ≠ q) : (s.sampleOne q).qu k = s.qu k := s.modQu_qu_ne q k _ h

theorem State.sampleOne_eq (q : QId) : s.sampleOne q =
    s.modQu q fun x => x.sample (s.afl q) (s.free q - (s.qu q).ffresSlots) := rfl

theorem State.sampleOne_free (k q : QId) : (s.sampleOne k).free q = s.free q := s.modQu_sample_free k q _ _

theorem State.sampleOne_afl (k q : QId) : (s.sampleOne k).afl q = s.afl q := s.modQu_sample_afl k q _ _

/-- Queues sampled one after another: each by what the state showed before the first. -/
theorem State.foldSample_qu (l : List QId) (hl : l.Nodup) (q : QId) : (l.foldl State.sampleOne s).qu q =
    if q ∈ l then (s.qu q).sample (s.afl q) (s.free q - (s.qu q).ffresSlots) else s.qu q := by
  induction l generalizing s with
  | nil => simp
  | cons k l ih =>
    obtain ⟨hk, hl⟩ := List.nodup_cons.1 hl
    rw [List.foldl_cons, ih _ hl, s.sampleOne_free, s.sampleOne_afl]
    by_cases h : q = k
    · subst h
      rw [if_neg hk, if_pos (List.mem_cons_self ..), s.sampleOne_qu]
    · simp [s.sampleOne_qu_ne h, h]

theorem State.sampleAll_qu (q : QId) :
    s.sampleAll.qu q = (s.qu q).sample (s.afl q) (s.free q - (s.qu q).ffresSlots) :=
  (s.foldSample_qu allQ (List.nodup_finRange 16) q).trans (if_pos (mem_allQ q))

/-- A sample changes queues alone. -/
theorem State.sampleAll_frame : s.sampleAll = { s with queues := s.sampleAll.queues } :=
  List.foldlRecOn (motive := fun t : State => t = { s with queues := t.queues }) allQ _ rfl fun t ht k _ => by
    rw [ht]
    rfl

theorem State.setSampleTick_qu (n : Nat) (q : QId) : ({ s with sampleTick := n } : State).qu q = s.qu q := rfl

/-- The lookahead part is set, cleared or kept by its three tests (R135). -/
theorem Queue.sample_afla (x : Queue) (a room : Int) :
    (0 < (x.sample a room).rate ∧ (x.afttf.toNat : Int) ≠ 0 ∧ room * 256 ≤ (x.sample a room).rate * (x.afttf.toNat : Int) →
      (x.sample a room).afla = true) ∧
    (¬(0 < (x.sample a room).rate ∧ (x.afttf.toNat : Int) ≠ 0 ∧
        room * 256 ≤ (x.sample a room).rate * (x.afttf.toNat : Int)) →
      ((x.sample a room).rate ≤ 0 ∨ 2 * (x.sample a room).rate * (x.afttf.toNat : Int) < room * 256 ∨
        (x.afttf.toNat : Int) = 0 → (x.sample a room).afla = false) ∧
      (¬((x.sample a room).rate ≤ 0 ∨ 2 * (x.sample a room).rate * (x.afttf.toNat : Int) < room * 256 ∨
        (x.afttf.toNat : Int) = 0) → (x.sample a room).afla = x.afla)) := by
  have hflag : (x.sample a room).afla = hyst
      (decide (0 < (x.sample a room).rate) && ((x.afttf.toNat : Int) != 0) &&
        decide (room * 256 ≤ (x.sample a room).rate * (x.afttf.toNat : Int)))
      (decide ((x.sample a room).rate ≤ 0) || ((x.afttf.toNat : Int) == 0) ||
        decide (2 * (x.sample a room).rate * (x.afttf.toNat : Int) < room * 256)) x.afla := rfl
  generalize (x.sample a room).rate = rate at hflag ⊢
  generalize (x.afttf.toNat : Int) = ttf at hflag ⊢
  rw [hflag]
  refine ⟨fun ⟨hrise, httf, hroom⟩ => ?_, fun hup => ⟨fun hdown => ?_, fun hdown => ?_⟩⟩
  · simp [hyst, hrise, httf, hroom]
  · have hnot : ¬((decide (0 < rate) && (ttf != 0) && decide (room * 256 ≤ rate * ttf)) = true) := by
      simpa [and_assoc] using hup
    rw [hyst, if_neg hnot, if_pos]
    simp only [Bool.or_eq_true, decide_eq_true_eq, beq_iff_eq]
    tauto
  · have hnot : ¬((decide (0 < rate) && (ttf != 0) && decide (room * 256 ≤ rate * ttf)) = true) := by
      simpa [and_assoc] using hup
    rw [hyst, if_neg hnot, if_neg]
    simp only [Bool.or_eq_true, decide_eq_true_eq, beq_iff_eq]
    tauto

end Sys2Proof.Machine

open Sys2Proof Sys2Proof.Machine

/-- Settles O26: each queue's sample by the state before all of them. -/
theorem lookahead : Obligations.Lookahead := by
  intro s
  refine ⟨fun hrun href htick => ?_, fun hnot => ?_⟩
  · refine ⟨_, congrArg Host.Outcome.next (if_pos (by simp [hrun, href, htick])), ?_, fun q => ?_⟩
    · conv_lhs => rw [s.sampleAll_frame]
    · rw [State.setSampleTick_qu, s.sampleAll_qu]
      obtain ⟨hset, hclear⟩ := (s.qu q).sample_afla (s.afl q) (s.free q - (s.qu q).ffresSlots)
      refine ⟨rfl, rfl, (s.qu q).sample_eq _ _, ?_⟩
      extract_lets room ttf up down
      exact ⟨hset, fun hup => (hclear hup).1, fun hup => (hclear hup).2⟩
  · refine congrArg Host.Outcome.next (if_neg fun hgo => ?_)
    simp only [Bool.and_eq_true, decide_eq_true_eq] at hgo
    obtain ⟨⟨hrun, href⟩, htick⟩ := hgo
    rcases hnot with hnot | hnot | hnot
    · simp [hnot] at hrun
    · simp [hnot] at href
    · omega
end

section
/-!
O47 and O48. REFCLK edges, PPS_IN and TS_OUT.
-/

-- The theorems one after another: side by side they take more threads than the check allows.
set_option Elab.async false

namespace Sys2Proof.Machine

variable (s : State)

/-! ### One edge of the time base (R318, R330) -/

/-- The time base an edge on, before TSOUT and the points passed are looked at. -/
def Time.moved (x : Time) : Time :=
  { (x.setTotal (x.total + x.edgeInc)) with ticks := x.ticks + 1, adv := x.adv + x.edgeInc, slew := x.slew - x.slewInc }

/-- A TSOUT write acts where the second is no longer `w` (R335). -/
def Time.takeTsout (x : Time) (w : BitVec 48) : Time :=
  if x.sec ≠ w then { x with tsoutNow := x.tsout, tsoutPend := none } else x

theorem Time.edge_eq (x : Time) : x.edge =
    { x.moved.takeTsout x.sec with pass := (x.moved.takeTsout x.sec).passed x.edgeInc } := rfl

section TakeTsout

variable (x : Time) (w : BitVec 48)

theorem Time.takeTsout_slew : (x.takeTsout w).slew = x.slew := by unfold Time.takeTsout; split <;> rfl
theorem Time.takeTsout_epoch : (x.takeTsout w).epoch = x.epoch := by unfold Time.takeTsout; split <;> rfl
theorem Time.takeTsout_ticks : (x.takeTsout w).ticks = x.ticks := by unfold Time.takeTsout; split <;> rfl
theorem Time.takeTsout_sec : (x.takeTsout w).sec = x.sec := by unfold Time.takeTsout; split <;> rfl
theorem Time.takeTsout_ns : (x.takeTsout w).ns = x.ns := by unfold Time.takeTsout; split <;> rfl
theorem Time.takeTsout_frac : (x.takeTsout w).frac = x.frac := by unfold Time.takeTsout; split <;> rfl

theorem Time.takeTsout_total : (x.takeTsout w).total = x.total := by
  rw [Time.total, Time.takeTsout_sec, Time.takeTsout_ns, Time.takeTsout_frac, Time.total]

theorem Time.takeTsout_tsoutNow : (x.takeTsout w).tsoutNow = if x.sec = w then x.tsoutNow else x.tsout := by
  unfold Time.takeTsout
  by_cases h : x.sec = w <;> simp [h]

theorem Time.takeTsout_tsoutPend : (x.takeTsout w).tsoutPend = if x.sec = w then x.tsoutPend else none := by
  unfold Time.takeTsout
  by_cases h : x.sec = w <;> simp [h]

end TakeTsout

section Fields

variable (x : Time) (i j : Nat) (k : Int) (o : Option Bool)

/-! The fields of a time base changed elsewhere, said of any values: the edge's own arithmetic stays out of the comparison. -/

theorem Time.setPass_slew : ({ x with pass := o } : Time).slew = x.slew := rfl
theorem Time.setPass_epoch : ({ x with pass := o } : Time).epoch = x.epoch := rfl
theorem Time.setPass_ticks : ({ x with pass := o } : Time).ticks = x.ticks := rfl
theorem Time.setPass_sec : ({ x with pass := o } : Time).sec = x.sec := rfl
theorem Time.setPass_total : ({ x with pass := o } : Time).total = x.total := rfl
theorem Time.setPass_tsoutNow : ({ x with pass := o } : Time).tsoutNow = x.tsoutNow := rfl
theorem Time.setPass_tsoutPend : ({ x with pass := o } : Time).tsoutPend = x.tsoutPend := rfl
theorem Time.setClock_slew : ({ x with ticks := i, adv := j, slew := k } : Time).slew = k := rfl
theorem Time.setClock_ticks : ({ x with ticks := i, adv := j, slew := k } : Time).ticks = i := rfl
theorem Time.setClock_epoch : ({ x with ticks := i, adv := j, slew := k } : Time).epoch = x.epoch := rfl
theorem Time.setClock_total : ({ x with ticks := i, adv := j, slew := k } : Time).total = x.total := rfl
theorem Time.setClock_tsout : ({ x with ticks := i, adv := j, slew := k } : Time).tsout = x.tsout := rfl
theorem Time.setClock_tsoutNow : ({ x with ticks := i, adv := j, slew := k } : Time).tsoutNow = x.tsoutNow := rfl
theorem Time.setClock_tsoutPend : ({ x with ticks := i, adv := j, slew := k } : Time).tsoutPend = x.tsoutPend := rfl
theorem Time.setTotal_epoch : (x.setTotal i).epoch = x.epoch := rfl
theorem Time.setTotal_tsout : (x.setTotal i).tsout = x.tsout := rfl
theorem Time.setTotal_tsoutNow : (x.setTotal i).tsoutNow = x.tsoutNow := rfl
theorem Time.setTotal_tsoutPend : (x.setTotal i).tsoutPend = x.tsoutPend := rfl

end Fields

section Edge

variable (x : Time)

theorem Time.edge_slew : x.edge.slew = x.slew - x.slewInc := by
  rw [Time.edge_eq, Time.setPass_slew, Time.takeTsout_slew, Time.moved, Time.setClock_slew]

theorem Time.edge_epoch : x.edge.epoch = x.epoch := by
  rw [Time.edge_eq, Time.setPass_epoch, Time.takeTsout_epoch, Time.moved, Time.setClock_epoch, Time.setTotal_epoch]

theorem Time.edge_ticks : x.edge.ticks = x.ticks + 1 := by
  rw [Time.edge_eq, Time.setPass_ticks, Time.takeTsout_ticks, Time.moved, Time.setClock_ticks]

theorem Time.edge_sec : x.edge.sec = x.moved.sec := by rw [Time.edge_eq, Time.setPass_sec, Time.takeTsout_sec]

theorem Time.edge_total : x.edge.total = (x.setTotal (x.total + x.edgeInc)).total := by
  rw [Time.edge_eq, Time.setPass_total, Time.takeTsout_total, Time.moved, Time.setClock_total]

theorem Time.edge_tsoutNow : x.edge.tsoutNow = if x.edge.sec = x.sec then x.tsoutNow else x.tsout := by
  have hmoved : x.moved.tsoutNow = x.tsoutNow ∧ x.moved.tsout = x.tsout := by
    rw [Time.moved, Time.setClock_tsoutNow, Time.setClock_tsout, Time.setTotal_tsoutNow, Time.setTotal_tsout]
    exact ⟨rfl, rfl⟩
  rw [Time.edge_sec, Time.edge_eq, Time.setPass_tsoutNow, Time.takeTsout_tsoutNow, hmoved.1, hmoved.2]

theorem Time.edge_tsoutPend : x.edge.tsoutPend = if x.edge.sec = x.sec then x.tsoutPend else none := by
  have hmoved : x.moved.tsoutPend = x.tsoutPend := by
    rw [Time.moved, Time.setClock_tsoutPend, Time.setTotal_tsoutPend]
  rw [Time.edge_sec, Time.edge_eq, Time.setPass_tsoutPend, Time.takeTsout_tsoutPend, hmoved]

end Edge

/-- The time base set to a total that its 48 bits of seconds can hold shows it. -/
theorem Time.setTotal_total (x : Time) {n : Nat} (h : n < 2 ^ 48 * unitsSec) : (x.setTotal n).total = n := by
  have hsec : n / unitsSec < 2 ^ 48 := Nat.div_lt_of_lt_mul (by rwa [Nat.mul_comm])
  have hdiv : n / unitsSec = n / unitsNs / nsSec := (Nat.div_div_eq_div_mul n unitsNs nsSec).symm
  simp only [Time.total, Time.setTotal, BitVec.toNat_ofNat, Nat.mod_eq_of_lt hsec]
  rw [hdiv, Nat.div_add_mod', Nat.div_add_mod']

/-- The trimmed 10 ns and the slew's part are never negative together. -/
theorem Time.edgeInc_toInt (x : Time) : (x.edgeInc : Int) = 1073741824000 + 250 * x.trim + x.slewInc := by
  have htrim : -4294967 ≤ x.trim := by
    rw [Time.trim]
    exact le_max_left _ _
  have hslew : -536870912 ≤ x.slewInc := by
    rw [Time.slewInc]
    split
    · exact le_max_right _ _
    · exact le_min (by omega) (by norm_num)
  rw [Time.edgeInc]
  exact Int.toNat_of_nonneg (by omega)

theorem Time.edge_advance (x : Time)
    (h : (x.total : Int) + 1073741824000 + 250 * x.trim + x.slewInc < 2 ^ 48 * unitsSec) :
    (x.edge.total : Int) = x.total + 1073741824000 + 250 * x.trim + x.slewInc := by
  have hinc := x.edgeInc_toInt
  have hlt : x.total + x.edgeInc < 2 ^ 48 * unitsSec := by
    zify
    rw [hinc]
    linarith
  rw [x.edge_total, x.setTotal_total hlt]
  push_cast
  rw [hinc]
  ring

/-- A slew that one edge can absorb is over with it. -/
theorem Time.slewInc_of_small (x : Time) (h : x.slew.natAbs ≤ 536870912) : x.slewInc = x.slew := by
  rw [Time.slewInc]
  split <;> omega

/-! ### REFCLK edges -/

theorem State.ch_of_vmap {s u : State} {g : Chan → Chan} {c : YId} (hu : u.chans = vmap g s.chans) : u.ch c = g (s.ch c) := by
  simp [State.ch, hu]

/-- The state with the time base `x`, to which an edge has brought it. -/
def State.edged (s : State) (x : Time) : State := { s with time := x, chans := vmap (Chan.freqEdge x.ticks) s.chans }

theorem State.edged_frame (x : Time) : s.edged x = { s with time := (s.edged x).time, chans := (s.edged x).chans } := rfl
theorem State.edged_time (x : Time) : (s.edged x).time = x := rfl
theorem State.edged_ch (x : Time) (c : YId) : (s.edged x).ch c = (s.ch c).freqEdge x.ticks := State.ch_of_vmap (s := s) rfl

theorem State.edged_noReads (x : Time) (h : s.noReads) : (s.edged x).noReads := fun p => by
  rw [← h p]
  cases p <;> rfl

theorem State.refEdge_eq (hon : s.timeOn = true) : s.refEdge = (s.edged s.time.edge).answerReads := by
  rw [State.refEdge, if_pos hon]
  generalize s.time.edge = x
  rfl

/-- An edge while the time base runs and no read waits. -/
theorem State.refEdge_of_timeOn (hon : s.timeOn = true) (hreads : s.noReads) : s.refEdge = s.edged s.time.edge := by
  rw [s.refEdge_eq hon, State.answerReads_of_noReads _ (s.edged_noReads _ hreads)]

theorem State.refEdge_of_timeOff (hoff : s.timeOn = false) : s.refEdge = s := if_neg (by simp [hoff])

/-- An edge of a frequency change: it counts while no started burst or missing REFCLK holds it, and at its bound the target
set comes into force. -/
theorem Chan.freqEdge_spec (x : Chan) (tick : Nat) {f : Freq} (hf : x.freq = some f) :
    (¬(f.locked = false ∧ x.quiet = true ∧ x.noRef = false) → x.freqEdge tick = x) ∧
    (f.locked = false ∧ x.quiet = true ∧ x.noRef = false →
      (f.edges + 1 < f.stepFour → x.freqEdge tick = { x with freq := some { f with edges := f.edges + 1 } }) ∧
      (f.stepFour ≤ f.edges + 1 → (x.freqEdge tick).setB = f.toB ∧ (x.freqEdge tick).st = x.st ∧
        (x.freqEdge tick).reqs = x.reqs ∧
        (x.freqEdge tick).freq = some { f with edges := f.edges + 1, locked := true })) := by
  have hedge : x.freqEdge tick = if f.locked || !x.quiet || x.noRef then x
      else if f.edges + 1 < f.stepFour then { x with freq := some { f with edges := f.edges + 1 } }
      else x.lockSet { f with edges := f.edges + 1 } tick := by
    rw [Chan.freqEdge, hf]
    rfl
  refine ⟨fun hheld => ?_, fun ⟨hlocked, hquiet, href⟩ => ?_⟩
  · rw [hedge, if_pos]
    revert hheld
    cases f.locked <;> cases x.quiet <;> cases x.noRef <;> decide
  · rw [hedge, if_neg (by simp [hlocked, hquiet, href])]
    refine ⟨fun hlt => if_pos hlt, fun hle => ?_⟩
    rw [if_neg (by omega), Chan.lockSet, if_neg (by simp [hlocked])]
    refine ⟨rfl, ?_, ?_, rfl⟩
    · dsimp only
      split <;> rfl
    · dsimp only
      split <;> rfl

end Sys2Proof.Machine

open Sys2Proof Sys2Proof.Machine

/-- Settles O47: an edge moves the time base and each channel's frequency change, each by its own lemma. -/
theorem timeAdvances : Obligations.TimeAdvances := by
  intro s hreads
  refine ⟨fun hon => ?_, fun hoff => congrArg Host.Outcome.next (s.refEdge_of_timeOff hoff), fun hon hslew hsmall => ?_⟩
  · refine ⟨_, congrArg Host.Outcome.next (s.refEdge_of_timeOn hon hreads), s.edged_frame _, ?_⟩
    simp only [s.edged_time, s.edged_ch]
    refine ⟨fun c => ⟨fun hnone => Chan.freqEdge_of_none _ hnone, fun f hf => ?_⟩, fun hlt => s.time.edge_advance hlt,
      s.time.edge_slew, s.time.edge_epoch, s.time.edge_ticks⟩
    obtain ⟨hheld, hcounts⟩ := (s.ch c).freqEdge_spec s.time.edge.ticks hf
    have hstop : 70000 + (if f.came = .active then 100 else 0) = f.stepFour := Nat.add_comm _ _
    rw [hstop]
    exact ⟨hheld, fun hc => (hcounts hc).1, fun hc => (hcounts hc).2⟩
  · have hedge := s.refEdge_of_timeOn hon hreads
    have hrow : exec .slewEnd s = .next s.refEdge := congrArg Host.Outcome.next (if_pos ⟨hslew, hsmall⟩)
    refine ⟨_, hrow.trans (congrArg Host.Outcome.next hedge), ?_, s.edged_frame _, congrArg Host.Outcome.next hedge⟩
    rw [s.edged_time, s.time.edge_slew, s.time.slewInc_of_small hsmall, sub_self]
end

section
namespace Sys2Proof.Machine

variable (s : State)

/-! ### What a waiting read leaves of the time base: all but the copies of TIME:DISC.MODE (R379) -/

/-- The two states have one time base, the copies of TIME:DISC.MODE apart. -/
def State.sameClock (s t : State) : Prop := ∃ v, t.time = { s.time with disc := v }

theorem State.sameClock_of_time {s t : State} (h : t.time = s.time) : s.sameClock t := ⟨s.time.disc, h⟩

theorem State.sameClock.trans {s t u : State} (h : s.sameClock t) (k : t.sameClock u) : s.sameClock u := by
  obtain ⟨v, hv⟩ := h
  obtain ⟨w, hw⟩ := k
  exact ⟨w, by rw [hw, hv]⟩

theorem State.sameClock.tsout {s t : State} (h : s.sameClock t) :
    t.time.sec = s.time.sec ∧ t.time.tsoutNow = s.time.tsoutNow ∧ t.time.tsoutPend = s.time.tsoutPend := by
  obtain ⟨v, hv⟩ := h
  rw [hv]
  exact ⟨rfl, rfl, rfl⟩

theorem State.vset_sameClock (r : VRef) (v : VWord) : s.sameClock (s.vset r v) := by
  cases r with
  | discMode => exact ⟨v, rfl⟩
  | lock l => cases l <;> exact State.sameClock_of_time rfl
  | _ => exact State.sameClock_of_time rfl

theorem State.enterFatal_time : s.enterFatal.time = s.time := by
  unfold State.enterFatal
  split <;> rfl

theorem State.voteFail_time (r : VRef) : (s.voteFail r).time = s.time := by
  cases r with
  | queue q i => rfl
  | _ => exact s.enterFatal_time

theorem State.compare_sameClock (r : VRef) : s.sameClock (s.compare r) := by
  unfold State.compare
  dsimp only
  split
  · exact State.sameClock_of_time rfl
  · split
    · split
      · exact State.sameClock_of_time rfl
      · exact (s.vset_sameClock r _).trans (State.sameClock_of_time (State.count_time _ _ _))
    · exact (s.vset_sameClock r _).trans (State.sameClock_of_time (State.voteFail_time _ r))

theorem State.foldCompare_sameClock (refs : List VRef) : s.sameClock (refs.foldl State.compare s) :=
  List.foldlRecOn (motive := fun t => s.sameClock t) refs _ (State.sameClock_of_time rfl) fun t ht r _ =>
    ht.trans (t.compare_sameClock r)

theorem State.latch_time (p : Path) (b : Bank) (off : Nat) : (s.latch p b off).time = s.time := by
  unfold State.latch
  dsimp only
  split
  · simp
  · split <;> simp

theorem State.readBank_sameClock (p : Path) (b : Bank) (off : Nat) : s.sameClock (s.readBank p b off) := by
  unfold State.readBank
  split
  · exact State.sameClock_of_time (by simp)
  · exact (s.foldCompare_sameClock (b.readRefs off)).trans (State.sameClock_of_time (by simp [State.latch_time]))

theorem State.answerRead_sameClock (p : Path) : s.sameClock (s.answerRead p) := by
  unfold State.answerRead
  split
  · split
    · exact (State.sameClock_of_time (by simp)).trans (State.readBank_sameClock _ p _ _)
    · exact State.sameClock_of_time rfl
  · exact State.sameClock_of_time rfl

theorem State.answerReads_sameClock : s.sameClock s.answerReads :=
  (s.answerRead_sameClock .a).trans (State.answerRead_sameClock _ .b)

/-! ### PPS_IN (R324, R325) -/

theorem State.ppsEdge_accepted (hon : s.timeOn = true)
    (h : ∀ a, s.time.ppsLast = some a → a + 500000 * unitsUs ≤ s.time.adv) : s.ppsEdge = { s with time := { s.time with
      ppsSec := BitVec.ofNat 48 ((s.time.total - 20 * unitsNs) / unitsSec)
      ppsNs := (s.time.total - 20 * unitsNs) / unitsNs % nsSec
      ppsEpoch := s.time.epoch, ppsSeq := s.time.ppsSeq + 1, ppsMiss := false, ppsLast := some s.time.adv } } := by
  rw [State.ppsEdge, if_neg (by simp [hon])]
  dsimp only
  cases hlast : s.time.ppsLast with
  | none => exact if_neg Bool.false_ne_true
  | some a => exact if_neg (by simpa using h a hlast)

theorem State.ppsEdge_glitch (hon : s.timeOn = true) {a : Nat} (hlast : s.time.ppsLast = some a)
    (h : s.time.adv < a + 500000 * unitsUs) : s.ppsEdge = s.count Ev.ppsglitch 0 := by
  rw [State.ppsEdge, if_neg (by simp [hon])]
  dsimp only
  rw [hlast]
  exact if_pos (decide_eq_true h)

theorem State.count_frame (code inst : Nat) : s.count code inst = { s with events := (s.count code inst).events } := rfl

/-! ### TS_OUT (R335, R336) -/

theorem State.exec_tsoutWrite {p : Path} (v : Word) (h : s.mayWrite p .time 0x14) :
    ∃ u, s.pathFrame u ∧ exec (.tsoutWrite p v) s = .next (u.tsoutWrite v) := by
  obtain ⟨u, hu, hrow⟩ := s.rowCommit_time h [v]
  exact ⟨u, hu, congrArg Host.Outcome.next hrow⟩

/-- A pulse of a selected kind is under way. -/
theorem State.tsOut_of_pulse (hpend : s.time.tsoutPend = none) (hmode : s.time.tsMode = 1 ∨ s.time.tsMode = 2)
    (hpulse : s.time.pulse.isSome = true) : s.tsOut = true := by
  rw [State.tsOut, hpend]
  rcases hmode with hmode | hmode <;> simp [hmode, hpulse]

end Sys2Proof.Machine

open Sys2Proof Sys2Proof.Machine

/-- Settles O48: PPS_IN and TS_OUT, case by case of the time base's own advance. -/
theorem ppsAndTimeOutput : Obligations.PpsAndTimeOutput := by
  refine ⟨fun s hon => ⟨fun h => ?_, fun a hwf hlast hadv => ?_, fun h => ?_⟩,
    fun s => ⟨fun p v h => ?_, fun hon => ?_, fun hon hpend hpoint => ?_, fun a hpulse h => ?_, fun a hpulse h => ?_⟩⟩
  · exact ⟨_, rfl, s.ppsEdge_accepted hon h⟩
  · refine ⟨_, congrArg Host.Outcome.next (s.ppsEdge_glitch hon hlast hadv), s.count_frame _ _, ?_⟩
    exact s.counted_of_events hwf rfl
  · exact congrArg Host.Outcome.next (if_pos (by simp only [hon, Bool.true_and, decide_eq_true_eq]; exact h))
  · obtain ⟨u, hu, hexec⟩ := s.exec_tsoutWrite v h
    refine ⟨_, hexec, rfl, ?_⟩
    obtain ⟨⟨_, _, rfl⟩, hcore⟩ := hu
    exact ⟨rfl, hcore⟩
  · obtain ⟨hsec, hnow, hpend⟩ := (s.edged s.time.edge).answerReads_sameClock.tsout
    refine ⟨_, congrArg Host.Outcome.next (s.refEdge_eq hon), ?_⟩
    rw [hsec, hnow, hpend, s.edged_time]
    exact ⟨s.time.edge_tsoutNow, s.time.edge_tsoutPend⟩
  · have hmode : s.time.tsMode = 1 ∨ s.time.tsMode = 2 := hpoint.imp And.left And.left
    refine ⟨_, congrArg Host.Outcome.next (if_pos ?_), rfl, State.tsOut_of_pulse _ hpend hmode rfl⟩
    rcases hpoint with ⟨hkind, hpass⟩ | ⟨hkind, hpass⟩ <;> simp [hon, hpend, hkind, hpass]
  · refine congrArg Host.Outcome.next ?_
    rw [hpulse]
    exact if_pos h
  · refine congrArg Host.Outcome.next ?_
    rw [hpulse]
    exact if_neg (Nat.not_le.2 h)
end

section
/-!
O14. The voted words: what a write of one does to the others, and a pass of the scrubber (R378 to R380).
-/

-- The theorems one after another: side by side they take more threads than the check allows.
set_option Elab.async false

namespace Sys2Proof.Machine

variable (s : State)

/-! ### One voted word -/

theorem Queue.vword_setVword (x : Queue) (i : Fin 7) (v : VWord) : (x.setVword i v).vword i = v := by
  match i with
  | 0 | 1 | 2 | 3 | 4 | 5 | 6 => rfl

theorem Queue.vword_setVword_ne (x : Queue) {i j : Fin 7} (v : VWord) (h : j ≠ i) : (x.setVword i v).vword j = x.vword j := by
  fin_cases i <;> fin_cases j <;> simp_all [Queue.vword, Queue.setVword]

theorem syIdx_inj {e e' : Fin 64} {hi hi' : Bool} (h : (syIdx e hi).val = (syIdx e' hi').val) : e = e' ∧ hi = hi' := by
  have hval : 2 * e.val + (if hi then 1 else 0) = 2 * e'.val + (if hi' then 1 else 0) := h
  cases hi <;> cases hi' <;> simp at hval ⊢ <;> omega

/-- A voted word reads what was written to it. -/
theorem State.vget_vset (r : VRef) (v : VWord) : (s.vset r v).vget r = v := by
  cases r with
  | queue q i => simp [State.vget, State.vset, Queue.vword_setVword]
  | sortYard e hi => simp [State.vget, State.vset]
  | lock l => cases l <;> rfl
  | tset c b i => cases b <;> simp [State.vget, State.vset]
  | _ => rfl

/-- A write of one voted word leaves every other. -/
theorem State.vget_vset_ne {r r' : VRef} (v : VWord) (h : r' ≠ r) : (s.vset r v).vget r' = s.vget r' := by
  cases r with
  | queue q i =>
    cases r' with
    | queue q' i' =>
      by_cases hq : q' = q
      · subst hq
        have hi : i' ≠ i := fun hi => h (by rw [hi])
        simp [State.vget, State.vset, Queue.vword_setVword_ne _ v hi]
      · simp [State.vget, State.vset, State.modQu_qu_ne _ _ _ _ hq]
    | lock l => cases l <;> rfl
    | _ => rfl
  | sortYard e hi =>
    cases r' with
    | sortYard e' hi' =>
      have hne : (syIdx e hi).val ≠ (syIdx e' hi').val := fun hval => h (by
        obtain ⟨rfl, rfl⟩ := syIdx_inj hval
        rfl)
      simp [State.vget, State.vset, hne]
    | lock l => cases l <;> rfl
    | _ => rfl
  | lock l =>
    cases r' with
    | lock l' => cases l <;> cases l' <;> simp_all [State.vget, State.vset, State.lock, State.setLock]
    | _ => cases l <;> rfl
  | tset c b i =>
    cases r' with
    | tset c' b' i' =>
      by_cases hc : c' = c
      · subst hc
        simp only [State.vget, State.vset, State.modCh_ch]
        cases b <;> cases b' <;> simp_all [Fin.ext_iff, eq_comm]
      · simp [State.vget, State.vset, State.modCh_ch_ne _ _ _ _ hc]
    | lock l => cases l <;> rfl
    | _ => rfl
  | acfg | ainq | floor | ceil | margin | discMode =>
    cases r' with
    | lock l => cases l <;> rfl
    | queue q i => rfl
    | sortYard e hi => rfl
    | tset c b i => rfl
    | _ => simp_all [State.vget, State.vset]

/-! ### A state without its voted words -/

def Queue.unvoted (x : Queue) : Queue :=
  { x with
    qcfg := VWord.of 0, qmapL := VWord.of 0, qmapH := VWord.of 0, qbaseL := VWord.of 0, qbaseH := VWord.of 0
    qsizeL := VWord.of 0, qsizeH := VWord.of 0 }

def Chan.unvoted (x : Chan) : Chan :=
  { x with tA := Vector.replicate 15 (VWord.of 0), tB := Vector.replicate 15 (VWord.of 0) }

def Lock.unvoted (x : Lock) : Lock := { x with holder := VWord.of 0 }

/-- All of a state but its voted words: with what each of them reads it is the state. -/
def State.unvoted (s : State) : State :=
  { s with
    dp := { s.dp with
      lockCfg := s.dp.lockCfg.unvoted, lockTime := s.dp.lockTime.unvoted, lockDram := s.dp.lockDram.unvoted }
    time := { s.time with disc := VWord.of 0 }
    gov := { s.gov with floor := VWord.of 0, ceil := VWord.of 0, margin := VWord.of 0 }
    queues := s.queues.map Queue.unvoted
    sy := Vector.replicate 128 (VWord.of 0)
    chans := s.chans.map Chan.unvoted
    azl := { s.azl with acfg := VWord.of 0, ainq := VWord.of 0 } }

theorem Queue.unvoted_setVword (x : Queue) (i : Fin 7) (v : VWord) : (x.setVword i v).unvoted = x.unvoted := by
  match i with
  | 0 | 1 | 2 | 3 | 4 | 5 | 6 => rfl

theorem Vector.map_set_of_eq {α β : Type} {n : Nat} (f : α → β) (v : Vector α n) (i : Nat) (h : i < n) (a : α)
    (ha : f a = f v[i]) : (v.set i a).map f = v.map f := by
  ext k hk
  by_cases hki : i = k
  · subst hki
    simp [ha]
  · simp [hki]

theorem State.vset_unvoted (r : VRef) (v : VWord) : (s.vset r v).unvoted = s.unvoted := by
  cases r with
  | queue q i =>
    have hmap : (s.queues.set q.val ((s.qu q).setVword i v)).map Queue.unvoted = s.queues.map Queue.unvoted :=
      Vector.map_set_of_eq _ _ _ _ _ ((s.qu q).unvoted_setVword i v)
    simp only [State.unvoted, State.vset, State.modQu, State.setQu, hmap]
  | tset c b i =>
    have hmap (x : Chan) (hx : x.unvoted = (s.ch c).unvoted) : (s.chans.set c.val x).map Chan.unvoted = s.chans.map Chan.unvoted :=
      Vector.map_set_of_eq _ _ _ _ _ hx
    simp only [State.unvoted, State.vset, State.modCh, State.setCh]
    rw [hmap]
    cases b <;> rfl
  | lock l => cases l <;> rfl
  | _ => rfl

theorem Queue.eq_of_unvoted {x y : Queue} (h : x.unvoted = y.unvoted) (hv : ∀ i, x.vword i = y.vword i) : x = y := by
  have hx (z : Queue) : z = { z.unvoted with
      qcfg := z.vword 0, qmapL := z.vword 1, qmapH := z.vword 2, qbaseL := z.vword 3, qbaseH := z.vword 4
      qsizeL := z.vword 5, qsizeH := z.vword 6 } := rfl
  rw [hx x, h, hv 0, hv 1, hv 2, hv 3, hv 4, hv 5, hv 6, ← hx y]

theorem Chan.eq_of_unvoted {x y : Chan} (h : x.unvoted = y.unvoted) (hA : x.tA = y.tA) (hB : x.tB = y.tB) : x = y := by
  have hx (z : Chan) : z = { z.unvoted with tA := z.tA, tB := z.tB } := rfl
  rw [hx x, h, hA, hB, ← hx y]

/-- Two states that agree in their voted words and in all else are one. -/
theorem State.eq_of_unvoted {s t : State} (h : s.unvoted = t.unvoted) (hv : ∀ r, s.vget r = t.vget r) : s = t := by
  have hqueues : s.queues = t.queues := by
    ext k hk
    have hmap : (s.queues.map Queue.unvoted)[k] = (t.queues.map Queue.unvoted)[k] :=
      congrArg (fun u : State => u.queues[k]) h
    simp only [Vector.getElem_map] at hmap
    exact Queue.eq_of_unvoted hmap fun i => hv (.queue ⟨k, hk⟩ i)
  have hchans : s.chans = t.chans := by
    ext k hk
    have hmap : (s.chans.map Chan.unvoted)[k] = (t.chans.map Chan.unvoted)[k] :=
      congrArg (fun u : State => u.chans[k]) h
    simp only [Vector.getElem_map] at hmap
    refine Chan.eq_of_unvoted hmap ?_ ?_
    · ext i hi : 1
      exact hv (.tset ⟨k, hk⟩ false ⟨i, hi⟩)
    · ext i hi : 1
      exact hv (.tset ⟨k, hk⟩ true ⟨i, hi⟩)
  have hsy : s.sy = t.sy := by
    ext k hk : 1
    have hword (b : Bool) (hb : k % 2 = if b then 1 else 0) : s.sy[k] = t.sy[k] := by
      have hk' : (syIdx ⟨k / 2, by omega⟩ b).val = k := by
        have : 2 * (k / 2) + (if b then 1 else 0) = k := by omega
        exact this
      have hread : s.sy[(syIdx ⟨k / 2, by omega⟩ b).val] = t.sy[(syIdx ⟨k / 2, by omega⟩ b).val] :=
        hv (.sortYard ⟨k / 2, by omega⟩ b)
      simpa only [hk'] using hread
    rcases Nat.mod_two_eq_zero_or_one k with h0 | h1
    · exact hword false h0
    · exact hword true h1
  have hx (u : State) : u = { u.unvoted with
      dp := { u.unvoted.dp with
        lockCfg := { u.unvoted.dp.lockCfg with holder := u.vget (.lock .config) }
        lockTime := { u.unvoted.dp.lockTime with holder := u.vget (.lock .time) }
        lockDram := { u.unvoted.dp.lockDram with holder := u.vget (.lock .dram) } }
      time := { u.unvoted.time with disc := u.vget .discMode }
      gov := { u.unvoted.gov with floor := u.vget .floor, ceil := u.vget .ceil, margin := u.vget .margin }
      queues := u.queues, sy := u.sy, chans := u.chans
      azl := { u.unvoted.azl with acfg := u.vget .acfg, ainq := u.vget .ainq } } := rfl
  rw [hx s, h, hqueues, hchans, hsy, hv, hv, hv, hv, hv, hv, hv, hv, hv, ← hx t]

theorem State.vset_vset (r : VRef) (v w : VWord) : (s.vset r v).vset r w = s.vset r w := by
  refine State.eq_of_unvoted (by simp only [State.vset_unvoted]) fun r' => ?_
  by_cases h : r' = r
  · subst h
    rw [State.vget_vset, State.vget_vset]
  · rw [State.vget_vset_ne _ _ h, State.vget_vset_ne _ _ h, State.vget_vset_ne _ _ h]

end Sys2Proof.Machine
end

section
namespace Sys2Proof.Machine

variable (s : State)

/-! ### Upsets before the pass (R378, R379) -/

/-- One copy of the word differs from the value that the other two hold. -/
def VWord.oneOff (v : VWord) (w : Word) : Prop :=
  v.failed = false ∧ v.majority = some w ∧ ¬(v.c0 = w ∧ v.c1 = w ∧ v.c2 = w)

theorem xor_eq_self {w m : Word} : w ^^^ m = w ↔ m = 0 := by
  constructor
  · intro h
    have hcancel := congrArg (w ^^^ ·) h
    simpa [← BitVec.xor_assoc] using hcancel
  · rintro rfl
    simp

/-- Flips in one copy of a word whose copies agree. -/
theorem VWord.flip_oneOff (w : Word) {m : Word} (hm : m ≠ 0) {f : Flips} (hf : f = ⟨m, 0, 0⟩ ∨ f = ⟨0, m, 0⟩ ∨ f = ⟨0, 0, m⟩) :
    ((VWord.of w).flip f).oneOff w := by
  have hne : w ^^^ m ≠ w := fun h => hm (xor_eq_self.1 h)
  rcases hf with rfl | rfl | rfl
  · refine ⟨rfl, ?_, fun h => hne h.1⟩
    simp [VWord.majority, VWord.flip, VWord.of]
  · refine ⟨rfl, ?_, fun h => hne h.2.1⟩
    simp [VWord.majority, VWord.flip, VWord.of]
  · refine ⟨rfl, ?_, fun h => hne h.2.2⟩
    simp [VWord.majority, VWord.flip, VWord.of]

/-- Flips that leave three different copies. -/
theorem VWord.flip_majority_none (w : Word) {f : Flips} (h01 : f.m0 ≠ f.m1) (h02 : f.m0 ≠ f.m2) (h12 : f.m1 ≠ f.m2) :
    ((VWord.of w).flip f).majority = none := by
  simp [VWord.majority, VWord.flip, VWord.of, h01, h02, h12]

/-- An upset come about in its word. -/
def State.upset (s : State) (u : Upset) : State := s.vset u.ref ((s.vget u.ref).flip u.flips)

theorem State.foldUpset_unvoted (ups : List Upset) : (ups.foldl State.upset s).unvoted = s.unvoted :=
  List.foldlRecOn (motive := fun t : State => t.unvoted = s.unvoted) ups _ rfl fun t ht x _ =>
    (t.vset_unvoted x.ref _).trans ht

theorem State.foldUpset_vget_of_not_mem (ups : List Upset) {r : VRef} (h : r ∉ ups.map (·.ref)) :
    (ups.foldl State.upset s).vget r = s.vget r := by
  induction ups generalizing s with
  | nil => rfl
  | cons u ups ih =>
    obtain ⟨hne, hmem⟩ : r ≠ u.ref ∧ r ∉ ups.map (·.ref) := by simpa using h
    rw [List.foldl_cons, ih _ hmem, State.upset, State.vget_vset_ne _ _ hne]

theorem State.foldUpset_vget_of_mem (ups : List Upset) (hnodup : (ups.map (·.ref)).Nodup) {u : Upset} (h : u ∈ ups) :
    (ups.foldl State.upset s).vget u.ref = (s.vget u.ref).flip u.flips := by
  induction ups generalizing s with
  | nil => simp at h
  | cons x ups ih =>
    obtain ⟨hx, hnodup⟩ := List.nodup_cons.1 hnodup
    rw [List.foldl_cons]
    rcases List.mem_cons.1 h with rfl | h
    · rw [State.foldUpset_vget_of_not_mem _ ups hx, State.upset, State.vget_vset]
    · have hne : u.ref ≠ x.ref := fun he => hx (List.mem_map.2 ⟨u, h, he⟩)
      rw [ih _ hnodup h, State.upset, State.vget_vset_ne _ _ hne]

/-! ### Words of which one copy disagrees (R378) -/

theorem State.compare_of_oneOff {r : VRef} {w : Word} (h : (s.vget r).oneOff w) :
    s.compare r = (s.vset r (VWord.of w)).count Ev.votefix 0 := by
  obtain ⟨hfailed, hmajority, hdiffer⟩ := h
  simp only [State.compare, hfailed, hmajority, Bool.false_eq_true, if_false]
  exact if_neg hdiffer

/-- The state with another event table. -/
def State.recount (s : State) (e : Table EvCell) : State := { s with events := e }

theorem State.recount_vget (e : Table EvCell) (r : VRef) : (s.recount e).vget r = s.vget r := by
  cases r with
  | lock l => cases l <;> rfl
  | _ => rfl

theorem State.count_vget (code inst : Nat) (r : VRef) : (s.count code inst).vget r = s.vget r := s.recount_vget _ r

theorem State.count_unvoted (code inst : Nat) : (s.count code inst).unvoted = s.unvoted.recount (s.count code inst).events := rfl

theorem State.unvoted_recount (e : Table EvCell) : (s.recount e).unvoted = s.unvoted.recount e := rfl

theorem State.vset_events (r : VRef) (v : VWord) : (s.vset r v).events = s.events :=
  (congrArg State.events (s.vset_unvoted r v) :)

/-- A pass over words of which those in `bad` have one copy off and the others are as in `s`: every word is as in `s` again,
each of `bad` counted. -/
theorem State.foldCompare_oneOff (hs : s.agreed) (l : List VRef) : ∀ (bad : List VRef) (u : State), bad.Nodup → bad ⊆ l →
    u.eventsWf → (∀ r ∈ bad, (u.vget r).oneOff (s.vget r).val) → (∀ r, r ∉ bad → u.vget r = s.vget r) →
    (∀ r, (l.foldl State.compare u).vget r = s.vget r) ∧ u.counted (l.foldl State.compare u) Ev.votefix 0 bad.length ∧
    (l.foldl State.compare u).unvoted = u.unvoted.recount (l.foldl State.compare u).events := by
  induction l with
  | nil =>
    intro bad u _ hsub _ _ hgood
    obtain rfl : bad = [] := List.subset_nil.1 hsub
    exact ⟨fun r => hgood r (by simp), State.counted_of_events_eq _ _ rfl, rfl⟩
  | cons r l ih =>
    intro bad u hnodup hsub hwf hbad hgood
    rw [List.foldl_cons]
    by_cases hr : r ∈ bad
    · rw [u.compare_of_oneOff (hbad r hr)]
      have herase {r' : VRef} : r' ∈ bad.erase r ↔ r' ≠ r ∧ r' ∈ bad := hnodup.mem_erase_iff
      have hcount : u.counted ((u.vset r (VWord.of (s.vget r).val)).count Ev.votefix 0) Ev.votefix 0 1 := by
        refine u.counted_of_events hwf ?_
        rw [State.count, State.countN_events, State.countN_events, State.ev, State.ev, State.vset_events]
      have hwf' : ((u.vset r (VWord.of (s.vget r).val)).count Ev.votefix 0).eventsWf := by
        refine State.eventsWf_count ?_ _ _ _
        rwa [State.eventsWf, State.vset_events]
      obtain ⟨hget, hcounted, hrest⟩ := ih (bad.erase r) _ (hnodup.erase r)
        (fun r' hr' => (List.mem_cons.1 (hsub (herase.1 hr').2)).resolve_left (herase.1 hr').1) hwf'
        (fun r' hr' => by
          rw [State.count_vget, State.vget_vset_ne _ _ (herase.1 hr').1]
          exact hbad r' (herase.1 hr').2)
        (fun r' hr' => by
          rw [State.count_vget]
          by_cases hne : r' = r
          · subst hne
            rw [State.vget_vset]
            exact (hs r').symm
          · rw [State.vget_vset_ne _ _ hne]
            exact hgood r' fun hmem => hr' (herase.2 ⟨hne, hmem⟩))
      refine ⟨hget, ?_, ?_⟩
      · have hlen : bad.length = 1 + (bad.erase r).length := by
          rw [List.length_erase_of_mem hr]
          have := List.length_pos_of_mem hr
          omega
        rw [hlen]
        exact hcount.trans hcounted
      · rw [hrest, State.count_unvoted, State.vset_unvoted]
        rfl
    · have hagrees : u.agrees r := by
        rw [State.agrees, hgood r hr]
        exact hs r
      rw [u.compare_of_agrees hagrees]
      refine ih bad u hnodup (fun r' hr' => ?_) hwf hbad hgood
      exact (List.mem_cons.1 (hsub hr')).resolve_left fun he => hr (he ▸ hr')

/-! ### A word whose three copies disagree (R380) -/

/-- Entry into FATAL changes no voted word but the lock that Carding frees. -/
theorem State.enterFatal_vget (r : VRef) : s.enterFatal.vget r = s.vget r ∨
    (s.enterFatal.vget r = VWord.of 0 ∧ r = .lock .dram ∧ (s.vget r).val = lockCarding) := by
  by_cases hfatal : s.dp.fatal
  · exact .inl (by rw [State.enterFatal, if_pos hfatal])
  · rw [State.enterFatal, if_neg hfatal]
    cases r with
    | floor | ceil | margin => exact .inl (by simp only [State.vget]; split <;> rfl)
    | tset c b i =>
      left
      cases b <;> simp [State.vget, State.ch, Chan.breakOff]
    | lock l =>
      cases l with
      | dram =>
        simp only [State.vget, State.lock]
        split
        next h => exact .inr ⟨rfl, trivial, h.1⟩
        next => exact .inl rfl
      | _ => exact .inl rfl
    | _ => exact .inl rfl

theorem State.voteFail_vget (r r' : VRef) : (s.voteFail r).vget r' = s.vget r' ∨
    ((s.voteFail r).vget r' = VWord.of 0 ∧ r' = .lock .dram ∧ (s.vget r').val = lockCarding) := by
  cases r with
  | queue q i =>
    left
    cases r' with
    | queue q' i' =>
      by_cases h : q' = q
      · subst h
        simp only [State.voteFail, State.vget, State.modQu_qu]
        fin_cases i' <;> rfl
      · simp [State.voteFail, State.vget, State.modQu_qu_ne _ _ _ _ h]
    | lock l => cases l <;> rfl
    | _ => rfl
  | _ => exact s.enterFatal_vget r'

theorem VWord.val_of_failed {v : VWord} (h : v.failed = true) : v.val = 0 := by simp [VWord.val, h]

/-- A word in VOTEFAIL stays so, whatever its failing brings about. -/
theorem State.voteFail_vget_of_failed {r r' : VRef} (h : (s.vget r').failed = true) : (s.voteFail r).vget r' = s.vget r' := by
  refine (s.voteFail_vget r r').resolve_right fun ⟨_, _, hcarding⟩ => ?_
  rw [VWord.val_of_failed h] at hcarding
  exact absurd hcarding (by decide)

theorem State.compare_of_none {r : VRef} (hfailed : (s.vget r).failed = false) (h : (s.vget r).majority = none) :
    s.compare r = (s.vset r { s.vget r with failed := true }).voteFail r := by
  simp only [State.compare, hfailed, h, Bool.false_eq_true, if_false]

/-- A pass over words of which one has three different copies: its failing, and nothing beside. -/
theorem State.foldCompare_of_none {r : VRef} (hfailed : (s.vget r).failed = false) (hnone : (s.vget r).majority = none)
    (hothers : ∀ r', r' ≠ r → s.agrees r') (l : List VRef) (hr : r ∈ l) :
    l.foldl State.compare s = (s.vset r { s.vget r with failed := true }).voteFail r := by
  induction l with
  | nil => simp at hr
  | cons r' l ih =>
    rw [List.foldl_cons]
    by_cases h : r' = r
    · subst h
      rw [s.compare_of_none hfailed hnone]
      refine State.compareAll_of_settled _ fun x _ => ?_
      rcases (s.vset r' { s.vget r' with failed := true }).voteFail_vget r' x with hx | ⟨hx, -⟩
      · rw [hx]
        by_cases hxr : x = r'
        · subst hxr
          exact .inl (by rw [State.vget_vset])
        · rw [State.vget_vset_ne _ _ hxr]
          exact .inr (hothers x hxr)
      · rw [hx]
        exact VWord.settled_of 0
    · rw [s.compare_of_agrees (hothers r' h)]
      exact ih ((List.mem_cons.1 hr).resolve_left fun he => h he.symm)

/-! ### The pass (R379, R380) -/

theorem mem_allRefs (r : VRef) : r ∈ allRefs := by
  cases r with
  | queue q i => simp [allRefs, allQ, queueRefs]
  | sortYard e hi => cases hi <;> simp [allRefs]
  | lock l => cases l <;> simp [allRefs]
  | tset c b i => cases b <;> simp [allRefs, allY]
  | _ => simp [allRefs]

theorem State.exec_voteScrub (hpow : s.powered = true) (hstage : 3 ≤ s.boot.stage) (ups : List Upset) :
    exec (.voteScrub ups) s = .next (allRefs.foldl State.compare (ups.foldl State.upset s)).scaleAll :=
  congrArg Host.Outcome.next (if_pos (by simp [hpow, hstage]))

/-- Upsets of one copy each, one to a word: the pass restores every word and counts each. -/
theorem State.scrub_oneOff (hs : s.agreed) (hwf : s.eventsWf) (ups : List Upset) (hnodup : (ups.map (·.ref)).Nodup)
    (hups : ∀ u ∈ ups, ∃ m : Word, m ≠ 0 ∧ (u.flips = ⟨m, 0, 0⟩ ∨ u.flips = ⟨0, m, 0⟩ ∨ u.flips = ⟨0, 0, m⟩)) :
    ∃ t, allRefs.foldl State.compare (ups.foldl State.upset s) = t ∧ (∀ r, t.vget r = s.vget r) ∧
      s.counted t Ev.votefix 0 ups.length ∧ t = s.recount t.events := by
  have hunvoted := s.foldUpset_unvoted ups
  have hevents : (ups.foldl State.upset s).events = s.events := (congrArg State.events hunvoted :)
  obtain ⟨hget, hcounted, hrest⟩ := s.foldCompare_oneOff hs allRefs (ups.map (·.ref)) (ups.foldl State.upset s) hnodup
    (fun r _ => mem_allRefs r) (by rwa [State.eventsWf, hevents])
    (fun r hr => by
      obtain ⟨u, hu, rfl⟩ := List.mem_map.1 hr
      obtain ⟨m, hm, hflips⟩ := hups u hu
      rw [s.foldUpset_vget_of_mem ups hnodup hu]
      have hflip := VWord.flip_oneOff (s.vget u.ref).val hm hflips
      rwa [← hs u.ref] at hflip)
    (fun r hr => s.foldUpset_vget_of_not_mem ups hr)
  refine ⟨_, rfl, hget, ?_, State.eq_of_unvoted (hrest.trans ?_) fun r => (hget r).trans ?_⟩
  · rw [List.length_map] at hcounted
    simpa only [State.counted, State.ev, hevents] using hcounted
  · rw [hunvoted, State.unvoted_recount]
  · exact (s.recount_vget _ r).symm

/-- One word whose three copies disagree: the pass puts it in VOTEFAIL, and what that brings about. -/
theorem State.scrub_none (hs : s.agreed) (r : VRef) (f : Flips) (h01 : f.m0 ≠ f.m1) (h02 : f.m0 ≠ f.m2) (h12 : f.m1 ≠ f.m2) :
    allRefs.foldl State.compare (s.upset ⟨r, f⟩) = (s.vset r { (s.vget r).flip f with failed := true }).voteFail r := by
  have hget : (s.upset ⟨r, f⟩).vget r = (s.vget r).flip f := s.vget_vset r _
  have hcopies : (s.vget r).flip f = (VWord.of (s.vget r).val).flip f := by rw [← hs r]
  have hpass := (s.upset ⟨r, f⟩).foldCompare_of_none (r := r) (by rw [hget, hcopies]; rfl)
    (by rw [hget, hcopies]; exact VWord.flip_majority_none _ h01 h02 h12)
    (fun r' hr' => by
      have hother : (s.upset ⟨r, f⟩).vget r' = s.vget r' := s.vget_vset_ne _ hr'
      rw [State.agrees, hother]
      exact hs r') allRefs (mem_allRefs r)
  rw [hpass, hget, State.upset, State.vset_vset]

theorem State.enterFatal_fatal : s.enterFatal.dp.fatal = true := by
  unfold State.enterFatal
  split
  next h => exact h
  next => rfl

theorem State.voteFail_global {r : VRef} (h : ∀ q i, r ≠ .queue q i) : s.voteFail r = s.enterFatal := by
  cases r with
  | queue q i => exact absurd rfl (h q i)
  | _ => rfl

theorem State.vget_bare (r : VRef) : s.bare.vget r = s.vget r := by
  cases r with
  | queue q i =>
    simp only [State.vget, State.bare_qu]
    fin_cases i <;> rfl
  | lock l => cases l <;> rfl
  | _ => rfl

theorem State.scaleAll_vget (r : VRef) : s.scaleAll.vget r = s.vget r := by
  rw [← s.scaleAll.vget_bare, s.scaleAll_bare, s.vget_bare]

end Sys2Proof.Machine

open Sys2Proof Sys2Proof.Machine

/-- Settles O14: a pass over words that agree, over single upsets, and over one word with three different copies. -/
theorem scrubber : Obligations.Scrubber := by
  intro s hpow hstage hwf hs
  refine ⟨?_, fun ups hnodup hups => ?_, fun r f h01 h02 h12 => ?_⟩
  · refine ⟨_, s.exec_voteScrub hpow hstage [], (State.scaleAll_bare _).trans ?_⟩
    exact congrArg State.bare (s.compareAll_of_agreed allRefs hs)
  · obtain ⟨t, ht, hget, hcounted, hframe⟩ := s.scrub_oneOff hs hwf ups hnodup hups
    refine ⟨t.scaleAll, ?_, fun r => (t.scaleAll_vget r).trans (hget r), ?_, ?_⟩
    · rw [s.exec_voteScrub hpow hstage, ht]
    · exact hcounted.congr t.scaleAll_events
    · rw [t.scaleAll_bare, t.scaleAll_events]
      exact congrArg State.bare hframe
  · refine ⟨_, s.exec_voteScrub hpow hstage _, ?_⟩
    have hpass := s.scrub_none hs r f h01 h02 h12
    have hword := (s.vset r { (s.vget r).flip f with failed := true }).voteFail_vget_of_failed (r := r) (r' := r)
      (by rw [State.vget_vset])
    rw [List.foldl_cons, List.foldl_nil, hpass, State.scaleAll_vget, hword, State.vget_vset, State.scaleAll_bare,
      State.scaleAll_dp]
    refine ⟨rfl, VWord.val_of_failed rfl, fun q i hr => ?_, fun hglobal => ?_⟩
    · subst hr
      simp [State.voteFail]
    · rw [State.voteFail_global _ hglobal]
      exact ⟨State.enterFatal_fatal _, rfl⟩
end

section
/-!
O12. Sensor conversions, the sample of VCORE and HEART.
-/

-- The theorems one after another: side by side they take more threads than the check allows.
set_option Elab.async false

namespace Sys2Proof.Machine

variable (s : State)

/-! ### A retrain trigger (R270, R271) -/

theorem State.trigger_frame (c : YId) :
    s.trigger c = { s with chans := (s.trigger c).chans, order := (s.trigger c).order } := by
  unfold State.trigger
  dsimp only
  split
  · rfl
  · split
    · rfl
    · rfl
    · split
      · split <;> rfl
      · rfl
    · rfl

/-- A trigger leaves the channel as it is but for the retrain that becomes pending. -/
theorem State.trigger_ch (c : YId) : (s.trigger c).ch c = { s.ch c with pend := ((s.trigger c).ch c).pend } := by
  have hset (p : Option Pend) : ((s.setCh c { s.ch c with pend := p }).nextOrder.ch c) = { s.ch c with pend := p } := by
    simp
  unfold State.trigger
  dsimp only
  split
  · rfl
  · split
    · rw [hset]
    · rw [hset]
    · split
      · split
        · rw [hset]
        · rfl
      · rfl
    · rfl

theorem State.trigger_ch_ne {c d : YId} (h : d ≠ c) : (s.trigger c).ch d = s.ch d := by
  have hset (p : Option Pend) : ((s.setCh c { s.ch c with pend := p }).nextOrder.ch d) = s.ch d := by
    simp [State.setCh_ch_ne _ _ _ _ h]
  unfold State.trigger
  dsimp only
  split
  · rfl
  · split
    · rw [hset]
    · rw [hset]
    · split
      · split
        · rw [hset]
        · rfl
      · rfl
    · rfl

/-- A trigger does nothing on a channel that has one pending, or that is not in service or changing its frequency. -/
theorem State.trigger_of_not {c : YId} (h : (s.ch c).pend ≠ none ∨
    ((s.ch c).st ≠ .active ∧ (s.ch c).st ≠ .selfref ∧ (s.ch c).st ≠ .freqsw)) : s.trigger c = s := by
  unfold State.trigger
  dsimp only
  split
  · rfl
  next hfree =>
    rcases h with h | ⟨hactive, hselfref, hfreqsw⟩
    · have hsome := Option.isSome_iff_ne_none.2 h
      simp [hsome] at hfree
    · split
      next hst => exact absurd hst hactive
      next hst => exact absurd hst hselfref
      next hst => exact absurd hst hfreqsw
      · rfl

/-- A channel in service with nothing asked of it becomes retrain-pending. -/
theorem State.trigger_pends {c : YId} (hpend : (s.ch c).pend = none) (hst : (s.ch c).st = .active ∨ (s.ch c).st = .selfref)
    (hreq : (s.ch c).holdReq = none) (hheld : (s.ch c).heldHost = false) (hsweep : (s.ch c).sweeping = none) :
    ((s.trigger c).ch c).pend = some ⟨s.time.ticks, fld (s.ch c).defermax 0 8, s.order⟩ := by
  unfold State.trigger
  dsimp only
  rw [if_neg (by simp [hpend, hreq, hheld, hsweep])]
  rcases hst with hst | hst <;> simp [hst]

/-! ### The move of 20 °C (R270, R503) -/

/-- What a conversion does on one channel. -/
def State.senseChan (s : State) (c : YId) : State := if s.tempMoved c then s.trigger c else s

theorem State.senseChan_frame (c : YId) :
    s.senseChan c = { s with chans := (s.senseChan c).chans, order := (s.senseChan c).order } := by
  unfold State.senseChan
  split
  · exact s.trigger_frame c
  · rfl

theorem State.senseChan_ch (c : YId) : (s.senseChan c).ch c = { s.ch c with pend := ((s.senseChan c).ch c).pend } := by
  unfold State.senseChan
  split
  · exact s.trigger_ch c
  · rfl

theorem State.senseChan_ch_ne {c d : YId} (h : d ≠ c) : (s.senseChan c).ch d = s.ch d := by
  unfold State.senseChan
  split
  · exact s.trigger_ch_ne h
  · rfl

theorem State.tempMoved_congr {s t : State} {c : YId} (hdp : t.dp = s.dp) (hch : (t.ch c).ttrain = (s.ch c).ttrain) :
    t.tempMoved c = s.tempMoved c := by simp only [State.tempMoved, hdp, hch]

theorem State.senseChan_of_not {c : YId} (h : (s.ch c).pend ≠ none ∨ s.tempMoved c = false ∨
    ((s.ch c).st ≠ .active ∧ (s.ch c).st ≠ .selfref ∧ (s.ch c).st ≠ .freqsw)) : s.senseChan c = s := by
  rw [State.senseChan]
  rcases h with h | h | h
  · rw [s.trigger_of_not (.inl h), ite_self]
  · rw [if_neg (by simp [h])]
  · rw [s.trigger_of_not (.inr h), ite_self]

/-- The two channels one after the other: each as if it were alone. -/
def State.senseChans (s : State) : State := (s.senseChan 0).senseChan 1

theorem State.senseChans_frame : s.senseChans = { s with chans := s.senseChans.chans, order := s.senseChans.order } := by
  have h0 := s.senseChan_frame 0
  have h1 := (s.senseChan 0).senseChan_frame 1
  rw [State.senseChans, h1]
  exact congrArg (fun u : State => { u with
    chans := ((s.senseChan 0).senseChan 1).chans, order := ((s.senseChan 0).senseChan 1).order }) h0

/-- A channel after both is as after its own step, taken in a state that differs in the other channel and in order stamps. -/
theorem State.senseChans_ch (c : YId) : ∃ u : State, u.ch c = s.ch c ∧ u.dp = s.dp ∧ u.time = s.time ∧
    s.senseChans.ch c = (u.senseChan c).ch c := by
  match c with
  | 0 => exact ⟨s, rfl, rfl, rfl, State.senseChan_ch_ne _ (by decide)⟩
  | 1 =>
    have h0 := s.senseChan_frame 0
    exact ⟨_, s.senseChan_ch_ne (by decide), (congrArg State.dp h0 :), (congrArg State.time h0 :), rfl⟩

theorem State.senseChans_ch_eq (c : YId) : s.senseChans.ch c = { s.ch c with pend := (s.senseChans.ch c).pend } := by
  obtain ⟨u, hch, -, -, hu⟩ := s.senseChans_ch c
  rw [hu, ← hch]
  exact u.senseChan_ch c

theorem State.senseChans_tempMoved (c : YId) : s.senseChans.tempMoved c = s.tempMoved c := by
  have hdp : s.senseChans.dp = s.dp := (congrArg State.dp s.senseChans_frame :)
  refine State.tempMoved_congr hdp ?_
  rw [s.senseChans_ch_eq c]

theorem State.senseChans_pend_of_not {c : YId} (h : (s.ch c).pend ≠ none ∨ s.tempMoved c = false ∨
    ((s.ch c).st ≠ .active ∧ (s.ch c).st ≠ .selfref ∧ (s.ch c).st ≠ .freqsw)) :
    (s.senseChans.ch c).pend = (s.ch c).pend := by
  obtain ⟨u, hch, hdp, -, hu⟩ := s.senseChans_ch c
  have hmoved : u.tempMoved c = s.tempMoved c := State.tempMoved_congr hdp (by rw [hch])
  rw [hu, u.senseChan_of_not (by rw [hch, hmoved]; exact h), hch]

theorem State.senseChans_pends {c : YId} (hmoved : s.tempMoved c = true) (hpend : (s.ch c).pend = none)
    (hst : (s.ch c).st = .active ∨ (s.ch c).st = .selfref) (hreq : (s.ch c).holdReq = none)
    (hheld : (s.ch c).heldHost = false) (hsweep : (s.ch c).sweeping = none) :
    (s.senseChans.ch c).pend.map (fun p => (p.tick, p.limit)) = some (s.time.ticks, fld (s.ch c).defermax 0 8) := by
  obtain ⟨u, hch, hdp, htime, hu⟩ := s.senseChans_ch c
  have hmoved' : u.tempMoved c = s.tempMoved c := State.tempMoved_congr hdp (by rw [hch])
  rw [← hch] at hpend hst hreq hheld hsweep ⊢
  rw [hu, State.senseChan, if_pos (hmoved'.trans hmoved), u.trigger_pends hpend hst hreq hheld hsweep, htime]
  rfl

/-! ### A conversion (R432) -/

/-- The highest of four conversions, each held between its limits. -/
def hottest (t0 t1 t2 t3 : Int) : Int := max (max (clampTemp t0) (clampTemp t1)) (max (clampTemp t2) (clampTemp t3))

theorem fatalTemp_le_hottest (t0 t1 t2 t3 : Int) :
    620 ≤ hottest t0 t1 t2 t3 ↔ 620 ≤ t0 ∨ 620 ≤ t1 ∨ 620 ≤ t2 ∨ 620 ≤ t3 := by
  simp only [hottest, clampTemp]
  omega

/-- The state with its conversions taken over, before anything follows from them. -/
def State.sensed (s : State) (t0 t1 t2 t3 : Int) : State :=
  { s with
    boot := { s.boot with sensed := true }
    dp := { s.dp with temp := BitVec.ofInt 16 (hottest t0 t1 t2 t3) }
    gov := { s.gov with tsens := #v[tempWord t0, tempWord t1, tempWord t2, tempWord t3] } }

theorem State.sense_of_hot (hpow : s.powered = true) (hstage : 3 ≤ s.boot.stage) {t0 t1 t2 t3 : Int}
    (h : 620 ≤ hottest t0 t1 t2 t3) : s.sense t0 t1 t2 t3 = (s.sensed t0 t1 t2 t3).enterFatal.scaleAll := by
  rw [State.sense, if_neg (by simp [hpow, hstage])]
  exact if_pos h

theorem State.sense_of_cool (hpow : s.powered = true) (hstage : 3 ≤ s.boot.stage) (hwarm : s.boot.warm = false)
    {t0 t1 t2 t3 : Int} (h : ¬620 ≤ hottest t0 t1 t2 t3) :
    s.sense t0 t1 t2 t3 = if s.dp.fatal then s.sensed t0 t1 t2 t3 else (s.sensed t0 t1 t2 t3).senseChans := by
  rw [State.sense, if_neg (by simp [hpow, hstage])]
  refine (if_neg h).trans ?_
  cases hfatal : s.dp.fatal with
  | true => exact if_pos (by simp)
  | false => exact if_neg (by simp [hwarm])

/-- Where start-up does not stand in step 3 with REFCLK present, a conversion has no more to bring on. -/
theorem State.bootGo_of_not (h : s.boot.stage ≠ 3 ∨ s.time.refclk = false) : s.bootGo = s := by
  refine if_neg ?_
  rcases h with h | h <;> simp [h]

/-- A state whose start-up, REFCLK and waiting reads are those of `s`. -/
theorem State.bootGo_answerReads {s t : State} (hboot : s.boot.stage ≠ 3 ∨ s.time.refclk = false) (hreads : s.noReads)
    (hstage : t.boot.stage = s.boot.stage) (htime : t.time = s.time) (hA : t.pathA = s.pathA) (hB : t.pathB = s.pathB) :
    t.bootGo.answerReads = t := by
  rw [t.bootGo_of_not (by rwa [hstage, htime])]
  refine t.answerReads_of_noReads fun p => ?_
  cases p with
  | a => exact (congrArg PathSt.readWait hA).trans (hreads .a)
  | b => exact (congrArg PathSt.readWait hB).trans (hreads .b)

theorem State.enterFatal_temp : s.enterFatal.dp.temp = s.dp.temp := by
  unfold State.enterFatal
  split <;> rfl

theorem State.enterFatal_tsens : s.enterFatal.gov.tsens = s.gov.tsens := by
  unfold State.enterFatal
  split
  · rfl
  · dsimp only
    split <;> rfl

theorem State.enterFatal_paths : s.enterFatal.pathA = s.pathA ∧ s.enterFatal.pathB = s.pathB := by
  unfold State.enterFatal
  split <;> exact ⟨rfl, rfl⟩

/-! ### HEART (R53) -/

theorem Vector.all_not_iff (v : Vector Bool 2) : v.toList.all (!·) = true ↔ v = Vector.replicate 2 false := by
  constructor
  · intro h
    ext i hi
    have hmem : v[i] ∈ v.toList := by simp
    simpa using List.all_eq_true.1 h _ hmem
  · rintro rfl
    decide

theorem State.heartOn_iff : s.heartOn = true ↔ s.powered = true ∧ s.dp.readySeen = true ∧ s.dp.heartEn = true ∧
    s.dp.fatal = false ∧ s.time.refclk = true ∧ s.boot.warm = false ∧
    ∀ c, (s.ch c).noRef = false ∧ (s.ch c).must = Vector.replicate 2 false := by
  have hall : (allY.all fun c => !(s.ch c).noRef && (s.ch c).must.toList.all (!·)) = true ↔
      ∀ c, (s.ch c).noRef = false ∧ (s.ch c).must = Vector.replicate 2 false := by
    rw [List.all_eq_true]
    refine ⟨fun h c => ?_, fun h c _ => ?_⟩
    · have hc := h c (List.mem_finRange c)
      rwa [Bool.and_eq_true, Vector.all_not_iff, Bool.not_eq_true'] at hc
    · rw [Bool.and_eq_true, Vector.all_not_iff, Bool.not_eq_true']
      exact h c
  rw [State.heartOn, Bool.and_eq_true, hall]
  simp only [Bool.and_eq_true, Bool.not_eq_true', and_assoc]

theorem State.heartBeat_of_due (alive : Bool) (h : s.dp.heartAt ≤ 32 * s.time.ticks) : s.heartBeat alive =
    { s with dp := { s.dp with
      heart := s.heartOn && alive && !s.dp.heart
      heartAt := if s.dp.heartAt + heartHalf ≤ 32 * s.time.ticks then 32 * s.time.ticks + heartHalf
        else s.dp.heartAt + heartHalf } } := if_pos h

end Sys2Proof.Machine

open Sys2Proof Sys2Proof.Machine

/-- Settles O12: the conversion's three outcomes (FATAL, in FATAL already, a retrain asked for), and HEART's half-period. -/
theorem sensorsAndHeart : Obligations.SensorsAndHeart := by
  refine ⟨fun s hpow => ⟨fun t0 t1 t2 t3 hstage hboot hwarm hreads => ?_, fun mv hstage => ?_⟩, fun alive s hdue => ?_,
    fun alive s hnot => congrArg Host.Outcome.next (if_neg (by omega))⟩
  · intro gov
    have hexec (t : State) (ht : s.sense t0 t1 t2 t3 = t) (hst : t.boot.stage = s.boot.stage) (htime : t.time = s.time)
        (hA : t.pathA = s.pathA) (hB : t.pathB = s.pathB) : exec (.sensorConversion t0 t1 t2 t3) s = .next t := by
      have hgo := State.bootGo_answerReads hboot hreads hst htime hA hB
      rw [← ht] at hgo ⊢
      exact congrArg Host.Outcome.next hgo
    by_cases hhot : 620 ≤ hottest t0 t1 t2 t3
    · obtain ⟨hA, hB⟩ := (s.sensed t0 t1 t2 t3).enterFatal_paths
      refine ⟨_, hexec _ (s.sense_of_hot hpow hstage hhot) (by simp; rfl) ?_ ((State.scaleAll_pathA _).trans hA)
        ((State.scaleAll_pathB _).trans hB), ?_, ?_,
        fun _ => ⟨?_, ?_⟩, fun hcool => ?_⟩
      · rw [State.scaleAll_time, State.enterFatal_time]
        rfl
      · rw [State.scaleAll_gov, State.enterFatal_tsens]
        rfl
      · rw [State.scaleAll_dp, State.enterFatal_temp]
        rfl
      · rw [State.scaleAll_bare, State.scaleAll_dp, State.enterFatal_temp]
        rfl
      · rw [State.scaleAll_dp, State.enterFatal_fatal]
      · have := (fatalTemp_le_hottest t0 t1 t2 t3).1 hhot
        omega
    · have hcool (h : 620 ≤ t0 ∨ 620 ≤ t1 ∨ 620 ≤ t2 ∨ 620 ≤ t3) : False := hhot ((fatalTemp_le_hottest t0 t1 t2 t3).2 h)
      have hsense := s.sense_of_cool hpow hstage hwarm hhot
      cases hfatal : s.dp.fatal with
      | true =>
        rw [hfatal, if_pos rfl] at hsense
        refine ⟨_, hexec _ hsense rfl rfl rfl rfl, rfl, rfl, fun h => (hcool h).elim, fun _ => ⟨fun c => rfl, fun c _ => rfl, ?_, rfl⟩⟩
        intro c _ _ _ _ _ _ h
        exact absurd h (by simp)
      | false =>
        rw [hfatal, if_neg (by simp)] at hsense
        have hframe := (s.sensed t0 t1 t2 t3).senseChans_frame
        have htemp : (s.sensed t0 t1 t2 t3).senseChans.dp.temp = BitVec.ofInt 16 (hottest t0 t1 t2 t3) :=
          (congrArg (fun u : State => u.dp.temp) hframe :)
        refine ⟨_, hexec _ hsense (congrArg (fun u : State => u.boot.stage) hframe :) (congrArg State.time hframe :)
          (congrArg State.pathA hframe :) (congrArg State.pathB hframe :), (congrArg (fun u : State => u.gov.tsens) hframe :),
          htemp, fun h => (hcool h).elim, fun _ => ⟨fun c => ?_, fun c h => ?_, fun c hpend hmoved hst hreq hheld hsweep _ => ?_, ?_⟩⟩
        · exact State.senseChans_ch_eq _ c
        · rw [State.senseChans_tempMoved] at h
          refine State.senseChans_pend_of_not _ ?_
          rcases h with h | h | h | h
          · exact .inl h
          · exact .inr (.inl h)
          · exact absurd h (by simp)
          · exact .inr (.inr h)
        · rw [State.senseChans_tempMoved] at hmoved
          exact State.senseChans_pends _ hmoved hpend hst hreq hheld hsweep
        · rw [htemp]
          exact congrArg State.bare hframe
  · exact congrArg Host.Outcome.next (if_pos (by simp [hpow, hstage]))
  · refine ⟨_, congrArg Host.Outcome.next (s.heartBeat_of_due alive hdue), rfl, rfl, fun h => ?_, fun h => ?_⟩
    · obtain ⟨hpow, hready, hen, hfatal, href, hwarm, hch, halive⟩ := h
      have hon := s.heartOn_iff.2 ⟨hpow, hready, hen, hfatal, href, hwarm, hch⟩
      simp [hon, halive]
    · have hoff : (s.heartOn && alive) = false := by
        rw [Bool.eq_false_iff]
        intro hgo
        obtain ⟨hon, halive⟩ := (Bool.and_eq_true _ _ ▸ hgo :)
        obtain ⟨hpow, hready, hen, hfatal, href, hwarm, hch⟩ := s.heartOn_iff.1 hon
        exact h ⟨hpow, hready, hen, hfatal, href, hwarm, hch, halive⟩
      simp [hoff]
end

section
/-!
O51 and O49. Release windows, corrections of the time base and the calendar's commands.
-/

-- The theorems one after another: side by side they take more threads than the check allows.
set_option Elab.async false

namespace Sys2Proof.Machine

variable (s : State)

/-! ### Windows evaluated (R349) -/

theorem State.evalWindows_win (j : Fin 16) :
    s.evalWindows.win j = (s.win j).eval (clampView s.view) s.viewUnits s.time.adv := by
  simp [State.evalWindows, State.win]

theorem Window.eval_of_open {x : Window} (v now adv : Nat) (h : x.closeAt.isSome = true) : x.eval v now adv = x := if_pos h

theorem Window.eval_of_hit {x : Window} {v d : Nat} (now adv : Nat) (h : x.closeAt = none) (hd : x.hit v = some d) :
    x.eval v now adv = { x with
      record := some (d : Int), closeAt := some (adv + ((d * 86400 + x.start + x.dur) * unitsSec - now)) } := by
  rw [Window.eval, if_neg (by simp [h]), hd]

theorem Window.eval_of_miss {x : Window} {v : Nat} (now adv : Nat) (hd : x.hit v = none) : x.eval v now adv = x := by
  rw [Window.eval, hd, ite_self]

/-- A window that is not enabled never opens. -/
theorem Window.hit_of_off {x : Window} (v : Nat) (h : x.en = false) : x.hit v = none := by
  rw [Window.hit, if_neg (by simp [Window.live, h])]

theorem Window.hit_closed (x : Window) (v : Nat) : ({ x with closeAt := none } : Window).hit v = x.hit v := rfl

/-! ### A change of UTCOFF that is due goes first (R344) -/

theorem State.applyUtc_adv : s.applyUtc.time.adv = s.time.adv := by rw [s.applyUtc_time]

theorem State.pathFrame.applyUtc_time {s u : State} (h : s.pathFrame u) : u.applyUtc.time = s.applyUtc.time := by
  rw [State.applyUtc_time, State.applyUtc_time, h.time, h.utcDue]

theorem State.pathFrame.applyUtc_wins {s u : State} (h : s.pathFrame u) : u.applyUtc.wins = s.applyUtc.wins := by
  rw [State.applyUtc, State.applyUtc, h.utcDue]
  split
  · obtain ⟨⟨_, _, rfl⟩, -⟩ := h
    simp [State.setUtcOff, State.countMissed, State.evalWindows, State.view, State.viewUnits]
  · obtain ⟨⟨_, _, rfl⟩, -⟩ := h
    rfl

theorem State.pathFrame.applyUtc_events {s u : State} (h : s.pathFrame u) : u.applyUtc.events = s.applyUtc.events := by
  rw [State.applyUtc, State.applyUtc, h.utcDue]
  split
  · obtain ⟨⟨_, _, rfl⟩, -⟩ := h
    simp only [State.setUtcOff, State.evalWindows_events, State.countMissed, State.countN_events]
    rfl
  · obtain ⟨⟨_, _, rfl⟩, -⟩ := h
    rfl

theorem State.pathFrame.applyUtc_win {s u : State} (h : s.pathFrame u) (j : Fin 16) : u.applyUtc.win j = s.applyUtc.win j := by
  rw [State.win, State.win, h.applyUtc_wins]

theorem State.applyUtc_of_due (h : s.utcDue = true) :
    s.applyUtc.time = { s.time with utcOff := s.time.utcNxt, utcArmed := false } := by simp [s.applyUtc_time, h]

theorem State.view_congr {s t : State} (h : t.time = s.time) : t.view = s.view := by rw [State.view, State.view, h]
theorem State.viewUnits_congr {s t : State} (h : t.time = s.time) : t.viewUnits = s.viewUnits := by
  rw [State.viewUnits, State.viewUnits, State.view_congr h, h]

/-! ### Commits and countdowns (R346, R350, R353) -/

theorem State.setWin_timeFrame (j : Fin 16) (x : Window) : s.timeFrame (s.setWin j x) := rfl

theorem State.winCommit_win (j : Fin 16) (w0 w1 w2 w3 : Word) : (s.winCommit j w0 w1 w2 w3).win j =
    (⟨w0, w1, w2, w3 &&& 0x87FF, none, none⟩ : Window).eval (clampView s.applyUtc.view) s.applyUtc.viewUnits s.time.adv := by
  rw [State.winCommit, State.evalWindows_win, State.setWin_win, State.view_congr (State.setWin_time _ _ _),
    State.viewUnits_congr (State.setWin_time _ _ _), State.setWin_time, s.applyUtc_adv]

theorem State.winCommit_win_ne {i j : Fin 16} (w0 w1 w2 w3 : Word) (h : i ≠ j) : (s.winCommit j w0 w1 w2 w3).win i =
    (s.applyUtc.win i).eval (clampView s.applyUtc.view) s.applyUtc.viewUnits s.time.adv := by
  rw [State.winCommit, State.evalWindows_win, State.setWin_win_ne _ _ _ _ h, State.view_congr (State.setWin_time _ _ _),
    State.viewUnits_congr (State.setWin_time _ _ _), State.setWin_time, s.applyUtc_adv]

theorem State.winCommit_timeFrame (j : Fin 16) (w0 w1 w2 w3 : Word) : s.timeFrame (s.winCommit j w0 w1 w2 w3) :=
  (s.applyUtc_timeFrame.trans (State.setWin_timeFrame _ _ _)).trans (State.evalWindows_timeFrame _)

theorem State.winCommit_time (j : Fin 16) (w0 w1 w2 w3 : Word) : (s.winCommit j w0 w1 w2 w3).time = s.applyUtc.time := by
  rw [State.winCommit, State.evalWindows_time, State.setWin_time]

theorem State.winCommit_events (j : Fin 16) (w0 w1 w2 w3 : Word) :
    (s.winCommit j w0 w1 w2 w3).events = s.applyUtc.events := by
  rw [State.winCommit, State.evalWindows_events, State.setWin_events]

theorem State.exec_windowCommit {p : Path} {j : Fin 16} (w0 w1 w2 w3 : Word) (h : s.mayWrite p .win (4 * j.val)) :
    ∃ u, s.pathFrame u ∧ exec (.windowCommit p j w0 w1 w2 w3) s = .next (u.winCommit j w0 w1 w2 w3) := by
  obtain ⟨u, hu, hrow⟩ := s.rowCommit_of_mayWrite h [w0, w1, w2, w3]
  have hj : Fin.ofNat 16 (4 * j.val / 4) = j := by
    apply Fin.ext
    have := j.isLt
    simp only [Fin.ofNat]
    omega
  refine ⟨u, hu, congrArg Host.Outcome.next (hrow.trans ?_)⟩
  exact congrArg (fun i => u.winCommit i w0 w1 w2 w3) hj

/-- What keeps to the time base, windows and event counts, of a state whose change of UTCOFF is due or not. -/
theorem State.timeFrame.hostFrame_applyUtc {s u t : State} (hu : s.pathFrame u) (h : u.timeFrame t)
    (htime : t.time = u.applyUtc.time) (hevents : t.events = u.applyUtc.events) :
    s.hostFrame t { s.applyUtc with wins := t.wins } := by
  obtain ⟨hbare, hcore⟩ := hu.hostFrame h
  refine ⟨hbare.trans ?_, hcore⟩
  have happly := congrArg (fun x : State => { x with wins := t.wins, pathA := t.pathA, pathB := t.pathB }) s.applyUtc_timeFrame
  rw [htime, hevents, hu.applyUtc_time, hu.applyUtc_events]
  exact happly.symm

/-- The windows evaluated after a due change of UTCOFF. -/
theorem State.windowsNow_bare : s.windowsNow.bare = ({ s.applyUtc with wins := s.windowsNow.wins } : State).bare := by
  have h := State.evalWindows_timeFrame s.applyUtc
  rw [State.timeFrame, State.evalWindows_time, State.evalWindows_events] at h
  exact h

theorem State.windowsNow_win (j : Fin 16) : s.windowsNow.win j =
    (s.applyUtc.win j).eval (clampView s.applyUtc.view) s.applyUtc.viewUnits s.time.adv := by
  rw [State.windowsNow, State.evalWindows_win, s.applyUtc_adv]

theorem State.exec_windowClose {j : Fin 16} {a : Nat} (hclose : (s.win j).closeAt = some a) (ha : a ≤ s.time.adv) :
    exec (.windowClose j) s = .next (s.setWin j { s.win j with closeAt := none }).windowsNow := by
  refine congrArg Host.Outcome.next ?_
  rw [hclose]
  exact if_pos ha

end Sys2Proof.Machine

open Sys2Proof Sys2Proof.Machine

/-- Settles O51: commit, evaluation and countdown, each on the state in which a due change of UTCOFF stands. -/
theorem windowEngine : Obligations.WindowEngine := by
  intro s u
  refine ⟨fun p j w0 w1 w2 w3 h => ?_, fun hon => ?_, fun j a hclose ha => ?_, s.applyUtc_of_notDue,
    fun hdue => ⟨s.applyUtc_of_due hdue, s.applyUtc_timeFrame⟩, fun j a hclose ha => ?_⟩
  · obtain ⟨x, hx, hexec⟩ := s.exec_windowCommit w0 w1 w2 w3 h
    have hview : x.applyUtc.view = s.applyUtc.view := State.view_congr hx.applyUtc_time
    have hunits : x.applyUtc.viewUnits = s.applyUtc.viewUnits := State.viewUnits_congr hx.applyUtc_time
    have hwin : (x.winCommit j w0 w1 w2 w3).win j = (⟨w0, w1, w2, w3 &&& 0x87FF, none, none⟩ : Window).eval
        (clampView s.applyUtc.view) s.applyUtc.viewUnits s.time.adv := by rw [x.winCommit_win, hview, hunits, hx.time]
    refine ⟨_, hexec, hwin, fun i hi => ?_, fun hoff => ?_, ?_⟩
    · rw [x.winCommit_win_ne _ _ _ _ hi, hview, hunits, hx.time, hx.applyUtc_win]
    · have hen : (⟨w0, w1, w2, w3 &&& 0x87FF, none, none⟩ : Window).en = false := by
        simpa [Window.en, bit] using hoff
      rw [hwin, Window.eval_of_miss _ _ (Window.hit_of_off _ hen)]
      exact ⟨rfl, rfl⟩
    · exact State.timeFrame.hostFrame_applyUtc hx (x.winCommit_timeFrame ..) (x.winCommit_time ..) (x.winCommit_events ..)
  · refine ⟨_, congrArg Host.Outcome.next (if_pos hon), fun j hopen => ?_, fun j d hclosed hd => ?_, fun j hclosed hd => ?_,
      s.windowsNow_bare⟩
    · rw [s.windowsNow_win, Window.eval_of_open _ _ _ hopen]
    · rw [s.windowsNow_win, Window.eval_of_hit _ _ hclosed hd]
    · rw [s.windowsNow_win, Window.eval_of_miss _ _ hd]
  · have hclosed := s.exec_windowClose hclose ha
    have hdue : (s.setWin j { s.win j with closeAt := none }).utcDue = s.utcDue := rfl
    have hwin (hnot : s.utcDue = false) : (s.setWin j { s.win j with closeAt := none }).windowsNow.win j =
        ({ s.win j with closeAt := none } : Window).eval (clampView s.view) s.viewUnits s.time.adv := by
      rw [State.windowsNow_win, State.applyUtc_of_notDue _ (hdue.trans hnot), State.setWin_win]
      rfl
    refine ⟨_, hclosed, ⟨fun i => State.windowsNow_win _ i, State.windowsNow_bare _⟩,
      fun hnot => ⟨fun hmiss => ?_, fun d hd => ?_⟩, fun hnot => ?_⟩
    · exact (hwin hnot).trans (Window.eval_of_miss (x := { s.win j with closeAt := none }) _ _ hmiss)
    · rw [(hwin hnot).trans (Window.eval_of_hit (x := { s.win j with closeAt := none }) _ _ rfl hd)]
      exact ⟨rfl, rfl⟩
    · have hbare := State.windowsNow_bare (s.setWin j { s.win j with closeAt := none })
      rw [State.applyUtc_of_notDue _ (hdue.trans hnot)] at hbare
      exact hbare
  · refine congrArg Host.Outcome.next ?_
    rw [hclose]
    exact if_neg (Nat.not_le.2 ha)
end

section
/-!
O49. Corrections of the time base, CAL:COMMIT and CAL:CANCEL.
-/

-- The theorems one after another: side by side they take more threads than the check allows.
set_option Elab.async false

namespace Sys2Proof.Machine

variable (s : State)

/-! ### A step of the time base (R323, R331, R344) -/

/-- The time base set to a total by a step, before a change of UTCOFF is looked at. -/
def Time.stepped (x : Time) (off : Int) : Time :=
  { (x.setTotal ((x.total : Int) + off).toNat) with slew := 0, epoch := if off < 0 then x.epoch + 1 else x.epoch }

/-- The armed change of UTCOFF made where S has reached UTCAT. -/
def Time.takeUtc (x : Time) : Time :=
  if x.utcArmed ∧ x.utcAt ≤ x.sec then { x with utcOff := x.utcNxt, utcArmed := false } else x

section Fields

variable (x : Time) (w : BitVec 48) (i j : Nat) (e : BitVec 8)

theorem Time.takeUtc_sec : x.takeUtc.sec = x.sec := by unfold Time.takeUtc; split <;> rfl
theorem Time.takeUtc_ns : x.takeUtc.ns = x.ns := by unfold Time.takeUtc; split <;> rfl
theorem Time.takeUtc_frac : x.takeUtc.frac = x.frac := by unfold Time.takeUtc; split <;> rfl

theorem Time.takeUtc_total : x.takeUtc.total = x.total := by
  rw [Time.total, Time.takeUtc_sec, Time.takeUtc_ns, Time.takeUtc_frac, Time.total]

theorem Time.takeUtc_eq : x.takeUtc = { x with
    utcOff := if x.utcArmed && decide (x.utcAt ≤ x.sec) then x.utcNxt else x.utcOff
    utcArmed := x.utcArmed && !(x.utcArmed && decide (x.utcAt ≤ x.sec)) } := by
  unfold Time.takeUtc
  by_cases h : x.utcArmed = true ∧ x.utcAt ≤ x.sec
  · obtain ⟨harmed, hat⟩ := id h
    simp [harmed, hat]
  · rw [if_neg h]
    have hnot : (x.utcArmed && decide (x.utcAt ≤ x.sec)) = false := by
      simpa using h
    rw [hnot]
    simp

/-- A time base that a step has moved, said of any seconds and fractions. -/
theorem Time.takeUtc_moved : ({ x with sec := w, ns := i, frac := j, slew := 0, epoch := e } : Time).takeUtc = { x with
    sec := w, ns := i, frac := j, slew := 0, epoch := e
    utcOff := if x.utcArmed && decide (x.utcAt ≤ w) then x.utcNxt else x.utcOff
    utcArmed := x.utcArmed && !(x.utcArmed && decide (x.utcAt ≤ w)) } := Time.takeUtc_eq _

theorem Time.setEpoch_total (k : Int) : ({ x with slew := k, epoch := e } : Time).total = x.total := rfl

end Fields

theorem Time.stepped_total (x : Time) (off : Int) (hlow : 0 ≤ (x.total : Int) + off)
    (hhigh : (x.total : Int) + off < 2 ^ 48 * unitsSec) : ((x.stepped off).takeUtc.total : Int) = x.total + off := by
  have hlt : ((x.total : Int) + off).toNat < 2 ^ 48 * unitsSec := by
    zify
    rwa [Int.toNat_of_nonneg hlow]
  rw [Time.takeUtc_total, Time.stepped, Time.setEpoch_total, Time.setTotal_total _ hlt, Int.toNat_of_nonneg hlow]

theorem Time.stepped_eq (x : Time) (off : Int) : (x.stepped off).takeUtc = { x with
    sec := (x.stepped off).takeUtc.sec, ns := (x.stepped off).takeUtc.ns, frac := (x.stepped off).takeUtc.frac, slew := 0
    epoch := if off < 0 then x.epoch + 1 else x.epoch
    utcOff := if x.utcArmed && decide (x.utcAt ≤ (x.stepped off).takeUtc.sec) then x.utcNxt else x.utcOff
    utcArmed := x.utcArmed && !(x.utcArmed && decide (x.utcAt ≤ (x.stepped off).takeUtc.sec)) } := by
  rw [Time.takeUtc_sec, Time.takeUtc_ns, Time.takeUtc_frac]
  exact Time.takeUtc_moved x _ _ _ _

/-- The state with its time base stepped, and the missed windows of the view before it counted. -/
theorem State.stepTime_time (off : Int) : (s.stepTime off).time = (s.time.stepped off).takeUtc := by
  rw [State.stepTime]
  dsimp only
  rw [State.evalWindows_time, State.countMissed_time, State.evalWindows_time]
  rfl

theorem State.stepTime_timeFrame (off : Int) : s.timeFrame (s.stepTime off) := by
  rw [State.stepTime]
  exact ((s.evalWindows_timeFrame.trans (State.timeFrame_of_time _ _)).trans (State.countMissed_timeFrame _ _)).trans
    (State.evalWindows_timeFrame _)

end Sys2Proof.Machine
end

section
namespace Sys2Proof.Machine

variable (s : State)

/-! ### A correction (R330 to R334) -/

/-- What a correction does once MODE is read. -/
def State.correctNow (s : State) (acc : Access) (off : Int) (badNs : Bool) : State :=
  match s.correctionRefusal off badNs with
  | some k => ({ s with time := { s.time with arm := false } } : State).reject acc Ev.steprej 0 k
  | none =>
    if off.natAbs ≤ s.time.stepth.toNat * unitsUs then { s with time := { s.time with arm := false, slew := off } }
    else ({ s with time := { s.time with arm := false } } : State).stepTime off

theorem State.correct_eq (acc : Access) (off : Int) (badNs : Bool) : s.correct acc off badNs =
    if (s.applyUtc.compare .discMode).dp.fatal then (s.applyUtc.compare .discMode).reject acc Ev.lockrej 0 Reason.state
    else (s.applyUtc.compare .discMode).correctNow acc off badNs := rfl

/-- With the copies of MODE alike and no FATAL the correction acts on the state in which a due change stands. -/
theorem State.correct_of_agrees (hfatal : s.dp.fatal = false) (hmode : s.agrees .discMode) (acc : Access) (off : Int)
    (badNs : Bool) : s.correct acc off badNs = s.applyUtc.correctNow acc off badNs := by
  have hagrees : s.applyUtc.agrees .discMode := by
    have hdisc : s.applyUtc.time.disc = s.time.disc := by rw [s.applyUtc_time]
    simpa only [State.agrees, State.vget, hdisc] using hmode
  rw [State.correct_eq, State.compare_of_agrees _ hagrees, s.applyUtc_dp, if_neg (by simp [hfatal])]

/-- A correction that is not rejected keeps the total within what S and N can hold. -/
theorem State.correction_range {off : Int} {badNs : Bool} (h : s.correctionRefusal off badNs = none) :
    0 ≤ (s.time.total : Int) + off ∧ (s.time.total : Int) + off < 2 ^ 48 * unitsSec := by
  have hrange : (badNs || decide ((s.time.total : Int) + off < 0) ||
      decide (s.timeLimit ≤ (s.time.total : Int) + off)) = false := by
    by_contra hbad
    rw [Bool.not_eq_false] at hbad
    rw [State.correctionRefusal, hbad] at h
    split at h
    · exact absurd h (by simp)
    · exact absurd h (by simp)
  simp only [Bool.or_eq_false_iff, decide_eq_false_iff_not, not_lt, not_le] at hrange
  obtain ⟨⟨-, hlow⟩, hhigh⟩ := hrange
  refine ⟨hlow, hhigh.trans_le ?_⟩
  have hoff : sint s.time.utcOff < 2 ^ 15 := BitVec.toInt_lt
  rw [State.timeLimit]
  exact mul_le_mul_of_nonneg_right (by omega) (Int.natCast_nonneg _)

theorem State.correctNow_slewed {off : Int} {badNs : Bool} (acc : Access) (h : s.correctionRefusal off badNs = none)
    (hsmall : off.natAbs ≤ s.time.stepth.toNat * unitsUs) :
    s.correctNow acc off badNs = { s with time := { s.time with arm := false, slew := off } } := by
  rw [State.correctNow, h]
  exact if_pos hsmall

theorem State.correctNow_stepped {off : Int} {badNs : Bool} (acc : Access) (h : s.correctionRefusal off badNs = none)
    (hlarge : s.time.stepth.toNat * unitsUs < off.natAbs) :
    s.correctNow acc off badNs = ({ s with time := { s.time with arm := false } } : State).stepTime off := by
  rw [State.correctNow, h]
  exact if_neg (Nat.not_le.2 hlarge)

theorem State.correctNow_rejected {off : Int} {badNs : Bool} {k : Nat} (acc : Access)
    (h : s.correctionRefusal off badNs = some k) : s.correctNow acc off badNs =
      ({ s with time := { s.time with arm := false } } : State).reject acc Ev.steprej 0 k := by rw [State.correctNow, h]

theorem Time.takeUtc_of_disarmed (x : Time) (h : x.utcArmed = false) : x.takeUtc = x := if_neg (by simp [h])

theorem Time.setEpoch_utc (x : Time) (k : Int) (e : BitVec 8) : ({ x with slew := k, epoch := e } : Time).utcOff = x.utcOff ∧
    ({ x with slew := k, epoch := e } : Time).utcArmed = x.utcArmed ∧
    ({ x with slew := k, epoch := e } : Time).arm = x.arm := ⟨rfl, rfl, rfl⟩

theorem Time.setTotal_utc (x : Time) (n : Nat) : (x.setTotal n).utcOff = x.utcOff ∧
    (x.setTotal n).utcArmed = x.utcArmed ∧ (x.setTotal n).arm = x.arm := ⟨rfl, rfl, rfl⟩

theorem Time.stepped_utc (x : Time) (off : Int) : (x.stepped off).utcOff = x.utcOff ∧
    (x.stepped off).utcArmed = x.utcArmed ∧ (x.stepped off).arm = x.arm := by
  obtain ⟨hoff, harmed, harm⟩ := (x.setTotal ((x.total : Int) + off).toNat).setEpoch_utc 0
    (if off < 0 then x.epoch + 1 else x.epoch)
  obtain ⟨toff, tarmed, tarm⟩ := x.setTotal_utc ((x.total : Int) + off).toNat
  rw [Time.stepped]
  exact ⟨hoff.trans toff, harmed.trans tarmed, harm.trans tarm⟩

/-- A correction with no change of UTCOFF armed leaves UTCOFF and clears ARM. -/
theorem State.correctNow_utc (acc : Access) (off : Int) (badNs : Bool) (harmed : s.time.utcArmed = false) :
    (s.correctNow acc off badNs).time.utcOff = s.time.utcOff ∧ (s.correctNow acc off badNs).time.utcArmed = false ∧
      (s.correctNow acc off badNs).time.arm = false := by
  unfold State.correctNow
  split
  · rw [State.reject_time]
    exact ⟨rfl, harmed, rfl⟩
  · split
    · exact ⟨rfl, harmed, rfl⟩
    · obtain ⟨hoff, harm', harm⟩ := Time.stepped_utc { s.time with arm := false } off
      rw [State.stepTime_time, Time.takeUtc_of_disarmed _ (harm'.trans harmed)]
      exact ⟨hoff, harm'.trans harmed, harm⟩

theorem State.sameClock.utc {s t : State} (h : s.sameClock t) :
    t.time.utcOff = s.time.utcOff ∧ t.time.utcArmed = s.time.utcArmed := by
  obtain ⟨v, hv⟩ := h
  rw [hv]
  exact ⟨rfl, rfl⟩

/-- A correction that meets a change of UTCOFF that is due leaves it made, whatever becomes of the correction. -/
theorem State.correct_utc_of_due (hdue : s.utcDue = true) (acc : Access) (off : Int) (badNs : Bool) :
    (s.correct acc off badNs).time.utcOff = s.time.utcNxt ∧ (s.correct acc off badNs).time.utcArmed = false := by
  obtain ⟨hoff, harmed⟩ := (s.applyUtc.compare_sameClock .discMode).utc
  have hmade := s.applyUtc_of_due hdue
  rw [hmade] at hoff harmed
  rw [State.correct_eq]
  split
  · rw [State.reject_time]
    exact ⟨hoff, harmed⟩
  · obtain ⟨toff, tarmed, -⟩ := (s.applyUtc.compare .discMode).correctNow_utc acc off badNs harmed
    exact ⟨toff.trans hoff, tarmed⟩

theorem State.applyUtc_notDue_after (hdue : s.utcDue = true) : s.applyUtc.utcDue = false := by
  rw [State.utcDue, s.applyUtc_of_due hdue]
  rfl

/-! ### The commands, on the state of their commit -/

theorem State.pathFrame.vget {s u : State} (h : s.pathFrame u) (r : VRef) : u.vget r = s.vget r := by
  obtain ⟨⟨_, _, rfl⟩, -⟩ := h
  cases r with
  | lock l => cases l <;> rfl
  | _ => rfl

theorem State.pathFrame.agrees {s u : State} (h : s.pathFrame u) {r : VRef} (hr : s.agrees r) : u.agrees r := by
  rwa [State.agrees, h.vget]

theorem State.pathFrame.correctionRefusal {s u : State} (h : s.pathFrame u) (off : Int) (badNs : Bool) :
    u.correctionRefusal off badNs = s.correctionRefusal off badNs := by
  rw [State.correctionRefusal, State.correctionRefusal, State.timeLimit, State.timeLimit, h.time]

theorem State.pathFrame.setTime {s u : State} (h : s.pathFrame u) (x : Time) :
    ({ s with time := x } : State).pathFrame { u with time := x } := by
  obtain ⟨⟨_, _, rfl⟩, hcore⟩ := h
  exact ⟨⟨_, _, rfl⟩, hcore⟩

theorem State.pathFrame.setArm {s u : State} (h : s.pathFrame u) :
    ({ s with time := { s.time with arm := false } } : State).pathFrame { u with time := { u.time with arm := false } } := by
  obtain ⟨⟨_, _, rfl⟩, hcore⟩ := h
  exact ⟨⟨_, _, rfl⟩, hcore⟩

/-- What a host's correction does where no change of UTCOFF is due: the outcome of each of R330 to R334. -/
structure State.Corrects (s t : State) (acc : Access) (off : Int) (badNs : Bool) : Prop where
  slewed : s.correctionRefusal off badNs = none → off.natAbs ≤ s.time.stepth.toNat * unitsUs →
    s.hostFrame t { s with time := { s.time with arm := false, slew := off } }
  total : s.correctionRefusal off badNs = none → s.time.stepth.toNat * unitsUs < off.natAbs →
    (t.time.total : Int) = s.time.total + off
  time : s.correctionRefusal off badNs = none → s.time.stepth.toNat * unitsUs < off.natAbs → t.time = { s.time with
    sec := t.time.sec, ns := t.time.ns, frac := t.time.frac, slew := 0, arm := false
    epoch := if off < 0 then s.time.epoch + 1 else s.time.epoch
    utcOff := if s.time.utcArmed && decide (s.time.utcAt ≤ t.time.sec) then s.time.utcNxt else s.time.utcOff
    utcArmed := s.time.utcArmed && !(s.time.utcArmed && decide (s.time.utcAt ≤ t.time.sec)) }
  stepped : s.correctionRefusal off badNs = none → s.time.stepth.toNat * unitsUs < off.natAbs →
    s.hostFrame t { s with time := t.time, wins := t.wins, events := t.events }
  rejects : ∀ k, s.eventsWf → s.correctionRefusal off badNs = some k → s.rejected t acc Ev.steprej 0 k ∧
    s.hostFrame t { s with time := { s.time with arm := false }, dp := t.dp, events := t.events }

theorem State.pathFrame.corrects {s u : State} (h : s.pathFrame u) (hfatal : s.dp.fatal = false) (hmode : s.agrees .discMode)
    (hdue : s.utcDue = false) (acc : Access) (off : Int) (badNs : Bool) :
    s.Corrects (u.correct acc off badNs) acc off badNs := by
  have hnow : u.correct acc off badNs = u.correctNow acc off badNs := by
    rw [u.correct_of_agrees (by rw [h.dp]; exact hfatal) (h.agrees hmode), u.applyUtc_of_notDue (h.utcDue.trans hdue)]
  have hrefusal := h.correctionRefusal off badNs
  rw [hnow]
  constructor
  case slewed =>
    intro hnone hsmall
    rw [u.correctNow_slewed acc (hrefusal.trans hnone) (by rwa [h.time])]
    obtain ⟨⟨_, _, rfl⟩, hcore⟩ := h
    exact ⟨rfl, hcore⟩
  case total =>
    intro hnone hlarge
    obtain ⟨hlow, hhigh⟩ := s.correction_range hnone
    rw [u.correctNow_stepped acc (hrefusal.trans hnone) (by rwa [h.time]), State.stepTime_time, h.time]
    exact Time.stepped_total { s.time with arm := false } off hlow hhigh
  case time =>
    intro hnone hlarge
    rw [u.correctNow_stepped acc (hrefusal.trans hnone) (by rwa [h.time]), State.stepTime_time, h.time]
    exact Time.stepped_eq { s.time with arm := false } off
  case stepped =>
    intro hnone hlarge
    rw [u.correctNow_stepped acc (hrefusal.trans hnone) (by rwa [h.time])]
    exact h.hostFrame ((u.timeFrame_of_time _).trans (State.stepTime_timeFrame _ _))
  case rejects =>
    intro k hwf hsome
    rw [u.correctNow_rejected acc (hrefusal.trans hsome)]
    exact h.setArm.reject hwf acc Ev.steprej 0 k

theorem truncate_join2_wordOf (v : BitVec 30) : (join2 (wordOf v 0) (wordOf v 1)).truncate 30 = v := by
  simp only [join2, wordOf_eq_extractLsb']
  rw [BitVec.extractLsb'_append_extractLsb'_eq_extractLsb' (by rfl)]
  ext i hi
  simp only [BitVec.truncate_eq_setWidth, BitVec.getElem_setWidth, BitVec.getLsbD_extractLsb']
  simp [hi, show i < 32 by omega]

theorem State.exec_timeCorrection {p : Path} (offs : BitVec 48) (offns : BitVec 30) (h : s.mayWrite p .time 4) :
    ∃ u, s.pathFrame u ∧ exec (.timeCorrection p offs offns) s =
      .next (u.correct ⟨p, 68, 0x28⟩ (offsetUnits offs offns) (decide (nsSec ≤ offns.toNat))) := by
  obtain ⟨u, hu, hrow⟩ := s.rowCommit_time h [wordOf offns 0, wordOf offns 1, wordOf offs 0, wordOf offs 1, wordOf offs 2]
  have heffect : u.timeWrite ⟨p, 68, Bank.time.sel⟩ 4 [wordOf offns 0, wordOf offns 1, wordOf offs 0, wordOf offs 1, wordOf offs 2] =
      u.correctOffset ⟨p, 68, 0x28⟩ (join3 (wordOf offs 0) (wordOf offs 1) (wordOf offs 2))
        ((join2 (wordOf offns 0) (wordOf offns 1)).truncate 30) := rfl
  rw [join3_wordOf, truncate_join2_wordOf] at heffect
  exact ⟨u, hu, congrArg Host.Outcome.next (hrow.trans heffect)⟩

theorem State.exec_calCommit {p : Path} (h : s.mayWrite p .cal 6) :
    ∃ u, s.pathFrame u ∧ exec (.calCommit p) s = .next (u.calCommit ⟨p, 70, 0x29⟩) := by
  obtain ⟨u, hu, hrow⟩ := s.rowCommit_of_mayWrite h [1]
  exact ⟨u, hu, congrArg Host.Outcome.next hrow⟩

theorem State.exec_calCancel {p : Path} (h : s.mayWrite p .cal 7) :
    ∃ u, s.pathFrame u ∧ exec (.calCancel p) s = .next u.calCancel := by
  obtain ⟨u, hu, hrow⟩ := s.rowCommit_of_mayWrite h [1]
  exact ⟨u, hu, congrArg Host.Outcome.next hrow⟩

/-! ### The calendar (R341 to R343) -/

/-- The correction that CAL:COMMIT asks for. -/
def State.calOffset (s : State) : Int := ((s.cal.seconds : Int) + sint s.time.utcOff) * unitsSec - s.time.total

theorem State.pathFrame.cal {s u : State} (h : s.pathFrame u) : u.cal = s.cal := by
  obtain ⟨⟨_, _, rfl⟩, -⟩ := h
  rfl

theorem State.applyUtc_cal : s.applyUtc.cal = s.cal := (congrArg State.cal s.applyUtc_timeFrame :)

theorem State.calCommit_of_possible (acc : Access) (hdue : s.utcDue = false) (h : s.cal.impossible = false) :
    s.calCommit acc = s.correct acc s.calOffset false := by
  rw [State.calCommit, s.applyUtc_of_notDue hdue]
  exact if_neg (by simp [h])

theorem State.calCommit_of_impossible (acc : Access) (hdue : s.utcDue = false) (h : s.cal.impossible = true) :
    s.calCommit acc = ({ s with cal := { s.cal with bad := true } } : State).reject acc Ev.calrej 0 Reason.date := by
  rw [State.calCommit, s.applyUtc_of_notDue hdue]
  exact if_pos h

/-- A commit of the calendar that meets a change of UTCOFF that is due leaves it made. -/
theorem State.calCommit_utc_of_due (acc : Access) (hdue : s.utcDue = true) :
    (s.calCommit acc).time.utcOff = s.time.utcNxt ∧ (s.calCommit acc).time.utcArmed = false := by
  have hmade := s.applyUtc_of_due hdue
  rw [State.calCommit]
  dsimp only
  split
  · rw [State.reject_time, hmade]
    exact ⟨rfl, rfl⟩
  · rw [State.correct_eq, State.applyUtc_of_notDue _ (s.applyUtc_notDue_after hdue)]
    obtain ⟨hoff, harmed⟩ := (s.applyUtc.compare_sameClock .discMode).utc
    rw [hmade] at hoff harmed
    split
    · rw [State.reject_time]
      exact ⟨hoff, harmed⟩
    · obtain ⟨toff, tarmed, -⟩ := (s.applyUtc.compare .discMode).correctNow_utc acc
        (((s.applyUtc.cal.seconds : Int) + sint s.applyUtc.time.utcOff) * unitsSec - s.applyUtc.time.total) false harmed
      exact ⟨toff.trans hoff, tarmed⟩

/-- The calendar's staging as CAL:CANCEL reloads it, said of any five words. -/
def Cal.reload (c : Cal) (w : Word × Word × Word × Word × Word) : Cal :=
  { c with year := w.1, mon := w.2.1, day := w.2.2.1, hmsL := w.2.2.2.1, hmsH := w.2.2.2.2, bad := false }

theorem Cal.reload_words (c : Cal) (w : Word × Word × Word × Word × Word) :
    ((c.reload w).year, (c.reload w).mon, (c.reload w).day, (c.reload w).hmsL, (c.reload w).hmsH) = w := rfl

theorem Cal.reload_bad (c : Cal) (w : Word × Word × Word × Word × Word) : (c.reload w).bad = false := rfl
theorem Cal.reload_view (c : Cal) (w : Word × Word × Word × Word × Word) : (c.reload w).view = c.view := rfl

/-- The state with another staging of the calendar. -/
def State.setCal (s : State) (c : Cal) : State := { s with cal := c }

theorem State.setCal_cal (c : Cal) : (s.setCal c).cal = c := rfl
theorem State.setCal_time (c : Cal) : (s.setCal c).time = s.time := rfl

theorem State.pathFrame.setCal {s u : State} (h : s.pathFrame u) (c : Cal) :
    s.hostFrame (u.setCal c) { s with cal := (u.setCal c).cal } := by
  obtain ⟨⟨_, _, rfl⟩, hcore⟩ := h
  exact ⟨rfl, hcore⟩

theorem State.calCancel_eq : s.calCancel = s.applyUtc.setCal (s.applyUtc.cal.reload (calWords s.applyUtc.view)) := by
  rw [State.calCancel]
  generalize calWords s.applyUtc.view = w
  rfl

end Sys2Proof.Machine

open Sys2Proof Sys2Proof.Machine

/-- Settles O49: a correction by its outcomes, which CAL:COMMIT shares, and what a due change of UTCOFF adds to each. -/
theorem correctionsAndCalendar : Obligations.CorrectionsAndCalendar := by
  refine ⟨fun p offs offns s h => ?_, fun p s => ⟨fun h hmode hdue hcal => ?_, fun h hwf hdue hcal => ?_, fun h hdue => ?_,
    fun h hdue => ?_, fun h hdue => ?_⟩⟩
  · obtain ⟨u, hu, hexec⟩ := s.exec_timeCorrection offs offns h
    have hfatal := State.hostWrites_fatal h.1
    refine ⟨fun hmode hdue hnone hsmall => ?_, fun hmode hdue hnone hlarge => ?_, fun k hmode hwf hdue hsome => ?_,
      fun hmode hdue => ?_⟩
    · exact ⟨_, hexec, (hu.corrects hfatal hmode hdue _ _ _).slewed hnone hsmall⟩
    · have hc := hu.corrects hfatal hmode hdue ⟨p, 68, 0x28⟩ (offsetUnits offs offns) (decide (nsSec ≤ offns.toNat))
      exact ⟨_, hexec, hc.total hnone hlarge, hc.time hnone hlarge, hc.stepped hnone hlarge⟩
    · exact ⟨_, hexec, (hu.corrects hfatal hmode hdue _ _ _).rejects k hwf hsome⟩
    · refine ⟨_, hexec, ?_⟩
      have hmade := u.applyUtc_of_due (hu.utcDue.trans hdue)
      rw [u.correct_of_agrees (by rw [hu.dp]; exact hfatal) (hu.agrees hmode)]
      obtain ⟨hoff, harmed, harm⟩ := u.applyUtc.correctNow_utc ⟨p, 68, 0x28⟩ (offsetUnits offs offns)
        (decide (nsSec ≤ offns.toNat)) (by rw [hmade])
      refine ⟨hoff.trans ?_, harmed, harm⟩
      rw [hmade, hu.time]
  · obtain ⟨u, hu, hexec⟩ := s.exec_calCommit h
    have hfatal := State.hostWrites_fatal h.1
    have hoffset : u.calOffset = s.calOffset := by rw [State.calOffset, State.calOffset, hu.time, hu.cal]
    rw [u.calCommit_of_possible _ (hu.utcDue.trans hdue) (by rw [hu.cal]; exact hcal), hoffset] at hexec
    have hc := hu.corrects hfatal hmode hdue ⟨p, 70, 0x29⟩ s.calOffset false
    refine ⟨fun hnone hlarge => ⟨_, hexec, ?_, ?_, ?_, ?_, hc.stepped hnone hlarge⟩,
      fun hnone hsmall => ⟨_, hexec, hc.slewed hnone hsmall⟩, fun k hwf hsome => ⟨_, hexec, hc.rejects k hwf hsome⟩⟩
    · rw [hc.total hnone hlarge, State.calOffset]
      ring
    · rw [hc.time hnone hlarge]
    · rw [hc.time hnone hlarge]
    · rw [hc.time hnone hlarge]
      rfl
  · obtain ⟨u, hu, hexec⟩ := s.exec_calCommit h
    rw [u.calCommit_of_impossible _ (hu.utcDue.trans hdue) (by rw [hu.cal]; exact hcal)] at hexec
    refine ⟨_, hexec, ?_⟩
    have hset : ({ s with cal := { s.cal with bad := true } } : State).pathFrame { u with cal := { u.cal with bad := true } } := by
      obtain ⟨⟨_, _, rfl⟩, hcore⟩ := hu
      exact ⟨⟨_, _, rfl⟩, hcore⟩
    exact hset.reject hwf ⟨p, 70, 0x29⟩ Ev.calrej 0 Reason.date
  · obtain ⟨u, hu, hexec⟩ := s.exec_calCommit h
    obtain ⟨hoff, harmed⟩ := u.calCommit_utc_of_due ⟨p, 70, 0x29⟩ (hu.utcDue.trans hdue)
    exact ⟨_, hexec, hoff.trans (by rw [hu.time]), harmed⟩
  · obtain ⟨u, hu, hexec⟩ := s.exec_calCancel h
    rw [u.calCancel_eq, u.applyUtc_of_notDue (hu.utcDue.trans hdue), hu.cal, hu.view] at hexec
    refine ⟨_, hexec, ?_, ?_, ?_, hu.setCal _⟩
    · rw [State.setCal_cal, Cal.reload_bad]
    · rw [State.setCal_cal, Cal.reload_view]
    · rw [State.setCal_cal, Cal.reload_words]
  · obtain ⟨u, hu, hexec⟩ := s.exec_calCancel h
    rw [u.calCancel_eq] at hexec
    refine ⟨_, hexec, ?_, ?_, ?_⟩
    · rw [State.setCal_cal, Cal.reload_bad]
    · rw [State.setCal_time, u.applyUtc_of_due (hu.utcDue.trans hdue), hu.time]
    · rw [State.view_congr (State.setCal_time _ _), State.setCal_cal, Cal.reload_words]
end

section
/-!
O7. Power-on reset, and the pins in POR.
-/

-- The theorems one after another: side by side they take more threads than the check allows.
set_option Elab.async false

namespace Sys2Proof.Machine

variable (s : State)

/-! ### The part held in POR (R42, R57) -/

/-- The part held in POR with PORST# at a level. -/
def State.held (s : State) (porst : Bool) : State := { s.por with boot := { s.por.boot with porst := porst } }

theorem State.held_po (b : Bool) (n : PId) : (s.held b).po n = Port.reset := by
  simp [State.held, State.por, State.po, State.reset]

theorem State.powered_of_fault {i : Fin 5} (h : s.boot.supplies = (s.boot.supplies.set i.val false)) :
    s.powered = false := by
  have hall : s.supplied = false := by
    rw [State.supplied, h, List.all_eq_false]
    exact ⟨false, by simp [Vector.mem_set], by simp⟩
  simp [State.powered, hall]

/-- The pins of the part held in POR that no supply but its own enters. -/
theorem State.held_pins (b : Bool) (h : (s.held b).powered = false) : (s.held b).hdPins = .z ∧ (s.held b).msdaPin = .z ∧
    (s.held b).hintPin = .z ∧ (s.held b).malertPin = .z := by
  have hline (p : Path) : (s.held b).irqLine p = false := by simp [State.irqLine, State.hostOn, h]
  refine ⟨by simp [State.hdPins, h], by simp [State.msdaPin, h], ?_, ?_⟩
  · simp [State.hintPin, State.io, State.hint, hline]
  · simp [State.malertPin, State.io, State.malert, hline]

/-- Without VDDIO every output of its is high-impedance. -/
theorem State.held_pins_unsupplied (b : Bool) (h : (s.held b).boot.supplies[1] = false) :
    (∀ n, (s.held b).portPins n = ⟨.z, .z, .z, .z, 0, 0, true⟩) ∧ (s.held b).heartPin = .z ∧ (s.held b).tsOutPin = .z ∧
      (s.held b).vidPins = none ∧ (s.held b).hrdyPin = .z ∧ (s.held b).azOutPins = .z ∧ (s.held b).azCrdPin = .z ∧
      ∀ i, (s.held b).wsyncPin i = .z := by
  have hio : (s.held b).vddio = false := h
  simp [State.portPins, State.heartPin, State.tsOutPin, State.vidPins, State.hrdyPin, State.azOutPins, State.azCrdPin,
    State.wsyncPin, State.io, hio]

/-- With VDDIO they are at their levels in POR. -/
theorem State.held_pins_supplied (b : Bool) (hpow : (s.held b).powered = false) (h : (s.held b).boot.supplies[1] = true) :
    (∀ n, (s.held b).portPins n = ⟨.low, .low, .high, .z, 0, 0, true⟩) ∧ (s.held b).heartPin = .low ∧
      (s.held b).tsOutPin = .low ∧ (s.held b).vidPins = some 10 ∧ (s.held b).hrdyPin = .low ∧ (s.held b).azOutPins = .low ∧
      (s.held b).azCrdPin = .low ∧ ∀ i, (s.held b).wsyncPin i = .low := by
  have hio : (s.held b).vddio = true := h
  have hown : (s.held b).wsyncOwn = 0xF#4 := by simp [State.wsyncOwn, h, hpow]
  refine ⟨fun n => ?_, ?_, ?_, ?_, ?_, ?_, ?_, fun i => ?_⟩
  · rw [State.portPins, hio, s.held_po b n]
    rfl
  · simp [State.heartPin, State.io, hio, hpow, boolLevel]
  · simp [State.tsOutPin, State.io, hio, hpow, boolLevel]
  · rw [State.vidPins, hio]
    rfl
  · simp [State.hrdyPin, hio, hpow]
  · simp [State.azOutPins, State.azHeld, hio, hpow]
  · simp [State.azCrdPin, State.azHeld, hio, hpow]
  · rw [State.wsyncPin, State.io, hio, hown]
    revert i
    decide

/-- The DRAM balls of a channel while the part is in POR (R45, R48). -/
theorem State.held_dramPins (b : Bool) (hpow : (s.held b).powered = false) (k : YId) :
    ((s.held b).vddq k = false → (s.held b).dramPins k = ⟨.z, .z, .z, .z, .z, .z, .z, .z⟩) ∧
    ((s.held b).vddq k = true → (s.held b).vddqEarly k = true →
      (s.held b).dramPins k = ⟨.low, .z, .z, .z, .z, .z, .z, .z⟩) ∧
    ((s.held b).vddq k = true → (s.held b).vddqEarly k = false →
      (s.held b).dramPins k = ⟨.low, .low, .low, .low, .low, .static, .low, .z⟩) := by
  refine ⟨fun hoff => ?_, fun hon hearly => ?_, fun hon hearly => ?_⟩
  · simp [State.dramPins, hoff]
  · simp [State.dramPins, hon, hearly]
  · simp [State.dramPins, hon, hearly, hpow]

theorem State.vddqEarly_iff {k : YId} (h : s.vddq k = true) : s.vddqEarly k = true ↔ s.boot.porst = false ∧
    ¬(s.boot.supplies[0] = true ∧ s.boot.supplies[1] = true ∧ s.boot.supplies[4] = true) := by
  rw [State.vddqEarly, h]
  cases s.boot.supplies[0] <;> cases s.boot.supplies[1] <;> cases s.boot.supplies[4] <;> simp

end Sys2Proof.Machine

open Sys2Proof Sys2Proof.Machine

/-- Settles O7: the reset state field by field, and the pins of the part held in POR. -/
theorem powerOnReset : Obligations.PowerOnReset := by
  intro s
  refine ⟨fun ns h => congrArg Host.Outcome.next (if_neg (Nat.not_le.2 h)), fun ns h => congrArg Host.Outcome.next (if_pos h),
    fun x => rfl, rfl, rfl, rfl, rfl, rfl, rfl, rfl, rfl, rfl, rfl, rfl, rfl, rfl, rfl, rfl, rfl, rfl, rfl, rfl, fun c t hc ht => ?_⟩
  have hheld : ∃ (u : State) (b : Bool), t = u.held b ∧ (u.held b).powered = false := by
    rcases hc with ⟨ns, hns, rfl⟩ | ⟨x, rfl⟩
    · refine ⟨s, false, ?_, rfl⟩
      have hrow : exec (.porstLow ns) s = .next (s.held false) := congrArg Host.Outcome.next (if_pos hns)
      exact Host.Outcome.next.inj (ht.symm.trans hrow)
    · refine ⟨s.setSupply x false, s.boot.porst, (Host.Outcome.next.inj ht).symm, ?_⟩
      refine State.powered_of_fault _ (i := Supply.idx x) ?_
      simp [State.held, State.por, State.setSupply]
  obtain ⟨u, b, rfl, hpow⟩ := hheld
  obtain ⟨hhd, hmsda, hhint, hmalert⟩ := u.held_pins b hpow
  refine ⟨hpow, hhd, hmsda, hhint, hmalert, u.held_pins_unsupplied b, u.held_pins_supplied b hpow, fun k => ?_⟩
  obtain ⟨hz, hearly, hlow⟩ := u.held_dramPins b hpow k
  refine ⟨hz, fun hon he => hearly hon ((State.vddqEarly_iff _ hon).2 he), fun hon he => hlow hon ?_⟩
  rw [← Bool.not_eq_true, State.vddqEarly_iff _ hon]
  exact he
end

section
/-!
O55. Posted writes on their way, landed and dropped, and posted reads that are not answered.
-/

-- The theorems one after another: side by side they take more threads than the check allows.
set_option Elab.async false

namespace Sys2Proof.Machine

variable (s : State)

/-! ### A word of a port, written on the bus (R368) -/

/-- A write of a posted word of port `n` on the bus: it goes to the path's posted writes. -/
theorem State.registerWrite_port {p : Path} {n : PId} (hw : s.writable p = true)
    (hsel : (s.path p).bankSel.toNat = (Bank.port n).sel) (v : Word) : ∃ u, s.pathFrame u ∧
      exec (.registerWrite p 65 v) s = .next (u.postWrite ⟨p, 65, (Bank.port n).sel⟩ (.port n) 1 v) := by
  have hu := s.acked_pathFrame p 65
  have hsel' : ((s.acked p 65).path p).bankSel.toNat = (Bank.port n).sel := by rw [hu.bankSel, hsel]
  refine ⟨_, hu, congrArg Host.Outcome.next ?_⟩
  have hbus : (s.acked p 65).busWrite p 65 v = (s.acked p 65).bankWrite ⟨p, 65, (Bank.port n).sel⟩ (.port n) 1 v := by
    simp only [State.busWrite, (hu.writable p).trans hw, Bool.not_true, Bool.false_eq_true, if_false]
    rw [State.target_of_bankSel _ 1 hsel', hsel']
  exact hbus.trans (if_pos rfl)

theorem State.postWrite_of_busy {acc : Access} {b : Bank} {off : Nat} (v : Word) (h : (s.path acc.p).busy = true) :
    s.postWrite acc b off v = s.reject acc Ev.wdrop acc.p.num Reason.busy := if_pos h

/-- A posted write of a word that stands alone joins those on their way. -/
theorem State.postWrite_port {acc : Access} {n : PId} (off : Nat) (v : Word) (h : (s.path acc.p).busy = false) :
    s.postWrite acc (.port n) off v = s.modPath acc.p fun x =>
      { x.unstage (.port n) off with posted := x.posted ++ [⟨.port n, off, v, none, acc.sel, false⟩] } := by
  simp [State.postWrite, h]

/-! ### Landing (R369, R371, R424) -/

theorem firstLanding_single {ok : Posted → Bool} {w : Posted} (h : ok w = true) : firstLanding ok [w] = some (w, []) := by
  simp [firstLanding, h]

/-- The path's single posted write lands: it takes effect or is rejected with the path's posted writes empty. -/
theorem State.exec_postedWriteLand {p : Path} {w : Posted} (h : (s.path p).posted = [w]) (hclock : s.clockOn w.bank = true) :
    exec (.postedWriteLand p) s = .next ((s.modPath p fun x => { x with posted := [] }).landPosted ⟨p, 64 + w.off, w.sel⟩
      w.bank w.off w.val w.hi).answerReads := by
  refine congrArg Host.Outcome.next ?_
  rw [State.landOne, h, firstLanding_single hclock]

theorem State.landPosted_of_fatal (acc : Access) (b : Bank) (off : Nat) (v : Word) (hi : Option Word)
    (h : s.dp.fatal = true) : s.landPosted acc b off v hi = s.reject acc Ev.lockrej 0 Reason.state := by
  simp [State.landPosted, h]

theorem State.landPosted_pcfg (acc : Access) (n : PId) (v : Word) (h : s.dp.fatal = false) :
    s.landPosted acc (.port n) 1 v none = s.setPo n { s.po n with cfg := v &&& 0x1FFF } := by
  have hlock : s.lockRead (.port n) 1 = s := rfl
  simp only [State.landPosted, h, hlock, Bool.false_eq_true, if_false]
  rfl

theorem State.modPath_noReads (p : Path) {g : PathSt → PathSt} (hg : ∀ x, (g x).readWait = x.readWait) (h : s.noReads) :
    (s.modPath p g).noReads := by
  intro r
  by_cases hr : r = p
  · subst hr
    rw [State.modPath_path, hg]
    exact h r
  · rw [State.modPath_path_ne _ _ _ _ hr]
    exact h r

theorem State.noReads_congr {s t : State} (hA : t.pathA = s.pathA) (hB : t.pathB = s.pathB) (h : s.noReads) : t.noReads := by
  intro p
  cases p with
  | a => exact (congrArg PathSt.readWait hA).trans (h .a)
  | b => exact (congrArg PathSt.readWait hB).trans (h .b)

/-- A path changed: the other, and all but the two paths, stay. -/
theorem State.modPath_frame (p : Path) (g : PathSt → PathSt) :
    s.modPath p g = { s with pathA := (s.modPath p g).pathA, pathB := (s.modPath p g).pathB } := by
  cases p <;> rfl

theorem State.modPath_other (p : Path) (g : PathSt → PathSt) : (s.modPath p g).path (otherPath p) = s.path (otherPath p) :=
  s.modPath_path_ne p (otherPath p) g (otherPath_ne p)

/-! ### Reads that are not answered (R372, R374) -/

theorem State.readTimeout_of_waiting {p : Path} (hon : s.hostOn = true) (h : (s.path p).readWait.isSome = true) :
    s.readTimeout p = (s.modPath p fun x => { x with readWait := none, readData := 0 }).count Ev.rdto p.num := by
  rw [State.readTimeout, if_pos (by simp [h, hon])]

/-- A path changed and an event counted. -/
theorem State.modPath_count (hwf : s.eventsWf) (p : Path) (g : PathSt → PathSt) (code inst : Nat) :
    ((s.modPath p g).count code inst).path p = g (s.path p) ∧
      ((s.modPath p g).count code inst).path (otherPath p) = s.path (otherPath p) ∧
      s.counted ((s.modPath p g).count code inst) code inst 1 ∧
      ((s.modPath p g).count code inst).bare = ({ s with
        events := ((s.modPath p g).count code inst).events, pathA := ((s.modPath p g).count code inst).pathA
        pathB := ((s.modPath p g).count code inst).pathB } : State).bare := by
  refine ⟨?_, ?_, ?_, ?_⟩
  · rw [State.count_path_frame, State.modPath_path]
  · rw [State.count_path_frame, State.modPath_other]
  · refine s.counted_of_events hwf ?_
    cases p <;> rfl
  · cases p <;> rfl

end Sys2Proof.Machine

open Sys2Proof Sys2Proof.Machine

/-- Settles O55: a posted write joins those on their way, lands, is rejected in FATAL or dropped; a read runs out. -/
theorem postedAccesses : Obligations.PostedAccesses := by
  refine ⟨fun p n v s hreads => ⟨fun hhost hsel => ⟨fun hnone => ?_, fun hwf hbusy => ?_⟩, fun sel hfatal hposted hclock => ?_,
    fun w hfatal hwf hposted hclock => ?_, fun w hwf hposted => ?_⟩, fun p s hon hwf hwait => ⟨?_, fun hp => ?_⟩⟩
  · obtain ⟨u, hu, hexec⟩ := s.registerWrite_port hhost.1 hsel v
    have hposted : (u.path p).posted = [] := (congrArg PathSt.posted (hu.2 p)).trans hnone
    have hidle : (u.path p).busy = false := by simp [PathSt.busy, hposted]
    rw [u.postWrite_port 1 v hidle] at hexec
    refine ⟨_, hexec, ?_, ?_, ?_, ?_⟩
    · simp [PathSt.busy, hposted]
    · simp [hposted]
      rfl
    · rw [State.modPath_other]
      exact hu.2 _
    · rw [State.modPath_frame]
      obtain ⟨⟨_, _, rfl⟩, -⟩ := hu
      rfl
  · obtain ⟨u, hu, hexec⟩ := s.registerWrite_port hhost.1 hsel v
    rw [u.postWrite_of_busy v ((hu.busy p).trans hbusy)] at hexec
    obtain ⟨hrejected, hframe⟩ := hu.reject hwf ⟨p, 65, (Bank.port n).sel⟩ Ev.wdrop p.num Reason.busy
    exact ⟨_, hexec, hrejected, hframe⟩
  · have hexec := s.exec_postedWriteLand hposted hclock
    rw [State.landPosted_pcfg _ _ _ _ (by simpa using hfatal), State.answerReads_of_noReads] at hexec
    · refine ⟨_, hexec, ?_, ?_, ?_, ?_⟩
      · simp [PathSt.busy]
      · simp
      · simpa using s.modPath_other p _
      · cases p <;> rfl
    · exact State.noReads_congr rfl rfl (s.modPath_noReads p (fun _ => rfl) hreads)
  · have hexec := s.exec_postedWriteLand hposted hclock
    have hrejected : s.rejected ((s.modPath p fun x => { x with posted := [] }).reject ⟨p, 64 + w.off, w.sel⟩ Ev.lockrej 0
        Reason.state) ⟨p, 64 + w.off, w.sel⟩ Ev.lockrej 0 Reason.state := by
      refine ⟨s.counted_of_events hwf ?_, ?_⟩
      · cases p <;> rfl
      · cases p <;> rfl
    rw [State.landPosted_of_fatal _ _ _ _ _ _ (by simpa using hfatal), State.answerReads_of_noReads] at hexec
    · refine ⟨_, hexec, ?_, hrejected, ?_, ?_, ?_⟩
      · simp [PathSt.busy]
      · simp
      · simpa using s.modPath_other p _
      · cases p <;> rfl
    · exact State.noReads_congr rfl rfl (s.modPath_noReads p (fun _ => rfl) hreads)
  · obtain ⟨hpath, hother, hcounted, hframe⟩ := s.modPath_count hwf p (fun x => { x with posted := [] }) Ev.wrstall p.num
    have hexec : exec (.wrstall p) s = .next ((s.modPath p fun x => { x with posted := [] }).count Ev.wrstall p.num) := by
      refine congrArg Host.Outcome.next ?_
      rw [hposted]
      exact State.answerReads_of_noReads _ (State.noReads_congr rfl rfl (s.modPath_noReads p (fun _ => rfl) hreads))
    refine ⟨_, hexec, ?_, hcounted, hpath, hother, hframe⟩
    rw [hpath]
    rfl
  · obtain ⟨hpath, hother, hcounted, hframe⟩ :=
      s.modPath_count hwf p (fun x => { x with readWait := none, readData := 0 }) Ev.rdto p.num
    exact ⟨_, congrArg Host.Outcome.next (s.readTimeout_of_waiting hon hwait), hpath, hcounted, hother, hframe⟩
  · subst hp
    obtain ⟨hpath, hother, hcounted, hframe⟩ :=
      s.modPath_count hwf .a (fun x => { x with readWait := none, readData := 0 }) Ev.rdto 0
    exact ⟨_, congrArg Host.Outcome.next (s.readTimeout_of_waiting hon hwait), hpath, hcounted, hother, hframe⟩
end

section
/-!
O11. The loss and the return of REFCLK.
-/

-- The theorems one after another: side by side they take more threads than the check allows.
set_option Elab.async false

namespace Sys2Proof.Machine

variable (s : State)

/-! ### Loss (Table 13.6) -/

theorem Chan.refLoss_inService {x : Chan} (h : x.st = .active ∨ x.st = .selfref) :
    x.refLoss.st = .selfref ∧ x.refLoss.noRef = true := by
  rcases h with h | h <;> simp [Chan.refLoss, Chan.inService, h]

theorem Chan.refLoss_held {x : Chan} (h : x.st = .drain ∨ x.st = .freqsw) (hprior : x.prior = .active ∨ x.prior = .selfref) :
    x.refLoss.st = x.st ∧ x.refLoss.noRef = true ∧ x.refLoss.shownState = .selfref := by
  rcases h with h | h <;> rcases hprior with hp | hp <;> simp [Chan.refLoss, Chan.inService, Chan.shownState, h, hp]

theorem Chan.refLoss_resting {x : Chan} (h : x.st = .untrained ∨ x.st = .absent ∨ x.st = .failed ∨ x.st = .reset) :
    x.refLoss.st = x.st ∧ x.refLoss.noRef = false := by
  rcases h with h | h | h | h <;> simp [Chan.refLoss, Chan.inService, h]

/-- The state that the loss of REFCLK leaves, but for the order stamp of it and stored flags. -/
def State.refLost (s : State) : State :=
  { s with
    time := { s.time with refclk := false }
    dp := { s.dp with heart := false }
    chans := vmap Chan.refLoss s.chans
    azl := { s.azl with out := s.azl.out.toDown none } }

theorem State.exec_refclkLoss (hpow : s.powered = true) : exec .refclkLoss s = .next s.refLost.chanChanged :=
  congrArg Host.Outcome.next (if_pos hpow)

theorem State.refLost_ch (c : YId) : s.refLost.ch c = (s.ch c).refLoss := State.ch_of_vmap (s := s) rfl

/-! ### Return (R427) -/

/-- A channel that REFCLK comes back to without leaving self-refresh for it. -/
def Chan.clocked (x : Chan) : Chan := { x with phyClk := true, noRef := false }

/-- A channel that leaves self-refresh, a tracking update due on each of its ranks. -/
def Chan.unrested (x : Chan) (tick : Nat) : Chan := { (x.clocked.rouse tick).owe with idleSince := x.idleSince }

theorem State.refBack_of_not {c : YId} (h : (s.ch c).noRef = false ∨ (s.ch c).st ≠ .selfref) :
    s.refBack c = s.setCh c (s.ch c).clocked := by
  rw [State.refBack]
  refine if_pos ?_
  rcases h with h | h <;> simp [h]

theorem State.setCh_modCh (c : YId) (x : Chan) (g : Chan → Chan) : (s.setCh c x).modCh c g = s.setCh c (g x) := by
  simp [State.modCh, State.setCh, State.ch]

theorem Chan.unrested_ttrain (x : Chan) (tick : Nat) : (x.unrested tick).ttrain = x.ttrain := rfl

/-- Outside a warm reset the channel stays as it is but for its clock, or leaves self-refresh and may ask for a retrain. -/
theorem State.refBack_eq (c : YId) (hwarm : s.boot.warm = false) : s.refBack c =
    if !(s.ch c).noRef || s.dp.fatal || (s.ch c).st != .selfref then s.setCh c (s.ch c).clocked
    else if s.tempMoved c then (s.setCh c ((s.ch c).unrested s.time.ticks)).trigger c
    else s.setCh c ((s.ch c).unrested s.time.ticks) := by
  have hmoved : (s.setCh c ((s.ch c).unrested s.time.ticks)).tempMoved c = s.tempMoved c :=
    State.tempMoved_congr rfl (by rw [State.setCh_ch, Chan.unrested_ttrain])
  by_cases h : !(s.ch c).noRef || s.dp.fatal || (s.ch c).st != .selfref
  · rw [if_pos h]
    exact if_pos h
  · rw [if_neg h, ← hmoved]
    refine (if_neg h).trans ((if_neg (by simp [hwarm])).trans ?_)
    rw [State.setCh_modCh]
    rfl

theorem State.refBack_of_rests {c : YId} (href : (s.ch c).noRef = true) (hst : (s.ch c).st = .selfref)
    (hfatal : s.dp.fatal = false) (hwarm : s.boot.warm = false) : s.refBack c =
      if s.tempMoved c then (s.setCh c ((s.ch c).unrested s.time.ticks)).trigger c
      else s.setCh c ((s.ch c).unrested s.time.ticks) := by
  rw [s.refBack_eq c hwarm, if_neg (by simp [href, hst, hfatal])]

theorem State.refBack_frame (c : YId) (hwarm : s.boot.warm = false) :
    s.refBack c = { s with chans := (s.refBack c).chans, order := (s.refBack c).order } := by
  rw [s.refBack_eq c hwarm]
  split
  · rfl
  · split
    · exact State.trigger_frame _ c
    · rfl

theorem State.refBack_ch_ne {c d : YId} (h : d ≠ c) (hwarm : s.boot.warm = false) : (s.refBack c).ch d = s.ch d := by
  rw [s.refBack_eq c hwarm]
  split
  · exact State.setCh_ch_ne _ _ _ _ h
  · split
    · rw [State.trigger_ch_ne _ h, State.setCh_ch_ne _ _ _ _ h]
    · exact State.setCh_ch_ne _ _ _ _ h

theorem State.refBack_ch_of_rests {c : YId} (href : (s.ch c).noRef = true) (hst : (s.ch c).st = .selfref)
    (hfatal : s.dp.fatal = false) (hwarm : s.boot.warm = false) :
    ∃ p, (s.refBack c).ch c = { (s.ch c).unrested s.time.ticks with pend := p } := by
  rw [s.refBack_of_rests href hst hfatal hwarm]
  split
  · rw [State.trigger_ch, State.setCh_ch]
    exact ⟨_, rfl⟩
  · exact ⟨(s.ch c).pend, State.setCh_ch _ _ _⟩

/-- What the return leaves of a channel, of either kind. -/
theorem State.refBack_ch_keeps (c : YId) (hfatal : s.dp.fatal = false) (hwarm : s.boot.warm = false) :
    ((s.refBack c).ch c).phyClk = true ∧ ((s.refBack c).ch c).noRef = false ∧ ((s.refBack c).ch c).reqs = (s.ch c).reqs ∧
      ((s.refBack c).ch c).taps = (s.ch c).taps ∧ ((s.refBack c).ch c).sweeping = (s.ch c).sweeping ∧
      ((s.refBack c).ch c).freq = (s.ch c).freq := by
  by_cases h : (s.ch c).noRef = true ∧ (s.ch c).st = .selfref
  · obtain ⟨p, hp⟩ := s.refBack_ch_of_rests h.1 h.2 hfatal hwarm
    rw [hp]
    exact ⟨rfl, rfl, rfl, rfl, rfl, rfl⟩
  · have hnot : (s.ch c).noRef = false ∨ (s.ch c).st ≠ .selfref := by
      rw [not_and_or, Bool.not_eq_true] at h
      exact h
    rw [s.refBack_of_not hnot, State.setCh_ch]
    exact ⟨rfl, rfl, rfl, rfl, rfl, rfl⟩

/-- Both channels, one after the other: each as if it were alone. -/
theorem State.refBacks_ch (hwarm : s.boot.warm = false) (c : YId) : ∃ u : State, u.ch c = s.ch c ∧ u.dp = s.dp ∧
    u.boot = s.boot ∧ u.time = s.time ∧ ((s.refBack 0).refBack 1).ch c = (u.refBack c).ch c := by
  have h0 := s.refBack_frame 0 hwarm
  have hboot : (s.refBack 0).boot = s.boot := (congrArg State.boot h0 :)
  match c with
  | 0 => exact ⟨s, rfl, rfl, rfl, rfl, State.refBack_ch_ne _ (by decide) (by rw [hboot]; exact hwarm)⟩
  | 1 => exact ⟨_, s.refBack_ch_ne (by decide) hwarm, (congrArg State.dp h0 :), hboot, (congrArg State.time h0 :), rfl⟩

theorem State.refBacks_frame (hwarm : s.boot.warm = false) : (s.refBack 0).refBack 1 =
    { s with chans := ((s.refBack 0).refBack 1).chans, order := ((s.refBack 0).refBack 1).order } := by
  have h0 := s.refBack_frame 0 hwarm
  have hboot : (s.refBack 0).boot = s.boot := (congrArg State.boot h0 :)
  have h1 := (s.refBack 0).refBack_frame 1 (by rw [hboot]; exact hwarm)
  rw [h1]
  exact congrArg (fun u : State => { u with
    chans := ((s.refBack 0).refBack 1).chans, order := ((s.refBack 0).refBack 1).order }) h0

/-- The state with REFCLK back, before its channels follow. -/
def State.refOn (s : State) : State := { s with time := { s.time with refclk := true } }

theorem State.refOn_ch (c : YId) : s.refOn.ch c = s.ch c := rfl

theorem State.exec_refclkReturn (hpow : s.powered = true) (href : s.time.refclk = false) (hstage : 3 < s.boot.stage)
    (hwarm : s.boot.warm = false) (hwaits : s.bootWaits = false) (hreads : s.noReads) :
    exec .refclkReturn s = .next ((s.refOn.refBack 0).refBack 1).chanChanged := by
  have hframe := s.refOn.refBacks_frame hwarm
  have hboot : ((s.refOn.refBack 0).refBack 1).boot = s.boot := (congrArg State.boot hframe :)
  have hpathA : ((s.refOn.refBack 0).refBack 1).pathA = s.pathA := (congrArg State.pathA hframe :)
  have hpathB : ((s.refOn.refBack 0).refBack 1).pathB = s.pathB := (congrArg State.pathB hframe :)
  have hchanged := State.chanChanged_storeFrame ((s.refOn.refBack 0).refBack 1)
  have hboot' : ((s.refOn.refBack 0).refBack 1).chanChanged.boot = s.boot := (congrArg State.boot hchanged :).trans hboot
  have htrain : ((s.refOn.refBack 0).refBack 1).chanChanged.mayTrain = false := by
    have hwaits' : ((s.refOn.refBack 0).refBack 1).chanChanged.bootWaits = s.bootWaits := by
      rw [State.bootWaits, State.bootWaits, hboot']
    simp [State.mayTrain, hwaits', hwaits]
  have hreturn : s.refReturn = ((s.refOn.refBack 0).refBack 1).chanChanged := by
    rw [State.refReturn, if_neg (by simp [href])]
    refine (if_neg (by simpa [State.powered, State.supplied] using hpow)).trans ((if_pos hstage).trans ?_)
    have hon : ((s.refOn.refBack 0).refBack 1).warmOn = (s.refOn.refBack 0).refBack 1 :=
      State.warmOn_of_not _ (by rw [hboot]; exact hwarm)
    exact (congrArg (fun u : State => u.chanChanged.bootTrain) hon).trans (State.bootTrain_of_not _ htrain)
  refine congrArg Host.Outcome.next ?_
  rw [hreturn]
  refine State.answerReads_of_noReads _ (State.noReads_congr ?_ ?_ hreads)
  · exact (congrArg State.pathA hchanged :).trans hpathA
  · exact (congrArg State.pathB hchanged :).trans hpathB

end Sys2Proof.Machine

open Sys2Proof Sys2Proof.Machine

/-- Settles O11: each channel by what it was, at the loss and at the return. -/
theorem refclkLossAndReturn : Obligations.RefclkLossAndReturn := by
  intro s hpow
  refine ⟨⟨_, s.exec_refclkLoss hpow, ?_⟩, fun href hstage hfatal hwarm hwaits hreads =>
    ⟨_, s.exec_refclkReturn hpow href hstage hwarm hwaits hreads, ?_⟩⟩
  · simp only [State.chanChanged_ch, State.refLost_ch]
    refine ⟨fun c => rfl, fun c h => Chan.refLoss_inService h, fun c h hprior => Chan.refLoss_held h hprior,
      fun c h => Chan.refLoss_resting h, ?_, ?_⟩
    · rw [State.chanChanged, State.scaleAll_azl]
      rfl
    · rw [State.chanChanged, State.scaleAll_bare, State.scaleAll_chans, State.scaleAll_azl, State.scaleAll_order]
      rfl
  · have hframe := s.refOn.refBacks_frame hwarm
    simp only [State.chanChanged_ch]
    refine ⟨fun c => ?_, fun c hrest hst => ?_, fun c h => ?_, ?_⟩
    · obtain ⟨u, hch, hdp, hboot, -, hu⟩ := s.refOn.refBacks_ch hwarm c
      have hkeeps := u.refBack_ch_keeps c (by rw [hdp]; exact hfatal) (by rw [hboot]; exact hwarm)
      rw [hch, s.refOn_ch] at hkeeps
      rw [hu]
      exact hkeeps
    · obtain ⟨u, hch, hdp, hboot, -, hu⟩ := s.refOn.refBacks_ch hwarm c
      obtain ⟨p, hp⟩ := u.refBack_ch_of_rests (by rw [hch]; exact hrest) (by rw [hch]; exact hst)
        (by rw [hdp]; exact hfatal) (by rw [hboot]; exact hwarm)
      rw [hch, s.refOn_ch] at hp
      rw [hu, hp]
      exact ⟨rfl, rfl, rfl⟩
    · obtain ⟨u, hch, hdp, hboot, -, hu⟩ := s.refOn.refBacks_ch hwarm c
      rw [hu, u.refBack_of_not (by rw [hch]; exact h), State.setCh_ch, hch, s.refOn_ch]
      rfl
    · rw [State.chanChanged, State.scaleAll_bare, State.scaleAll_chans, State.scaleAll_order]
      exact congrArg (fun u : State => u.nextOrder.bare) hframe
end

section
/-!
SUPPORT. The pins of ports whose running state changes (R48, R71, R72): what a start of them leaves, shows and passes on to
the upper port of a pair.
-/

-- The theorems one after another: side by side they take more threads than the check allows.
set_option Elab.async false

namespace Sys2Proof.Machine

variable (s : State)

/-! ### Pairs (R83) -/

theorem State.master_of_unpaired {n : PId} (h : s.paired n = false) : s.master n = n := by simp [State.master, h]
theorem State.master_of_paired {n : PId} (h : s.paired n = true) : s.master n = lowerPort n := by simp [State.master, h]

theorem State.paired_congr {m n : PId} (h : lowerPort m = lowerPort n) : s.paired m = s.paired n := by
  rw [State.paired, State.paired, h]

theorem lowerPort_lowerPort (n : PId) : lowerPort (lowerPort n) = lowerPort n := by revert n; decide
theorem lowerPort_upperPort (n : PId) : lowerPort (upperPort n) = lowerPort n := by revert n; decide
theorem upperPort_lowerPort (n : PId) : upperPort (lowerPort n) = upperPort n := by revert n; decide
theorem upperPort_ne_lowerPort (n : PId) : upperPort n ≠ lowerPort n := by revert n; decide
theorem port_of_lower {m n : PId} (h : lowerPort m = lowerPort n) : m = lowerPort n ∨ m = upperPort n := by
  revert m n; decide

/-- A port that speaks for itself is no upper port, or its pair is not in effect. -/
theorem State.not_upper_iff {n : PId} : s.isUpper n = false ↔ s.master n = n := by simp [State.isUpper]

theorem State.master_master (n : PId) : s.master (s.master n) = s.master n := by
  cases h : s.paired n with
  | false => rw [s.master_of_unpaired h, s.master_of_unpaired h]
  | true =>
    rw [s.master_of_paired h, State.master_of_paired _ ((s.paired_congr (lowerPort_lowerPort n)).trans h),
      lowerPort_lowerPort]

/-- The ports for which `n` speaks: itself, and the upper port where its pair is in effect. -/
theorem State.master_eq_iff {m n : PId} (hn : s.master n = n) :
    s.master m = n ↔ m = n ∨ (s.paired n = true ∧ n = lowerPort n ∧ m = upperPort n) := by
  constructor
  · intro h
    cases hm : s.paired m with
    | false => exact .inl (by rw [← h, s.master_of_unpaired hm])
    | true =>
      have hlow : lowerPort m = n := (s.master_of_paired hm).symm.trans h
      have hpair : lowerPort m = lowerPort n := by rw [← hlow, lowerPort_lowerPort]
      have hself : n = lowerPort n := by rw [← hpair, hlow]
      rcases port_of_lower hpair with hm' | hm'
      · exact .inl (hm'.trans hself.symm)
      · exact .inr ⟨(s.paired_congr hpair).symm.trans hm, hself, hm'⟩
  · rintro (rfl | ⟨hpaired, hself, rfl⟩)
    · exact hn
    · have hup : s.paired (upperPort n) = true := (s.paired_congr (lowerPort_upperPort n)).trans hpaired
      rw [s.master_of_paired hup, lowerPort_upperPort, ← hself]

theorem State.paired_of_lcfg {s t : State} (h : ∀ n, (t.po n).lcfg = (s.po n).lcfg) (n : PId) : t.paired n = s.paired n := by
  rw [State.paired, State.paired, h]

theorem State.master_of_lcfg {s t : State} (h : ∀ n, (t.po n).lcfg = (s.po n).lcfg) (n : PId) : t.master n = s.master n := by
  rw [State.master, State.master, State.paired_of_lcfg h]

theorem State.isUpper_of_lcfg {s t : State} (h : ∀ n, (t.po n).lcfg = (s.po n).lcfg) (n : PId) :
    t.isUpper n = s.isUpper n := by rw [State.isUpper, State.isUpper, State.master_of_lcfg h]

theorem State.samePorts.lcfg {s t : State} (h : s.samePorts t) (n : PId) : (t.po n).lcfg = (s.po n).lcfg :=
  (congrArg Port.lcfg (h n) :)

theorem State.samePorts.en {s t : State} (h : s.samePorts t) (n : PId) : (t.po n).en = (s.po n).en :=
  (congrArg Port.en (h n) :)

theorem State.samePorts_refl : s.samePorts s := fun _ => rfl

/-! ### Pins set, with those of the upper port (R27, R83) -/

/-- The pins of the upper port of a pair: the lower port's, but for the data lines. -/
def Pins.copied (p : Pins) (hi : BitVec 36) : Pins := { p with d := if p.dz then 0 else hi }

/-- Port `n` with other pins and their mirror on the upper port of its pair; free values taken meanwhile. -/
def State.pinned (s : State) (n : PId) (y : Port) (k : Nat) (hi : BitVec 36) : State :=
  ({ s.setPo n y with freeCtr := k }).mirror n hi

theorem State.pinned_frame (n : PId) (y : Port) (k : Nat) (hi : BitVec 36) :
    s.pinned n y k hi = { s with ports := (s.pinned n y k hi).ports, freeCtr := k } := by
  unfold State.pinned State.mirror
  dsimp only
  split <;> rfl

theorem State.pinned_po {n : PId} {y : Port} (hn : s.master n = n) (hy : y.inner = (s.po n).inner) (k : Nat)
    (hi : BitVec 36) (m : PId) : (s.pinned n y k hi).po m = if m = n then y
      else if s.master m = n then { s.po m with pins := y.pins.copied hi } else s.po m := by
  have hpo : ({ s.setPo n y with freeCtr := k } : State).po m = if m = n then y else s.po m := by
    split
    next h => rw [h]; exact s.setPo_po n y
    next h => exact s.setPo_po_ne n m y h
  have hlcfg (j : PId) : (({ s.setPo n y with freeCtr := k } : State).po j).lcfg = (s.po j).lcfg := by
    by_cases h : j = n
    · rw [h]
      exact (congrArg Port.lcfg (s.setPo_po n y)).trans (congrArg Port.lcfg hy :)
    · exact congrArg Port.lcfg (s.setPo_po_ne n j y h)
  have hpaired := State.paired_of_lcfg hlcfg n
  have hown : ({ s.setPo n y with freeCtr := k } : State).po n = y := s.setPo_po n y
  rw [State.pinned, State.mirror, hpaired, hown]
  by_cases hpair : s.paired n = true ∧ n = lowerPort n
  · have hup : upperPort n ≠ n := by
      rw [hpair.2, upperPort_lowerPort]
      exact upperPort_ne_lowerPort n
    rw [if_pos (by simpa using hpair)]
    dsimp only
    by_cases hm : m = upperPort n
    · subst hm
      rw [State.modPo_po, hpo, if_neg hup, if_neg hup, if_pos ((s.master_eq_iff hn).2 (.inr ⟨hpair.1, hpair.2, rfl⟩))]
      rfl
    · rw [State.modPo_po_ne _ _ _ _ hm, hpo]
      split
      · rfl
      next hmn =>
        rw [if_neg]
        intro hmaster
        rcases (s.master_eq_iff hn).1 hmaster with h | ⟨-, -, h⟩
        · exact hmn h
        · exact hm h
  · rw [if_neg (by simpa using hpair), hpo]
    split
    · rfl
    next hmn =>
      rw [if_neg]
      intro hmaster
      rcases (s.master_eq_iff hn).1 hmaster with h | ⟨h, h', -⟩
      · exact hmn h
      · exact hpair ⟨h, h'⟩

theorem State.pinned_samePorts {n : PId} {y : Port} (hn : s.master n = n) (hy : y.inner = (s.po n).inner) (k : Nat)
    (hi : BitVec 36) : s.samePorts (s.pinned n y k hi) := by
  intro m
  rw [s.pinned_po hn hy]
  split
  next h => rw [h, hy]
  next =>
    split
    · rfl
    · rfl

/-- A port that launches no word: PnDV low, PnERR# high, free data and framing lines. -/
def Port.idled (x : Port) (w k : Nat) : Port :=
  { x with pins := { x.pins with
    dv := .low, d := usedLines w (Config.idleData k), fr := if x.segMode then Config.idleFrame k else 0, dz := false
    err := .high } }

theorem State.idlePins_eq (n : PId) : s.idlePins n =
    s.pinned n ((s.po n).idled (s.width n) s.freeCtr) (s.freeCtr + 2) (Config.idleData (s.freeCtr + 1)) := rfl

/-! ### A start of the pins (R48, R71, R72, R406) -/

/-- What a start of the pins does: the port, no upper one, shows its flags asserted, in FATAL the pins of Table 2.11. -/
theorem State.startPins_pinned {n : PId} (hn : s.master n = n) : ∃ y k hi, s.startPins n = s.pinned n y k hi ∧
    y.inner = (s.po n).inner ∧ y.pins.fla = .low ∧ y.pins.flb = .low ∧
    (s.dp.fatal = true → y.pins = s.fatalPins n ∧ hi = 0) := by
  have hset (x y : Port) : (s.setPo n x).setPo n y = s.setPo n y := by simp [State.setPo]
  have hfatal : s.dp.fatal = true → s.portsOn = false := fun h => by simp [State.portsOn, State.running, h]
  rw [State.startPins, if_neg (by simp [State.isUpper, hn])]
  dsimp only
  split
  · refine ⟨{ (s.po n).freshFlags with pins := if s.dp.fatal then s.fatalPins n else Pins.off }, s.freeCtr, 0, rfl, rfl, ?_, ?_,
      fun h => ⟨if_pos h, rfl⟩⟩
    · dsimp only
      split
      · unfold State.fatalPins
        dsimp only
        split <;> rfl
      · rfl
    · dsimp only
      split
      · unfold State.fatalPins
        dsimp only
        split <;> rfl
      · rfl
  next hon =>
    have hnot : ¬s.dp.fatal = true := fun h => hon (by simp [hfatal h])
    split
    · let x : Port := { (s.po n).freshFlags with pins := Pins.off }
      let u := s.setPo n x
      refine ⟨x.idled (u.width n) s.freeCtr, s.freeCtr + 2, Config.idleData (s.freeCtr + 1), ?_, rfl, rfl, rfl,
        fun h => absurd h hnot⟩
      rw [State.idlePins_eq, State.pinned, State.setPo_po, hset]
      rfl
    · exact ⟨{ (s.po n).freshFlags with pins := Pins.off }, s.freeCtr, 0, rfl, rfl, rfl, rfl, fun h => absurd h hnot⟩

theorem State.startPins_of_upper {n : PId} (h : s.master n ≠ n) : s.startPins n = s :=
  if_pos (by simp [State.isUpper, h])

theorem State.startPins_frame (n : PId) :
    s.startPins n = { s with ports := (s.startPins n).ports, freeCtr := (s.startPins n).freeCtr } := by
  by_cases hn : s.master n = n
  · obtain ⟨y, k, hi, heq, -⟩ := s.startPins_pinned hn
    rw [heq]
    have hframe := s.pinned_frame n y k hi
    have hctr : (s.pinned n y k hi).freeCtr = k := (congrArg State.freeCtr hframe :)
    rw [hctr]
    exact hframe
  · rw [s.startPins_of_upper hn]

theorem State.startPins_samePorts (n : PId) : s.samePorts (s.startPins n) := by
  by_cases hn : s.master n = n
  · obtain ⟨y, k, hi, heq, hy, -⟩ := s.startPins_pinned hn
    rw [heq]
    exact s.pinned_samePorts hn hy k hi
  · rw [s.startPins_of_upper hn]
    exact s.samePorts_refl

theorem State.startPins_po_ne {m n : PId} (h : s.master m ≠ n) : (s.startPins n).po m = s.po m := by
  by_cases hn : s.master n = n
  · obtain ⟨y, k, hi, heq, hy, -⟩ := s.startPins_pinned hn
    rw [heq, s.pinned_po hn hy, if_neg fun he => h (by rw [he, hn]), if_neg h]
  · rw [s.startPins_of_upper hn]

/-- The ports for which `n` speaks show their flags asserted. -/
theorem State.startPins_low {m n : PId} (h : s.master m = n) :
    ((s.startPins n).po m).pins.fla = .low ∧ ((s.startPins n).po m).pins.flb = .low := by
  have hn : s.master n = n := by rw [← h, s.master_master]
  obtain ⟨y, k, hi, heq, hy, hfla, hflb, -⟩ := s.startPins_pinned hn
  rw [heq, s.pinned_po hn hy]
  split
  · exact ⟨hfla, hflb⟩
  · exact ⟨hfla, hflb⟩

theorem State.fatalPins_copied (n : PId) : (s.fatalPins n).copied 0 = s.fatalPins n := by
  unfold State.fatalPins Pins.copied
  dsimp only
  split <;> simp

theorem State.fatalPins_of_master {m n : PId} (h : s.master m = n) : s.fatalPins m = s.fatalPins n := by
  have hn : s.master n = n := by rw [← h, s.master_master]
  rw [State.fatalPins, State.fatalPins, h, hn]

theorem State.startPins_fatal {m n : PId} (hfatal : s.dp.fatal = true) (h : s.master m = n) :
    ((s.startPins n).po m).pins = s.fatalPins m := by
  have hn : s.master n = n := by rw [← h, s.master_master]
  obtain ⟨y, k, hi, heq, hy, -, -, hpins⟩ := s.startPins_pinned hn
  obtain ⟨hy', rfl⟩ := hpins hfatal
  rw [heq, s.pinned_po hn hy, s.fatalPins_of_master h]
  split
  · exact hy'
  · show y.pins.copied 0 = _
    rw [hy', s.fatalPins_copied]

/-! ### Every port -/

theorem State.foldStartPins_frame (l : List PId) : l.foldl State.startPins s =
    { s with ports := (l.foldl State.startPins s).ports, freeCtr := (l.foldl State.startPins s).freeCtr } :=
  List.foldlRecOn (motive := fun t : State => t = { s with ports := t.ports, freeCtr := t.freeCtr }) l _ rfl
    fun t ht n _ => (t.startPins_frame n).trans
      (congrArg (fun u : State => { u with ports := (t.startPins n).ports, freeCtr := (t.startPins n).freeCtr }) ht)

theorem State.foldStartPins_samePorts (l : List PId) : s.samePorts (l.foldl State.startPins s) :=
  List.foldlRecOn (motive := fun t : State => s.samePorts t) l _ s.samePorts_refl fun t ht n _ =>
    ht.trans (t.startPins_samePorts n)

theorem State.fatalPins_of_samePorts {s t : State} (h : s.samePorts t) (n : PId) : t.fatalPins n = s.fatalPins n := by
  have hegress (m : PId) : (t.po m).egress = (s.po m).egress := by rw [Port.egress, Port.egress, h.lcfg]
  rw [State.fatalPins, State.fatalPins, State.master_of_lcfg h.lcfg]
  simp only [hegress, h.en]

theorem State.foldStartPins_low (l : List PId) {m : PId} (h : s.master m ∈ l) :
    ((l.foldl State.startPins s).po m).pins.fla = .low ∧ ((l.foldl State.startPins s).po m).pins.flb = .low := by
  induction l using List.reverseRecOn with
  | nil => simp at h
  | append_singleton l n ih =>
    have hmaster : (l.foldl State.startPins s).master m = s.master m :=
      State.master_of_lcfg (s.foldStartPins_samePorts l).lcfg m
    rw [List.foldl_append, List.foldl_cons, List.foldl_nil]
    by_cases hn : s.master m = n
    · exact State.startPins_low _ (hmaster.trans hn)
    · rw [State.startPins_po_ne _ (by rw [hmaster]; exact hn)]
      exact ih ((List.mem_append.1 h).resolve_right (by simpa using hn))

theorem State.foldStartPins_fatal (hfatal : s.dp.fatal = true) (l : List PId) {m : PId} (h : s.master m ∈ l) :
    ((l.foldl State.startPins s).po m).pins = s.fatalPins m := by
  induction l using List.reverseRecOn with
  | nil => simp at h
  | append_singleton l n ih =>
    have hsame := s.foldStartPins_samePorts l
    have hmaster : (l.foldl State.startPins s).master m = s.master m := State.master_of_lcfg hsame.lcfg m
    have hdp : (l.foldl State.startPins s).dp = s.dp := (congrArg State.dp (s.foldStartPins_frame l) :)
    rw [List.foldl_append, List.foldl_cons, List.foldl_nil]
    by_cases hn : s.master m = n
    · rw [State.startPins_fatal _ (by rw [hdp]; exact hfatal) (hmaster.trans hn), State.fatalPins_of_samePorts hsame]
    · rw [State.startPins_po_ne _ (by rw [hmaster]; exact hn)]
      exact ih ((List.mem_append.1 h).resolve_right (by simpa using hn))

theorem State.startAllPins_frame : s.startAllPins =
    { s with ports := s.startAllPins.ports, freeCtr := s.startAllPins.freeCtr } := s.foldStartPins_frame allP

theorem State.startAllPins_samePorts : s.samePorts s.startAllPins := s.foldStartPins_samePorts allP

theorem State.startAllPins_low : s.startAllPins.flagsLow := fun _ => s.foldStartPins_low allP (List.mem_finRange _)

theorem State.startAllPins_fatal (hfatal : s.dp.fatal = true) (m : PId) : (s.startAllPins.po m).pins = s.fatalPins m :=
  s.foldStartPins_fatal hfatal allP (List.mem_finRange _)

end Sys2Proof.Machine
end

section
/-!
O8. Start-up in its steps, and the last step of start-up and of a warm device reset.
-/

-- The theorems one after another: side by side they take more threads than the check allows.
set_option Elab.async false

namespace Sys2Proof.Machine

variable (s : State)

/-! ### Steps 1 and 2 (R59 to R61) -/

theorem State.bootRun_bare (hs : s.supplied = true) (hp : s.boot.porst = true) :
    s.bootRun.bare = ({ s with boot := { s.boot with stage := 3 } } : State).bare := by
  rw [State.bootRun, if_pos (by simp [hs, hp]), State.scaleAll_bare]

theorem State.bootRun_of_not (h : s.supplied = false ∨ s.boot.porst = false) : s.bootRun = s := by
  rcases h with h | h <;> simp [State.bootRun, h]

/-! ### Step 4: the Landing test (R59, R64) -/

/-- The failing banks that are not retired yet. -/
def State.freshBanks (s : State) (bad : BitVec 17) : BitVec 17 := bad &&& ~~~s.land.retired

theorem State.retire_freshBanks (bad : BitVec 17) : s.retire (s.freshBanks bad) = ({ s with land := { s.land with
      retired := s.land.retired ||| bad
      rest := if s.land.retired ||| bad = 0 then s.land.rest else 31
      sweepLeft := if s.land.retired ||| bad = 0 then s.land.sweepLeft else 0 } }).countN
        Ev.lbankfail 0 (bankCount (s.freshBanks bad)) := by
  have hret : s.land.retired ||| s.freshBanks bad = s.land.retired ||| bad := by
    ext i hi
    simp only [State.freshBanks, BitVec.getElem_or, BitVec.getElem_and, BitVec.getElem_not]
    cases s.land.retired[i] <;> cases bad[i] <;> rfl
  have hnew : ((List.range 17).filter fun b => (s.freshBanks bad).getLsbD b && !s.land.retired.getLsbD b) =
      (List.range 17).filter fun b => (s.freshBanks bad).getLsbD b := by
    refine List.filter_congr fun b _ => ?_
    simp only [State.freshBanks, BitVec.getLsbD_and, BitVec.getLsbD_not]
    cases s.land.retired.getLsbD b <;> simp
  rw [State.retire, hnew]
  dsimp only
  rw [hret]
  rfl

/-- The Landing test retires and counts the failing banks, and halts what it belongs to at two of them. -/
theorem State.landTest_frame (bad : BitVec 17) : s.landTest bad = { s with
    land := (s.landTest bad).land
    events := (s.countN Ev.lbankfail 0 (bankCount (s.freshBanks bad))).events
    boot := { s.boot with badBanks := bad, halted := decide (2 ≤ bankCount (s.freshBanks bad)) } } := by
  have h := s.retire_freshBanks bad
  unfold State.landTest
  dsimp only
  rw [show bad &&& ~~~s.land.retired = s.freshBanks bad from rfl, h]
  simp only [State.countN]
  split <;> rfl

theorem State.landTest_retired (bad : BitVec 17) : (s.landTest bad).land.retired = s.land.retired ||| bad := by
  show (s.retire (s.freshBanks bad)).land.retired = _
  rw [s.retire_freshBanks, State.countN_land]

theorem State.countN_events_congr {s t : State} (h : t.events = s.events) (code inst n : Nat) :
    (t.countN code inst n).events = (s.countN code inst n).events := by
  rw [State.countN_events, State.countN_events, State.ev, State.ev, h]

/-- The state whose PHY clocks run. -/
def State.clocksOn (s : State) : State := { s with chans := vmap (fun (x : Chan) => { x with phyClk := true }) s.chans }

/-- Step 4 as it begins, but for what the Landing test finds. -/
def State.stageOn (s : State) : State :=
  { s with boot := { s.boot with stage := if s.boot.halted then 4 else 5 } }

theorem State.bootOn_eq : s.bootOn = (s.clocksOn.landTest s.boot.badBanks).stageOn := rfl

theorem State.bootOn_frame : s.bootOn = { s.clocksOn with
    land := s.bootOn.land
    events := (s.countN Ev.lbankfail 0 (bankCount (s.freshBanks s.boot.badBanks))).events
    boot := { s.boot with
      halted := decide (2 ≤ bankCount (s.freshBanks s.boot.badBanks))
      stage := if 2 ≤ bankCount (s.freshBanks s.boot.badBanks) then 4 else 5 } } := by
  have hev := State.countN_events_congr (s := s) (t := s.clocksOn) rfl Ev.lbankfail 0
    (bankCount (s.freshBanks s.boot.badBanks))
  have hfresh : s.clocksOn.freshBanks s.boot.badBanks = s.freshBanks s.boot.badBanks := rfl
  rw [s.bootOn_eq, State.landTest_frame, hfresh, hev, State.stageOn]
  simp only [decide_eq_true_eq]
  rfl

/-! ### Steps 5 and 6 (R65) -/

/-- The state whose channels step 5 has initialised, DP:LOCKDRAM being Carding's. -/
def State.initOn (s : State) : State :=
  { s.setLock .dram ⟨VWord.of 3, s.time.ticks, (max 1 s.dp.lease.toNat) * msTicks⟩ with
    chans := vmap Chan.initialised s.chans
    boot := { s.boot with stage := if s.boot.halted then 4 else 6, carding := true } }

/-- The state with which steps 5 and 6 begin, but for stored flags. -/
def State.trainOn (s : State) : State :=
  if s.boot.straps.boottrn then s.initOn.modCh 0 fun x => x.toSweep .boot s.time.ticks s.order else s.initOn

theorem State.cardingLock_of_held (h : s.dramFree = false) : s.cardingLock = s := by simp [State.cardingLock, h]

theorem State.bootTrain_eq (h : s.mayTrain = true) : s.bootTrain = s.trainOn.scaleAll := by
  have hsweep : s.initOn.beginSweep 0 .boot = s.initOn.modCh 0 fun x => x.toSweep .boot s.time.ticks s.order := by
    rw [State.beginSweep_eq, State.cardingLock_of_held _ rfl]
    rfl
  rw [State.trainOn, ← hsweep]
  exact if_pos h

theorem State.trainOn_frame : s.trainOn = { s with
    chans := s.trainOn.chans
    dp := { s.dp with lockDram := ⟨VWord.of 3, s.time.ticks, (max 1 s.dp.lease.toNat) * msTicks⟩ }
    boot := { s.boot with stage := if s.boot.halted then 4 else 6, carding := true } } := by
  unfold State.trainOn
  cases s.boot.straps.boottrn <;> rfl

theorem State.trainOn_ch (c : YId) : s.trainOn.ch c = if s.boot.straps.boottrn = true ∧ c = 0
    then (s.ch c).initialised.toSweep .boot s.time.ticks s.order else (s.ch c).initialised := by
  have hch (d : YId) : s.initOn.ch d = (s.ch d).initialised := State.ch_of_vmap (s := s) rfl
  unfold State.trainOn
  by_cases hb : s.boot.straps.boottrn = true
  · rw [if_pos hb]
    by_cases hc : c = 0
    · rw [if_pos ⟨hb, hc⟩, hc, State.modCh_ch, hch]
    · rw [if_neg fun h => hc h.2, State.modCh_ch_ne _ _ _ _ hc, hch]
  · rw [if_neg hb, if_neg fun h => hb h.1, hch]

theorem Chan.initialised_untrained {x : Chan} (h : x.st = .untrained) : x.initialised.st = .untrained := by
  simp [Chan.initialised, Chan.breakOff, Chan.rest, h]

theorem Chan.toSweep_boot (x : Chan) (tick order : Nat) :
    (x.toSweep .boot tick order).st = .drain ∧ (x.toSweep .boot tick order).sweeping = some .boot ∧
    (x.toSweep .boot tick order).resetN = x.resetN ∧ (x.toSweep .boot tick order).setB = x.setB ∧
    (x.toSweep .boot tick order).phyClk = x.phyClk ∧ (x.toSweep .boot tick order).freq = x.freq := by
  unfold Chan.toSweep Chan.roused
  dsimp only
  split <;> exact ⟨rfl, rfl, rfl, rfl, rfl, rfl⟩

/-- Each channel as steps 5 and 6 begin: initialised with set A, and on Y0 the sweep where BOOTTRN = 1. -/
theorem State.trainOn_channels (h : ∀ c, (s.ch c).st = .untrained) (c : YId) :
    (s.trainOn.ch c).st = (if s.boot.straps.boottrn = true ∧ c = 0 then .drain else .untrained) ∧
    (s.trainOn.ch c).sweeping = (if s.boot.straps.boottrn = true ∧ c = 0 then some .boot else none) ∧
    (s.trainOn.ch c).resetN = true ∧ (s.trainOn.ch c).setB = false ∧ (s.trainOn.ch c).phyClk = (s.ch c).phyClk ∧
    (s.trainOn.ch c).freq = none := by
  rw [s.trainOn_ch]
  split
  · obtain ⟨hst, hsweep, hreset, hset, hclk, hfreq⟩ := (s.ch c).initialised.toSweep_boot s.time.ticks s.order
    exact ⟨hst, hsweep, hreset, hset, hclk, hfreq⟩
  · exact ⟨Chan.initialised_untrained (h c), rfl, rfl, rfl, rfl, rfl⟩

theorem State.trainOn_boot : s.trainOn.boot = { s.boot with stage := if s.boot.halted then 4 else 6, carding := true } :=
  (congrArg State.boot s.trainOn_frame :)
theorem State.trainOn_dram : (s.trainOn.lock .dram).holder = VWord.of 3 :=
  (congrArg (fun u : State => u.dp.lockDram.holder) s.trainOn_frame :)
theorem State.trainOn_land : s.trainOn.land = s.land := (congrArg State.land s.trainOn_frame :)
theorem State.trainOn_events : s.trainOn.events = s.events := (congrArg State.events s.trainOn_frame :)
theorem State.trainOn_pathA : s.trainOn.pathA = s.pathA := (congrArg State.pathA s.trainOn_frame :)
theorem State.trainOn_pathB : s.trainOn.pathB = s.pathB := (congrArg State.pathB s.trainOn_frame :)
theorem State.trainOn_time : s.trainOn.time = s.time := (congrArg State.time s.trainOn_frame :)

theorem State.trainOn_bare : s.trainOn.bare = { s.bare with
    chans := s.trainOn.chans, dp := { s.dp with lockDram := s.trainOn.dp.lockDram }, boot := s.trainOn.boot } := by
  have h := s.trainOn_frame
  generalize s.trainOn = u at h ⊢
  rw [h]
  rfl

/-! ### Step 3 completes (R59, R62) -/

/-- What the completion of step 3 leaves, of a part whose channels are untrained. -/
structure State.stepFour (s t : State) : Prop where
  boot : t.boot = { s.boot with
    carding := s.dramFree, halted := decide (2 ≤ bankCount (s.freshBanks s.boot.badBanks))
    stage := if 2 ≤ bankCount (s.freshBanks s.boot.badBanks) then 4 else if s.dramFree then 6 else 5 }
  retired : t.land.retired = s.land.retired ||| s.boot.badBanks
  events : t.events = (s.countN Ev.lbankfail 0 (bankCount (s.freshBanks s.boot.badBanks))).events
  clocks : ∀ k, (t.ch k).phyClk = true
  states : ∀ k, (t.ch k).st = (if s.dramFree = true ∧ s.boot.straps.boottrn = true ∧ k = 0 then .drain else .untrained)
  takes : s.dramFree = true → (t.lock .dram).holder = VWord.of 3 ∧ ∀ k, (t.ch k).resetN = true ∧ (t.ch k).setB = false ∧
    (t.ch k).freq = none ∧ (t.ch k).sweeping = (if s.boot.straps.boottrn = true ∧ k = 0 then some .boot else none)
  waits : s.dramFree = false → t.dp.lockDram = s.dp.lockDram ∧ ∀ k, t.ch k = { s.ch k with phyClk := true }
  frame : t.bare = ({ s with
    boot := t.boot, dp := { s.dp with lockDram := t.dp.lockDram }, land := t.land, events := t.events, chans := t.chans } :
    State).bare
  reads : t.pathA = s.pathA ∧ t.pathB = s.pathB ∧ t.time = s.time

/-- Step 4 of a part whose channels are untrained, before steps 5 and 6. -/
structure State.stepFourOn (s w : State) : Prop where
  boot : w.boot = { s.boot with
    halted := decide (2 ≤ bankCount (s.freshBanks s.boot.badBanks))
    stage := if 2 ≤ bankCount (s.freshBanks s.boot.badBanks) then 4 else 5 }
  dp : w.dp = s.dp
  retired : w.land.retired = s.land.retired ||| s.boot.badBanks
  events : w.events = (s.countN Ev.lbankfail 0 (bankCount (s.freshBanks s.boot.badBanks))).events
  channels : ∀ k, w.ch k = { s.ch k with phyClk := true }
  frame : w.bare = { s.bare with boot := w.boot, land := w.land, events := w.events, chans := w.chans }
  reads : w.pathA = s.pathA ∧ w.pathB = s.pathB ∧ w.time = s.time

theorem State.bootOn_stepFourOn : s.stepFourOn s.bootOn.scaleAll := by
  have hon := s.bootOn_frame
  have hret : s.bootOn.land.retired = s.land.retired ||| s.boot.badBanks := s.clocksOn.landTest_retired _
  generalize s.bootOn = w at hon hret ⊢
  refine ⟨?_, ?_, ?_, ?_, fun k => ?_, ?_, ?_⟩
  · rw [State.scaleAll_boot, hon]
  · rw [State.scaleAll_dp, hon]
    rfl
  · rw [State.scaleAll_land, hret]
  · rw [State.scaleAll_events, hon]
  · rw [State.scaleAll_ch]
    exact State.ch_of_vmap (s := s) (g := fun x => { x with phyClk := true }) (congrArg State.chans hon :)
  · rw [State.scaleAll_bare, State.scaleAll_boot, State.scaleAll_land, State.scaleAll_events, State.scaleAll_chans, hon]
    rfl
  · rw [State.scaleAll_pathA, State.scaleAll_pathB, State.scaleAll_time, hon]
    exact ⟨rfl, rfl, rfl⟩

theorem State.stepFourOn.mayTrain {s w : State} (h : s.stepFourOn w) (hpow : s.powered = true) (href : s.time.refclk = true)
    (hfatal : s.dp.fatal = false) (hcarding : s.boot.carding = false) (htrained : s.boot.trained = false) :
    w.mayTrain = s.dramFree := by
  obtain ⟨hboot, hdp, -, -, -, -, -, -, htime⟩ := h
  have hfour : 4 ≤ w.boot.stage := by
    rw [hboot]
    dsimp only
    split <;> omega
  have hpow' : w.powered = true := by
    rw [State.powered, State.supplied, hboot]
    exact hpow
  have hno : w.boot.carding = false ∧ w.boot.trained = false := by
    rw [hboot]
    exact ⟨hcarding, htrained⟩
  have hfree : w.dramFree = s.dramFree := by simp only [State.dramFree, State.lock, hdp]
  have hthree : 3 ≤ w.boot.stage := by omega
  simp [State.mayTrain, State.cardingOn, State.bootWaits, hpow', hthree, hdp, hfatal, htime, href, hfour, hno, hfree]

theorem State.stepFourOn.bootTrain {s w : State} (h : s.stepFourOn w) (hmay : w.mayTrain = s.dramFree)
    (hcarding : s.boot.carding = false) (hch : ∀ c, (s.ch c).st = .untrained) : s.stepFour w.bootTrain := by
  obtain ⟨hboot, hdp, hret, hevents, hchans, hbare, hpathA, hpathB, htime⟩ := h
  cases hfree : s.dramFree with
  | true =>
    have hchan := w.trainOn_channels fun c => by
      rw [hchans]
      exact hch c
    have hstraps : w.boot.straps = s.boot.straps := by rw [hboot]
    rw [hstraps] at hchan
    rw [w.bootTrain_eq (hmay.trans hfree)]
    refine ⟨?_, ?_, ?_, fun k => ?_, fun k => ?_, fun _ => ⟨?_, fun k => ?_⟩, ?_, ?_, ?_⟩
    · rw [State.scaleAll_boot, State.trainOn_boot, hboot]
      simp [hfree]
    · rw [State.scaleAll_land, State.trainOn_land, hret]
    · rw [State.scaleAll_events, State.trainOn_events, hevents]
    · obtain ⟨-, -, -, -, hclk, -⟩ := hchan k
      rw [State.scaleAll_ch, hclk, hchans]
    · rw [State.scaleAll_ch, (hchan k).1]
      simp [hfree]
    · rw [State.scaleAll_lock, State.trainOn_dram]
    · obtain ⟨-, hsweep, hreset, hset, -, hfreq⟩ := hchan k
      rw [State.scaleAll_ch]
      exact ⟨hreset, hset, hfreq, hsweep⟩
    · simp [hfree]
    · rw [State.scaleAll_bare, State.scaleAll_boot, State.scaleAll_dp, State.scaleAll_land, State.scaleAll_events,
        State.scaleAll_chans, State.trainOn_bare, State.trainOn_land, State.trainOn_events, hbare, hdp]
      rfl
    · rw [State.scaleAll_pathA, State.scaleAll_pathB, State.scaleAll_time, State.trainOn_pathA, State.trainOn_pathB,
        State.trainOn_time]
      exact ⟨hpathA, hpathB, htime⟩
  | false =>
    rw [w.bootTrain_of_not (hmay.trans hfree)]
    refine ⟨?_, hret, hevents, fun k => by rw [hchans], fun k => ?_, fun h => ?_, fun _ => ⟨by rw [hdp], hchans⟩, ?_,
      hpathA, hpathB, htime⟩
    · rw [hboot, hfree, ← hcarding]
      simp [hcarding]
    · rw [hchans, if_neg (by simp [hfree])]
      exact hch k
    · rw [hfree] at h
      exact absurd h (by simp)
    · rw [hbare, hdp]
      rfl

theorem State.bootGo_stepFour (hpow : s.powered = true) (hstage : s.boot.stage = 3) (hsensed : s.boot.sensed = true)
    (href : s.time.refclk = true) (hfatal : s.dp.fatal = false) (hcarding : s.boot.carding = false)
    (htrained : s.boot.trained = false) (hch : ∀ c, (s.ch c).st = .untrained) : s.stepFour s.bootGo := by
  have hgo : s.bootGo = s.bootOn.scaleAll.bootTrain := if_pos (by simp [hpow, hstage, hsensed, href, hfatal])
  have hon := s.bootOn_stepFourOn
  rw [hgo]
  exact hon.bootTrain (hon.mayTrain hpow href hfatal hcarding htrained) hcarding hch

/-- The state at the end of step 3: the last of the sensors' conversions and of REFCLK has come. -/
def State.threeOver (s : State) (temp : Word) (v : Vector Word 4) : State :=
  { s with
    boot := { s.boot with sensed := true }, dp := { s.dp with temp := temp }, gov := { s.gov with tsens := v }
    time := { s.time with refclk := true } }

theorem State.threeOver_of_refclk (h : s.boot.sensed = true) : s.threeOver s.dp.temp s.gov.tsens = s.refOn :=
  congrArg (fun b => ({ s.refOn with boot := { s.boot with sensed := b } } : State)) h.symm

theorem State.threeOver_of_sensors (h : s.time.refclk = true) (t0 t1 t2 t3 : Int) :
    s.threeOver (s.sensed t0 t1 t2 t3).dp.temp (s.sensed t0 t1 t2 t3).gov.tsens = s.sensed t0 t1 t2 t3 :=
  congrArg (fun b => ({ s.sensed t0 t1 t2 t3 with time := { s.time with refclk := b } } : State)) h.symm

theorem State.sense_of_untrained (hpow : s.powered = true) (hstage : 3 ≤ s.boot.stage) {t0 t1 t2 t3 : Int}
    (h : ¬620 ≤ hottest t0 t1 t2 t3) (hch : ∀ c, (s.ch c).st = .untrained) : s.sense t0 t1 t2 t3 = s.sensed t0 t1 t2 t3 := by
  cases hwarm : s.boot.warm with
  | true =>
    rw [State.sense, if_neg (by simp [hpow, hstage])]
    exact (if_neg h).trans (if_pos (by simp [hwarm]))
  | false =>
    have hidle (c : YId) : (s.sensed t0 t1 t2 t3).senseChan c = s.sensed t0 t1 t2 t3 := by
      have hst : ((s.sensed t0 t1 t2 t3).ch c).st = .untrained := hch c
      exact State.senseChan_of_not _ (.inr (.inr (by simp [hst])))
    rw [s.sense_of_cool hpow hstage hwarm h, State.senseChans, hidle, hidle, ite_self]

/-- The two commands that may complete step 3 bring it to an end in one way. -/
theorem State.exec_stepThree {c : Instr} {t0 t1 t2 t3 : Int} (hpow : s.powered = true) (hstage : s.boot.stage = 3)
    (hch : ∀ c, (s.ch c).st = .untrained)
    (hcase : (c = .refclkReturn ∧ s.time.refclk = false ∧ s.boot.sensed = true) ∨
      (c = .sensorConversion t0 t1 t2 t3 ∧ s.time.refclk = true ∧ t0 < 620 ∧ t1 < 620 ∧ t2 < 620 ∧ t3 < 620)) :
    ∃ temp v, exec c s = .next (s.threeOver temp v).bootGo.answerReads := by
  rcases hcase with ⟨rfl, href, hsensed⟩ | ⟨rfl, href, h0, h1, h2, h3⟩
  · refine ⟨s.dp.temp, s.gov.tsens, congrArg (fun t : State => Host.Outcome.next t.answerReads) ?_⟩
    rw [s.threeOver_of_refclk hsensed, State.refReturn, if_neg (by simp [href])]
    exact (if_neg (by simpa [State.powered, State.supplied] using hpow)).trans (if_neg (show ¬3 < s.boot.stage by omega))
  · refine ⟨(s.sensed t0 t1 t2 t3).dp.temp, (s.sensed t0 t1 t2 t3).gov.tsens,
      congrArg (fun t : State => Host.Outcome.next t.bootGo.answerReads) ?_⟩
    rw [s.threeOver_of_sensors href t0 t1 t2 t3]
    refine s.sense_of_untrained hpow (by omega) (fun h => ?_) hch
    have := (fatalTemp_le_hottest t0 t1 t2 t3).1 h
    omega

/-! ### The last step of start-up and of a warm device reset (R69, R74) -/

theorem State.cardingFree_eq : s.cardingFree = { s with dp := { s.dp with
    lockDram := if (s.lock .dram).holder.val = 3 ∧ (∀ c, (s.ch c).sweeping = none) ∧ s.boot.carding = false then Lock.free
      else s.dp.lockDram } } := by
  have hall : (allY.all fun c => (s.ch c).sweeping.isNone) = true ↔ ∀ c, (s.ch c).sweeping = none := by
    simp [allY]
  unfold State.cardingFree
  simp only [hall, lockCarding, Bool.not_eq_true']
  split <;> rfl

theorem State.cardingFree_samePorts : s.samePorts s.cardingFree := fun n => by
  rw [s.cardingFree_eq]
  rfl

/-- The state with which the ports start, before their pins follow. -/
def State.readyOn (s : State) (b : Boot) (g : Gov) : State :=
  { s with boot := b, dp := { s.dp with ready := true, readySeen := true }, sampleTick := s.time.ticks, gov := g }

/-- The ports start: their pins alone follow. -/
def State.portsStart (s : State) : State := s.startAllPins.scaleAll

theorem State.portsStart_samePorts : s.samePorts s.portsStart := fun n => by
  rw [State.portsStart, State.scaleAll_po]
  exact s.startAllPins_samePorts n

theorem State.portsStart_flagsLow : s.portsStart.flagsLow := fun n => by
  rw [State.portsStart, State.scaleAll_po]
  exact s.startAllPins_low n

theorem State.portsStart_bare : s.portsStart.bare =
    ({ s with ports := s.portsStart.ports, freeCtr := s.portsStart.freeCtr } : State).bare := by
  rw [State.portsStart, State.scaleAll_bare, State.scaleAll_ports, State.scaleAll_freeCtr]
  exact congrArg State.bare s.startAllPins_frame

theorem State.portsStart_keeps : s.portsStart.boot = s.boot ∧ s.portsStart.dp = s.dp ∧ s.portsStart.gov = s.gov := by
  have h := s.startAllPins_frame
  rw [State.portsStart, State.scaleAll_boot, State.scaleAll_dp, State.scaleAll_gov]
  exact ⟨(congrArg State.boot h :), (congrArg State.dp h :), (congrArg State.gov h :)⟩

theorem State.portsStart_fatal (h : s.dp.fatal = true) (n : PId) : (s.portsStart.po n).pins = s.fatalPins n := by
  rw [State.portsStart, State.scaleAll_po]
  exact s.startAllPins_fatal h n

end Sys2Proof.Machine

open Sys2Proof Sys2Proof.Machine

/-- Settles O8: the steps of start-up one by one, then what ends it and a warm device reset. -/
theorem startUpAndResetsComplete : Obligations.StartUpAndResetsComplete := by
  refine ⟨fun s => ⟨fun st bad hporst => ⟨fun hs => ?_, fun hs => ?_⟩, fun x hporst hs hx => ?_, fun x hs hx => ?_, ?_, ?_⟩,
    fun s hpow => ⟨fun hfatal hstage => ?_, fun hwarm hhalted href hfatal => ?_,
      fun hwarm hhalted href hfatal hwarmed hf hc hm hch => ?_⟩⟩
  · exact ⟨_, congrArg Host.Outcome.next (if_neg (by simp [hporst])), State.bootRun_bare _ hs rfl⟩
  · refine congrArg Host.Outcome.next ((if_neg (by simp [hporst])).trans (State.bootRun_of_not _ (.inl hs)))
  · exact ⟨_, congrArg Host.Outcome.next (if_neg (by simp [hs])), State.bootRun_bare _ hx hporst⟩
  · refine congrArg Host.Outcome.next ((if_neg (by simp [hs])).trans (State.bootRun_of_not _ ?_))
    exact hx.symm.imp_right fun h => h
  · intro c t0 t1 t2 t3 hpow hstage hfatal hcarding htrained hreads hwf hch hcase
    obtain ⟨temp, v, hexec⟩ := s.exec_stepThree hpow hstage hch hcase
    have hfour : (s.threeOver temp v).stepFour (s.threeOver temp v).bootGo :=
      State.bootGo_stepFour _ hpow hstage rfl rfl hfatal hcarding htrained hch
    generalize (s.threeOver temp v).bootGo = t at hexec hfour
    obtain ⟨hboot, hret, hev, hclk, hst, htakes, hwaits, hframe, hpathA, hpathB, htime⟩ := hfour
    rw [t.answerReads_of_noReads (State.noReads_congr hpathA hpathB hreads)] at hexec
    refine ⟨t, hexec, ⟨hboot, hret, ?_, fun k => ⟨hclk k, hst k⟩, fun hfree => ?_, hwaits⟩, ?_, ?_⟩
    · exact State.counted_of_events _ hwf (hev.trans (State.countN_events_congr (s := s) (t := s.threeOver temp v) rfl _ _ _))
    · obtain ⟨hlock, hch'⟩ := htakes hfree
      refine ⟨hlock, ?_, ?_, fun k => ?_⟩
      · obtain ⟨-, -, -, hsweep⟩ := hch' 1
        rw [hsweep]
        simp
      · obtain ⟨-, -, -, hsweep⟩ := hch' 0
        rw [hsweep]
        simp [State.threeOver]
      · obtain ⟨hreset, hset, hfreq, -⟩ := hch' k
        exact ⟨hreset, by rw [Chan.phyOn, hclk, hfreq]; rfl, hset⟩
    · rw [htime]
      rfl
    · have htemp : t.dp.temp = temp := (congrArg (fun u : State => u.dp.temp) hframe :)
      have htsens : t.gov.tsens = v := (congrArg (fun u : State => u.gov.tsens) hframe :)
      rw [htemp, htsens]
      exact hframe
  · intro p hw href hwaits hl hown hch
    obtain ⟨u, hu, hexec⟩ := s.exec_lockWrite hw hl 0
    have hholder : (s.lock .dram).holder.val = lockCode p := beq_iff_eq.1 hown
    rw [if_neg fun h => lockCode_ne_zero p h.1.symm, if_pos ⟨rfl, hholder⟩] at hexec
    have hboot : (u.freeLock .dram).boot = s.boot := by
      rw [State.freeLock_boot]
      obtain ⟨⟨_, _, rfl⟩, -⟩ := hu
      rfl
    have hchans (c : YId) : (u.freeLock .dram).ch c = s.ch c := by
      obtain ⟨⟨_, _, rfl⟩, -⟩ := hu
      rfl
    have hmay := hu.freeDram_mayTrain hw hwaits href
    generalize u.freeLock .dram = v at hexec hboot hchans hmay
    have hon := v.trainOn_channels fun c => by
      rw [hchans]
      exact hch c
    rw [v.bootTrain_eq hmay] at hexec
    rw [hboot] at hon
    refine ⟨_, hexec, ?_, ?_, ?_, ?_, fun k => ?_⟩
    · rw [State.scaleAll_lock, State.trainOn_dram]
    · rw [State.scaleAll_boot, State.trainOn_boot, hboot]
    · obtain ⟨-, hsweep, -⟩ := hon 1
      rw [State.scaleAll_ch, hsweep]
      simp
    · obtain ⟨-, hsweep, -⟩ := hon 0
      rw [State.scaleAll_ch, hsweep]
      simp
    · obtain ⟨hst, -, hreset, hset, -⟩ := hon k
      rw [State.scaleAll_ch]
      exact ⟨hreset, hset, hst⟩
  · let u := s.readyOn { s.boot with stage := 8 } s.gov
    have hexec : exec .startupComplete s = .next u.cardingFree.portsStart :=
      congrArg Host.Outcome.next (if_pos (by simp [hpow, hfatal, hstage]))
    refine ⟨_, hexec, State.samePorts.trans (u.cardingFree_samePorts) (State.portsStart_samePorts _),
      State.portsStart_flagsLow _, ?_⟩
    rw [State.portsStart_bare]
    exact congrArg (fun t : State => ({ t with
      ports := u.cardingFree.portsStart.ports, freeCtr := u.cardingFree.portsStart.freeCtr } : State).bare) u.cardingFree_eq
  · let u := s.readyOn { s.boot with warm := false } s.gov
    have hresume : u.govResume = u := if_pos hfatal
    have hexec : exec .warmResetComplete s = .next u.govResume.cardingFree.portsStart :=
      congrArg Host.Outcome.next (if_pos (by simp [hpow, hwarm, hhalted, href, State.warmReady, hfatal]))
    rw [hresume] at hexec
    have hsame : s.samePorts u.cardingFree := u.cardingFree_samePorts
    have hfree := u.cardingFree_eq
    have hfatal' : u.cardingFree.dp.fatal = true := (congrArg (fun t : State => t.dp.fatal) hfree).trans hfatal
    obtain ⟨kboot, kdp, kgov⟩ := u.cardingFree.portsStart_keeps
    refine ⟨_, hexec, hsame.trans (State.portsStart_samePorts _), fun n => ?_, ?_, ?_, ?_⟩
    · rw [State.portsStart_fatal _ hfatal', State.fatalPins_of_samePorts hsame]
    · exact kgov.trans (congrArg State.gov hfree :)
    · exact kdp.trans (congrArg State.dp hfree :)
    · exact kboot.trans (congrArg State.boot hfree :)
  · let v := s.readyOn { s.boot with warm := false } s.gov
    let u := s.readyOn { s.boot with warm := false } { s.gov.renew with acc8 := 0, tick := s.time.ticks }
    have hrenew : v.govRenew = { v with gov := v.gov.renew } := State.govRenew_of_agrees _ hf hc hm
    have hresume : v.govResume = u := by
      refine (if_neg (show ¬s.dp.fatal = true by simp [hfatal])).trans ?_
      rw [hrenew]
      rfl
    have hready : s.warmReady = true := by
      have hall (c : YId) : (s.ch c).warmed = true := by
        obtain ⟨hsweep, hwait, hno, hmust⟩ := hch c
        simp [Chan.warmed, hsweep, hwait, hno, hmust]
      simp [State.warmReady, hwarmed, hall]
    have hexec : exec .warmResetComplete s = .next v.govResume.cardingFree.portsStart :=
      congrArg Host.Outcome.next (if_pos (by simp [hpow, hwarm, hhalted, href, hready]))
    rw [hresume] at hexec
    refine ⟨_, hexec, State.samePorts.trans (u.cardingFree_samePorts) (State.portsStart_samePorts _),
      State.portsStart_flagsLow _, ?_⟩
    rw [State.portsStart_bare]
    have hfree := u.cardingFree_eq
    have hsweeps : ∀ c, (u.ch c).sweeping = none := fun c => (hch c).1
    simp only [hsweeps, implies_true, true_and] at hfree
    exact congrArg (fun t : State => ({ t with
      ports := u.cardingFree.portsStart.ports, freeCtr := u.cardingFree.portsStart.freeCtr } : State).bare) hfree
end

section
/-!
SUPPORT. What moves between the ports and the queues: staged words that drain, and staves that are committed.
-/

-- The theorems one after another: side by side they take more threads than the check allows.
set_option Elab.async false

namespace Sys2Proof.Machine

variable (s : State)

/-! ### Words that move on at the ports (R99, R112) -/

/-- `t` is `s` with ports, queues and channels changed, of a queue neither what has been written and read nor the map. -/
structure State.Moves (s t : State) : Prop where
  frame : t = { s with ports := t.ports, queues := t.queues, chans := t.chans }
  queue : ∀ q, (s.qu q).Sheds (t.qu q)

theorem State.moves_refl : s.Moves s := ⟨rfl, fun q => (s.qu q).sheds_refl⟩

theorem State.Moves.trans {s t u : State} (h : s.Moves t) (k : t.Moves u) : s.Moves u where
  frame := k.frame.trans (congrArg (fun v : State => { v with ports := u.ports, queues := u.queues, chans := u.chans }) h.frame)
  queue q := (h.queue q).trans (k.queue q)

theorem State.Sheds.moves {s t : State} (h : s.Sheds t) : s.Moves t where
  frame := by
    have hframe := h.frame
    have hports : t.ports = s.ports := (congrArg State.ports hframe :)
    rw [hports]
    exact hframe
  queue := h.queue

theorem State.moves_setPo (n : PId) (x : Port) : s.Moves (s.setPo n x) := ⟨rfl, fun q => (s.qu q).sheds_refl⟩
theorem State.moves_modPo (n : PId) (f : Port → Port) : s.Moves (s.modPo n f) := s.moves_setPo n _

theorem State.sheds_scale (q : QId) : s.Sheds (s.scale q) := s.sheds_setQu ⟨rfl, rfl, rfl, rfl, fun b hb => ⟨b, hb, rfl, id⟩⟩

theorem State.moves_fold {α : Type} {f : State → α → State} (hf : ∀ (t : State) a, t.Moves (f t a)) (l : List α) :
    s.Moves (l.foldl f s) :=
  List.foldlRecOn (motive := fun t => s.Moves t) l f s.moves_refl fun t ht a _ => ht.trans (hf t a)

theorem State.moves_scaleAll : s.Moves s.scaleAll := s.moves_fold (fun t q => (t.sheds_scale q).moves) allQ

theorem Queue.sheds_fillBark (x : Queue) (b : Int) (vs : List Slot9) : x.Sheds (x.fillBark b vs) :=
  ⟨rfl, rfl, rfl, rfl, fun b hb => ⟨b, hb, rfl, id⟩⟩

theorem Queue.sheds_closeSeg (x : Queue) (q : QId) (b : Bark) : x.Sheds (x.closeSeg q b) := by
  unfold Queue.closeSeg
  split
  · exact ⟨rfl, rfl, rfl, rfl, fun b hb => ⟨b, hb, rfl, id⟩⟩
  · exact x.sheds_refl

theorem State.sheds_closeNow (q : QId) (b : Bark) : s.Sheds (s.closeNow q b) := by
  refine State.Sheds.trans (s.sheds_setQu ?_) ((State.sheds_jumpLost _ q).trans (State.sheds_scale _ q))
  dsimp only
  split
  · refine Queue.Sheds.trans ?_ (Queue.sheds_closeSeg _ q b)
    exact ⟨rfl, rfl, rfl, rfl, fun b hb => ⟨b, hb, rfl, id⟩⟩
  · exact (s.qu q).sheds_refl

theorem State.moves_endSeg (n : PId) (c : CurSeg) (q : QId) (trunc : Bool) : s.Moves (s.endSeg n c q trunc) := by
  unfold State.endSeg
  dsimp only
  split
  · split
    · exact s.moves_setPo n _
    · exact (s.moves_setPo n _).trans (State.sheds_closeNow _ q _).moves
  · exact s.moves_setPo n _

theorem State.drainOne_moves {n : PId} {t : State} (h : s.drainOne n = some t) : s.Moves t := by
  unfold State.drainOne at h
  dsimp only at h
  split at h
  · cases h
  · split at h
    · cases h
      exact s.moves_setPo n _
    · split at h
      · cases h
      · split at h
        · cases h
          exact s.moves_setPo n _
        · split at h
          · cases h
          · split at h <;> cases h <;> exact s.moves_setPo n _
      · split at h
        · cases h
          exact s.moves_setPo n _
        · split at h
          · cases h
            exact (s.moves_setPo n _).trans (State.moves_modPo _ n _)
          · cases h
            exact (s.moves_setPo n _).trans (State.moves_endSeg _ n _ _ _)
    · cases h

theorem State.drainN_moves (k : Nat) (n : PId) : s.Moves (s.drainN k n) := by
  induction k generalizing s with
  | zero => exact s.moves_refl
  | succ k ih =>
    rw [State.drainN]
    split
    · exact s.moves_refl
    next h => exact (s.drainOne_moves h).trans (ih _)

theorem State.drain_moves (n : PId) : s.Moves (s.drain n) := s.drainN_moves _ n

theorem State.drainAll_moves : s.Moves s.drainAll := s.moves_fold (fun t n => t.drain_moves n) allP

theorem State.drain_of_stuck {n : PId} (h : s.drainOne n = none) : s.drain n = s := by
  unfold State.drain
  cases (s.po n).staging.length with
  | zero => rfl
  | succ k => rw [State.drainN, h]

/-- Where nothing staged can move, nothing does. -/
theorem State.drainAll_of_stuck (h : ∀ n, s.drainOne n = none) : s.drainAll = s :=
  List.foldlRecOn (motive := fun t => t = s) allP State.drain rfl fun t ht n _ => by
    rw [ht]
    exact s.drain_of_stuck (h n)

/-! ### A committed stave (R123, R125, R194) -/

/-- A queue with the slots of a stave committed at W, `start` being W before. -/
def Queue.committed (x : Queue) (d : DoneStave) (q : QId) (start : Pos) : Queue :=
  let x := x.push d.slots (d.last.isSome || d.flush)
  if d.segment then
    let x := x.addSeg d start
    match d.last with
    | some b => x.closeSeg q b
    | none => x
  else x

theorem State.commitDone_eq (d : DoneStave) : s.commitDone d =
    (((((s.demand 8).modQu d.q fun x => x.committed d d.q (s.qu d.q).w).checkParity d.q
      (if d.segment && d.first then d.slots.drop 24 else d.slots)).jumpLost d.q).scale d.q) := rfl

theorem Queue.committed_shape (x : Queue) (d : DoneStave) (q : QId) (start : Pos) :
    (x.committed d q start).shape = (x.push d.slots (d.last.isSome || d.flush)).shape := by
  unfold Queue.committed
  dsimp only
  split
  · split
    · rw [Queue.closeSeg_shape, Queue.addSeg_shape]
    · rw [Queue.addSeg_shape]
  · rfl

theorem Queue.committed_counts (x : Queue) (d : DoneStave) (q : QId) (start : Pos) :
    (x.committed d q start).w = x.w + BitVec.ofNat 48 d.slots.length ∧
    (x.committed d q start).wcnt = x.wcnt + BitVec.ofNat 48 d.slots.length ∧ (x.committed d q start).rcnt = x.rcnt := by
  have h := (x.committed_shape d q start).trans (x.push_shape d.slots _)
  exact ⟨congrArg Queue.Shape.w h, congrArg Queue.Shape.wcnt h, congrArg Queue.Shape.rcnt h⟩

theorem Queue.committed_of_stream (x : Queue) {d : DoneStave} (h : d.segment = false) (q : QId) (start : Pos) :
    x.committed d q start = x.push d.slots (d.last.isSome || d.flush) := if_neg (by simp [h])

theorem Queue.foldSetEcc_keeps (l : List Nat) (e : StaveEcc) (x : Queue) :
    ∃ t, l.foldl (fun y st => y.setEcc st e) x = { x with ecc := t } :=
  List.foldlRecOn (motive := fun y : Queue => ∃ t, y = { x with ecc := t }) l _ ⟨x.ecc, rfl⟩ fun y hy st _ => by
    obtain ⟨t, rfl⟩ := hy
    exact ⟨_, rfl⟩

theorem Queue.push_held (x : Queue) (vs : List Slot9) (cut : Bool) :
    (x.push vs cut).held = x.held ++ vs ∧ (x.push vs cut).tailCut = cut ∧ (x.push vs cut).mmode = x.mmode := by
  obtain ⟨t, ht⟩ := Queue.foldSetEcc_keeps (x.newStaves vs.length) StaveEcc.clean x
  unfold Queue.push
  rw [ht]
  exact ⟨rfl, rfl, rfl⟩

theorem Queue.push_noLost {x : Queue} (h : x.noLost) (vs : List Slot9) (cut : Bool) : (x.push vs cut).noLost := by
  obtain ⟨t, ht⟩ := Queue.foldSetEcc_keeps (x.newStaves vs.length) StaveEcc.clean x
  unfold Queue.push
  rw [ht]
  intro b hb
  rcases List.mem_append.1 hb with hb | hb
  · exact h b hb
  · obtain ⟨i, -, rfl⟩ := List.mem_map.1 hb
    rfl

theorem State.checkParity_eq (q : QId) (vs : List Slot9) : s.checkParity q vs =
    s.countN Ev.qparity q.val (if (s.qu q).mmode = false ∧ ∃ v ∈ vs, slotOdd v = false then 1 else 0) := by
  unfold State.checkParity
  by_cases h : (s.qu q).mmode = false ∧ ∃ v ∈ vs, slotOdd v = false
  · rw [if_pos h, if_pos (by simpa using h)]
    rfl
  · rw [if_neg h, if_neg (by simpa using h)]
    rfl

/-- The state in which a stave is committed, before the parity check, jumps past lost billets and the evaluation. -/
def State.pushed (s : State) (d : DoneStave) : State :=
  (s.demand 8).modQu d.q fun x => x.committed d d.q (s.qu d.q).w

/-- The slots that the parity check of a commit reads: not those of a bark header (R125). -/
def DoneStave.checked (d : DoneStave) : List Slot9 := if d.segment && d.first then d.slots.drop 24 else d.slots

/-- A commit, seen from outside its queue. -/
structure State.Commits (s t : State) (d : DoneStave) : Prop where
  frame : t = { s with
    queues := t.queues, chans := t.chans, events := t.events, gov := { s.gov with acc8 := s.gov.acc8 + 8 }
    order := s.order + 1 }
  counts : (t.qu d.q).w = (s.qu d.q).w + BitVec.ofNat 48 d.slots.length ∧
    (t.qu d.q).wcnt = (s.qu d.q).wcnt + BitVec.ofNat 48 d.slots.length ∧ (t.qu d.q).rcnt = (s.qu d.q).rcnt
  others : ∀ k, k ≠ d.q → t.qu k = s.qu k
  events : t.events = ((s.pushed d).checkParity d.q d.checked).events

theorem State.pushed_qu (d : DoneStave) : (s.pushed d).qu d.q = (s.qu d.q).committed d d.q (s.qu d.q).w :=
  State.modQu_qu _ _ _

theorem State.checkParity_keeps (q : QId) (vs : List Slot9) :
    s.checkParity q vs = { s with events := (s.checkParity q vs).events } := by
  rw [State.checkParity_eq, State.countN]
  split <;> rfl

theorem State.commitDone_commits (d : DoneStave) : s.Commits (s.commitDone d) d := by
  have hparity := (s.pushed d).checkParity_keeps d.q d.checked
  have hsheds := ((s.pushed d).checkParity d.q d.checked).sheds_jumpLost d.q
  have hqu (k : QId) : ((s.pushed d).checkParity d.q d.checked).qu k = (s.pushed d).qu k := by rw [hparity]; rfl
  have hne (k : QId) (hk : k ≠ d.q) : (((s.pushed d).checkParity d.q d.checked).jumpLost d.q).qu k = s.qu k := by
    refine (State.jumpN_qu_ne _ _ hk).trans ((hqu k).trans ?_)
    exact (s.demand 8).modQu_qu_ne d.q k _ hk
  have heq : s.commitDone d = (((s.pushed d).checkParity d.q d.checked).jumpLost d.q).scale d.q := rfl
  have hpushed := (s.qu d.q).committed_counts d d.q (s.qu d.q).w
  rw [← s.pushed_qu, ← hqu] at hpushed
  have hev : (((s.pushed d).checkParity d.q d.checked).jumpLost d.q).events =
    ((s.pushed d).checkParity d.q d.checked).events := (congrArg State.events hsheds.frame :)
  have hframe := hsheds.frame
  rw [heq]
  generalize ((s.pushed d).checkParity d.q d.checked).jumpLost d.q = v at hsheds hne hev hframe
  generalize hu : (s.pushed d).checkParity d.q d.checked = u at hparity hsheds hqu hev hframe hpushed
  refine ⟨?_, ?_, fun k hk => ?_, hev.trans (congrArg State.events hu.symm)⟩
  · have hevents : (v.scale d.q).events = u.events := hev
    rw [hevents]
    calc v.scale d.q
      _ = { v with queues := (v.scale d.q).queues } := rfl
      _ = { u with queues := (v.scale d.q).queues, chans := v.chans } :=
        congrArg (fun w : State => { w with queues := (v.scale d.q).queues }) hframe
      _ = _ := congrArg (fun w : State => { w with queues := (v.scale d.q).queues, chans := v.chans }) hparity
  · obtain ⟨hw, hwcnt, hrcnt⟩ := hpushed
    obtain ⟨kw, kwcnt, krcnt, -, -⟩ := hsheds.queue d.q
    simp only [State.scale_qu_w, State.scale_qu_wcnt, State.scale_qu_rcnt]
    exact ⟨kw.trans hw, kwcnt.trans hwcnt, krcnt.trans hrcnt⟩
  · exact (v.setQu_qu_ne d.q k _ hk).trans (hne k hk)

/-- A commit that meets no lost billet: what the queue holds. -/
theorem State.commitDone_held {d : DoneStave} (hseg : d.segment = false) (h : (s.qu d.q).noLost) :
    ((s.commitDone d).qu d.q).held = (s.qu d.q).held ++ d.slots := by
  have hparity := (s.pushed d).checkParity_keeps d.q d.checked
  have hqu : ((s.pushed d).checkParity d.q d.checked).qu d.q = (s.qu d.q).push d.slots (d.last.isSome || d.flush) := by
    rw [hparity]
    exact (s.pushed_qu d).trans (Queue.committed_of_stream _ hseg _ _)
  have hlost := Queue.push_noLost h d.slots (d.last.isSome || d.flush)
  rw [← hqu] at hlost
  show ((((s.pushed d).checkParity d.q d.checked).jumpLost d.q).scale d.q |>.qu d.q).held = _
  rw [State.jumpLost_of_noLost _ hlost, State.scale_qu_held, hqu]
  exact (Queue.push_held _ _ _).1

/-- The parity check of a commit (R125). -/
theorem State.commitDone_counted {d : DoneStave} (hseg : d.segment = false) (hwf : s.eventsWf) :
    s.counted (s.commitDone d) Ev.qparity d.q.val
      (if (s.qu d.q).mmode = false ∧ ∃ v ∈ d.slots, slotOdd v = false then 1 else 0) := by
  have hmode : ((s.pushed d).qu d.q).mmode = (s.qu d.q).mmode := by
    rw [s.pushed_qu, Queue.committed_of_stream _ hseg]
    exact (Queue.push_held _ _ _).2.2
  have hchecked : d.checked = d.slots := if_neg (by simp [hseg])
  refine State.counted_of_events _ hwf ((s.commitDone_commits d).events.trans ?_)
  rw [State.checkParity_eq, hmode, hchecked]
  exact State.countN_events_congr (s := s) (t := s.pushed d) rfl _ _ _

/-- A port with a waiting stave gone to its queue. -/
def Port.gone (x : Port) (d : DoneStave) : Port := { x.returnCredit d.q with done := x.done.erase d }

theorem State.commitStave_eq (n : PId) (d : DoneStave) :
    s.commitStave n d = (s.setPo n ((s.po n).gone d)).commitDone d := rfl

theorem State.Commits.po {s t : State} {d : DoneStave} (h : s.Commits t d) (n : PId) : t.po n = s.po n := by
  rw [h.frame]
  rfl

/-- A stave that waits at the head of its port and may go is the next one. -/
theorem State.nextDone_of_head {n : PId} {d : DoneStave} {rest : List DoneStave} (h : (s.po n).done = d :: rest)
    (hd : s.mayCommit n d = true) : s.nextDone n = some d := by
  rw [State.nextDone, h, firstFree, if_pos (by simp [hd])]

theorem State.execStaveCommit_eq {n : PId} (hrun : s.running = true) (hreset : (s.po n).resetting = false) :
    exec (.staveCommit n) s = .next (s.commitNext n).drainAll.scaleAll :=
  congrArg Host.Outcome.next (if_pos (by simp [hrun, hreset]))

theorem State.execCreditGrant_eq (n : PId) (q : QId) : exec (.creditGrant n q) s = .next (if s.mayGrant n q then
    ((s.modPo n fun x => { x with held := x.held.set q.val (x.held[q.val] + 1) }).drain n).scaleAll else s) := rfl

theorem State.drain_of_unstaged {n : PId} (h : (s.po n).staging = []) : s.drain n = s := by
  rw [State.drain, h]
  rfl

end Sys2Proof.Machine

open Sys2Proof Sys2Proof.Machine

/-- Settles O20: a commit by what it does to its queue and to its port, with what moves on behind it; a grant by its guard. -/
theorem stavesAndCredits : Obligations.StavesAndCredits := by
  refine ⟨fun n d rest s hrun hreset => ⟨fun hdone hmay => ?_, fun hnone hstuck => ?_⟩, fun n q s =>
    ⟨fun htakes hen hres hlimit hblocks hfree => ?_, fun h => ?_⟩⟩
  · have hexec := s.execStaveCommit_eq hrun hreset
    have hnext : s.commitNext n = s.commitStave n d := by rw [State.commitNext, s.nextDone_of_head hdone hmay]
    have hcommits : (s.setPo n ((s.po n).gone d)).Commits (s.commitStave n d) d := State.commitDone_commits _ d
    have hmoves := (s.commitStave n d).drainAll_moves
    obtain ⟨hw, hwcnt, hrcnt⟩ := hcommits.counts
    rw [hnext] at hexec
    refine ⟨_, hexec, ?_, ?_, fun q => ?_, fun q hq => ?_, ?_, fun hstuck => ?_⟩
    · rw [State.scaleAll_qu_w, (hmoves.queue d.q).w]
      exact hw
    · rw [State.scaleAll_qu_wcnt, (hmoves.queue d.q).wcnt]
      exact hwcnt
    · rw [State.scaleAll_qu_rcnt, (hmoves.queue q).rcnt]
      by_cases hq : q = d.q
      · rw [hq]
        exact hrcnt
      · exact (congrArg Queue.rcnt (hcommits.others q hq) :)
    · rw [State.scaleAll_qu_w, State.scaleAll_qu_wcnt, (hmoves.queue q).w, (hmoves.queue q).wcnt]
      have hqu : (s.commitStave n d).qu q = s.qu q := hcommits.others q hq
      rw [hqu]
      exact ⟨rfl, rfl⟩
    · rw [State.scaleAll_gov, (congrArg State.gov hmoves.frame :)]
      exact (congrArg (fun u : State => u.gov.acc8) hcommits.frame :)
    · have hall := State.drainAll_of_stuck _ hstuck
      rw [hall]
      refine ⟨?_, fun m hm => ?_, fun k hk => ?_, fun hseg hlost => ?_, fun hseg hwf => ?_, ?_⟩
      · rw [State.scaleAll_po, hcommits.po, State.setPo_po, Port.gone, hdone, List.erase_cons_head]
        rfl
      · rw [State.scaleAll_po, hcommits.po, s.setPo_po_ne n m _ hm]
      · rw [State.scaleAll_qu_bare, hcommits.others k hk]
        rfl
      · rw [State.scaleAll_qu_held]
        exact State.commitDone_held _ hseg hlost
      · exact (State.commitDone_counted (s.setPo n ((s.po n).gone d)) hseg hwf).congr (State.scaleAll_events _)
      · have hframe := hcommits.frame
        have hgov : (s.commitStave n d).gov = { s.gov with acc8 := s.gov.acc8 + 8 } := (congrArg State.gov hframe :)
        have hscaled := (s.commitStave n d).moves_scaleAll.frame
        rw [State.scaleAll_events, State.scaleAll_gov, hgov]
        generalize s.commitStave n d = v at hframe hscaled
        refine congrArg State.bare (hscaled.trans ?_)
        exact congrArg (fun u : State => { u with
          ports := v.scaleAll.ports, queues := v.scaleAll.queues, chans := v.scaleAll.chans }) hframe
  · have hnext : s.commitNext n = s := by rw [State.commitNext, hnone]
    refine ⟨_, s.execStaveCommit_eq hrun hreset, ?_⟩
    rw [State.scaleAll_bare, hnext, s.drainAll_of_stuck hstuck]
  · refine ⟨_, (s.execCreditGrant_eq n q).trans (congrArg Host.Outcome.next (if_pos ?_)), ?_⟩
    · simp [State.mayGrant, htakes, hen, hres, hlimit, hblocks, hfree]
    · intro y
      rw [State.scaleAll_bare]
      refine ⟨rfl, fun hstaging => ?_⟩
      have hidle : ((s.setPo n y).po n).staging = [] := by
        rw [State.setPo_po]
        exact hstaging
      exact congrArg State.bare ((s.setPo n y).drain_of_unstaged hidle)
  · refine (s.execCreditGrant_eq n q).trans (congrArg Host.Outcome.next (if_neg fun hgrant => ?_))
    simp only [State.mayGrant, Bool.and_eq_true, Bool.not_eq_true', decide_eq_true_eq] at hgrant
    obtain ⟨⟨⟨⟨⟨htakes, hen⟩, hres⟩, hlimit⟩, hblocks⟩, hfree⟩ := hgrant
    rcases h with h | h | h | h | h | h
    · simp [htakes] at h
    · simp [hen] at h
    · simp [hres] at h
    · omega
    · simp [hblocks] at h
    · omega
end

section
/-!
SUPPORT, O24, O22, O23 and O25. A write of Qn:QCTL as the queue takes it.
-/

-- The theorems one after another: side by side they take more threads than the check allows.
set_option Elab.async false

namespace Sys2Proof.Machine

variable (s : State)

/-! ### Qn:QCTL (R445) -/

/-- A write of Qn:QCTL needs no lock; the path's own part of it comes first. -/
theorem State.rowQctl_of_hostWrites {p : Path} (h : s.hostWrites p) (q : QId) (v : Word) :
    ∃ u, s.pathFrame u ∧ s.rowQctl p q v = u.qctl ⟨p, 64, (Bank.queue q).sel⟩ q v :=
  s.rowCommit_of_mayWrite (b := .queue q) (off := 0) ⟨h, rfl, fun _ hl => by simp [Bank.lockOf] at hl⟩ [v]

theorem State.qctlEn_same (acc : Access) (q : QId) : s.qctlEn acc q (s.qu q).en = s := by
  unfold State.qctlEn
  cases (s.qu q).en <;> simp

/-- A write that keeps EN and carries no RST: FLUSH, then the mark commands. -/
theorem State.qctl_of_en {acc : Access} {q : QId} {v : Word} (hen : bit v 0 = (s.qu q).en) (hrst : bit v 1 = false) :
    s.qctl acc q v = (if bit v 2 then s.flush q else s).qctlMarks q v := by
  have h := s.qctlEn_same acc q
  rw [← hen] at h
  unfold State.qctl
  dsimp only
  rw [h, hrst]
  rfl

theorem State.qctlMarks_of_none {q : QId} {v : Word} (h : bit v 4 = false ∧ bit v 5 = false ∧ bit v 6 = false) :
    s.qctlMarks q v = s := by
  obtain ⟨h4, h5, h6⟩ := h
  simp [State.qctlMarks, h4, h5, h6]

theorem bits_flush (en : Bool) : let v : Word := flagAt en 0 ||| 4
    bit v 0 = en ∧ bit v 1 = false ∧ bit v 2 = true ∧ bit v 4 = false ∧ bit v 5 = false ∧ bit v 6 = false := by
  cases en <;> decide

/-- A flush, as the queue takes it. -/
theorem State.exec_flush {p : Path} (h : s.hostWrites p) (q : QId) :
    ∃ u, s.pathFrame u ∧ exec (.flush p q (s.qu q).en) s = .next (u.flush q) := by
  obtain ⟨u, hu, hrow⟩ := s.rowQctl_of_hostWrites h q (flagAt (s.qu q).en 0 ||| 4)
  obtain ⟨b0, b1, b2, b456⟩ := bits_flush (s.qu q).en
  refine ⟨u, hu, congrArg Host.Outcome.next (hrow.trans ?_)⟩
  rw [u.qctl_of_en (b0.trans (by rw [hu.qu])) b1, if_pos b2, State.qctlMarks_of_none _ b456]

end Sys2Proof.Machine
end

section
/-!
O24. A flush of a queue.
-/

namespace Sys2Proof.Machine

variable (s : State)

/-- A fold in which one element alone does anything. -/
theorem foldl_single {α β : Type} {f : α → β → α} {a : α} {n : β} {l : List β} (hn : n ∈ l) (hl : l.Nodup)
    (hbefore : ∀ m ∈ l, m ≠ n → f a m = a) (hafter : ∀ m ∈ l, m ≠ n → f (f a n) m = f a n) : l.foldl f a = f a n := by
  induction l with
  | nil => simp at hn
  | cons m l ih =>
    obtain ⟨hm, hl⟩ := List.nodup_cons.1 hl
    rw [List.foldl_cons]
    by_cases h : m = n
    · subst h
      exact List.foldlRecOn (motive := fun b => b = f a m) l f rfl fun b hb k hk => by
        rw [hb]
        exact hafter k (List.mem_cons_of_mem _ hk) fun h => hm (h ▸ hk)
    · rw [hbefore m (List.mem_cons_self ..) h]
      exact ih ((List.mem_cons.1 hn).resolve_left (Ne.symm h)) hl (fun k hk => hbefore k (List.mem_cons_of_mem _ hk))
        fun k hk => hafter k (List.mem_cons_of_mem _ hk)

/-! ### The padded stave at its port (R99, R144) -/

/-- The padded stave that a flush makes of a partial one. -/
def State.flushStave (s : State) (q : QId) (n : PId) : DoneStave :=
  ⟨q, padTo (s.qWidth q) (s.po n).partials[q.val], false, false, none, true⟩

/-- A port whose partial stave of queue `q` has been padded and waits. -/
def Port.flushed (x : Port) (q : QId) (d : DoneStave) : Port :=
  { x with partials := x.partials.set q.val [], held := x.held.set q.val (x.held[q.val] - 1)
           spent := x.spent.set q.val (x.spent[q.val] + 1), done := x.done ++ [d] }

/-- The state in which the padded stave waits at its port. -/
def State.padded (s : State) (q : QId) (n : PId) : State :=
  (s.setPo n ((s.po n).flushed q (s.flushStave q n))).count Ev.flushpad q.val

theorem State.flushPort_of_empty {q : QId} {n : PId} (h : (s.po n).partials[q.val] = []) : s.flushPort q n = s := by
  unfold State.flushPort
  dsimp only
  rw [if_pos (by simp [h])]

theorem State.flushPort_of_partial {q : QId} {n : PId} (h : (s.po n).partials[q.val] ≠ []) : s.flushPort q n =
    (s.padded q n).commitWaiting ((s.po n).done.length + 1) n q := by
  unfold State.flushPort
  dsimp only
  rw [if_neg (by simpa using h), List.length_append]
  rfl

theorem State.padded_po (q : QId) (n m : PId) : (s.padded q n).po m =
    if m = n then (s.po n).flushed q (s.flushStave q n) else s.po m := by
  rw [State.padded, State.count, State.countN_po_frame]
  split
  next h => rw [h, State.setPo_po]
  next h => exact s.setPo_po_ne n m _ h

theorem Port.flushed_seg (x : Port) (q : QId) {d : DoneStave} (hd : d.segment = false) (k : QId) :
    (x.flushed q d).segBegun k = x.segBegun k ∧ (x.flushed q d).segOrder k = x.segOrder k ∧
    (x.flushed q d).segPart k = x.segPart k := by
  refine ⟨?_, rfl, ?_⟩
  · simp [Port.segBegun, Port.flushed, hd]
  · simp [Port.segPart, Port.flushed, hd]

theorem State.segBlocks_congr {s t : State} (n : PId) (q : QId) (h : ∀ m, (t.po m).segBegun q = (s.po m).segBegun q ∧
    (t.po m).segOrder q = (s.po m).segOrder q) : t.segBlocks n q = s.segBlocks n q := by
  have hbegun (m : PId) := (h m).1
  have horder (m : PId) := (h m).2
  simp only [State.segBlocks, hbegun, horder]

theorem State.padded_seg (q : QId) (n m : PId) :
    ((s.padded q n).po m).segBegun q = (s.po m).segBegun q ∧ ((s.padded q n).po m).segOrder q = (s.po m).segOrder q ∧
    ((s.padded q n).po m).segPart q = (s.po m).segPart q := by
  rw [s.padded_po]
  split
  next h =>
    rw [h]
    exact (s.po n).flushed_seg q rfl q
  next => exact ⟨rfl, rfl, rfl⟩

theorem State.padded_frame (q : QId) (n : PId) :
    s.padded q n = { s with ports := (s.padded q n).ports, events := (s.padded q n).events } := by
  unfold State.padded State.count State.countN
  rw [if_neg (by decide)]
  rfl

theorem State.padded_mayCommit (q : QId) (n : PId) : (s.padded q n).mayCommit n (s.flushStave q n) =
    (!s.segBlocks n q && !(s.po n).segPart q && s.frameFor q (padTo (s.qWidth q) (s.po n).partials[q.val]).length) := by
  have hblocks : (s.padded q n).segBlocks n q = s.segBlocks n q :=
    State.segBlocks_congr n q fun m => ⟨(s.padded_seg q n m).1, (s.padded_seg q n m).2.1⟩
  have hpart := (s.padded_seg q n n).2.2
  have hframe (k : Nat) : (s.padded q n).frameFor q k = s.frameFor q k := by
    rw [s.padded_frame]
    rfl
  simp only [State.mayCommit, State.flushStave, hblocks, hpart, hframe, Bool.false_or]

theorem firstFree_of_none {ok : DoneStave → Bool} {part : QId → Bool} {ds : List DoneStave} (h : ∀ d ∈ ds, ok d = false)
    (before : List DoneStave) : firstFree ok part before ds = none := by
  induction ds generalizing before with
  | nil => rfl
  | cons d ds ih =>
    rw [firstFree, if_neg (by simp [h d (by simp)])]
    exact ih (fun e he => h e (by simp [he])) _

/-- The last of a list goes where nothing before it is of its queue. -/
theorem firstFree_of_last {ok : DoneStave → Bool} {part : QId → Bool} {ds : List DoneStave} {d : DoneStave}
    (h : ∀ e ∈ ds, ok e = false ∧ e.q ≠ d.q) (hd : ok d = true) {before : List DoneStave} (hb : ∀ e ∈ before, e.q ≠ d.q) :
    firstFree ok part before (ds ++ [d]) = some d := by
  induction ds generalizing before with
  | nil =>
    have hall : before.all (fun e => e.q != d.q || (!e.segment && d.segment && part d.q)) = true :=
      List.all_eq_true.2 fun e he => by simp [hb e he]
    rw [List.nil_append, firstFree, hd, hall]
    rfl
  | cons e ds ih =>
    obtain ⟨he, hq⟩ := h e (by simp)
    rw [List.cons_append, firstFree, if_neg (by simp [he])]
    refine ih (fun x hx => h x (by simp [hx])) fun x hx => ?_
    rcases List.mem_append.1 hx with hx | hx
    · exact hb x hx
    · rw [List.mem_singleton.1 hx]
      exact hq

theorem State.padded_done (q : QId) (n : PId) : ((s.padded q n).po n).done = (s.po n).done ++ [s.flushStave q n] := by
  rw [s.padded_po, if_pos rfl]
  rfl

/-- A flush of one port, where no other stave of the queue waits there: the padded stave goes at once, or waits. -/
theorem State.flushPort_eq {q : QId} {n : PId} (h : (s.po n).partials[q.val] ≠ []) (hq : ∀ d ∈ (s.po n).done, d.q ≠ q) :
    s.flushPort q n = if (s.padded q n).mayCommit n (s.flushStave q n)
      then (s.padded q n).commitStave n (s.flushStave q n) else s.padded q n := by
  rw [s.flushPort_of_partial h, State.commitWaiting, s.padded_done]
  by_cases hmay : (s.padded q n).mayCommit n (s.flushStave q n) = true
  · rw [if_pos hmay, firstFree_of_last (d := s.flushStave q n) (fun e he => ⟨by simp [hq e he], hq e he⟩)
      (by simpa [State.flushStave] using hmay) (fun e he => by simp at he)]
    have hdone : (((s.padded q n).commitStave n (s.flushStave q n)).po n).done = (s.po n).done := by
      have hpo := (State.commitDone_commits ((s.padded q n).setPo n (((s.padded q n).po n).gone (s.flushStave q n)))
        (s.flushStave q n)).po n
      rw [State.commitStave_eq, hpo, State.setPo_po, Port.gone, s.padded_done]
      have hnot : s.flushStave q n ∉ (s.po n).done := fun hmem => hq _ hmem rfl
      show ((s.po n).done ++ [s.flushStave q n]).erase (s.flushStave q n) = _
      rw [List.erase_append_right _ hnot, List.erase_cons_head, List.append_nil]
    dsimp only
    cases (s.po n).done.length with
    | zero => rfl
    | succ k =>
      rw [State.commitWaiting, hdone, firstFree_of_none fun e he => by simp [hq e he]]
  · rw [if_neg hmay, firstFree_of_none fun e he => ?_]
    rcases List.mem_append.1 he with he | he
    · simp [hq e he]
    · rw [List.mem_singleton.1 he]
      rw [Bool.not_eq_true] at hmay
      simp [hmay]

theorem State.flush_eq {q : QId} {n : PId} (hne : ∀ m, m ≠ n → (s.po m).partials[q.val] = [])
    (hafter : ∀ m, m ≠ n → (s.flushPort q n).po m = s.po m) : s.flush q = (s.flushPort q n).scale q := by
  refine congrArg (fun t : State => t.scale q) (foldl_single (f := fun t m => State.flushPort t q m) (List.mem_finRange n)
    (List.nodup_finRange 4)
    (fun m _ hm => s.flushPort_of_empty (hne m hm)) fun m _ hm => State.flushPort_of_empty _ ?_)
  rw [hafter m hm]
  exact hne m hm

/-! ### A jump leaves where the tail of the queue is cut (R100) -/

theorem Queue.freePassed_tailCut (x : Queue) : x.freePassed.tailCut = x.tailCut := by
  unfold Queue.freePassed
  dsimp only
  split <;> rfl

theorem State.settle_tailCut (q : QId) : ((s.settle q).qu q).tailCut = (s.qu q).tailCut := by
  unfold State.settle
  extract_lets x h k n gone nums y x' nums' s'
  have hy : y.tailCut = x.tailCut := by
    dsimp only [y]
    split <;> rfl
  have hs' : (s'.qu q).tailCut = (s.qu q).tailCut := by
    rw [State.setQu_qu, Queue.freePassed_tailCut]
    exact hy
  split <;> exact hs'

theorem State.jumpN_tailCut (k : Nat) (q : QId) : ((s.jumpN k q).qu q).tailCut = (s.qu q).tailCut := by
  induction k generalizing s with
  | zero => rfl
  | succ k ih =>
    rw [State.jumpN]
    split
    · rfl
    next t _ =>
      rw [ih, State.settle_tailCut, State.modQu_qu, Queue.jump]
      dsimp only
      split <;> rfl

theorem State.commitDone_tailCut {d : DoneStave} (hseg : d.segment = false) :
    ((s.commitDone d).qu d.q).tailCut = (d.last.isSome || d.flush) := by
  have hparity := (s.pushed d).checkParity_keeps d.q d.checked
  have hqu : ((s.pushed d).checkParity d.q d.checked).qu d.q = (s.qu d.q).push d.slots (d.last.isSome || d.flush) := by
    rw [hparity]
    exact (s.pushed_qu d).trans (Queue.committed_of_stream _ hseg _ _)
  show ((((s.pushed d).checkParity d.q d.checked).jumpLost d.q).scale d.q |>.qu d.q).tailCut = _
  rw [State.scale_qu_tailCut, State.jumpLost, State.jumpN_tailCut, hqu]
  exact (Queue.push_held _ _ _).2.1

/-- A commit counts nothing where the queue carries M bits or no slot of the stave is of even parity (R125). -/
theorem State.commitDone_events_of_odd {d : DoneStave} (hseg : d.segment = false)
    (h : (s.qu d.q).mmode = true ∨ ∀ v ∈ d.slots, slotOdd v = true) : (s.commitDone d).events = s.events := by
  have hmode : ((s.pushed d).qu d.q).mmode = (s.qu d.q).mmode := by
    rw [s.pushed_qu, Queue.committed_of_stream _ hseg]
    exact (Queue.push_held _ _ _).2.2
  have hchecked : d.checked = d.slots := if_neg (by simp [hseg])
  rw [(s.commitDone_commits d).events, State.checkParity_eq, hmode, hchecked, if_neg]
  · rfl
  · rintro ⟨hm, v, hv, heven⟩
    rcases h with h | h
    · simp [h] at hm
    · simp [h v hv] at heven

/-- What the padded stave leaves of its port once it has gone. -/
theorem Port.flushed_gone {x : Port} {q : QId} {d : DoneStave} (hd : d.q = q) (h : ∀ e ∈ x.done, e.q ≠ q) :
    (x.flushed q d).gone d =
      { x with partials := x.partials.set q.val [], held := x.held.set q.val (x.held[q.val] - 1) } := by
  have hnot : d ∉ x.done := fun hmem => h d hmem hd
  have hdone : (x.done ++ [d]).erase d = x.done := by
    rw [List.erase_append_right _ hnot, List.erase_cons_head, List.append_nil]
  have hspent : (x.spent.set q.val (x.spent[q.val] + 1)).set q.val ((x.spent.set q.val (x.spent[q.val] + 1))[q.val] - 1) =
      x.spent := by
    simp
  subst hd
  simp only [Port.gone, Port.returnCredit, Port.flushed, hdone, hspent]

end Sys2Proof.Machine

open Sys2Proof Sys2Proof.Machine

/-- Settles O24: the padded stave goes at once where it may, else it waits at its port. -/
theorem flushCommits : Obligations.FlushCommits := by
  intro p q n s hw hpart hne hq
  obtain ⟨u, ⟨⟨x, y, rfl⟩, -⟩, hexec⟩ := s.exec_flush hw q
  intro v
  generalize hu : ({ s with pathA := x, pathB := y } : State) = u at hexec
  have hpo (m : PId) : u.po m = s.po m := by rw [← hu]; rfl
  have hqu (k : QId) : u.qu k = s.qu k := by rw [← hu]; rfl
  have hstave : u.flushStave q n = ⟨q, v, false, false, none, true⟩ := by rw [← hu]; rfl
  have hmay : (u.padded q n).mayCommit n (u.flushStave q n) =
      (!s.segBlocks n q && !(s.po n).segPart q && s.frameFor q v.length) := by
    rw [u.padded_mayCommit, ← hu]
    rfl
  have hev : u.events = s.events := by rw [← hu]
  have hport := u.flushPort_eq (by rw [hpo]; exact hpart) (by rw [hpo]; exact hq)
  have hpadded (m : PId) := u.padded_po q n m
  have hpaddedqu (k : QId) : (u.padded q n).qu k = s.qu k := by
    rw [u.padded_frame]
    exact hqu k
  have hpadev : (u.padded q n).events = (s.countN Ev.flushpad q.val 1).events :=
    State.countN_events_congr (s := s) (t := u.setPo n ((u.po n).flushed q (u.flushStave q n))) hev _ _ _
  rw [hstave] at hport hmay
  simp only [hstave, hpo] at hpadded
  refine ⟨fun hblocks hseg hframe => ?_, fun hno => ?_⟩
  · rw [if_pos (by rw [hmay]; simp [hblocks, hseg, hframe])] at hport
    generalize hw' : (u.padded q n) = w at hport hpadded hpaddedqu hpadev
    let d : DoneStave := ⟨q, v, false, false, none, true⟩
    let w' := w.setPo n ((w.po n).gone d)
    have hcommits : w'.Commits (w.commitStave n d) d := State.commitDone_commits _ d
    have hqu' (k : QId) : w'.qu k = s.qu k := hpaddedqu k
    have hafter (m : PId) (hm : m ≠ n) : (w.commitStave n d).po m = s.po m := by
      rw [hcommits.po, w.setPo_po_ne n m _ hm, hpadded, if_neg hm]
    have hflush := u.flush_eq (fun m hm => by rw [hpo]; exact hne m hm) fun m hm => by rw [hport, hpo]; exact hafter m hm
    rw [hflush, hport] at hexec
    obtain ⟨hw1, hw2, -⟩ := hcommits.counts
    rw [hqu'] at hw1 hw2
    refine ⟨_, hexec, ?_, hafter, ?_, ?_, ?_, fun hlost => ?_, fun hwf hodd => ?_, fun k hk => ?_⟩
    · rw [State.scale_po, hcommits.po, State.setPo_po, hpadded, if_pos rfl]
      exact Port.flushed_gone rfl hq
    · rw [State.scale_qu_w]
      exact hw1
    · rw [State.scale_qu_wcnt]
      exact hw2
    · rw [State.scale_qu_tailCut]
      exact State.commitDone_tailCut w' (d := d) rfl
    · rw [State.scale_qu_held]
      have hheld := State.commitDone_held w' (d := d) rfl (by rw [hqu']; exact hlost)
      rw [hqu'] at hheld
      exact hheld
    · have hodd' : (w'.qu q).mmode = true ∨ ∀ x ∈ v, slotOdd x = true := by
        rw [hqu']
        exact hodd
      have heven := State.commitDone_events_of_odd w' (d := d) rfl hodd'
      exact State.counted_of_events _ hwf (heven.trans hpadev)
    · rw [State.scale_qu_bare, hcommits.others k hk]
      exact congrArg Queue.bare (hqu' k)
  · rw [if_neg (by
      rw [hmay]
      rcases hno with h | h | h <;> simp [h])] at hport
    have hafter (m : PId) (hm : m ≠ n) : (u.padded q n).po m = s.po m := by rw [hpadded, if_neg hm]
    have hflush := u.flush_eq (fun m hm => by rw [hpo]; exact hne m hm) fun m hm => by rw [hport, hpo]; exact hafter m hm
    rw [hflush, hport] at hexec
    refine ⟨_, hexec, ?_, hafter, fun k => ?_, fun hwf => ?_⟩
    · rw [State.scale_po, hpadded, if_pos rfl]
      rfl
    · rw [State.scale_qu_bare, hpaddedqu]
    · exact State.counted_of_events _ hwf hpadev
end

section
/-!
O22. Enable and disable of a queue.
-/

-- The theorems one after another: side by side they take more threads than the check allows.
set_option Elab.async false

namespace Sys2Proof.Machine

variable (s : State)

/-! ### A path's own part of a write of Qn:QCTL (R363, R375) -/

/-- The state on which a write of Qn:QCTL acts: the path has answered, and no staging of the word is left. -/
def State.qctlFrom (s : State) (p : Path) (q : QId) : State := (s.acked p 64).unstage p (.queue q) 0 false

theorem State.qctlFrom_pathFrame (p : Path) (q : QId) : s.pathFrame (s.qctlFrom p q) :=
  (s.acked_pathFrame p 64).trans (State.unstage_pathFrame _ p (.queue q) 0 false)

theorem State.rowQctl_eq {p : Path} (h : s.hostWrites p) (q : QId) (v : Word) :
    s.rowQctl p q v = (s.qctlFrom p q).qctl ⟨p, 64, (Bank.queue q).sel⟩ q v := by
  have hmay : s.mayWrite p (.queue q) 0 := ⟨h, rfl, fun _ hl => by simp [Bank.lockOf] at hl⟩
  have hmay' := (s.acked_pathFrame p 64).mayWrite hmay
  obtain ⟨hwritable, hfatal⟩ := hmay'.1
  have hcommit := State.commit_of_mayWrite (s.acked p 64) (acc := ⟨p, 64, (Bank.queue q).sel⟩) hmay' [v]
  refine Eq.trans ?_ hcommit
  simp only [State.rowQctl, State.rowCommit, Nat.add_zero, hwritable, hfatal, Bool.not_true, Bool.false_eq_true, if_false]

theorem PathSt.unstage_unstage (x : PathSt) (b : Bank) (off : Nat) : (x.unstage b off).unstage b off = x.unstage b off := by
  simp [PathSt.unstage, List.filter_filter]

/-- Path B with its answer to a write of Qn:QCTL by path `p`. -/
def PathSt.answered (x : PathSt) (p : Path) (powered : Bool) : PathSt :=
  match p with
  | .a => x
  | .b => if powered then { x with ack := true, ptr := 64 } else { x with ack := false }

theorem State.qctlFrom_eq (p : Path) (q : QId) : s.qctlFrom p q = { s with
    pathA := s.pathA.unstage (.queue q) 0, pathB := (s.pathB.answered p s.powered).unstage (.queue q) 0 } := by
  cases p <;> rfl

theorem PathSt.answered_again (x : PathSt) (p : Path) (powered : Bool) (b : Bank) (off : Nat) :
    (((x.answered p powered).unstage b off).answered p powered).unstage b off = (x.answered p powered).unstage b off := by
  cases p with
  | a => exact PathSt.unstage_unstage ..
  | b => cases powered <;> exact PathSt.unstage_unstage (x.answered .b _) b off

/-- The path's own part of the write, done once more, leaves what it has left. -/
theorem State.qctlFrom_again {s u : State} {p : Path} {q : QId} (hpow : u.powered = s.powered)
    (hA : u.pathA = (s.qctlFrom p q).pathA) (hB : u.pathB = (s.qctlFrom p q).pathB) : u.qctlFrom p q = u := by
  have hA' : u.pathA.unstage (.queue q) 0 = u.pathA := by
    rw [hA, s.qctlFrom_eq]
    exact PathSt.unstage_unstage ..
  have hB' : (u.pathB.answered p u.powered).unstage (.queue q) 0 = u.pathB := by
    rw [hB, hpow, s.qctlFrom_eq]
    exact PathSt.answered_again ..
  rw [u.qctlFrom_eq, hA', hB']

/-! ### The enable and the disable (R136, R181, R127) -/

theorem State.afl_congr {s t : State} {q : QId} (hw : (t.qu q).w = (s.qu q).w) (hmap : (t.qu q).map = (s.qu q).map)
    (hocc : (t.qu q).occ = (s.qu q).occ) (hbillets : (t.qu q).billets = (s.qu q).billets) (hports : t.ports = s.ports)
    (hchans : t.chans = s.chans) : t.afl q = s.afl q := by
  have hcap : (t.qu q).cap = (s.qu q).cap := by rw [Queue.cap, Queue.cap, hmap]
  have huses (c : YId) : (t.qu q).uses c = (s.qu q).uses c := by rw [Queue.uses, Queue.uses, hmap]
  have hframes : t.frames q = s.frames q := by
    rw [State.frames, State.frames, State.orphans, State.orphans, hbillets, hchans]
  have hpend : t.pend q = s.pend q := by rw [State.pend, State.pend, hports]
  have hch (c : YId) : t.ch c = s.ch c := by rw [State.ch, State.ch, hchans]
  have hheld : t.spillHeld q = s.spillHeld q := by
    rw [State.spillHeld, State.spillHeld]
    simp only [huses, hch, hmap, hframes]
  have hshare : t.unusedShare q = s.unusedShare q := by
    rw [State.unusedShare, State.unusedShare]
    simp only [hmap, hw, hframes, hpend]
  rw [State.afl, State.afl, State.free, State.free]
  simp only [hcap, hocc, hpend, hheld, hshare]

/-- A queue that an enable has latched, its lookahead afresh. -/
def Queue.enabled (x : Queue) (a : Int) : Queue :=
  { x with en := true, map := some x.mapNow, rate := 0, afla := false, lastAfl := a }

theorem State.enableQueue_eq (q : QId) : ∃ a, s.enableQueue q = (s.nextOrder.setQu q ((s.qu q).enabled a)).scale q ∧
    (s.enableQueue q).afl q = a := by
  let v := s.nextOrder.modQu q fun x => { x with en := true, map := some x.mapNow }
  have hset : v.clearLookahead q = s.nextOrder.setQu q ((s.qu q).enabled (v.afl q)) := by
    simp only [State.clearLookahead, v, State.modQu, State.setQu_qu]
    simp [State.setQu, State.qu, Queue.enabled, State.nextOrder]
  refine ⟨v.afl q, congrArg (fun t : State => t.scale q) hset, ?_⟩
  have hbare : (s.enableQueue q).afl q = (v.clearLookahead q).afl q := by
    rw [← State.afl_bare, ← (v.clearLookahead q).afl_bare]
    exact congrArg (fun t : State => t.afl q) (State.scale_bare _ q)
  have hqu : (v.clearLookahead q).qu q = { v.qu q with rate := 0, afla := false, lastAfl := v.afl q } := State.modQu_qu _ _ _
  rw [hbare]
  refine State.afl_congr ?_ ?_ ?_ ?_ rfl rfl <;> rw [hqu]
  rfl

theorem State.enableQueue_keeps (q : QId) : (s.enableQueue q).pathA = s.pathA ∧ (s.enableQueue q).pathB = s.pathB ∧
    (s.enableQueue q).boot = s.boot ∧ (s.enableQueue q).dp = s.dp := ⟨rfl, rfl, rfl, rfl⟩

theorem State.disableQueue_keeps (q : QId) : (s.disableQueue q).pathA = s.pathA ∧ (s.disableQueue q).pathB = s.pathB ∧
    (s.disableQueue q).boot = s.boot ∧ (s.disableQueue q).dp = s.dp := ⟨rfl, rfl, rfl, rfl⟩

theorem State.qctlEn_of_enable {acc : Access} {q : QId} (hen : (s.qu q).en = false) (hagrees : ∀ r ∈ queueRefs q, s.agrees r)
    (hok : s.enableRefusal q = none) : s.qctlEn acc q true = s.enableQueue q := by
  simp [State.qctlEn, hen, s.compareAll_of_agrees hagrees, hok]

theorem State.qctlEn_of_disable {acc : Access} {q : QId} (hen : (s.qu q).en = true) :
    s.qctlEn acc q false = s.disableQueue q := by
  simp [State.qctlEn, hen]

/-- A write of Qn:QCTL that changes EN goes on as one that does not, on the state that the change leaves (R445). -/
theorem State.qctl_of_changed {acc : Access} {q : QId} {v : Word} {u : State} (h : s.qctlEn acc q (bit v 0) = u)
    (hu : (u.qu q).en = bit v 0) : s.qctl acc q v = u.qctl acc q v := by
  have hsame := u.qctlEn_same acc q
  rw [hu] at hsame
  unfold State.qctl
  dsimp only
  rw [h, hsame]

/-- A queue of which one configuration word is found with three different copies (R380). -/
def Queue.voteLost (x : Queue) (i : Fin 7) : Queue :=
  { x.setVword i { x.vword i with failed := true } with en := false, vfail := true }

theorem Queue.voteLost_vword (x : Queue) (i : Fin 7) :
    (x.voteLost i).vword i = { x.vword i with failed := true } ∧ ∀ k, k ≠ i → (x.voteLost i).vword k = x.vword k := by
  have h (k : Fin 7) : (x.voteLost i).vword k = (x.setVword i { x.vword i with failed := true }).vword k := by
    unfold Queue.voteLost Queue.vword
    split <;> rfl
  exact ⟨(h i).trans (Queue.vword_setVword ..), fun k hk => (h k).trans (Queue.vword_setVword_ne _ _ hk)⟩

/-- The configuration words of a queue compared, one of them with three different copies (R379, R380). -/
theorem State.compareAll_of_lost {q : QId} {i : Fin 7} (hfailed : (s.vget (.queue q i)).failed = false)
    (hnone : (s.vget (.queue q i)).majority = none) (hothers : ∀ k, k ≠ i → s.agrees (.queue q k)) :
    s.compareAll (queueRefs q) = s.setQu q ((s.qu q).voteLost i) := by
  have hlost : s.compare (.queue q i) = s.setQu q ((s.qu q).voteLost i) := by
    rw [s.compare_of_none hfailed hnone]
    simp only [State.voteFail, State.vset, State.modQu, State.setQu_qu]
    simp [State.setQu, State.qu, Queue.voteLost, State.vget]
  have hne (m : VRef) (hm : m ∈ queueRefs q) (h : m ≠ .queue q i) : ∃ k, k ≠ i ∧ m = .queue q k := by
    obtain ⟨k, -, rfl⟩ := List.mem_map.1 hm
    exact ⟨k, fun hk => h (by rw [hk]), rfl⟩
  rw [← hlost]
  refine foldl_single (List.mem_map.2 ⟨i, List.mem_finRange i, rfl⟩) ?_ (fun m hm h => ?_) fun m hm h => ?_
  · exact (List.nodup_finRange 7).map fun a b h => by injection h
  · obtain ⟨k, hk, rfl⟩ := hne m hm h
    exact s.compare_of_agrees (hothers k hk)
  · obtain ⟨k, hk, rfl⟩ := hne m hm h
    refine State.compare_of_agrees _ ?_
    have hsame : (s.compare (.queue q i)).vget (.queue q k) = s.vget (.queue q k) := by
      rw [hlost]
      show ((s.setQu q ((s.qu q).voteLost i)).qu q).vword k = _
      rw [State.setQu_qu]
      exact ((s.qu q).voteLost_vword i).2 k hk
    rw [State.agrees, hsame]
    exact hothers k hk

theorem State.enableRefusal_of_vfail {q : QId} (h : (s.qu q).vfail = true) :
    s.enableRefusal q = some (if s.land.full then Reason.busy else Reason.check) := by
  unfold State.enableRefusal
  rw [h]
  split <;> rfl

/-- A write of QCTL that carries EN alone. -/
theorem State.qctl_of_enOnly (acc : Access) (q : QId) {v : Word} (h : bit v 1 = false ∧ bit v 2 = false)
    (hmarks : bit v 4 = false ∧ bit v 5 = false ∧ bit v 6 = false) : s.qctl acc q v = s.qctlEn acc q (bit v 0) := by
  obtain ⟨h1, h2⟩ := h
  unfold State.qctl
  dsimp only
  rw [h1, h2]
  exact State.qctlMarks_of_none _ hmarks

theorem State.exec_queueEnable {p : Path} {q : QId} (h : s.hostWrites p) :
    exec (.queueEnable p q) s = .next ((s.qctlFrom p q).qctlEn ⟨p, 64, (Bank.queue q).sel⟩ q true) :=
  congrArg Host.Outcome.next ((s.rowQctl_eq h q 1).trans (State.qctl_of_enOnly _ _ q (by decide) (by decide)))

theorem State.exec_queueDisable {p : Path} {q : QId} (h : s.hostWrites p) :
    exec (.queueDisable p q) s = .next ((s.qctlFrom p q).qctlEn ⟨p, 64, (Bank.queue q).sel⟩ q false) :=
  congrArg Host.Outcome.next ((s.rowQctl_eq h q 0).trans (State.qctl_of_enOnly _ _ q (by decide) (by decide)))

theorem State.pathFrame.enableRefusal {s u : State} (h : s.pathFrame u) (q : QId) : u.enableRefusal q = s.enableRefusal q := by
  obtain ⟨⟨_, _, rfl⟩, -⟩ := h
  rfl

theorem State.pathFrame.queueRefs {s u : State} (h : s.pathFrame u) {q : QId} (ha : ∀ r ∈ queueRefs q, s.agrees r) :
    ∀ r ∈ queueRefs q, u.agrees r := by
  intro r hr
  rw [State.agrees, h.vget]
  exact ha r hr

/-- The word of a QCTL write as a function of its EN field, for each of the commands that carry one. -/
theorem exec_qctlCommand {p : Path} {q : QId} {cmd : Bool → Instr}
    (h : cmd = (fun en => .queueReset p q en) ∨ cmd = (fun en => .flush p q en) ∨ cmd = (fun en => .mark p q en) ∨
      cmd = (fun en => .commit p q en) ∨ ∃ i, cmd = (fun en => .rewind p q en i)) :
    ∃ v : Bool → Word, (∀ en, bit (v en) 0 = en) ∧ ∀ en s, exec (cmd en) s = .next (s.rowQctl p q (v en)) := by
  rcases h with rfl | rfl | rfl | rfl | ⟨i, rfl⟩
  · exact ⟨fun en => flagAt en 0 ||| 2, by decide, fun _ _ => rfl⟩
  · exact ⟨fun en => flagAt en 0 ||| 4, by decide, fun _ _ => rfl⟩
  · exact ⟨fun en => flagAt en 0 ||| 0x10, by decide, fun _ _ => rfl⟩
  · exact ⟨fun en => flagAt en 0 ||| 0x40, by decide, fun _ _ => rfl⟩
  · exact ⟨fun en => flagAt en 0 ||| 0x20 ||| at' i.toNat 8, by revert i; decide, fun _ _ => rfl⟩

/-- A command after a change of EN: on the state that the change alone leaves, the path's own part is done already. -/
theorem State.rowQctl_after {p : Path} {q : QId} {v : Word} {u : State} (h : s.hostWrites p)
    (hu : (s.qctlFrom p q).qctlEn ⟨p, 64, (Bank.queue q).sel⟩ q (bit v 0) = u) (hen : (u.qu q).en = bit v 0)
    (hA : u.pathA = (s.qctlFrom p q).pathA) (hB : u.pathB = (s.qctlFrom p q).pathB)
    (hboot : u.boot = s.boot) (hdp : u.dp = s.dp) : s.rowQctl p q v = u.rowQctl p q v := by
  have hpow : u.powered = s.powered := by rw [State.powered, State.powered, State.supplied, State.supplied, hboot]
  have hreset : u.pathA.inReset = s.pathA.inReset := by
    rw [hA, s.qctlFrom_eq]
    rfl
  have hw' : u.hostWrites p := by
    have hwritable : u.writable p = s.writable p := by
      simp only [State.writable, State.pathAlive, State.hostOn, hpow, hboot, hreset]
    exact ⟨hwritable.trans h.1, by rw [hdp]; exact h.2⟩
  rw [s.rowQctl_eq h, u.rowQctl_eq hw', State.qctlFrom_again hpow hA hB, State.qctl_of_changed _ hu hen]

end Sys2Proof.Machine

open Sys2Proof Sys2Proof.Machine

/-- Settles O22: the enable by its checks, the disable, and EN before the other commands of QCTL. -/
theorem queueEnableDisable : Obligations.QueueEnableDisable := by
  intro p q s hw
  have hframe := s.qctlFrom_pathFrame p q
  have hfrom := s.qctlFrom_eq p q
  have hqu : (s.qctlFrom p q).qu q = s.qu q := by rw [hframe.qu]
  have henable (hen : (s.qu q).en = false) (ha : ∀ r ∈ queueRefs q, s.agrees r) (hok : s.enableRefusal q = none) :
      (s.qctlFrom p q).qctlEn ⟨p, 64, (Bank.queue q).sel⟩ q true = (s.qctlFrom p q).enableQueue q :=
    State.qctlEn_of_enable _ (by rw [hqu]; exact hen) (hframe.queueRefs ha) ((hframe.enableRefusal q).trans hok)
  have hdisable (hen : (s.qu q).en = true) :
      (s.qctlFrom p q).qctlEn ⟨p, 64, (Bank.queue q).sel⟩ q false = (s.qctlFrom p q).disableQueue q :=
    State.qctlEn_of_disable _ (by rw [hqu]; exact hen)
  refine ⟨fun hen ha hok => ?_, fun i hwf hen hfailed hnone hothers => ?_, fun k hwf hen ha hrefused => ?_, fun hen => ?_,
    fun cmd u hcmd => ⟨fun hen ha hok hu => ?_, fun hen hu => ?_⟩⟩
  · have hexec := s.exec_queueEnable (q := q) hw
    obtain ⟨a, heq, hafl⟩ := (s.qctlFrom p q).enableQueue_eq q
    have hset : (((s.qctlFrom p q).nextOrder.setQu q (((s.qctlFrom p q).qu q).enabled a)).qu q) = (s.qu q).enabled a := by
      rw [State.setQu_qu, hqu]
    have hother (k : QId) (hk : k ≠ q) :
        ((s.qctlFrom p q).nextOrder.setQu q (((s.qctlFrom p q).qu q).enabled a)).qu k = s.qu k := by
      rw [State.setQu_qu_ne _ q k _ hk, State.nextOrder_qu_frame, hframe.qu]
    rw [henable hen ha hok, heq] at hexec
    rw [heq] at hafl
    have hlast : (((s.qctlFrom p q).nextOrder.setQu q (((s.qctlFrom p q).qu q).enabled a)).scale q |>.qu q).lastAfl = a := by
      rw [State.scale_qu_lastAfl, hset]
      rfl
    refine ⟨_, hexec, ?_, ?_, hlast.trans hafl.symm, ?_, fun k hk => ?_, ?_⟩
    · rw [State.scale_qu_en, hset]
      rfl
    · rw [State.scale_qu_map, hset]
      rfl
    · rw [hlast, State.scale_qu_bare, hset]
      rfl
    · rw [State.scale_qu_bare, hother k hk]
    · obtain ⟨⟨x, y, hxy⟩, hcore⟩ := hframe
      refine ⟨?_, hcore⟩
      rw [hxy]
      rfl
  · have hexec := s.exec_queueEnable (q := q) hw
    have hvget (r : VRef) : (s.qctlFrom p q).vget r = s.vget r := by rw [hframe.vget]
    have hlost := (s.qctlFrom p q).compareAll_of_lost (q := q) (i := i) (by rw [hvget]; exact hfailed)
      (by rw [hvget]; exact hnone) fun k hk => by
        rw [State.agrees, hvget]
        exact hothers k hk
    rw [hqu] at hlost
    let w := (s.qctlFrom p q).setQu q ((s.qu q).voteLost i)
    have hwqu : w.qu q = (s.qu q).voteLost i := State.setQu_qu _ q _
    have hrefusal : w.enableRefusal q = some (if s.land.full then Reason.busy else Reason.check) := by
      rw [w.enableRefusal_of_vfail (by rw [hwqu]; rfl)]
      show some (if (s.qctlFrom p q).land.full then _ else _) = _
      rw [hfrom]
    have heq : (s.qctlFrom p q).qctlEn ⟨p, 64, (Bank.queue q).sel⟩ q true =
        w.reject ⟨p, 64, (Bank.queue q).sel⟩ Ev.cfgrej q.val (if s.land.full then Reason.busy else Reason.check) := by
      unfold State.qctlEn
      dsimp only
      rw [hqu, hen, hlost, hrefusal]
      rfl
    have hqus (k : QId) (c : Nat) : (w.reject ⟨p, 64, (Bank.queue q).sel⟩ Ev.cfgrej q.val c).qu k = w.qu k := by
      simp [State.reject]
    rw [heq] at hexec
    refine ⟨_, hexec, ?_, ?_, ?_, fun k hk => ?_, ?_⟩
    · rw [hqus, hwqu]
      rfl
    · rw [hqus, hwqu]
      rfl
    · show ((State.qu _ q).vword i).failed = true
      rw [hqus, hwqu, ((s.qu q).voteLost_vword i).1]
    · rw [hqus, State.setQu_qu_ne _ q k _ hk, hframe.qu]
    · refine ⟨s.counted_of_events hwf ?_, ?_⟩
      · exact State.countN_events_congr (s := s) (t := w) (congrArg State.events hfrom :) _ _ _
      · have hdp : w.dp = s.dp := (congrArg State.dp hfrom :)
        simp only [State.reject, State.capture, State.count, State.countN_dp, hdp]
        rfl
  · have hexec := s.exec_queueEnable (q := q) hw
    have hreject := hframe.reject hwf ⟨p, 64, (Bank.queue q).sel⟩ Ev.cfgrej q.val k
    have heq : (s.qctlFrom p q).qctlEn ⟨p, 64, (Bank.queue q).sel⟩ q true =
        (s.qctlFrom p q).reject ⟨p, 64, (Bank.queue q).sel⟩ Ev.cfgrej q.val k := by
      have hrefused' : (s.qctlFrom p q).enableRefusal q = some k := (hframe.enableRefusal q).trans hrefused
      simp [State.qctlEn, hqu, hen, State.compareAll_of_agrees _ (hframe.queueRefs ha), hrefused']
    rw [heq] at hexec
    exact ⟨_, hexec, hreject.1, fun k => by simp [State.reject, hframe.qu]⟩
  · have hexec := s.exec_queueDisable (q := q) hw
    have hset : ((s.qctlFrom p q).nextOrder.modQu q fun x => { x with en := false }).qu q = { s.qu q with en := false } := by
      rw [State.modQu_qu, State.nextOrder_qu_frame, hqu]
    rw [hdisable hen, State.disableQueue] at hexec
    refine ⟨_, hexec, ?_, fun k hk => ?_, ?_⟩
    · rw [State.scale_qu_bare, hset]
    · rw [State.scale_qu_bare, State.modQu_qu_ne _ q k _ hk, State.nextOrder_qu_frame, hframe.qu]
    · obtain ⟨⟨x, y, hxy⟩, hcore⟩ := hframe
      refine ⟨?_, hcore⟩
      rw [hxy]
      rfl
  · obtain ⟨v, hbit, hcmd'⟩ := exec_qctlCommand hcmd
    rw [s.exec_queueEnable hw, henable hen ha hok] at hu
    obtain ⟨a, heq, -⟩ := (s.qctlFrom p q).enableQueue_eq q
    obtain ⟨hA, hB, hboot, hdp⟩ := (s.qctlFrom p q).enableQueue_keeps q
    injection hu with hu
    have hen' : (u.qu q).en = bit (v true) 0 := by
      rw [hbit, ← hu, heq, State.scale_qu_en, State.setQu_qu]
      rfl
    rw [hcmd', hcmd']
    refine congrArg Host.Outcome.next (s.rowQctl_after hw (by rw [hbit, henable hen ha hok, hu]) hen' ?_ ?_ ?_ ?_)
    · rw [← hu, hA]
    · rw [← hu, hB]
    · rw [← hu, hboot, hfrom]
    · rw [← hu, hdp, hfrom]
  · obtain ⟨v, hbit, hcmd'⟩ := exec_qctlCommand hcmd
    rw [s.exec_queueDisable hw, hdisable hen] at hu
    obtain ⟨hA, hB, hboot, hdp⟩ := (s.qctlFrom p q).disableQueue_keeps q
    injection hu with hu
    have hen' : (u.qu q).en = bit (v false) 0 := by
      rw [hbit, ← hu, State.disableQueue, State.scale_qu_en, State.modQu_qu]
    rw [hcmd', hcmd']
    refine congrArg Host.Outcome.next (s.rowQctl_after hw (by rw [hbit, hdisable hen, hu]) hen' ?_ ?_ ?_ ?_)
    · rw [← hu, hA]
    · rw [← hu, hB]
    · rw [← hu, hboot, hfrom]
    · rw [← hu, hdp, hfrom]
end

section
/-!
SUPPORT, O25, O27 and O21. The hold point of a queue, and the flags that its ports and pins show.
-/

-- The theorems one after another: side by side they take more threads than the check allows.
set_option Elab.async false

namespace Sys2Proof.Machine

variable (s : State)

/-! ### H follows (R123, R173) -/

/-- A queue whose hold point has moved: H, and what it drops with the slots, billets and segments that it passes. -/
structure Queue.Passes (x y : Queue) : Prop where
  eq : y = { x with h := x.marks.headD x.r, held := y.held, billets := y.billets, segs := y.segs, ecc := y.ecc }
  noLost : x.noLost → y.noLost

theorem Queue.freePassed_eq (x : Queue) : x.freePassed = { x with billets := x.freePassed.billets, ecc := x.freePassed.ecc } := by
  unfold Queue.freePassed
  dsimp only
  split <;> rfl

theorem Queue.freePassed_noLost {x : Queue} (h : x.noLost) : x.freePassed.noLost := by
  unfold Queue.freePassed
  dsimp only
  split
  · exact h
  · intro b hb
    obtain ⟨a, ha, rfl⟩ := List.mem_map.1 hb
    have := h a ha
    split <;> exact this

theorem State.settle_passes (q : QId) : ∃ x chans, s.settle q = { s.setQu q x with chans := chans } ∧ (s.qu q).Passes x := by
  unfold State.settle
  extract_lets x h k n gone nums y x' nums' s'
  have hy : ∃ ecc, y = { x with ecc := ecc } := by
    dsimp only [y]
    split
    · exact ⟨x.ecc, rfl⟩
    · exact ⟨_, rfl⟩
  have hpasses : x.Passes x'.freePassed := by
    obtain ⟨ecc, hecc⟩ := hy
    refine ⟨?_, fun hlost => Queue.freePassed_noLost fun b hb => hlost b (List.mem_of_mem_drop hb)⟩
    have hfree := x'.freePassed_eq
    generalize x'.freePassed = z at hfree ⊢
    rw [hfree]
    dsimp only [x']
    rw [hecc]
  refine ⟨x'.freePassed, if nums'.isEmpty then s.chans else vmap (Chan.orphan q x nums') s.chans, ?_, hpasses⟩
  split <;> rfl

/-! ### What the ports show of a queue (R130, R314) -/

theorem State.twinPort_congr {s t : State} (hlcfg : ∀ n, (t.po n).lcfg = (s.po n).lcfg)
    (hen : ∀ n, (t.po n).en = (s.po n).en) (egress : Bool) : t.twinPort egress = s.twinPort egress := by
  have hegress (n : PId) : (t.po n).egress = (s.po n).egress := by rw [Port.egress, Port.egress, hlcfg]
  simp only [State.twinPort, State.isUpper_of_lcfg hlcfg, hen, hegress]

theorem State.readPort_congr {s t : State} {q : QId} (hqcfg : (t.qu q).qcfg = (s.qu q).qcfg)
    (hlcfg : ∀ n, (t.po n).lcfg = (s.po n).lcfg) (hen : ∀ n, (t.po n).en = (s.po n).en) : t.readPort q = s.readPort q := by
  have hegress (n : PId) : (t.po n).egress = (s.po n).egress := by rw [Port.egress, Port.egress, hlcfg]
  have hchain : (t.qu q).chainRead = (s.qu q).chainRead := by rw [Queue.chainRead, Queue.chainRead, hqcfg]
  have hnamed : t.namedPort q = s.namedPort q := by
    rw [State.namedPort, State.namedPort]
    simp only [hqcfg, State.master_of_lcfg hlcfg]
  rw [State.readPort, State.readPort]
  simp only [hchain, hnamed, hen, hegress]

/-- Two states that differ in what ports hold show the same flags of their queues. -/
theorem State.coreFlags_congr {s t : State} (h : t = { s with ports := t.ports })
    (hlcfg : ∀ n, (t.po n).lcfg = (s.po n).lcfg) (hen : ∀ n, (t.po n).en = (s.po n).en)
    (hshown : ∀ n, (t.po n).shown = (s.po n).shown) (n : PId) (q : QId) : t.coreFlags n q = s.coreFlags n q := by
  have hqu (k : QId) : t.qu k = s.qu k := (congrArg (fun u : State => u.qu k) h :)
  have hboot : t.boot = s.boot := (congrArg State.boot h :)
  have hdp : t.dp = s.dp := (congrArg State.dp h :)
  have hazl : t.azl = s.azl := (congrArg State.azl h :)
  have hegress (m : PId) : (t.po m).egress = (s.po m).egress := by rw [Port.egress, Port.egress, hlcfg]
  have htwin := State.twinPort_congr hlcfg hen
  have hread (k : QId) : t.readPort k = s.readPort k := State.readPort_congr (by rw [hqu]) hlcfg hen
  have hseg (m : PId) : (t.po m).segMode = (s.po m).segMode := by rw [Port.segMode, Port.segMode, hlcfg]
  have hreads : t.readsQ n q = s.readsQ n q := by
    simp only [State.readsQ, State.holder, hread, hqu, hen, hegress, hseg, State.isUpper_of_lcfg hlcfg]
  have hpow : t.powered = s.powered := by rw [State.powered, State.powered, State.supplied, State.supplied, hboot]
  have hpair : t.twin = s.twin := by rw [State.twin, State.twin, hboot]
  have hbad : t.strapsBad = s.strapsBad := by rw [State.strapsBad, State.strapsBad, hboot]
  have hown : t.wsyncOwn = s.wsyncOwn := by
    rw [State.wsyncOwn, State.wsyncOwn]
    simp only [hboot, hpow, hdp, hpair, hazl, hbad, htwin, hqu, hshown]
  have hwsync : t.wsyncLow = s.wsyncLow := by rw [State.wsyncLow, State.wsyncLow, hpair, hown, hazl]
  have hisTwin : t.isTwinPort n = s.isTwinPort n := by rw [State.isTwinPort, State.isTwinPort, hpair, htwin, hegress]
  rw [State.coreFlags, State.coreFlags]
  simp only [hisTwin, hqu, hegress, hshown, hreads, hwsync]

end Sys2Proof.Machine
end

section
/-!
O25. MARK, REWIND and COMMIT.
-/

namespace Sys2Proof.Machine

variable (s : State)

/-! ### A mark command carried out (Table 6.4) -/

/-- A queue with its pending command carried out and H where it belongs. -/
def Queue.Marked (x : Queue) (c : MarkCmd) (y : Queue) : Prop := (x.applyMark c).Passes y

/-- A pending command of a queue without lost billets, carried out: H follows, flags are evaluated and cross. -/
theorem State.applyPend_eq {q : QId} {c : MarkCmd} (hpend : (s.qu q).markPend = some c) (hlost : (s.qu q).noLost) :
    ∃ x chans, (s.qu q).Marked c x ∧
      s.applyPend q = ((({ s.nextOrder.setQu q x with chans := chans } : State).scale q).crossReader q) := by
  obtain ⟨x, chans, heq, hpasses⟩ := (s.nextOrder.modQu q fun x => x.applyMark c).settle_passes q
  have hqu : (s.nextOrder.modQu q fun x => x.applyMark c).qu q = (s.qu q).applyMark c := by simp
  rw [hqu] at hpasses
  have hnone : x.noLost := hpasses.noLost (by cases c <;> exact hlost)
  have hset : (s.nextOrder.modQu q fun x => x.applyMark c).setQu q x = s.nextOrder.setQu q x := by
    simp [State.modQu, State.setQu]
  rw [hset] at heq
  refine ⟨x, chans, hpasses, ?_⟩
  unfold State.applyPend
  rw [hpend]
  dsimp only
  rw [heq, State.jumpLost_of_noLost]
  show ((s.nextOrder.setQu q x).qu q).noLost
  rw [State.setQu_qu]
  exact hnone

theorem Queue.Marked.mark {x y : Queue} (h : x.Marked .mark y) :
    y.marks = x.marks ++ [x.r] ∧ y.r = x.r ∧ y.markPend = none ∧ y.w = x.w ∧ y.rcnt = x.rcnt := by
  rw [h.eq]
  exact ⟨rfl, rfl, rfl, rfl, rfl⟩

theorem Queue.Marked.rewind {x y : Queue} {i : Nat} {m : Pos} (h : x.Marked (.rewind i) y) (hm : x.marks[i]? = some m) :
    y.r = m ∧ y.marks = x.marks.take (i + 1) ∧ y.markPend = none ∧ y.f = x.f ∧ y.w = x.w ∧ y.rcnt = x.rcnt ∧
    y.xcnt = x.xcnt := by
  rw [h.eq]
  refine ⟨?_, rfl, rfl, rfl, rfl, rfl, rfl⟩
  show x.marks.getD i x.r = m
  rw [List.getD_eq_getElem?_getD, hm]
  rfl

/-- A core transfer of one queue: the queue as it then stands, requests of channels with it, and its flags. -/
def State.stepped (s : State) (q : QId) (x : Queue) (chans : Vector Chan 2) : State :=
  ({ s.nextOrder.setQu q x with chans := chans } : State).scale q

theorem State.stepped_bare (q : QId) (x : Queue) (chans : Vector Chan 2) : ((s.stepped q x chans).qu q).bare = x.bare := by
  rw [State.stepped, State.scale_qu_bare]
  exact congrArg Queue.bare (State.setQu_qu _ q x)

theorem State.stepped_other {q k : QId} (h : k ≠ q) (x : Queue) (chans : Vector Chan 2) :
    (s.stepped q x chans).qu k = s.qu k :=
  (State.setQu_qu_ne _ q k _ h).trans (s.nextOrder.setQu_qu_ne q k x h)

theorem State.pathFrame.stepped_hostFrame {s u : State} (h : s.pathFrame u) (q : QId) (x : Queue) (chans : Vector Chan 2) :
    s.hostFrame (u.stepped q x chans) { s with
      queues := (u.stepped q x chans).queues, chans := (u.stepped q x chans).chans, order := (u.stepped q x chans).order } := by
  obtain ⟨⟨_, _, rfl⟩, hcore⟩ := h
  exact ⟨rfl, hcore⟩

theorem State.pathFrame.stepped_others {s u : State} (h : s.pathFrame u) (q : QId) (x : Queue) (chans : Vector Chan 2) :
    s.otherQueues (u.stepped q x chans) q := fun k hk => by rw [u.stepped_other hk, h.qu]

/-- The oldest mark of a queue removed (R164, R172). -/
theorem State.commitMark_eq (q : QId) : ∃ x chans, ({ s.qu q with marks := (s.qu q).marks.tail } : Queue).Passes x ∧
    s.commitMark q = s.stepped q x chans := by
  obtain ⟨x, chans, heq, hpasses⟩ := (s.nextOrder.modQu q fun x => { x with marks := x.marks.tail }).settle_passes q
  have hset : (s.nextOrder.modQu q fun x => { x with marks := x.marks.tail }).setQu q x = s.nextOrder.setQu q x := by
    simp [State.modQu, State.setQu]
  rw [State.modQu_qu, State.nextOrder_qu_frame] at hpasses
  rw [hset] at heq
  exact ⟨x, chans, hpasses, congrArg (fun t : State => t.scale q) heq⟩

/-! ### The commands as the queue takes them (R161 to R171) -/

theorem bits_mark (en : Bool) : let v : Word := flagAt en 0 ||| 0x10
    bit v 0 = en ∧ bit v 1 = false ∧ bit v 2 = false ∧ bit v 4 = true ∧ bit v 5 = false ∧ bit v 6 = false := by
  cases en <;> decide

theorem bits_rewind (en : Bool) (i : BitVec 2) : let v : Word := flagAt en 0 ||| 0x20 ||| at' i.toNat 8
    bit v 0 = en ∧ bit v 1 = false ∧ bit v 2 = false ∧ bit v 4 = false ∧ bit v 5 = true ∧ bit v 6 = false ∧
      fld v 8 2 = i.toNat := by
  revert en i; decide

theorem bits_commit (en : Bool) : let v : Word := flagAt en 0 ||| 0x40
    bit v 0 = en ∧ bit v 1 = false ∧ bit v 2 = false ∧ bit v 4 = false ∧ bit v 5 = false ∧ bit v 6 = true := by
  cases en <;> decide

theorem State.exec_mark {p : Path} (h : s.hostWrites p) (q : QId) :
    ∃ u, s.pathFrame u ∧ exec (.mark p q (s.qu q).en) s = .next (u.markCmd q) := by
  obtain ⟨u, hu, hrow⟩ := s.rowQctl_of_hostWrites h q (flagAt (s.qu q).en 0 ||| 0x10)
  obtain ⟨b0, b1, b2, b4, b5, b6⟩ := bits_mark (s.qu q).en
  refine ⟨u, hu, congrArg Host.Outcome.next (hrow.trans ?_)⟩
  rw [u.qctl_of_en (b0.trans (by rw [hu.qu])) b1, if_neg (by rw [b2]; simp), State.qctlMarks, b4, b5, b6]

theorem State.exec_rewind {p : Path} (h : s.hostWrites p) (q : QId) (i : BitVec 2) :
    ∃ u, s.pathFrame u ∧ exec (.rewind p q (s.qu q).en i) s = .next (u.rewindCmd q i.toNat) := by
  obtain ⟨u, hu, hrow⟩ := s.rowQctl_of_hostWrites h q (flagAt (s.qu q).en 0 ||| 0x20 ||| at' i.toNat 8)
  obtain ⟨b0, b1, b2, b4, b5, b6, bi⟩ := bits_rewind (s.qu q).en i
  refine ⟨u, hu, congrArg Host.Outcome.next (hrow.trans ?_)⟩
  rw [u.qctl_of_en (b0.trans (by rw [hu.qu])) b1, if_neg (by rw [b2]; simp), State.qctlMarks, b4, b5, b6, bi]

theorem State.exec_commit {p : Path} (h : s.hostWrites p) (q : QId) :
    ∃ u, s.pathFrame u ∧ exec (.commit p q (s.qu q).en) s = .next (u.commitCmd q) := by
  obtain ⟨u, hu, hrow⟩ := s.rowQctl_of_hostWrites h q (flagAt (s.qu q).en 0 ||| 0x40)
  obtain ⟨b0, b1, b2, b4, b5, b6⟩ := bits_commit (s.qu q).en
  refine ⟨u, hu, congrArg Host.Outcome.next (hrow.trans ?_)⟩
  rw [u.qctl_of_en (b0.trans (by rw [hu.qu])) b1, if_neg (by rw [b2]; simp), State.qctlMarks, b4, b5, b6]

/-- A command that is counted and not carried out. -/
theorem State.pathFrame.count_rejected {s u : State} (h : s.pathFrame u) (hwf : s.eventsWf) (code inst : Nat) :
    s.counted (u.count code inst) code inst 1 ∧ s.sameQueues (u.count code inst) := by
  refine ⟨s.counted_of_events hwf ?_, fun k => ?_⟩
  · obtain ⟨⟨_, _, rfl⟩, -⟩ := h
    rfl
  · rw [State.count, State.countN_qu_frame, h.qu]

/-- A queue that a MARK or REWIND waits for. -/
def Queue.asked (x : Queue) (c : MarkCmd) : Queue := { x with markPend := some c }

theorem Queue.Marked.qcfg {x y : Queue} {c : MarkCmd} (h : x.Marked c y) : y.qcfg = x.qcfg := by
  rw [h.eq]
  cases c <;> rfl

theorem State.crossReader_of_none {q : QId} (h : s.readPort q = none) : s.crossReader q = s := by
  simp [State.crossReader, h]

theorem State.stepped_readPort {q : QId} {x : Queue} (chans : Vector Chan 2) (h : x.qcfg = (s.qu q).qcfg) :
    (s.stepped q x chans).readPort q = s.readPort q := by
  refine State.readPort_congr ?_ (fun _ => rfl) (fun _ => rfl)
  have hbare := s.stepped_bare q x chans
  exact (congrArg Queue.qcfg hbare :).trans h

/-- A command that is asked for and carried out at the same instant, on a queue that no port reads. -/
theorem State.applyPend_asked {q : QId} (c : MarkCmd) (hread : s.readPort q = none) (hlost : (s.qu q).noLost) :
    ∃ x chans, ((s.qu q).asked c).Marked c x ∧ (s.setQu q ((s.qu q).asked c)).applyPend q = s.stepped q x chans := by
  have hqu : (s.setQu q ((s.qu q).asked c)).qu q = (s.qu q).asked c := State.setQu_qu _ q _
  obtain ⟨x, chans, hmarked, heq⟩ := (s.setQu q ((s.qu q).asked c)).applyPend_eq (q := q) (c := c) (by rw [hqu]; rfl)
    (by rw [hqu]; exact hlost)
  rw [hqu] at hmarked
  have hset : (s.setQu q ((s.qu q).asked c)).nextOrder.setQu q x = s.nextOrder.setQu q x := by
    simp [State.setQu, State.nextOrder]
  rw [hset] at heq
  refine ⟨x, chans, hmarked, heq.trans (State.crossReader_of_none _ ?_)⟩
  exact (s.stepped_readPort chans hmarked.qcfg).trans hread

theorem State.markAtOnce_of_unread {q : QId} (hread : s.readPort q = none) (hlaunched : (s.qu q).launched = none) :
    s.markAtOnce q = true := by
  simp [State.markAtOnce, State.midSegment, hlaunched, hread]

theorem State.setQu_asked_readPort (q : QId) (c : MarkCmd) : (s.setQu q ((s.qu q).asked c)).readPort q = s.readPort q :=
  State.readPort_congr (congrArg Queue.qcfg (State.setQu_qu s q ((s.qu q).asked c)) :) (fun _ => rfl) fun _ => rfl

/-- A queue that takes a mark command at once: no port reads it, and nothing of it is pending or in progress. -/
structure State.takesMarks (s : State) (q : QId) : Prop where
  resetting : (s.qu q).resetting = false
  chainRead : (s.qu q).chainRead = false
  markPend : (s.qu q).markPend = none
  launched : (s.qu q).launched = none
  unread : s.readPort q = none
  noLost : (s.qu q).noLost

theorem State.takesMarks.markAtOnce {s : State} {q : QId} (h : s.takesMarks q) (c : MarkCmd) :
    (s.setQu q ((s.qu q).asked c)).markAtOnce q = true :=
  State.markAtOnce_of_unread _ ((s.setQu_asked_readPort q c).trans h.unread) (by rw [State.setQu_qu]; exact h.launched)

theorem State.takesMarks.markCmd {s : State} {q : QId} (h : s.takesMarks q) (hlen : (s.qu q).marks.length < 4) :
    ∃ x chans, ((s.qu q).asked .mark).Marked .mark x ∧ s.markCmd q = s.stepped q x chans := by
  obtain ⟨x, chans, hmarked, heq⟩ := s.applyPend_asked .mark h.unread h.noLost
  refine ⟨x, chans, hmarked, ?_⟩
  rw [← heq, State.markCmd]
  dsimp only
  rw [if_neg (by simp [h.resetting, h.chainRead, h.markPend]), if_neg (by omega)]
  exact if_pos (h.markAtOnce .mark)

theorem State.takesMarks.rewindCmd {s : State} {q : QId} (h : s.takesMarks q) {i : Nat} (hi : i < (s.qu q).marks.length) :
    ∃ x chans, ((s.qu q).asked (.rewind i)).Marked (.rewind i) x ∧ s.rewindCmd q i = s.stepped q x chans := by
  obtain ⟨x, chans, hmarked, heq⟩ := s.applyPend_asked (.rewind i) h.unread h.noLost
  refine ⟨x, chans, hmarked, ?_⟩
  rw [← heq, State.rewindCmd]
  dsimp only
  rw [if_neg (by simp [h.resetting, h.chainRead, h.markPend, hi])]
  exact if_pos (h.markAtOnce (.rewind i))

theorem State.takesMarks.commitCmd {s : State} {q : QId} (h : s.takesMarks q) (hmarks : (s.qu q).marks ≠ []) :
    s.commitCmd q = s.commitMark q := by
  unfold State.commitCmd
  exact if_neg (by simp [h.resetting, Queue.rewindPending, h.markPend, hmarks])

theorem State.pathFrame.takesMarks {s u : State} (h : s.pathFrame u) {q : QId} (ht : s.takesMarks q) : u.takesMarks q := by
  obtain ⟨⟨_, _, rfl⟩, -⟩ := h
  exact ⟨ht.resetting, ht.chainRead, ht.markPend, ht.launched, ht.unread, ht.noLost⟩

/-! ### The reading port's handshake (R165, R166) -/

theorem State.markApply_of_not {q : QId} (h : s.readerResets q = true ∨ s.running = false ∨ (s.qu q).markPend = none ∨
    s.midSegment q = true) : s.markApply q = s := by
  unfold State.markApply
  rcases h with h | h | h | h
  · rw [if_neg (by simp [h])]
  · rw [if_neg (by simp [h])]
  · have hnone : s.applyPend q = s := by rw [State.applyPend, h]
    rw [hnone, ite_self]
  · rw [if_neg (by simp [h])]

/-- The ports after a handshake: the reading port alone, with the flags of the queue as they stand. -/
theorem State.crossReader_po (q : QId) (m : PId) : (s.crossReader q).po m =
    if s.readPort q = some m then { s.po m with crossed := (s.po m).crossed.set q.val ((s.crossReader q).coreFlags m q) }
    else s.po m := by
  unfold State.crossReader
  split
  next h => rw [h, if_neg (by simp)]
  next n h =>
    have hpo (k : PId) : (s.modPo n fun x => { x with crossed := x.crossed.set q.val (s.coreFlags n q) }).po k =
        if k = n then { s.po n with crossed := (s.po n).crossed.set q.val (s.coreFlags n q) } else s.po k := by
      split
      next hk => rw [hk, State.modPo_po]
      next hk => exact s.modPo_po_ne n k _ hk
    have hsame : (s.modPo n fun x => { x with crossed := x.crossed.set q.val (s.coreFlags n q) }).coreFlags m q =
        s.coreFlags m q := by
      have hkeep (k : PId) : ((s.modPo n fun x => { x with crossed := x.crossed.set q.val (s.coreFlags n q) }).po k).inner =
          (s.po k).inner ∧ ((s.modPo n fun x => { x with crossed := x.crossed.set q.val (s.coreFlags n q) }).po k).shown =
            (s.po k).shown := by
        rw [hpo]
        split
        next hk =>
          rw [hk]
          exact ⟨rfl, rfl⟩
        next => exact ⟨rfl, rfl⟩
      exact State.coreFlags_congr rfl (fun k => (congrArg Port.lcfg (hkeep k).1 :)) (fun k => (congrArg Port.en (hkeep k).1 :))
        (fun k => (hkeep k).2) m q
    rw [hpo, hsame, h]
    by_cases hm : m = n
    · subst hm
      rw [if_pos rfl, if_pos rfl]
    · rw [if_neg hm, if_neg fun h => hm (Option.some.inj h).symm]

theorem State.crossReader_frame (q : QId) : s.crossReader q = { s with ports := (s.crossReader q).ports } := by
  unfold State.crossReader
  split <;> rfl

theorem State.markApply_eq {q : QId} {c : MarkCmd} (hrun : s.running = true) (hmid : s.midSegment q = false)
    (hreset : s.readerResets q = false) (hpend : (s.qu q).markPend = some c) (hlost : (s.qu q).noLost) :
    ∃ x chans, (s.qu q).Marked c x ∧ s.markApply q = (s.stepped q x chans).crossReader q := by
  obtain ⟨x, chans, hmarked, heq⟩ := s.applyPend_eq hpend hlost
  exact ⟨x, chans, hmarked, (if_pos (by simp [hrun, hmid, hreset])).trans heq⟩

end Sys2Proof.Machine

open Sys2Proof Sys2Proof.Machine

/-- Settles O25: the commands of a queue that no port reads, act at once or are counted; of one that a port reads, by the
port's handshake. -/
theorem markCommands : Obligations.MarkCommands := by
  refine ⟨fun p q s hw hres hchain hpend hlaunched hread hlost => ?_, fun p q n s hmid hlost => ?_, fun q s hmid => ?_⟩
  · have htakes : s.takesMarks q := ⟨hres, hchain, hpend, hlaunched, hread, hlost⟩
    have hqu {u : State} (hu : s.pathFrame u) : u.qu q = s.qu q := by rw [hu.qu]
    refine ⟨fun hlen => ?_, fun hwf hlen => ?_, fun i m hm => ?_, fun i hwf hlen => ?_, fun m ms hms => ?_, fun hwf hms => ?_⟩
    · obtain ⟨u, hu, hexec⟩ := s.exec_mark hw q
      obtain ⟨x, chans, hmarked, heq⟩ := (hu.takesMarks htakes).markCmd (by rw [hqu hu]; exact hlen)
      rw [heq] at hexec
      rw [hqu hu] at hmarked
      obtain ⟨hmarks, hr, hnone, hx, hrcnt⟩ := hmarked.mark
      have hbare := u.stepped_bare q x chans
      exact ⟨_, hexec, (congrArg Queue.marks hbare).trans hmarks, (congrArg Queue.r hbare).trans hr,
        (congrArg Queue.markPend hbare).trans hnone, (congrArg Queue.w hbare).trans hx,
        (congrArg Queue.rcnt hbare).trans hrcnt, hu.stepped_others q x chans, hu.stepped_hostFrame q x chans⟩
    · obtain ⟨u, hu, hexec⟩ := s.exec_mark hw q
      have hcmd : u.markCmd q = u.count Ev.markovf q.val := by
        unfold State.markCmd
        dsimp only
        rw [hqu hu, if_neg (by simp [hres, hchain, hpend]), if_pos hlen]
      rw [hcmd] at hexec
      exact ⟨_, hexec, hu.count_rejected hwf _ _⟩
    · obtain ⟨u, hu, hexec⟩ := s.exec_rewind hw q i
      obtain ⟨hi, -⟩ := List.getElem?_eq_some_iff.1 hm
      obtain ⟨x, chans, hmarked, heq⟩ := (hu.takesMarks htakes).rewindCmd (i := i.toNat) (by rw [hqu hu]; exact hi)
      rw [heq] at hexec
      rw [hqu hu] at hmarked
      obtain ⟨hr, hmarks, -, hf, hx, hrcnt, hxcnt⟩ := hmarked.rewind hm
      have hbare := u.stepped_bare q x chans
      exact ⟨_, hexec, (congrArg Queue.r hbare).trans hr, (congrArg Queue.marks hbare).trans hmarks,
        (congrArg Queue.f hbare).trans hf, (congrArg Queue.w hbare).trans hx, (congrArg Queue.rcnt hbare).trans hrcnt,
        (congrArg Queue.xcnt hbare).trans hxcnt, hu.stepped_others q x chans, hu.stepped_hostFrame q x chans⟩
    · obtain ⟨u, hu, hexec⟩ := s.exec_rewind hw q i
      have hcmd : u.rewindCmd q i.toNat = u.count Ev.markrej q.val := by
        unfold State.rewindCmd
        dsimp only
        rw [hqu hu, if_pos (by simp [hlen])]
      rw [hcmd] at hexec
      exact ⟨_, hexec, hu.count_rejected hwf _ _⟩
    · obtain ⟨u, hu, hexec⟩ := s.exec_commit hw q
      obtain ⟨x, chans, hpasses, heq⟩ := u.commitMark_eq q
      rw [(hu.takesMarks htakes).commitCmd (by rw [hqu hu, hms]; simp), heq] at hexec
      rw [hqu hu, hms] at hpasses
      have hbare := u.stepped_bare q x chans
      have hx := hpasses.eq
      exact ⟨_, hexec, (congrArg Queue.marks hbare).trans (congrArg Queue.marks hx :),
        (congrArg Queue.h hbare).trans (congrArg Queue.h hx :), (congrArg Queue.r hbare).trans (congrArg Queue.r hx :),
        (congrArg Queue.w hbare).trans (congrArg Queue.w hx :), hu.stepped_others q x chans, hu.stepped_hostFrame q x chans⟩
    · obtain ⟨u, hu, hexec⟩ := s.exec_commit hw q
      have hcmd : u.commitCmd q = u.count Ev.markrej q.val := by
        unfold State.commitCmd
        dsimp only
        rw [hqu hu, if_pos (by simp [hms])]
      rw [hcmd] at hexec
      exact ⟨_, hexec, hu.count_rejected hwf _ _⟩
  · intro crossed
    have hcross {x : Queue} {c : MarkCmd} (chans : Vector Chan 2) (h : (s.qu q).Marked c x) :
        crossed ((s.stepped q x chans).crossReader q) := fun m => by
      have hpo := (s.stepped q x chans).crossReader_po q m
      rw [s.stepped_readPort chans h.qcfg] at hpo
      exact hpo
    have hframe (x : Queue) (chans : Vector Chan 2) :
        ((s.stepped q x chans).crossReader q).bare = ({ s with
          ports := ((s.stepped q x chans).crossReader q).ports, queues := ((s.stepped q x chans).crossReader q).queues
          chans := ((s.stepped q x chans).crossReader q).chans, order := ((s.stepped q x chans).crossReader q).order } :
            State).bare := by
      have h := (s.stepped q x chans).crossReader_frame q
      generalize (s.stepped q x chans).crossReader q = t at h ⊢
      rw [h]
      rfl
    have hqus (x : Queue) (chans : Vector Chan 2) (k : QId) :
        ((s.stepped q x chans).crossReader q).qu k = (s.stepped q x chans).qu k :=
      (congrArg (fun t : State => t.qu k) ((s.stepped q x chans).crossReader_frame q) :)
    refine ⟨fun hw hres hchain hpend hlen hread hclk hen => ?_, fun h => ?_, fun hrun hreset hpend => ?_,
      fun i m hrun hreset hpend hm => ?_⟩
    · obtain ⟨u, ⟨⟨a, b, rfl⟩, hcore⟩, hexec⟩ := s.exec_mark hw q
      let u : State := { s with pathA := a, pathB := b }
      have hlate : (u.setQu q ((u.qu q).asked .mark)).markAtOnce q = false := by
        have hread' : (u.setQu q ((u.qu q).asked .mark)).readPort q = some n := (u.setQu_asked_readPort q .mark).trans hread
        have hclk' : (u.po n).noclk = false := hclk
        have hen' : u.dp.en = true := hen
        simp [State.markAtOnce, hread', hclk', hen']
      have hcmd : u.markCmd q = u.setQu q ((s.qu q).asked .mark) := by
        unfold State.markCmd
        dsimp only
        have huqu : u.qu q = s.qu q := rfl
        rw [huqu, if_neg (by simp [hres, hchain, hpend]), if_neg (by omega)]
        exact if_neg (by rw [← Bool.not_eq_true] at hlate; exact hlate)
      refine ⟨_, hexec.trans (congrArg Host.Outcome.next hcmd), ?_, fun k hk => ?_, rfl, hcore⟩
      · rw [State.setQu_qu]
        rfl
      · rw [State.setQu_qu_ne _ q k _ hk]
        rfl
    · refine congrArg Host.Outcome.next (s.markApply_of_not ?_)
      rcases h with h | h | h
      · exact .inl h
      · exact .inr (.inl h)
      · exact .inr (.inr (.inl h))
    · obtain ⟨x, chans, hmarked, heq⟩ := s.markApply_eq hrun hmid hreset hpend hlost
      obtain ⟨hmarks, hr, hnone, -, -⟩ := hmarked.mark
      have hbare := s.stepped_bare q x chans
      rw [← hqus x chans q] at hbare
      refine ⟨_, congrArg Host.Outcome.next heq, (congrArg Queue.marks hbare).trans hmarks,
        (congrArg Queue.markPend hbare).trans hnone, (congrArg Queue.r hbare).trans hr, fun k hk => ?_, hcross chans hmarked,
        hframe x chans⟩
      rw [hqus, s.stepped_other hk]
    · obtain ⟨x, chans, hmarked, heq⟩ := s.markApply_eq hrun hmid hreset hpend hlost
      obtain ⟨hr, hmarks, hnone, hf, hx, -, -⟩ := hmarked.rewind hm
      have hbare := s.stepped_bare q x chans
      rw [← hqus x chans q] at hbare
      refine ⟨_, congrArg Host.Outcome.next heq, (congrArg Queue.r hbare).trans hr, (congrArg Queue.marks hbare).trans hmarks,
        (congrArg Queue.markPend hbare).trans hnone, (congrArg Queue.f hbare).trans hf, (congrArg Queue.w hbare).trans hx,
        fun k hk => ?_, hcross chans hmarked, hframe x chans⟩
      rw [hqus, s.stepped_other hk]
  · exact congrArg Host.Outcome.next (s.markApply_of_not (.inr (.inr (.inr hmid))))
end

section
/-!
SUPPORT, O27. The stored flags of a queue, evaluated and left (Table 5.2).
-/

-- The theorems one after another: side by side they take more threads than the check allows.
set_option Elab.async false

namespace Sys2Proof.Machine

variable (s : State)

/-! ### What the Scaler reads of the ports -/

/-- A port without what its launching edges show and its capture records: what the Scaler can read of it, and more. -/
def Port.load (x : Port) : Port :=
  { x.inner with
    capTrig := false, capArmed := false, capDone := false, capWait := false, capt0 := 0, capt1 := 0, capt2 := 0 }

/-- `t` differs from `s` in what ports show and record, and in nothing else. -/
structure State.portsOnly (s t : State) : Prop where
  frame : t = { s with ports := t.ports }
  load : ∀ n, (t.po n).load = (s.po n).load

theorem State.portsOnly.refl (s : State) : s.portsOnly s := ⟨rfl, fun _ => rfl⟩

theorem State.portsOnly.trans {s t u : State} (h : s.portsOnly t) (k : t.portsOnly u) : s.portsOnly u where
  frame := k.frame.trans (congrArg (fun v : State => { v with ports := u.ports }) h.frame)
  load n := (k.load n).trans (h.load n)

theorem State.portsOnly.lcfg {s t : State} (h : s.portsOnly t) (n : PId) : (t.po n).lcfg = (s.po n).lcfg :=
  (congrArg Port.lcfg (h.load n) :)

theorem State.portsOnly.en {s t : State} (h : s.portsOnly t) (n : PId) : (t.po n).en = (s.po n).en :=
  (congrArg Port.en (h.load n) :)

/-- A sum over the ports of what pins and captures do not change. -/
theorem State.portsOnly.sum {s t : State} (h : s.portsOnly t) {f : Port → Nat} (hf : ∀ x, f x.load = f x) :
    (t.ports.toList.map f).sum = (s.ports.toList.map f).sum := by
  have hmap (v : Vector Port 4) : v.toList.map f = (v.map Port.load).toList.map f := by
    rw [Vector.toList_map, List.map_map]
    exact List.map_congr_left fun x _ => (hf x).symm
  have hload : t.ports.map Port.load = s.ports.map Port.load := by
    refine Vector.ext fun i hi => ?_
    simpa [State.po] using h.load ⟨i, hi⟩
  rw [hmap, hload, ← hmap]

theorem State.portsOnly_modPo (n : PId) {g : Port → Port} (h : ∀ x, (g x).load = x.load) : s.portsOnly (s.modPo n g) where
  frame := rfl
  load m := by
    by_cases hm : m = n
    · rw [hm, State.modPo_po, h]
    · rw [s.modPo_po_ne n m g hm]

theorem State.portsOnly_ite {s t u : State} {c : Prop} [Decidable c] (h : s.portsOnly t) (k : s.portsOnly u) :
    s.portsOnly (if c then t else u) := by
  split
  · exact h
  · exact k

theorem State.portsOnly_mirror (n : PId) (hi : BitVec 36) : s.portsOnly (s.mirror n hi) := by
  unfold State.mirror
  exact State.portsOnly_ite (s.portsOnly_modPo _ fun _ => rfl) (.refl s)

theorem State.portsOnly.qu {s t : State} (h : s.portsOnly t) (q : QId) : t.qu q = s.qu q :=
  (congrArg (fun u : State => u.qu q) h.frame :)

theorem State.portsOnly.readPort {s t : State} (h : s.portsOnly t) (q : QId) : t.readPort q = s.readPort q :=
  State.readPort_congr (by rw [h.qu]) h.lcfg h.en

theorem State.portsOnly.free {s t : State} (h : s.portsOnly t) (q : QId) : t.free q = s.free q := by
  have hpend : t.pend q = s.pend q := h.sum fun _ => rfl
  have hqu := h.qu q
  have hch (c : YId) : t.ch c = s.ch c := (congrArg (fun u : State => u.ch c) h.frame :)
  have hframes : t.frames q = s.frames q := (congrArg (fun u : State => u.frames q) h.frame :)
  have hheld : t.spillHeld q = s.spillHeld q := (congrArg (fun u : State => u.spillHeld q) h.frame :)
  rw [State.free, State.free, State.unusedShare, State.unusedShare]
  simp only [hqu, hpend, hframes, hheld]

theorem State.portsOnly.width {s t : State} (h : s.portsOnly t) (n : PId) : t.width n = s.width n := by
  rw [State.width, State.width, State.paired_of_lcfg h.lcfg, h.lcfg]

theorem State.portsOnly.qSeg {s t : State} (h : s.portsOnly t) (q : QId) : t.qSeg q = s.qSeg q := by
  have hseg (n : PId) : (t.po n).segMode = (s.po n).segMode := by rw [Port.segMode, Port.segMode, h.lcfg]
  have hfed : t.chainFed q = s.chainFed q := (congrArg (fun u : State => u.chainFed q) h.frame :)
  rw [State.qSeg, State.qSeg]
  simp only [h.readPort, hseg, h.qu, hfed]

theorem State.portsOnly.isOpen {s t : State} (h : s.portsOnly t) (q : QId) : t.isOpen q = s.isOpen q :=
  (congrArg (fun u : State => u.isOpen q) h.frame :)

theorem State.portsOnly.scaleIn {s t : State} (h : s.portsOnly t) (q : QId) : t.scaleIn q = s.scaleIn q := by
  have hdeliver : t.deliverable q = s.deliverable q := by
    rw [State.deliverable, State.deliverable]
    simp only [h.qu, h.qSeg, h.isOpen]
  have hwidth : t.qWidth q = s.qWidth q := by
    rw [State.qWidth, State.qWidth]
    simp only [h.readPort, h.width]
  have hresv : t.resv q = s.resv q := by
    have hsum := h.sum (f := fun x => x.held[q.val]) fun _ => rfl
    have hazl : t.azl = s.azl := (congrArg State.azl h.frame :)
    rw [State.resv, State.resv, hsum, hazl]
  have hspill : t.spillWant q = s.spillWant q := (congrArg (fun u : State => u.spillWant q) h.frame :)
  have hrefill : t.refillWant q = s.refillWant q := (congrArg (fun u : State => u.refillWant q) h.frame :)
  have hinstant : t.instant = s.instant := (congrArg State.instant h.frame :)
  rw [State.scaleIn, State.scaleIn]
  simp only [hdeliver, hwidth, h.qSeg, h.isOpen, h.free, hresv, hspill, hrefill, hinstant]

/-! ### Flags right, and flags kept -/

theorem State.flagsAt_congr {s t : State} {q : QId} (hqu : t.qu q = s.qu q) (hin : t.scaleIn q = s.scaleIn q) :
    t.flagsAt q ↔ s.flagsAt q := by
  have hopen : t.isOpen q = s.isOpen q := congrArg ScaleIn.isOpen hin
  have hfree : t.free q = s.free q := congrArg ScaleIn.free hin
  have hafl : t.afl q = s.afl q := by rw [State.afl, State.afl, hfree, hqu]
  simp only [State.flagsAt, State.aeSet, State.aeClear, State.afSet, State.afClear, hqu, hin, hopen, hafl]

theorem State.flagsKept_congr {s t u : State} {q : QId} (hqu : u.qu q = t.qu q) (hin : u.scaleIn q = t.scaleIn q)
    (h : s.flagsKept t q) : s.flagsKept u q := by
  have hopen : u.isOpen q = t.isOpen q := congrArg ScaleIn.isOpen hin
  have hfree : u.free q = t.free q := congrArg ScaleIn.free hin
  have hafl : u.afl q = t.afl q := by rw [State.afl, State.afl, hfree, hqu]
  simpa only [State.flagsKept, State.aeSet, State.aeClear, State.afSet, State.afClear, hqu, hopen, hafl] using h

theorem State.scale_qu (q : QId) : (s.scale q).qu q = (s.qu q).scale (s.scaleIn q) := State.setQu_qu _ _ _

/-- What the Scaler reads of a queue, and the queue without its flags, give its flags; so an evaluation of that queue alone
does as one of every queue. -/
theorem State.scale_flagsAt (q : QId) : (s.scale q).flagsAt q := by
  refine (State.flagsAt_congr ?_ ?_).1 (s.scaleAll_settled q)
  · rw [s.scaleAll_qu, s.scale_qu]
  · exact State.scaleIn_congr (s.scaleAll_bare.trans (s.scale_bare q).symm) q

/-- An evaluation keeps AE and the threshold part of AF where neither of their conditions holds (R128). -/
theorem State.scale_flagsKept {u : State} {q : QId} (hae : (s.qu q).ae = (u.qu q).ae)
    (hafth : (s.qu q).afth = (u.qu q).afth) : u.flagsKept (s.scale q) q := by
  have hin : (s.scale q).scaleIn q = s.scaleIn q := State.scaleIn_congr (s.scale_bare q) q
  have hopen : (s.scale q).isOpen q = s.isOpen q := congrArg ScaleIn.isOpen hin
  have hfree : (s.scale q).free q = s.free q := congrArg ScaleIn.free hin
  have hqu := s.scale_qu q
  have hafl : (s.scale q).afl q = ((s.qu q).cap : Int) - (s.scaleIn q).free := by
    rw [State.afl, hfree, hqu]
    rfl
  refine ⟨fun hset hclear => ?_, fun hset hclear => ?_⟩
  · simp only [State.aeSet, State.aeClear, hopen, hqu] at hset hclear
    rw [hqu, ← hae]
    refine (hyst_spec _ _ _).2.2 ?_ ?_
    · have hset' : ¬((s.qu q).rdbl ≤ (s.qu q).aeon.toNat ∨ (s.scaleIn q).isOpen = false) := hset
      simpa [not_or] using hset'
    · have hclear' : ¬((s.qu q).aeOffUsed < (s.qu q).rdbl ∧ (s.scaleIn q).isOpen = true) := hclear
      simpa using hclear'
  · simp only [State.afSet, State.afClear, hafl, hqu] at hset hclear
    rw [hqu, ← hafth]
    refine (hyst_spec _ _ _).2.2 ?_ ?_
    · have hset' : ¬((s.qu q).afon.toNat : Int) ≤ ((s.qu q).cap : Int) - (s.scaleIn q).free := hset
      simpa using hset'
    · have hclear' : ¬((s.qu q).cap : Int) - (s.scaleIn q).free < ((s.qu q).afOffUsed : Int) := hclear
      simpa using hclear'

theorem State.scaleAll_flagsKept {u : State} {q : QId} (hae : (s.qu q).ae = (u.qu q).ae)
    (hafth : (s.qu q).afth = (u.qu q).afth) : u.flagsKept s.scaleAll q := by
  refine State.flagsKept_congr ?_ ?_ (s.scale_flagsKept hae hafth)
  · rw [s.scaleAll_qu, s.scale_qu]
  · exact State.scaleIn_congr (s.scaleAll_bare.trans (s.scale_bare q).symm) q

theorem State.aeSet_of_bare {s t : State} (h : t.bare = s.bare) (q : QId) :
    (t.aeSet q ↔ s.aeSet q) ∧ (t.aeClear q ↔ s.aeClear q) ∧ (t.afSet q ↔ s.afSet q) ∧ (t.afClear q ↔ s.afClear q) := by
  have hqu : (t.qu q).bare = (s.qu q).bare := State.bare_eq_qu h q
  have hin : t.scaleIn q = s.scaleIn q := State.scaleIn_congr h q
  have hopen : t.isOpen q = s.isOpen q := congrArg ScaleIn.isOpen hin
  have hfree : t.free q = s.free q := congrArg ScaleIn.free hin
  have hrdbl : (t.qu q).rdbl = (s.qu q).rdbl := (congrArg Queue.rdbl hqu :)
  have hcap : (t.qu q).cap = (s.qu q).cap := (congrArg Queue.cap hqu :)
  have haeon : (t.qu q).aeon = (s.qu q).aeon := (congrArg Queue.aeon hqu :)
  have hafon : (t.qu q).afon = (s.qu q).afon := (congrArg Queue.afon hqu :)
  have haeoff : (t.qu q).aeOffUsed = (s.qu q).aeOffUsed := (congrArg Queue.aeOffUsed hqu :)
  have hafoff : (t.qu q).afOffUsed = (s.qu q).afOffUsed := (congrArg Queue.afOffUsed hqu :)
  simp only [State.aeSet, State.aeClear, State.afSet, State.afClear, State.afl, hopen, hfree, hrdbl, hcap, haeon, hafon,
    haeoff, hafoff, and_self]

/-- A second evaluation of the same state keeps what the first has kept. -/
theorem State.flagsKept_trans {s t u : State} {q : QId} (h : s.flagsKept t q) (k : t.flagsKept u q) (hbare : u.bare = t.bare) :
    s.flagsKept u q := by
  obtain ⟨hset, hclear, hset', hclear'⟩ := State.aeSet_of_bare hbare q
  obtain ⟨hae, haf⟩ := h
  obtain ⟨kae, kaf⟩ := k
  exact ⟨fun n c => (kae n c).trans (hae (fun a => n (hset.2 a)) fun a => c (hclear.2 a)),
    fun n c => (kaf n c).trans (haf (fun a => n (hset'.2 a)) fun a => c (hclear'.2 a))⟩

/-! ### Operations on a queue that leave its stored flags -/

/-- AE, the threshold part of AF and the pending mark command of a queue. -/
def Queue.keptFlags (x : Queue) : Bool × Bool × Option MarkCmd := (x.ae, x.afth, x.markPend)

/-- AE, the threshold part of AF and the pending mark command of every queue are as they were. -/
def State.sameAe (s t : State) : Prop := ∀ q, (t.qu q).keptFlags = (s.qu q).keptFlags

theorem State.sameAe.ae {s t : State} (h : s.sameAe t) (q : QId) : (t.qu q).ae = (s.qu q).ae := congrArg Prod.fst (h q)

theorem State.sameAe.afth {s t : State} (h : s.sameAe t) (q : QId) : (t.qu q).afth = (s.qu q).afth :=
  congrArg (fun x => x.2.1) (h q)

theorem State.sameAe.markPend {s t : State} (h : s.sameAe t) (q : QId) : (t.qu q).markPend = (s.qu q).markPend :=
  congrArg (fun x => x.2.2) (h q)

theorem State.sameAe.trans {s t u : State} (h : s.sameAe t) (k : t.sameAe u) : s.sameAe u := fun q =>
  (k q).trans (h q)

theorem State.sameAe_of_qu {s t : State} (h : ∀ q, t.qu q = s.qu q) : s.sameAe t := fun q => by simp [h]

theorem State.sameAe_setQu {q : QId} {x : Queue} (h : x.keptFlags = (s.qu q).keptFlags) :
    s.sameAe (s.setQu q x) := fun k => by
  by_cases hk : k = q
  · rw [hk, State.setQu_qu]
    exact h
  · rw [s.setQu_qu_ne q k x hk]

theorem State.sameAe_modQu {q : QId} {g : Queue → Queue} (h : ∀ x, (g x).keptFlags = x.keptFlags) :
    s.sameAe (s.modQu q g) := s.sameAe_setQu (h _)

theorem State.sameAe_count (code inst : Nat) : s.sameAe (s.count code inst) :=
  State.sameAe_of_qu fun k => s.countN_qu_frame code inst 1 k

theorem State.sameAe_demand (n : Nat) : s.sameAe (s.demand n) := State.sameAe_of_qu fun _ => rfl

theorem State.settle_sameAe (q : QId) : s.sameAe (s.settle q) := by
  obtain ⟨x, chans, heq, hpasses⟩ := s.settle_passes q
  rw [heq]
  refine State.sameAe.trans (s.sameAe_setQu (x := x) ?_) (State.sameAe_of_qu fun _ => rfl)
  rw [hpasses.eq]
  rfl

theorem State.jumpN_sameAe (k : Nat) (q : QId) : s.sameAe (s.jumpN k q) := by
  induction k generalizing s with
  | zero => exact State.sameAe_of_qu fun _ => rfl
  | succ k ih =>
    rw [State.jumpN]
    split
    · exact State.sameAe_of_qu fun _ => rfl
    next t _ =>
      refine ((s.sameAe_modQu fun x => ?_).trans (State.settle_sameAe _ q)).trans (ih _)
      rw [Queue.jump]
      dsimp only
      split <;> rfl

theorem State.jumpLost_sameAe (q : QId) : s.sameAe (s.jumpLost q) := s.jumpN_sameAe _ q

theorem State.readStave_sameAe (q : QId) (stave : Nat) (e : Ecc) : s.sameAe (s.readStave q stave e) := by
  unfold State.readStave
  dsimp only
  split
  · refine State.sameAe.trans ?_ (State.sameAe_count _ Ev.lue 0)
    exact s.sameAe_modQu fun _ => rfl
  · split
    · exact s.sameAe_count Ev.lce 0
    · exact State.sameAe_of_qu fun _ => rfl

theorem State.enterStave_sameAe (q : QId) (stave : Nat) (ecc : List Ecc) : s.sameAe (s.enterStave q stave ecc).1 := by
  unfold State.enterStave
  split
  · exact State.sameAe_of_qu fun _ => rfl
  · refine State.sameAe.trans ?_ (State.sameAe_demand _ 8)
    exact (s.readStave_sameAe q stave _).trans (State.sameAe_modQu _ fun _ => rfl)

theorem State.takeSlots_sameAe (n : Nat) (q : QId) (ecc : List Ecc) : s.sameAe (s.takeSlots n q ecc).2.2 := by
  induction n generalizing s ecc with
  | zero => exact State.sameAe_of_qu fun _ => rfl
  | succ n ih =>
    have henter := (s.jumpLost_sameAe q).trans
      ((s.jumpLost q).enterStave_sameAe q (((s.jumpLost q).qu q).r.toNat / 32) ecc)
    rw [State.takeSlots]
    dsimp only
    generalize (s.jumpLost q).enterStave q (((s.jumpLost q).qu q).r.toNat / 32) ecc = e at henter ⊢
    split
    · exact henter
    · refine henter.trans (State.sameAe.trans (State.sameAe_setQu _ ?_) (ih _ _))
      rw [Queue.advance]
      split <;> rfl

end Sys2Proof.Machine
end

section
/-!
O27. The stored flags after a port enable, a commit, a delivery and a mark applied.
-/

-- The theorems one after another: side by side they take more threads than the check allows.
set_option Elab.async false

namespace Sys2Proof.Machine

variable (s : State)

/-! ### What a port shows, and the flags -/

theorem State.portsOnly.modPo {s t : State} (h : s.portsOnly t) (n : PId) {g : Port → Port}
    (hg : ∀ x, (g x).load = x.load) : s.portsOnly (t.modPo n g) := h.trans (t.portsOnly_modPo n hg)

theorem State.portsOnly.mirror {s t : State} (h : s.portsOnly t) (n : PId) (hi : BitVec 36) : s.portsOnly (t.mirror n hi) :=
  h.trans (t.portsOnly_mirror n hi)

theorem Port.captureOut_load (x : Port) (d : BitVec 36) (qa : BitVec 4) (fr : BitVec 2) (dv err : Bool) :
    (x.captureOut d qa fr dv err).load = x.load := by
  unfold Port.captureOut
  split <;> rfl

theorem State.showEdge_portsOnly (n : PId) (shown : QId) : s.portsOnly (s.showEdge n shown) := by
  unfold State.showEdge State.showFlags
  refine .mirror (.modPo (s.portsOnly_modPo n ?_) n ?_) n _
  · exact fun _ => rfl
  · exact fun _ => rfl

theorem State.holdLow_portsOnly (n : PId) : s.portsOnly (s.holdLow n) := by
  unfold State.holdLow
  refine State.portsOnly_ite (.mirror (s.portsOnly_modPo n ?_) n _) (.refl s)
  exact fun _ => rfl

theorem State.egressPins_portsOnly (n : PId) (q shown : QId) (sent short : Bool) :
    s.portsOnly (s.egressPins n q shown sent short) := by
  unfold State.egressPins
  refine .trans (.trans (s.portsOnly_modPo n ?_) (State.showEdge_portsOnly _ n shown)) (State.holdLow_portsOnly _ n)
  exact fun _ => rfl

theorem State.crossReader_portsOnly (q : QId) : s.portsOnly (s.crossReader q) := by
  unfold State.crossReader
  split
  · exact .refl s
  · exact s.portsOnly_modPo _ fun _ => rfl

/-- The flags of queue `q` have been evaluated for a state whose AE and threshold part of AF are those of `s`, and ports
alone may have changed since. -/
def State.evaluated (s t : State) (q : QId) : Prop :=
  ∃ w : State, (w.qu q).ae = (s.qu q).ae ∧ (w.qu q).afth = (s.qu q).afth ∧ (w.scale q).portsOnly t

theorem State.evaluated.flagsAt {s t : State} {q : QId} (h : s.evaluated t q) : t.flagsAt q := by
  obtain ⟨w, -, -, hports⟩ := h
  exact (State.flagsAt_congr (hports.qu q) (hports.scaleIn q)).2 (w.scale_flagsAt q)

theorem State.evaluated.flagsKept {s t : State} {q : QId} (h : s.evaluated t q) : s.flagsKept t q := by
  obtain ⟨w, hae, hafth, hports⟩ := h
  exact State.flagsKept_congr (hports.qu q) (hports.scaleIn q) (w.scale_flagsKept hae hafth)

theorem State.evaluated.trans {s t u : State} {q : QId} (h : s.evaluated t q) (k : t.portsOnly u) : s.evaluated u q := by
  obtain ⟨w, hae, hafth, hports⟩ := h
  exact ⟨w, hae, hafth, hports.trans k⟩

theorem State.sameAe.evaluated {s t u : State} {q : QId} (h : s.sameAe t) (k : t.evaluated u q) : s.evaluated u q := by
  obtain ⟨w, hae, hafth, hports⟩ := k
  exact ⟨w, hae.trans (h.ae q), hafth.trans (h.afth q), hports⟩

/-! ### A pending mark command applied -/

theorem Queue.applyMark_ae (x : Queue) (c : MarkCmd) : (x.applyMark c).ae = x.ae ∧ (x.applyMark c).afth = x.afth := by
  cases c <;> exact ⟨rfl, rfl⟩

theorem State.applyPend_evaluated {q : QId} (h : (s.qu q).markPend ≠ none) : s.evaluated (s.applyPend q) q := by
  rw [State.applyPend]
  split
  next hnone => exact absurd hnone h
  next c _ =>
    generalize hu : s.nextOrder.modQu q (fun x => x.applyMark c) = u
    have hqu : u.qu q = (s.qu q).applyMark c := by rw [← hu, State.modQu_qu]; rfl
    have hsame := (u.settle_sameAe q).trans (State.jumpLost_sameAe _ q)
    refine ⟨(u.settle q).jumpLost q, ?_, ?_, State.crossReader_portsOnly _ q⟩
    · rw [hsame.ae, hqu, ((s.qu q).applyMark_ae c).1]
    · rw [hsame.afth, hqu, ((s.qu q).applyMark_ae c).2]

/-! ### A word delivered -/

theorem State.beginLaunch_sameAe (n : PId) (q : QId) (b : Option Pos) :
    s.sameAe (match b, (s.qu q).segs.find? (fun g => g.start == (s.qu q).r) with
      | some e, some g => s.modQu q fun x => { x with launched := some e, launchPort := n, bark1 := x.launchSlot1 g }
      | _, _ => s) := by
  split
  · exact s.sameAe_modQu fun _ => rfl
  · exact fun _ => rfl

theorem State.deliver_evaluated (n : PId) (q : QId) (l : Launch) (b : Option Pos) (ecc : List Ecc) :
    s.evaluated (s.deliver n q l b ecc) q ∧ (((s.deliver n q l b ecc).qu q).markPend = (s.qu q).markPend) := by
  unfold State.deliver
  extract_lets w mpar s₁ x i1
  clear_value i1
  have h₁ : s.sameAe s₁ := s.beginLaunch_sameAe n q b
  have h₂ := h₁.trans (s₁.takeSlots_sameAe l.take q ecc)
  generalize s₁.takeSlots l.take q ecc = taken at h₂ ⊢
  obtain ⟨vs, ecc', s₂⟩ := taken
  dsimp only at h₂ ⊢
  generalize hs₃ : (if (vs.any fun x => x.poison) = true then s₂.count Ev.poison q.val else s₂) = s₃
  have h₃ : s.sameAe s₃ := by
    rw [← hs₃]
    split
    · exact h₂.trans (s₂.sameAe_count _ _)
    · exact h₂
  have h₄ : s.sameAe ((s₃.settle q).jumpLost q) := (h₃.trans (s₃.settle_sameAe q)).trans (State.jumpLost_sameAe _ q)
  have hports (g : Port → Port) (hg : ∀ x, (g x).load = x.load) (hi : BitVec 36) :
      (((s₃.settle q).jumpLost q).scale q).portsOnly (((((s₃.settle q).jumpLost q).scale q).modPo n g).mirror n hi) :=
    .mirror (State.portsOnly_modPo _ n hg) n hi
  refine ⟨⟨_, h₄.ae q, h₄.afth q, hports _ ?_ _⟩, ?_⟩
  · exact fun _ => rfl
  · refine (congrArg Queue.markPend ((hports _ ?_ _).qu q)).trans ?_
    · exact fun _ => rfl
    · rw [State.scale_qu_markPend, h₄.markPend]

theorem segReach_launched (x : Queue) (e : Option Pos) (a w : Int) (gs : List Seg) (r : Int) :
    segReach { x with launched := e } a w gs r = segReach x a w gs r := by
  induction gs generalizing r with
  | nil => rfl
  | cons g gs ih =>
    simp only [segReach, ih]
    rfl

/-! A launch that is over leaves nothing more of its segment to deliver, so the Scaler reads the same of the queue. -/

section
variable (q : QId)

/-- The launch of queue `q` is over. -/
def State.unlaunch : State := s.setQu q { s.qu q with launched := none }

theorem State.unlaunch_qu : (s.unlaunch q).qu q = { s.qu q with launched := none } := State.setQu_qu _ _ _

theorem State.unlaunch_readPort : (s.unlaunch q).readPort q = s.readPort q :=
  State.readPort_congr (by rw [s.unlaunch_qu]) (fun _ => rfl) (fun _ => rfl)

theorem State.unlaunch_qSeg : (s.unlaunch q).qSeg q = s.qSeg q := by
  simp only [State.qSeg, s.unlaunch_readPort, s.unlaunch_qu]
  rfl

theorem State.unlaunch_isOpen : (s.unlaunch q).isOpen q = s.isOpen q := by
  simp only [State.isOpen, s.unlaunch_qu]
  rfl

theorem State.unlaunch_frames : (s.unlaunch q).frames q = s.frames q := by
  simp only [State.frames, s.unlaunch_qu]
  rfl

theorem State.unlaunch_free : (s.unlaunch q).free q = s.free q := by
  simp only [State.free, State.spillHeld, State.unusedShare, s.unlaunch_frames, s.unlaunch_qu]
  rfl

theorem State.unlaunch_spillWant : (s.unlaunch q).spillWant q = s.spillWant q := by
  simp only [State.spillWant, s.unlaunch_frames, s.unlaunch_qu]
  rfl

theorem State.unlaunch_refillWant : (s.unlaunch q).refillWant q = s.refillWant q := by
  simp only [State.refillWant, s.unlaunch_frames, s.unlaunch_qu]
  rfl

variable {q} {e : Pos} (hlaunched : (s.qu q).launched = some e) (hend : (s.qu q).off e ≤ (s.qu q).off (s.qu q).r)
include hlaunched hend

theorem State.unlaunch_deliverable : (s.unlaunch q).deliverable q = s.deliverable q := by
  simp only [State.deliverable, s.unlaunch_qSeg, s.unlaunch_isOpen, s.unlaunch_qu, hlaunched]
  split
  · split
    · exact congrArg (fun z : Int => (z - _).toNat) (segReach_launched _ none _ _ _ _)
    · exact (Nat.sub_eq_zero_of_le ((Nat.min_le_right _ _).trans hend)).symm
  · rfl

theorem State.unlaunch_scaleIn : (s.unlaunch q).scaleIn q = s.scaleIn q := by
  simp only [State.scaleIn, State.qWidth, s.unlaunch_deliverable hlaunched hend, s.unlaunch_readPort, s.unlaunch_qSeg,
    s.unlaunch_isOpen, s.unlaunch_free, s.unlaunch_spillWant, s.unlaunch_refillWant]
  rfl

end

theorem State.unlaunch_flagsAt {q : QId} (hin : (s.unlaunch q).scaleIn q = s.scaleIn q) (h : s.flagsAt q) :
    (s.unlaunch q).flagsAt q := by
  have hopen := s.unlaunch_isOpen q
  have hfree := s.unlaunch_free q
  simp only [State.flagsAt, State.aeSet, State.aeClear, State.afSet, State.afClear, State.afl, hin, hopen, hfree,
    s.unlaunch_qu] at h ⊢
  exact h

theorem State.unlaunch_flagsKept {t : State} {q : QId} (h : s.flagsKept t q) : s.flagsKept (t.unlaunch q) q := by
  have hopen := t.unlaunch_isOpen q
  have hfree := t.unlaunch_free q
  simp only [State.flagsKept, State.aeSet, State.aeClear, State.afSet, State.afClear, State.afl, hopen, hfree,
    t.unlaunch_qu] at h ⊢
  exact h

theorem State.endLaunch_flags {t : State} {q : QId} (h : s.evaluated t q) :
    (t.endLaunch q).flagsAt q ∧ ((t.qu q).markPend = none → s.flagsKept (t.endLaunch q) q) := by
  unfold State.endLaunch
  split
  next e hlaunched =>
    split
    next hend =>
      change ((t.unlaunch q).applyPend q).flagsAt q ∧ (_ → s.flagsKept ((t.unlaunch q).applyPend q) q)
      have hpend' : ((t.unlaunch q).qu q).markPend = (t.qu q).markPend := by rw [t.unlaunch_qu]
      by_cases hpend : (t.qu q).markPend = none
      · have hstay : (t.unlaunch q).applyPend q = t.unlaunch q := by simp [State.applyPend, hpend', hpend]
        rw [hstay]
        exact ⟨t.unlaunch_flagsAt (t.unlaunch_scaleIn hlaunched hend) h.flagsAt, fun _ => State.unlaunch_flagsKept s h.flagsKept⟩
      · exact ⟨(State.applyPend_evaluated _ (hpend'.symm ▸ hpend)).flagsAt, fun hnone => absurd hnone hpend⟩
    · exact ⟨h.flagsAt, fun _ => h.flagsKept⟩
  · exact ⟨h.flagsAt, fun _ => h.flagsKept⟩

/-! ### A port enabled -/

theorem State.poolCredits_moves (lo up : PId) : s.Moves (s.poolCredits lo up) := (s.moves_setPo lo _).trans (State.moves_setPo _ up _)

theorem State.latchPort_frame (n : PId) : s.latchPort n = { s with
    ports := (s.latchPort n).ports, queues := (s.latchPort n).queues, chans := (s.latchPort n).chans
    freeCtr := (s.latchPort n).freeCtr } := by
  unfold State.latchPort
  extract_lets was t
  have ht : s.Moves t := s.moves_modPo n _
  clear_value t
  have of_moves {u : State} (h : t.Moves u) : u = { s with
      ports := u.ports, queues := u.queues, chans := u.chans, freeCtr := u.freeCtr } := by
    have hu := (ht.trans h).frame
    have hctr : u.freeCtr = s.freeCtr := (congrArg State.freeCtr hu :)
    rw [hctr]
    exact hu
  split
  · split
    · exact of_moves (((t.poolCredits_moves n _).trans (State.moves_modPo _ _ _)).trans (State.drain_moves _ _))
    · split
      · have hcut := ht.trans (t.moves_modPo n Port.cutCredits)
        generalize t.modPo n Port.cutCredits = u at hcut
        have hstart := u.startPins_frame (upperPort n)
        generalize u.startPins (upperPort n) = v at hstart ⊢
        have hqueues : v.queues = u.queues := (congrArg State.queues hstart :)
        have hchans : v.chans = u.chans := (congrArg State.chans hstart :)
        rw [hqueues, hchans]
        exact hstart.trans (congrArg (fun w : State => { w with ports := v.ports, freeCtr := v.freeCtr }) hcut.frame)
      · exact of_moves t.moves_refl
  · exact of_moves t.moves_refl

theorem State.enablePort_noReads (n : PId) (h : s.noReads) : (s.enablePort n).noReads := by
  unfold State.enablePort
  have hlatch := s.latchPort_frame n
  generalize s.latchPort n = t at hlatch
  have hstart := (t.modPo n fun x => { x with en := true }).startPins_frame n
  generalize (t.modPo n fun x => { x with en := true }).startPins n = u at hstart
  have hscale := u.moves_scaleAll.frame
  generalize u.scaleAll = v at hscale
  rw [hscale, hstart, hlatch]
  exact h

theorem State.exec_portEnable {p : Path} {n : PId} (hlands : s.landsNow p (.port n) 0) (hupper : s.isUpper n = false)
    (hreads : s.noReads) (hen : (s.po n).en = false) :
    ∃ u, s.pathFrame u ∧ exec (.portEnable p n) s = .next (u.enablePort n) := by
  obtain ⟨u, hu, hrow⟩ := s.rowPost_of_landsNow hlands (by simp) 1
  have hpo : u.po n = s.po n := by obtain ⟨⟨_, _, rfl⟩, -⟩ := hu; rfl
  have hup : u.isUpper n = false := by obtain ⟨⟨_, _, rfl⟩, -⟩ := hu; exact hupper
  have hwrite : u.pctlWrite n 1 = u.enablePort n := by
    rw [State.pctlWrite, hup, hpo, hen]
    rfl
  refine ⟨u, hu, congrArg Host.Outcome.next (hrow.trans ?_)⟩
  show (u.pctlWrite n 1).answerReads = _
  rw [hwrite]
  exact State.answerReads_of_noReads _ (u.enablePort_noReads n (hu.noReads hreads))

/-! ### A stave committed -/

theorem Queue.push_keptFlags (x : Queue) (vs : List Slot9) (cut : Bool) : (x.push vs cut).keptFlags = x.keptFlags := by
  obtain ⟨t, ht⟩ := Queue.foldSetEcc_keeps (x.newStaves vs.length) StaveEcc.clean x
  unfold Queue.push
  rw [ht]
  rfl

theorem Queue.addSeg_keptFlags (x : Queue) (d : DoneStave) (start : Pos) : (x.addSeg d start).keptFlags = x.keptFlags := by
  unfold Queue.addSeg
  dsimp only
  split
  · rfl
  · split <;> rfl

theorem Queue.closeSeg_keptFlags (x : Queue) (q : QId) (b : Bark) : (x.closeSeg q b).keptFlags = x.keptFlags := by
  unfold Queue.closeSeg
  split <;> rfl

theorem Queue.committed_keptFlags (x : Queue) (d : DoneStave) (q : QId) (start : Pos) :
    (x.committed d q start).keptFlags = x.keptFlags := by
  have hpush := x.push_keptFlags d.slots (d.last.isSome || d.flush)
  unfold Queue.committed
  dsimp only
  split
  · split
    · rw [Queue.closeSeg_keptFlags, Queue.addSeg_keptFlags, hpush]
    · rw [Queue.addSeg_keptFlags, hpush]
  · exact hpush

theorem State.commitDone_sameAe (d : DoneStave) : ∃ w, s.sameAe w ∧ s.commitDone d = w.scale d.q := by
  refine ⟨((s.pushed d).checkParity d.q d.checked).jumpLost d.q, ?_, rfl⟩
  have hpushed : s.sameAe (s.pushed d) := (s.sameAe_demand 8).trans (State.sameAe_setQu _ (Queue.committed_keptFlags _ _ _ _))
  have hparity : (s.pushed d).sameAe ((s.pushed d).checkParity d.q d.checked) :=
    State.sameAe_of_qu fun k => by rw [State.checkParity_eq, State.countN_qu_frame]
  exact (hpushed.trans hparity).trans (State.jumpLost_sameAe _ _)

theorem State.commitStave_flagsKept (n : PId) (d : DoneStave) (q : QId) : s.flagsKept (s.commitStave n d).scaleAll q := by
  rw [State.commitStave_eq]
  generalize hu : s.setPo n ((s.po n).gone d) = u
  have hqu (k : QId) : u.qu k = s.qu k := by rw [← hu]; rfl
  have hother := (u.commitDone_commits d).others q
  obtain ⟨w, hsame, heq⟩ := u.commitDone_sameAe d
  rw [heq] at hother ⊢
  by_cases hq : q = d.q
  · subst hq
    refine State.flagsKept_trans (w.scale_flagsKept ?_ ?_) (State.scaleAll_flagsKept _ rfl rfl) (State.scaleAll_bare _)
    · rw [hsame.ae, hqu]
    · rw [hsame.afth, hqu]
  · refine State.scaleAll_flagsKept _ ?_ ?_
    · rw [hother hq, hqu]
    · rw [hother hq, hqu]

/-! ### A COMMIT -/

theorem State.commitMark_evaluated (q : QId) : s.evaluated (s.commitMark q) q := by
  have hmod : s.sameAe (s.nextOrder.modQu q fun x => { x with marks := x.marks.tail }) :=
    State.sameAe.trans (State.sameAe_of_qu fun _ => rfl) (State.sameAe_modQu _ fun _ => rfl)
  have hsame := hmod.trans (State.settle_sameAe _ q)
  exact ⟨_, hsame.ae q, hsame.afth q, .refl _⟩

/-! ### An egress read that launches a word -/

/-- The captures of port `n`, and of the upper port of its pair, after an egress edge (R462). -/
def State.recordOut (s : State) (n : PId) (qa : BitVec 4) : State :=
  let p := (s.po n).pins
  let hi := (s.po (upperPort n)).pins.d
  let s := s.modPo n fun x => { x.captureOut p.d qa p.fr (p.dv == .high) (p.err == .low) with followed := true }
  if s.paired n then s.modPo (upperPort n) (Port.captureOut · hi qa p.fr (p.dv == .high) (p.err == .low)) else s

/-- What port `n`, which was `x` before, shows after the answer to a read. -/
def State.edgeShown (s : State) (x : Port) (n : PId) (q : QId) (qa : BitVec 4) (sent short : Bool) : State :=
  (s.recordOut n qa).egressPins n q (if x.follow && !x.segMode then q else (s.recordOut n qa).showNow n q) sent short

theorem State.recordOut_portsOnly (n : PId) (qa : BitVec 4) : s.portsOnly (s.recordOut n qa) := by
  unfold State.recordOut
  refine State.portsOnly.trans (s.portsOnly_modPo n ?_) (State.portsOnly_ite (State.portsOnly_modPo _ _ ?_) (.refl _))
  · exact fun x => (Port.captureOut_load x _ _ _ _ _ :)
  · exact fun x => Port.captureOut_load x _ _ _ _ _

theorem State.edgeShown_portsOnly (x : Port) (n : PId) (q : QId) (qa : BitVec 4) (sent short : Bool) :
    s.portsOnly (s.edgeShown x n q qa sent short) := (s.recordOut_portsOnly n qa).trans (State.egressPins_portsOnly ..)

/-- The state in which an egress port looks for a word: a twin has counted a refused one, and R is past lost billets. -/
def State.lookFor (s : State) (n : PId) (q : QId) : State :=
  let s := if s.twin && (s.po n).pins.fla == .low then s.count Ev.twinskew 0 else s
  if s.holder q == some n then s.jumpLost q else s

/-- A read of a port that runs, its staves not short: the word, or the pins of an edge without one, and what is shown. -/
theorem State.egressRead_eq {n : PId} {qa : BitVec 4} (ecc : List Ecc) {fetch : Fetched} {q : QId}
    (hq : (⟨qa.toNat, qa.isLt⟩ : QId) = q) (hactive : s.portActive n = true) (hegress : (s.po n).egress = true)
    (hstopped : (s.po n).stopped = false) (hstarved : (s.po n).starved = false) (hfetch : fetch ≠ .none) :
    s.egressRead n true qa fetch ecc =
      ((match (s.lookFor n q).launch n q with
        | some (l, b) => (s.lookFor n q).deliver n q l b ecc
        | none => (s.lookFor n q).idlePins n).edgeShown (s.po n) n q qa ((s.lookFor n q).launch n q).isSome
          (fetch != Fetched.enough)).endLaunch q := by
  subst hq
  unfold State.egressRead
  rw [s.edgeCame_of_running hstopped, if_neg (by simp [hactive, hegress])]
  simp only [Bool.not_true, Bool.false_eq_true, if_false, hfetch, hstarved]
  rfl

theorem State.lookFor_of_noLost (n : PId) {q : QId} (h : (s.qu q).noLost) :
    s.lookFor n q = { s with events := (s.lookFor n q).events } := by
  unfold State.lookFor
  extract_lets t
  have ht : t = { s with events := t.events } := by
    unfold t
    split
    · rw [State.count, State.countN]
      rfl
    · rfl
  have hqu : t.qu q = s.qu q := (congrArg (fun u : State => u.qu q) ht :)
  rw [State.jumpLost_of_noLost _ (by rwa [hqu]), ite_self]
  exact ht

theorem State.egressRead_flags {n : PId} {q : QId} {qa : BitVec 4} (ecc : List Ecc) {fetch : Fetched}
    (hq : (⟨qa.toNat, qa.isLt⟩ : QId) = q) (hactive : s.portActive n = true)
    (hegress : (s.po n).egress = true) (hstopped : (s.po n).stopped = false) (hstarved : (s.po n).starved = false)
    (hfetch : fetch ≠ .none) (hlost : (s.qu q).noLost) (hlaunch : s.launch n q ≠ none) :
    (s.egressRead n true qa fetch ecc).flagsAt q ∧
      ((s.qu q).markPend = none → s.flagsKept (s.egressRead n true qa fetch ecc) q) := by
  obtain ⟨⟨l, b⟩, hgo⟩ := Option.ne_none_iff_exists'.1 hlaunch
  rw [s.egressRead_eq ecc hq hactive hegress hstopped hstarved hfetch]
  have hframe := s.lookFor_of_noLost n hlost
  generalize s.lookFor n q = s₁ at hframe ⊢
  have hqu (k : QId) : s₁.qu k = s.qu k := (congrArg (fun t : State => t.qu k) hframe :)
  have hlaunch₁ : s₁.launch n q = s.launch n q := (congrArg (fun t : State => t.launch n q) hframe :)
  rw [hlaunch₁, hgo]
  obtain ⟨hdone, hpend⟩ := s₁.deliver_evaluated n q l b ecc
  have hshown := State.edgeShown_portsOnly (s₁.deliver n q l b ecc) (s.po n) n q qa true (fetch != Fetched.enough)
  have hall := (State.sameAe_of_qu hqu).evaluated (hdone.trans hshown)
  obtain ⟨hat, hkept⟩ := s.endLaunch_flags hall
  refine ⟨hat, fun hnone => hkept ?_⟩
  rw [hshown.qu, hpend, hqu, hnone]

end Sys2Proof.Machine

open Sys2Proof Sys2Proof.Machine

/-- Settles O27: each of the five commands ends with an evaluation of the flags it names, after which ports alone may change,
or a launch ends that had nothing more to deliver. -/
theorem flagsFollowTable : Obligations.FlagsFollowTable := by
  unfold Obligations.FlagsFollowTable
  refine ⟨fun p n s hlands hupper hreads hen => ?_, fun n d s hrun hreset hnext => ?_,
    fun n qa ecc fetch s => ?_, fun p q s hhost hreset hrewind hmarks => ?_, fun q s hrun hmid hreader hpend => ?_⟩
  · obtain ⟨u, -, hexec⟩ := s.exec_portEnable hlands hupper hreads hen
    exact ⟨_, hexec, State.scaleAll_settled _⟩
  · have hcommit : s.commitNext n = s.commitStave n d := by rw [State.commitNext, hnext]
    refine ⟨_, (s.execStaveCommit_eq hrun hreset).trans (by rw [hcommit]), State.scaleAll_settled _, fun hstuck q => ?_⟩
    rw [State.drainAll_of_stuck _ hstuck]
    exact s.commitStave_flagsKept n d q
  · intro q hactive hegress hstopped hstarved hfetch hlost hlaunch
    obtain ⟨hat, hkept⟩ := s.egressRead_flags ecc (q := q) rfl hactive hegress hstopped hstarved hfetch hlost hlaunch
    exact ⟨_, rfl, hat, hkept⟩
  · obtain ⟨u, hu, hexec⟩ := s.exec_commit hhost q
    have hcommit : u.commitCmd q = u.commitMark q := if_neg (by simp [hu.qu, hreset, hrewind, hmarks])
    have hdone := (State.sameAe_of_qu fun k => congrFun hu.qu k).evaluated (u.commitMark_evaluated q)
    exact ⟨_, hexec.trans (by rw [hcommit]), hdone.flagsAt, hdone.flagsKept⟩
  · have happly : s.markApply q = s.applyPend q := if_pos (by simp [hrun, hmid, hreader])
    have hdone := s.applyPend_evaluated hpend
    exact ⟨_, congrArg Host.Outcome.next happly, hdone.flagsAt, hdone.flagsKept⟩

end

section
/-!
O23. A QUEUE reset.
-/

-- The theorems one after another: side by side they take more threads than the check allows.
set_option Elab.async false

namespace Sys2Proof.Machine

variable (s : State)

/-! ### Staged words that move on leave alone a queue for which a port holds nothing -/

/-- The port holds neither words nor credits of queue `q`, and no segment of it is open or staged there. -/
structure Port.FreeOf (x : Port) (q : QId) : Prop where
  held : x.held[q.val] = 0
  spent : x.spent[q.val] = 0
  done : ∀ d ∈ x.done, d.q ≠ q
  cur : ∀ c, x.cur = some c → c.q ≠ some q
  staged : ∀ tag lenv crcin par k, Tok.lead tag lenv crcin par (some k) ∈ x.staging → k.q ≠ some q

/-- The port after words have moved on: what it holds for queues alone may have changed. -/
def Port.moved (x y : Port) : Prop :=
  y = { x with held := y.held, spent := y.spent, done := y.done, staging := y.staging, cur := y.cur }

theorem Port.FreeOf.spend {x : Port} {q k : QId} (h : x.FreeOf q) (hk : k ≠ q) : (x.spend k).FreeOf q := by
  have hv : k.val ≠ q.val := fun e => hk (Fin.ext e)
  obtain ⟨hheld, hspent, hdone, hcur, hstaged⟩ := h
  refine ⟨?_, ?_, hdone, hcur, hstaged⟩
  · simpa [Port.spend, Vector.getElem_set_ne _ _ hv] using hheld
  · simpa [Port.spend, Vector.getElem_set_ne _ _ hv] using hspent

theorem Port.FreeOf.withCur {x : Port} {q : QId} (h : x.FreeOf q) {c : Option CurSeg} {ts : List Tok}
    (hc : ∀ d, c = some d → d.q ≠ some q) (hts : ∀ a ∈ ts, a ∈ x.staging) :
    ({ x with staging := ts, cur := c } : Port).FreeOf q :=
  ⟨h.held, h.spent, h.done, hc, fun tag lenv crcin par k hm => h.staged tag lenv crcin par k (hts _ hm)⟩

theorem Port.FreeOf.withDone {x : Port} {q : QId} (h : x.FreeOf q) {ds : List DoneStave} (hds : ∀ d ∈ ds, d.q ≠ q) :
    ({ x with done := ds } : Port).FreeOf q := ⟨h.held, h.spent, hds, h.cur, h.staged⟩

/-- The staves that wait, one of them marked as a segment's last, are for the same queues. -/
theorem closeDone_q {k q : QId} {b : Bark} {ds es : List DoneStave} (h : closeDone k b ds = some es)
    (hds : ∀ d ∈ ds, d.q ≠ q) : ∀ e ∈ es, e.q ≠ q := by
  unfold closeDone at h
  split at h
  · cases h
  next d t hrev =>
    have hall : ∀ e ∈ d :: t, e.q ≠ q := fun e he => hds e (List.mem_reverse.1 (hrev ▸ he))
    have hd := hall d (List.mem_cons_self ..)
    have ht : ∀ e ∈ t, e.q ≠ q := fun e he => hall e (List.mem_cons_of_mem _ he)
    split at h
    · cases h
      intro e he
      rcases List.mem_cons.1 (List.mem_reverse.1 he) with rfl | he
      · exact hd
      · exact ht e he
    · split at h
      · cases h
      next i _ =>
        cases h
        intro e he
        rcases List.mem_cons.1 (List.mem_reverse.1 he) with rfl | he
        · exact hd
        · obtain ⟨j, hj, rfl⟩ := List.mem_iff_getElem.1 he
          rw [List.getElem_modify]
          have hmem := ht _ (List.getElem_mem (by simpa using hj))
          split <;> exact hmem

/-- A segment to another queue that ends at the port. -/
theorem State.endSeg_moved (n : PId) {c : CurSeg} {k q : QId} (trunc : Bool) (hfree : (s.po n).FreeOf q) (hk : k ≠ q) :
    ∃ y, y.FreeOf q ∧ (s.po n).moved y ∧
      (s.endSeg n c k trunc = s.setPo n y ∨ ∃ b, s.endSeg n c k trunc = (s.setPo n y).closeNow k b) := by
  have hended : ({ s.po n with cur := none } : Port).FreeOf q := hfree.withCur (fun _ h => nomatch h) fun _ h => h
  unfold State.endSeg
  dsimp only
  split
  · split
    next ds hds => exact ⟨_, hended.withDone (closeDone_q hds hended.done), rfl, .inl rfl⟩
    · exact ⟨_, hended, rfl, .inr ⟨_, rfl⟩⟩
  · refine ⟨_, ?_, ?_, .inl rfl⟩
    · refine (hended.spend hk).withDone fun d hd => ?_
      rcases List.mem_append.1 hd with hd | hd
      · exact hended.done d hd
      · rw [List.mem_singleton.1 hd]
        exact hk
    · rfl

theorem State.setPo_setPo (n : PId) (x y : Port) : (s.setPo n x).setPo n y = s.setPo n y := by
  simp [State.setPo]

theorem State.setPo_modPo (n : PId) (x : Port) (g : Port → Port) : (s.setPo n x).modPo n g = s.setPo n (g x) := by
  rw [State.modPo, s.setPo_po, s.setPo_setPo]

/-- The next staged word moves on: its port is free of the queue as before, and no other queue's end touches it. -/
theorem State.drainOne_moved {n : PId} {t : State} {q : QId} (h : s.drainOne n = some t) (hfree : (s.po n).FreeOf q) :
    ∃ y, y.FreeOf q ∧ (s.po n).moved y ∧ (t = s.setPo n y ∨ ∃ k b, k ≠ q ∧ t = (s.setPo n y).closeNow k b) := by
  unfold State.drainOne at h
  dsimp only at h
  split at h
  · cases h
  · split at h
    next tag lenv crcin par k ts hcur hst =>
      cases h
      have hk := hfree.staged tag lenv crcin par k (hst ▸ List.mem_cons_self ..)
      refine ⟨_, hfree.withCur (fun d hd => ?_) fun a ha => hst ▸ List.mem_cons_of_mem _ ha, rfl, .inl rfl⟩
      cases hd
      exact hk
    next c tok ts hcur hst =>
      have hts : ∀ a ∈ ts, a ∈ (s.po n).staging := fun a ha => hst ▸ List.mem_cons_of_mem _ ha
      have hc := hfree.cur c hcur
      split at h
      · cases h
      next v par =>
        split at h
        · cases h
          exact ⟨_, hfree.withCur (fun d hd => hfree.cur d hd) hts, rfl, .inl rfl⟩
        next k hq =>
          have hk : k ≠ q := fun e => hc (hq.trans (congrArg some e))
          have hadd : (c.add v par).q ≠ some q := hc
          split at h
          · cases h
          · split at h
            · cases h
              refine ⟨_, ?_, ?_, .inl rfl⟩
              · refine Port.FreeOf.withDone (Port.FreeOf.withCur (hfree.spend hk) (fun d hd => ?_) hts) fun d hd => ?_
                · cases hd
                  exact hadd
                · rcases List.mem_append.1 hd with hd | hd
                  · exact hfree.done d hd
                  · rw [List.mem_singleton.1 hd]
                    exact hk
              · rfl
            · cases h
              refine ⟨_, hfree.withCur (fun d hd => ?_) hts, rfl, .inl rfl⟩
              cases hd
              exact hadd
      next trunc discard =>
        split at h
        · cases h
          refine ⟨_, ?_, ?_, .inl rfl⟩
          · exact hfree.withCur (fun _ hd => nomatch hd) hts
          · rfl
        next k hq =>
          have hk : k ≠ q := fun e => hc (hq.trans (congrArg some e))
          have hrest : ({ s.po n with staging := ts } : Port).FreeOf q := hfree.withCur (fun d hd => hfree.cur d hd) hts
          split at h
          · cases h
            rw [s.setPo_modPo]
            refine ⟨_, ?_, ?_, .inl rfl⟩
            · exact hfree.withCur (fun _ hd => nomatch hd) hts
            · rfl
          · cases h
            rw [← s.setPo_po n { s.po n with staging := ts }] at hrest
            obtain ⟨y, hy, hmoved, heq⟩ := State.endSeg_moved _ n (c := c) trunc hrest hk
            rw [s.setPo_po] at hmoved
            rw [s.setPo_setPo] at heq
            refine ⟨y, hy, hmoved, ?_⟩
            rcases heq with heq | ⟨b, heq⟩
            · exact .inl heq
            · exact .inr ⟨k, b, hk, heq⟩
    · cases h

/-- `t` is `s` after words have moved on, none of them of queue `q`. -/
structure State.Bypasses (s t : State) (q : QId) : Prop where
  free : ∀ n, (t.po n).FreeOf q
  qu : t.qu q = s.qu q
  moved : ∀ n, (s.po n).moved (t.po n)

theorem Port.moved_refl (x : Port) : x.moved x := rfl

theorem Port.moved.keeps {x y : Port} (h : x.moved y) : y.partials = x.partials ∧ y.crossed = x.crossed ∧ y.pins = x.pins :=
  ⟨(congrArg Port.partials h :), (congrArg Port.crossed h :), (congrArg Port.pins h :)⟩

theorem Port.moved.trans {x y z : Port} (h : x.moved y) (k : y.moved z) : x.moved z := by
  unfold Port.moved at h k ⊢
  rw [k, h]

theorem State.Bypasses.trans {s t u : State} {q : QId} (h : s.Bypasses t q) (k : t.Bypasses u q) : s.Bypasses u q :=
  ⟨k.free, k.qu.trans h.qu, fun n => (h.moved n).trans (k.moved n)⟩

variable {s} {q : QId} (hfree : ∀ n, (s.po n).FreeOf q)
include hfree

theorem State.bypasses_refl : s.Bypasses s q := ⟨hfree, rfl, fun _ => rfl⟩

theorem State.bypasses_setPo {n : PId} {y : Port} (hy : y.FreeOf q) (hmoved : (s.po n).moved y) :
    s.Bypasses (s.setPo n y) q := by
  refine ⟨fun m => ?_, rfl, fun m => ?_⟩
  · by_cases hm : m = n
    · rw [hm, s.setPo_po]
      exact hy
    · rw [s.setPo_po_ne n m y hm]
      exact hfree m
  · by_cases hm : m = n
    · rw [hm, s.setPo_po]
      exact hmoved
    · rw [s.setPo_po_ne n m y hm]
      exact Port.moved_refl _

theorem State.bypasses_closeNow {k : QId} (hk : k ≠ q) (b : Bark) : s.Bypasses (s.closeNow k b) q := by
  have hpo (n : PId) : (s.closeNow k b).po n = s.po n := s.closeNow_po k b n
  refine ⟨fun n => ?_, ?_, fun n => ?_⟩
  · rw [hpo]
    exact hfree n
  · unfold State.closeNow
    dsimp only
    refine (State.setQu_qu_ne _ k q _ hk.symm).trans ((State.jumpN_qu_ne _ _ hk.symm).trans ?_)
    exact s.modQu_qu_ne k q _ hk.symm
  · rw [hpo]
    exact Port.moved_refl _

theorem State.drainOne_bypasses {n : PId} {t : State} (h : s.drainOne n = some t) : s.Bypasses t q := by
  obtain ⟨y, hy, hmoved, heq⟩ := s.drainOne_moved h (hfree n)
  have hset := State.bypasses_setPo hfree hy hmoved
  rcases heq with rfl | ⟨k, b, hk, rfl⟩
  · exact hset
  · exact hset.trans (State.bypasses_closeNow hset.free hk b)

theorem State.drainN_bypasses (j : Nat) (n : PId) : s.Bypasses (s.drainN j n) q := by
  induction j generalizing s with
  | zero => exact State.bypasses_refl hfree
  | succ j ih =>
    rw [State.drainN]
    split
    · exact State.bypasses_refl hfree
    next h =>
      have hone := State.drainOne_bypasses hfree h
      exact hone.trans (ih hone.free)

theorem State.drainAll_bypasses : s.Bypasses s.drainAll q :=
  List.foldlRecOn (motive := fun t => s.Bypasses t q) allP State.drain (State.bypasses_refl hfree) fun _ ht n _ =>
    ht.trans (State.drainN_bypasses ht.free _ n)

omit hfree

/-! ### What a QUEUE reset discards at a port (R400, R401) -/

theorem mem_allP (n : PId) : n ∈ allP := List.mem_finRange n

theorem dropStaged_free (q : QId) (cur : Bool) (ts : List Tok) (tag : BitVec 6) (lenv crcin par : Bool) (k : Steer)
    (h : Tok.lead tag lenv crcin par (some k) ∈ (dropStaged q cur ts).1) : k.q ≠ some q := by
  induction ts generalizing cur with
  | nil => cases h
  | cons a ts ih =>
    cases a with
    | lead tag' lenv' crcin' par' ans =>
      cases ans with
      | none =>
        rcases List.mem_cons.1 h with h | h
        · cases h
        · exact ih _ h
      | some k' =>
        unfold dropStaged at h
        dsimp only at h
        split at h
        · rcases List.mem_cons.1 h with h | h
          · cases h
            exact fun e => nomatch e
          · exact ih _ h
        next hk =>
          rcases List.mem_cons.1 h with h | h
          · cases h
            exact hk
          · exact ih _ h
    | pay v par' =>
      unfold dropStaged at h
      dsimp only at h
      split at h
      · exact ih _ h
      · rcases List.mem_cons.1 h with h | h
        · cases h
        · exact ih _ h
    | fin trunc discard =>
      rcases List.mem_cons.1 h with h | h
      · cases h
      · exact ih _ h

theorem Port.resetQueue_free (x : Port) (q : QId) : (x.resetQueue q).1.FreeOf q where
  held := by simp [Port.resetQueue]
  spent := by simp [Port.resetQueue]
  done d hd := by simpa using (List.mem_filter.1 hd).2
  cur c hc := by
    obtain ⟨d, -, rfl⟩ := Option.map_eq_some_iff.1 hc
    split
    · exact fun h => nomatch h
    · assumption
  staged tag lenv crcin par k h := dropStaged_free q _ _ tag lenv crcin par k h

theorem State.portActive_congr {s t : State} (hon : t.portsOn = s.portsOn)
    (h : ∀ n, (t.po n).lcfg = (s.po n).lcfg ∧ (t.po n).en = (s.po n).en ∧ (t.po n).resetting = (s.po n).resetting ∧
      (t.po n).stopped = (s.po n).stopped) (n : PId) :
    t.portActive n = s.portActive n ∧ t.stoppedAt n = s.stoppedAt n := by
  have hlcfg (m : PId) := (h m).1
  obtain ⟨-, hen, hreset, -⟩ := h n
  refine ⟨?_, ?_⟩
  · rw [State.portActive, State.portActive, hon, hen, hreset, State.isUpper_of_lcfg hlcfg]
  · rw [State.stoppedAt, State.stoppedAt, State.master_of_lcfg hlcfg, (h _).2.2.2]

/-! ### The queue and the requests emptied -/

variable (s q)

/-- A QUEUE reset before the flags are launched and other queues' words move on. -/
def State.emptied : State :=
  (({ s with
      ports := vmap (fun x => (Port.resetQueue x q).1) s.ports
      chans := vmap (Chan.resetQueue q (s.qu q) s.time.ticks) s.chans } : State).modQu q fun x =>
    { x.cleared with disc := satAdd 0 (s.pend q), resetting := true }).clearLookahead q

theorem State.clearQueue_eq : s.clearQueue q = (allP.foldl (State.showReset q) (s.emptied q)).drainAll := rfl

theorem State.emptied_frame : s.emptied q = { s with
    ports := (s.emptied q).ports, queues := (s.emptied q).queues, chans := (s.emptied q).chans } := rfl

theorem State.emptied_po (n : PId) : (s.emptied q).po n = ((s.po n).resetQueue q).1 := by
  show (vmap (fun x => (Port.resetQueue x q).1) s.ports)[n] = _
  simp [State.po]

theorem State.emptied_active (n : PId) :
    (s.emptied q).portActive n = s.portActive n ∧ (s.emptied q).stoppedAt n = s.stoppedAt n := by
  refine State.portActive_congr (s := s) (congrArg State.portsOn (s.emptied_frame q) :) (fun m => ?_) n
  rw [s.emptied_po]
  exact ⟨rfl, rfl, rfl, rfl⟩

theorem State.emptied_ch (c : YId) : (s.emptied q).ch c = (s.ch c).resetQueue q (s.qu q) s.time.ticks :=
  State.ch_of_vmap (s := s) rfl

theorem State.emptied_other {k : QId} (h : k ≠ q) : (s.emptied q).qu k = s.qu k := by
  unfold State.emptied State.clearLookahead
  exact (State.modQu_qu_ne _ q k _ h).trans (State.modQu_qu_ne _ q k _ h)

theorem State.emptied_qu : ∃ a, (s.emptied q).qu q = { (s.qu q).cleared with
    disc := satAdd 0 (s.pend q), resetting := true, rate := 0, afla := false, lastAfl := a } := by
  unfold State.emptied State.clearLookahead
  dsimp only
  rw [State.modQu_qu, State.modQu_qu]
  exact ⟨_, rfl⟩

/-! ### Requests withdrawn, and left as orphans (R400, R402) -/

theorem Req.leave_keeps (r : Req) (x : Queue) (frame : Bool) :
    (r.leave x frame).q = r.q ∧ (r.leave x frame).started = r.started ∧ (r.leave x frame).orphan = true := by
  unfold Req.leave
  split
  next h => exact ⟨rfl, rfl, h⟩
  · exact ⟨rfl, rfl, rfl⟩

/-- A request that the reset of queue `q` leaves. -/
def Req.remains (r : Req) (x : Queue) (q : QId) : Req := if r.q = q then r.leave x true else r

theorem Req.remains_q (r : Req) (x : Queue) (q : QId) : (r.remains x q).q = r.q := by
  unfold Req.remains
  split
  · exact (r.leave_keeps x true).1
  · rfl

theorem Chan.resetQueue_reqs (x : Chan) (q : QId) (y : Queue) (tick : Nat) :
    (x.resetQueue q y tick).reqs = (x.reqs.filter fun r => !(r.q == q && !r.started)).map fun r => r.remains y q := rfl

theorem Chan.resetQueue_others (x : Chan) (q : QId) (y : Queue) (tick : Nat) :
    (x.resetQueue q y tick).reqs.filter (·.q != q) = x.reqs.filter (·.q != q) := by
  rw [Chan.resetQueue_reqs]
  simp only [Bool.not_and, Bool.not_not]
  induction x.reqs with
  | nil => rfl
  | cons r rs ih =>
    by_cases hr : r.q = q
    · cases hstart : r.started <;> simp [hr, hstart, Req.remains_q, ih]
    · have hstay : r.remains y q = r := if_neg hr
      simp [hr, hstay, ih]

theorem Chan.resetQueue_own {x : Chan} {q : QId} {y : Queue} {tick : Nat} {r : Req}
    (h : r ∈ (x.resetQueue q y tick).reqs) (hq : r.q = q) : r.started = true ∧ r.orphan = true := by
  rw [Chan.resetQueue_reqs] at h
  obtain ⟨r₀, hmem, rfl⟩ := List.mem_map.1 h
  rw [Req.remains_q] at hq
  have hstart := (List.mem_filter.1 hmem).2
  obtain ⟨-, hstarted, horphan⟩ := r₀.leave_keeps y true
  rw [Req.remains, if_pos hq]
  exact ⟨hstarted.trans (by simpa [hq] using hstart), horphan⟩

/-! ### The flags of the ports that show the queue (R401) -/

/-- `t` differs from `s` in the pins of ports alone. -/
structure State.pinsOnly (s t : State) : Prop where
  frame : t = { s with ports := t.ports }
  port : ∀ n, t.po n = { s.po n with pins := (t.po n).pins }

variable {s q}

theorem State.pinsOnly_refl : s.pinsOnly s := ⟨rfl, fun _ => rfl⟩

theorem State.pinsOnly.trans {s t u : State} (h : s.pinsOnly t) (k : t.pinsOnly u) : s.pinsOnly u where
  frame := k.frame.trans (congrArg (fun v : State => { v with ports := u.ports }) h.frame)
  port n := (k.port n).trans (congrArg (fun x : Port => { x with pins := (u.po n).pins }) (h.port n))

theorem State.pinsOnly_modPo (n : PId) (g : Port → Port) (hg : ∀ x, g x = { x with pins := (g x).pins }) :
    s.pinsOnly (s.modPo n g) := by
  refine ⟨rfl, fun m => ?_⟩
  by_cases hm : m = n
  · rw [hm, s.modPo_po]
    exact hg _
  · rw [s.modPo_po_ne n m g hm]

theorem State.mirror_pinsOnly (n : PId) (hi : BitVec 36) : s.pinsOnly (s.mirror n hi) := by
  unfold State.mirror
  dsimp only
  split
  · refine State.pinsOnly_modPo _ _ ?_
    exact fun _ => rfl
  · exact State.pinsOnly_refl

theorem State.showFlags_pinsOnly (n : PId) : s.pinsOnly (s.showFlags n) := by
  unfold State.showFlags
  refine .trans (State.pinsOnly_modPo n _ ?_) (State.mirror_pinsOnly n _)
  exact fun _ => rfl

theorem State.showReset_pinsOnly (n : PId) : s.pinsOnly (s.showReset q n) := by
  unfold State.showReset
  split
  · exact State.showFlags_pinsOnly n
  · exact State.pinsOnly_refl

/-- What the flags of a port in service show of the queue `q` which it shows. -/
def State.showsLow (s : State) (q : QId) (n : PId) : Prop :=
  s.portActive n = true → s.stoppedAt n = false → (s.po n).shown = q → (s.po n).pins.fla = .low ∧ (s.po n).pins.flb = .low

theorem State.pinsOnly.lcfg {s t : State} (h : s.pinsOnly t) (n : PId) : (t.po n).lcfg = (s.po n).lcfg :=
  (congrArg Port.lcfg (h.port n) :)

theorem State.pinsOnly.partials {s t : State} (h : s.pinsOnly t) (n : PId) : (t.po n).partials = (s.po n).partials :=
  (congrArg Port.partials (h.port n) :)

theorem State.pinsOnly.active {s t : State} (h : s.pinsOnly t) (n : PId) :
    t.portActive n = s.portActive n ∧ t.stoppedAt n = s.stoppedAt n ∧ (t.po n).shown = (s.po n).shown ∧
    (t.po n).crossed = (s.po n).crossed := by
  obtain ⟨hactive, hstopped⟩ := State.portActive_congr (s := s) (t := t) (congrArg State.portsOn h.frame :)
    (fun m => ⟨h.lcfg m, (congrArg Port.en (h.port m) :), (congrArg Port.resetting (h.port m) :),
      (congrArg Port.stopped (h.port m) :)⟩) n
  exact ⟨hactive, hstopped, (congrArg Port.shown (h.port n) :), (congrArg Port.crossed (h.port n) :)⟩

theorem State.master_of_active {n : PId} (h : s.portActive n = true) : s.master n = n := by
  refine s.not_upper_iff.1 ?_
  unfold State.portActive at h
  simpa using (Bool.and_eq_true_iff.1 h).2

/-- The flags of a port launched: of the port itself, and of none that runs beside it. -/
theorem State.showFlags_pins {m n : PId} (hn : s.portActive n = true) (hm : s.portActive m = true) :
    ((s.showFlags n).po m).pins = if m = n then
      { (s.po n).pins with fla := (s.flagPins n).1, flb := (s.flagPins n).2 } else (s.po m).pins := by
  have hmaster := State.master_of_active hn
  have hpo := s.pinned_po (n := n)
    (y := { s.po n with pins := { (s.po n).pins with fla := (s.flagPins n).1, flb := (s.flagPins n).2 } }) hmaster rfl
    s.freeCtr (s.po (upperPort n)).pins.d m
  have heq : s.showFlags n = s.pinned n
      { s.po n with pins := { (s.po n).pins with fla := (s.flagPins n).1, flb := (s.flagPins n).2 } } s.freeCtr
      (s.po (upperPort n)).pins.d := rfl
  rw [heq, hpo, State.master_of_active hm]
  split
  · rfl
  · rfl

theorem State.showReset_low {m n : PId} (hcrossed : (s.po m).crossed[q.val] = (true, true)) (h : m = n ∨ s.showsLow q m) :
    (s.showReset q n).showsLow q m := by
  intro hactive hstopped hshown
  obtain ⟨ha, hst, hsh, -⟩ := (State.showReset_pinsOnly (s := s) (q := q) n).active m
  rw [ha] at hactive
  rw [hst] at hstopped
  rw [hsh] at hshown
  unfold State.showReset
  split
  next hn =>
    have hn' : s.portActive n = true := by
      simp only [Bool.and_eq_true] at hn
      exact hn.1.1
    rw [State.showFlags_pins hn' hactive]
    split
    next hmn =>
      have hlow : s.flagPins n = (.low, .low) := by
        rw [State.flagPins, State.pinLevels, ← hmn]
        have hc : (s.po m).crossed[(s.po m).shown.val] = (true, true) := by
          subst hshown
          exact hcrossed
        rw [hc]
        rfl
      rw [hlow]
      exact ⟨rfl, rfl⟩
    next hmn => exact h.resolve_left hmn hactive hstopped hshown
  next hn =>
    refine h.elim (fun hmn => absurd ?_ hn) fun hlow => hlow hactive hstopped hshown
    subst hmn
    simp [hactive, hstopped, hshown]

theorem State.showResets_low {l : List PId} {m : PId} (hcrossed : (s.po m).crossed[q.val] = (true, true))
    (h : m ∈ l ∨ s.showsLow q m) : (l.foldl (State.showReset q) s).showsLow q m := by
  induction l generalizing s with
  | nil => exact h.resolve_left (List.not_mem_nil)
  | cons n l ih =>
    have hsame := ((State.showReset_pinsOnly (s := s) (q := q) n).active m).2.2.2
    refine ih (by rw [hsame]; exact hcrossed) ?_
    rcases h with h | h
    · rcases List.mem_cons.1 h with h | h
      · exact .inr (State.showReset_low hcrossed (.inl h))
      · exact .inl h
    · exact .inr (State.showReset_low hcrossed (.inr h))

/-! ### The reset as a whole -/

variable (s q)

/-- A QUEUE reset with its flags launched, before other queues' words move on. -/
def State.flagged : State := allP.foldl (State.showReset q) (s.emptied q)

theorem State.flagged_pinsOnly : (s.emptied q).pinsOnly (s.flagged q) :=
  List.foldlRecOn (motive := fun t => (s.emptied q).pinsOnly t) allP _ State.pinsOnly_refl fun _ ht n _ =>
    ht.trans (State.showReset_pinsOnly n)

theorem State.flagged_qu (k : QId) : (s.flagged q).qu k = (s.emptied q).qu k :=
  (congrArg (fun t : State => t.qu k) (s.flagged_pinsOnly q).frame :)

theorem State.flagged_free (n : PId) : ((s.flagged q).po n).FreeOf q := by
  have h := (s.po n).resetQueue_free q
  rw [← s.emptied_po] at h
  rw [(s.flagged_pinsOnly q).port n]
  exact ⟨h.held, h.spent, h.done, h.cur, h.staged⟩

/-- The queue after its reset. -/
theorem State.resetDone_qu : ((((s.flagged q).drainAll).scale q).qu q).bare = ({ (s.qu q).cleared with
    disc := satAdd 0 (s.pend q), resetting := true, rate := 0, afla := false
    lastAfl := ((((s.flagged q).drainAll).scale q).qu q).lastAfl } : Queue).bare := by
  have hby := State.drainAll_bypasses (s.flagged_free q)
  obtain ⟨a, ha⟩ := s.emptied_qu q
  rw [State.scale_qu_bare, State.scale_qu_lastAfl, hby.qu, s.flagged_qu, ha]

theorem State.resetDone_moves : (s.emptied q).Moves (((s.flagged q).drainAll).scale q) := by
  refine .trans ⟨?_, fun k => ?_⟩ ((State.drainAll_moves _).trans (State.sheds_scale _ q).moves)
  · have hframe := (s.flagged_pinsOnly q).frame
    generalize s.flagged q = t at hframe
    rw [hframe]
  · rw [s.flagged_qu]
    exact Queue.sheds_refl _

/-- What each port holds and shows after the reset. -/
theorem State.resetDone_po (n : PId) :
    ((((s.flagged q).drainAll).scale q).po n).FreeOf q ∧
    ((((s.flagged q).drainAll).scale q).po n).partials = (s.po n).partials.set q.val [] ∧
    ((((s.flagged q).drainAll).scale q).po n).crossed = (s.po n).crossed.set q.val (true, true) ∧
    (s.portActive n = true → s.stoppedAt n = false → (s.po n).shown = q →
      ((((s.flagged q).drainAll).scale q).po n).pins.fla = .low ∧
      ((((s.flagged q).drainAll).scale q).po n).pins.flb = .low) := by
  have hby := State.drainAll_bypasses (s.flagged_free q)
  obtain ⟨hpartials, hcrossed, hpins⟩ := (hby.moved n).keeps
  have hempty := s.emptied_po q n
  obtain ⟨hactive, hstopped, hshown, hcross⟩ := (s.flagged_pinsOnly q).active n
  obtain ⟨hactive', hstopped'⟩ := s.emptied_active q n
  have hlow := State.showResets_low (s := s.emptied q) (q := q) (l := allP) (m := n)
    (by rw [hempty]; exact Vector.getElem_set_self ..) (.inl (mem_allP n))
  rw [State.scale_po]
  refine ⟨hby.free n, ?_, ?_, fun h₁ h₂ h₃ => ?_⟩
  · rw [hpartials, (s.flagged_pinsOnly q).partials, hempty]
    rfl
  · rw [hcrossed, hcross, hempty]
    rfl
  · rw [hpins]
    refine hlow (hactive.trans (hactive'.trans h₁)) (hstopped.trans (hstopped'.trans h₂)) (hshown.trans ?_)
    rw [hempty]
    exact h₃

/-- With nothing staged, no word of any queue moves on. -/
theorem State.flagged_still (h : ∀ n, (s.po n).staging = []) : (s.flagged q).drainAll = s.flagged q := by
  refine State.drainAll_of_stuck _ fun n => ?_
  have hport : ((s.flagged q).po n).staging = ((s.emptied q).po n).staging :=
    (congrArg Port.staging ((s.flagged_pinsOnly q).port n) :)
  have hempty : ((s.flagged q).po n).staging = [] := by
    rw [hport, s.emptied_po]
    show (dropStaged q _ (s.po n).staging).1 = []
    rw [h n]
    rfl
  unfold State.drainOne
  dsimp only
  rw [hempty]
  split
  · rfl
  · split <;> simp_all

variable {s q}

/-- What is left of the ports, the channels and the other queues where nothing was staged. -/
theorem State.resetDone_still (h : ∀ n, (s.po n).staging = []) :
    (∀ n, (((((s.flagged q).drainAll).scale q).po n).inner = ((s.po n).resetQueue q).1.inner ∧
      ∀ k : QId, k ≠ q → ((((s.flagged q).drainAll).scale q).po n).held[k.val] = (s.po n).held[k.val])) ∧
    (∀ c, (((s.flagged q).drainAll).scale q).ch c = (s.ch c).resetQueue q (s.qu q) s.time.ticks) ∧
    s.otherQueues (((s.flagged q).drainAll).scale q) q := by
  rw [s.flagged_still q h]
  refine ⟨fun n => ?_, fun c => ?_, fun k hk => ?_⟩
  · have hpo : ((s.flagged q).scale q).po n = (s.flagged q).po n := State.scale_po _ q n
    rw [hpo, (s.flagged_pinsOnly q).port n, s.emptied_po]
    exact ⟨rfl, fun k hk => Vector.getElem_set_ne q.isLt k.isLt fun e => hk (Fin.ext e).symm⟩
  · have hch : (s.flagged q).ch c = (s.emptied q).ch c := (congrArg (fun t : State => t.ch c) (s.flagged_pinsOnly q).frame :)
    rw [State.scale_ch, hch, s.emptied_ch]
  · rw [State.scale_qu_bare, s.flagged_qu, s.emptied_other q hk]

theorem State.exec_queueReset {p : Path} (h : s.hostWrites p) (q : QId) :
    ∃ u, s.pathFrame u ∧ exec (.queueReset p q (s.qu q).en) s = .next ((u.resetQueue q).scale q) := by
  obtain ⟨u, hu, hrow⟩ := s.rowQctl_of_hostWrites h q (flagAt (s.qu q).en 0 ||| 2)
  have hbits (e : Bool) : bit (flagAt e 0 ||| 2) 0 = e ∧ bit (flagAt e 0 ||| 2) 1 = true := by cases e <;> decide
  obtain ⟨hen, hrst⟩ := hbits (s.qu q).en
  refine ⟨u, hu, congrArg Host.Outcome.next (hrow.trans ?_)⟩
  unfold State.qctl
  dsimp only
  rw [hen, hrst, if_pos rfl, ← hu.qu, u.qctlEn_same]

end Sys2Proof.Machine

open Sys2Proof Sys2Proof.Machine

/-- Settles O23: the queue, the ports and the requests are emptied as the state `emptied` says, then pins alone change, and
the words that move on afterwards are none of this queue. -/
theorem queueReset : Obligations.QueueReset := by
  unfold Obligations.QueueReset
  refine fun p q s => ⟨fun hhost hreset => ?_, fun hhost hreset => ?_, fun hrun hreset => ?_⟩
  · obtain ⟨u, hu, hexec⟩ := State.exec_queueReset hhost q
    have hcleared : u.resetQueue q = (u.flagged q).drainAll := if_neg (by simp [hu.qu, hreset])
    rw [hcleared] at hexec
    have hbare := u.resetDone_qu q
    have hmoves := u.resetDone_moves q
    have hports := u.resetDone_po q
    have hstill := State.resetDone_still (s := u) (q := q)
    have hframe := (hmoves.frame).trans (congrArg (fun v : State => { v with
      ports := (((u.flagged q).drainAll).scale q).ports, queues := (((u.flagged q).drainAll).scale q).queues
      chans := (((u.flagged q).drainAll).scale q).chans }) (u.emptied_frame q))
    generalize ((u.flagged q).drainAll).scale q = t at hexec hbare hports hstill hframe
    obtain ⟨⟨a, b, rfl⟩, hcore⟩ := hu
    refine ⟨t, hexec, hbare, (congrArg Queue.held hbare :), (congrArg Queue.w hbare :), (congrArg Queue.r hbare :),
      (congrArg Queue.h hbare :), (congrArg Queue.f hbare :), (congrArg Queue.wcnt hbare :), (congrArg Queue.rcnt hbare :),
      (congrArg Queue.xcnt hbare :), (congrArg Queue.dcnt hbare :), (congrArg Queue.marks hbare :),
      (congrArg Queue.markPend hbare :), (congrArg Queue.billets hbare :), (congrArg Queue.segSeq hbare :), fun n => ?_,
      fun hstaging => ?_, ?_, ?_, ?_⟩
    · obtain ⟨hfree, hpartials, hcrossed, hlow⟩ := hports n
      refine ⟨?_, hfree.held, hfree.spent, hfree.done, hfree.cur, ?_, hlow, fun k hk => ?_⟩
      · rw [hpartials]
        exact Vector.getElem_set_self ..
      · rw [hcrossed]
        exact Vector.getElem_set_self ..
      · rw [hpartials]
        exact Vector.getElem_set_ne _ k.isLt fun e => hk (Fin.ext e).symm
    · obtain ⟨hpo, hch, hother⟩ := hstill hstaging
      refine ⟨hpo, fun c => ?_, hother, ?_, fun r => ?_⟩
      · rw [hch c]
        exact ⟨Chan.resetQueue_others _ q _ _, fun r hr hq => Chan.resetQueue_own hr hq⟩
      · rw [hframe]
      · rw [hframe]
        exact hcore r
    · rw [hframe]
    · rw [hframe]
    · rw [hframe]
  · obtain ⟨u, hu, hexec⟩ := State.exec_queueReset hhost q
    have hstay : u.resetQueue q = u := if_pos (by rw [hu.qu]; exact hreset)
    rw [hstay] at hexec
    refine ⟨_, hexec, ?_, fun r => ?_⟩
    · rw [State.scale_bare]
      obtain ⟨⟨_, _, rfl⟩, -⟩ := hu
      rfl
    · rw [State.scale_path]
      exact hu.2 r
  · refine ⟨_, congrArg Host.Outcome.next (if_pos (by simp [hrun, hreset])), ?_, fun k hk => ?_, rfl⟩
    · rw [State.scale_qu_bare, State.modQu_qu]
    · rw [State.scale_qu_bare, s.modQu_qu_ne q k _ hk]

end

section
/-!
O28. Requests of the spill and refill engines: handed over, acknowledged, arriving, ended.
-/

-- The theorems one after another: side by side they take more threads than the check allows.
set_option Elab.async false

namespace Sys2Proof.Machine

variable (s : State)

/-! ### The state after a command of the engines -/

/-- `s` with queue `q` as `x`, channel `c` as `y`, and with events `e`, governor counts `g` and order `o`. -/
def State.served (s : State) (q : QId) (x : Queue) (c : YId) (y : Chan) (e : Table EvCell) (g : Gov) (o : Nat) : State :=
  (({ s with events := e, gov := g, order := o } : State).setCh c y).setQu q x

section Served

variable {s} {t : State} {q : QId} {x : Queue} {c : YId} {y : Chan} {e : Table EvCell} {g : Gov} {o : Nat}
variable (h : t.bare = (s.served q x c y e g o).bare)
include h

theorem State.served_ch : t.ch c = y := by
  have hch : t.ch c = (s.served q x c y e g o).ch c := (congrArg (fun v : State => v.ch c) h :)
  rw [hch]
  exact State.setCh_ch _ c y

theorem State.served_other : t.ch (otherCh c) = s.ch (otherCh c) := by
  have hch : t.ch (otherCh c) = (s.served q x c y e g o).ch (otherCh c) := (congrArg (fun v : State => v.ch (otherCh c)) h :)
  rw [hch]
  exact State.setCh_ch_ne _ c (otherCh c) y (otherCh_ne c)

theorem State.served_qu : (t.qu q).bare = x.bare := by
  rw [State.bare_eq_qu h q]
  exact congrArg Queue.bare (State.setQu_qu _ q x)

theorem State.served_others : s.otherQueues t q := fun k hk => by
  rw [State.bare_eq_qu h k]
  exact congrArg Queue.bare (State.setQu_qu_ne _ q k x hk)

theorem State.served_same (hx : x = s.qu q) : s.sameQueues t := fun k => by
  by_cases hk : k = q
  · rw [hk, State.served_qu h, hx]
  · exact State.served_others h k hk

theorem State.served_fields : t.events = e ∧ t.gov = g ∧ t.order = o :=
  ⟨(congrArg State.events h :), (congrArg State.gov h :), (congrArg State.order h :)⟩

theorem State.served_frame : t.bare = ({ s with
    queues := t.queues, chans := t.chans, events := t.events, gov := t.gov, order := t.order } : State).bare :=
  h.trans (congrArg (fun v : State => { s with
    queues := v.queues, chans := v.chans, events := v.events, gov := v.gov, order := v.order }) h).symm

end Served

/-! ### The engines hand over (R185, R187, R508) -/

/-- A request of an engine of queue `q` as it is handed over. -/
def State.request (s : State) (k : ReqKind) (q : QId) (num cb : Nat) : Req :=
  ⟨k, q, s.reqClass q, num, cb, s.order, s.time.ticks, false, 0, false, true, 0, []⟩

theorem State.handOver_served (k : ReqKind) (q : QId) (num : Nat) (c : YId) (cb : Nat) (x : Queue)
    (hclass : x.qcfg = (s.qu q).qcfg) :
    (((s.setQu q x).handOver k q num c cb).scale q).bare = (s.served q x c
      { (s.ch c).wake s.time.ticks with reqs := (s.ch c).reqs ++ [s.request k q num cb] } s.events s.gov (s.order + 1)).bare := by
  have hreq : (s.setQu q x).reqClass q = s.reqClass q := by
    simp only [State.reqClass, Queue.chainRead, State.namedPort, State.setQu_qu, hclass]
    rfl
  rw [State.scale_bare, State.handOver, hreq]
  rfl

theorem State.spillRequest_of_turn {q : QId} {num cb : Nat} {c : YId} (hrun : s.running = true)
    (hready : s.spillReady q = some (num, c, cb)) (hrefill : s.refillReady q = none) (hturn : s.spillTurn q c = true) :
    s.spillRequest q = ((s.setQu q { (s.qu q).setBillet num fun b => { b with spilling := true } with spillSince := none }
      ).handOver .spill q num c cb).scale q := by
  unfold State.spillRequest
  rw [hready]
  exact if_neg (by simp [hrun, hrefill, hturn])

theorem State.refillRequest_of_turn {q : QId} {num cb : Nat} {c : YId} (hrun : s.running = true)
    (hready : s.refillReady q = some (num, c, cb)) (hturn : s.refillTurn q c = true) :
    s.refillRequest q = ((s.setQu q { (s.qu q).setBillet num fun b => { b with frame := true, refill := some 0 } with
      refillSince := none }).handOver .refill q num c cb).scale q := by
  unfold State.refillRequest
  rw [hready]
  exact if_neg (by simp [hrun, hturn])

theorem State.spillRequest_of_not {q : QId} (h : s.running = false ∨ s.spillReady q = none ∨
    ∃ num c cb, s.spillReady q = some (num, c, cb) ∧ s.spillTurn q c = false) : s.spillRequest q = s := by
  unfold State.spillRequest
  split
  · rfl
  next num c cb hready =>
    rw [hready] at h
    refine if_pos ?_
    rcases h with h | h | ⟨num', c', cb', heq, h⟩
    · simp [h]
    · cases h
    · cases heq
      simp [h]

theorem State.refillRequest_of_not {q : QId} (h : s.running = false ∨ s.refillReady q = none ∨
    ∃ num c cb, s.refillReady q = some (num, c, cb) ∧ s.refillTurn q c = false) : s.refillRequest q = s := by
  unfold State.refillRequest
  split
  · rfl
  next num c cb hready =>
    rw [hready] at h
    refine if_pos ?_
    rcases h with h | h | ⟨num', c', cb', heq, h⟩
    · simp [h]
    · cases h
    · cases heq
      simp [h]

theorem goesBefore_iff {a b : Option (Nat × Nat)} {q k : QId} :
    goesBefore a q b k = true ↔ sinceAt b < sinceAt a ∨ (sinceAt b = sinceAt a ∧ k < q) := by
  simp [goesBefore]

theorem State.spillTurn_of_other {q k : QId} {c : YId} {x : Nat × YId × Nat} (hx : x.2.1 = c)
    (h : s.refillReady k = some x ∨ (k ≠ q ∧ s.spillReady k = some x ∧
      goesBefore (s.qu q).spillSince q (s.qu k).spillSince k = true)) : s.spillTurn q c = false := by
  refine List.all_eq_false.2 ⟨k, mem_allQ k, ?_⟩
  rcases h with h | ⟨hk, h, hbefore⟩
  · simp [h, hx]
  · simp [h, hx, hk, hbefore]

theorem State.refillTurn_of_other {q k : QId} {c : YId} {x : Nat × YId × Nat} (hx : x.2.1 = c) (hk : k ≠ q)
    (h : s.refillReady k = some x) (hbefore : goesBefore (s.qu q).refillSince q (s.qu k).refillSince k = true) :
    s.refillTurn q c = false :=
  List.all_eq_false.2 ⟨k, mem_allQ k, by simp [h, hx, hk, hbefore]⟩

/-! ### A request ends (R232, R240) -/

theorem State.countN_frame (code inst n : Nat) : s.countN code inst n = { s with events := (s.countN code inst n).events } := by
  unfold State.countN
  split <;> rfl

/-- A request that has completed is gone from its channel; a late one is counted where the channel measures latency. -/
theorem State.finishReq_eq (c : YId) (r : Req) : ∃ idle e, s.finishReq c r = ({ s with events := e } : State).setCh c
      { s.ch c with reqs := (s.ch c).reqs.filter fun k => k.age != r.age, idleSince := idle } ∧
    ((s.ch c).latMode = false → e = s.events) := by
  unfold State.finishReq
  extract_lets x left t lat
  split
  next h =>
    refine ⟨_, (t.count (Ev.ylate c) 0).events, rfl, fun hlat => ?_⟩
    simp [x, hlat] at h
  · exact ⟨_, s.events, rfl, fun _ => rfl⟩

theorem State.setQu_self_bare (q : QId) : (s.setQu q (s.qu q)).bare = s.bare := s.setQu_bare q _ rfl

/-- A channel without one of its requests. -/
def Chan.without (x : Chan) (r : Req) (idle : Nat) : Chan :=
  { x with reqs := x.reqs.filter fun k => k.age != r.age, idleSince := idle }

/-- A billet whose spill the DRAM has acknowledged. -/
def Billet.spilled (b : Billet) : Billet := { b with spilling := false, frame := false, boom := true, pats := [] }

theorem State.spillAck_served {c : YId} {q : QId} {r : Req} (h : (s.ch c).acked q = some r) : ∃ x idle e,
    (s.spillAck c q).bare = (s.served q x c ((s.ch c).without r idle) e s.gov (s.order + 1)).bare ∧
    ((s.ch c).latMode = false → e = s.events) ∧ (r.orphan = true → x = s.qu q) ∧
    (r.orphan = false → x = ((s.qu q).setBillet r.num Billet.spilled).dropLanding [r.num]) := by
  obtain ⟨idle, e, hfinish, hlat⟩ := s.finishReq_eq c r
  unfold State.spillAck
  rw [h]
  dsimp only
  rw [hfinish, State.scale_bare]
  cases horphan : r.orphan with
  | true => exact ⟨s.qu q, idle, e, (State.setQu_self_bare _ q).symm, hlat, fun _ => rfl, fun h => nomatch h⟩
  | false => exact ⟨_, idle, e, rfl, hlat, (fun h => nomatch h), fun _ => rfl⟩

/-! ### Staves of a refill arrive (R188, R191) -/

theorem Queue.landStave_eq (x : Queue) (b : Billet) (k : Nat) : ∃ l, x.landStave b k = { x with held := l } ∧
    (b.pats = [] → l = x.held) := by
  unfold Queue.landStave
  split
  · exact ⟨x.held, rfl, fun _ => rfl⟩
  next h => exact ⟨_, rfl, fun hpats => absurd (by simp [hpats]) h⟩

theorem State.countBeats_frame (c : YId) (e : Nat × Nat) :
    s.countBeats c e = { s with events := (s.countBeats c e).events } := by
  unfold State.countBeats
  have h₁ := s.countN_frame (Ev.yce c) 0 e.1
  generalize s.countN (Ev.yce c) 0 e.1 = t at h₁ ⊢
  have h₂ := t.countN_frame (Ev.yue c) 0 e.2
  generalize t.countN (Ev.yue c) 0 e.2 = u at h₂ ⊢
  exact h₂.trans (congrArg (fun v : State => { v with events := u.events }) h₁)

/-- The beats of one stave checked: its queue's slots and marks of errors, and the events. -/
theorem State.checkBeats_eq (c : YId) (q : QId) (b : Billet) (k : Nat) (beats : List Ecc) : ∃ l m e,
    s.checkBeats c q b k beats = { s.setQu q { s.qu q with held := l, ecc := m } with events := e } ∧
    (b.pats = [] → l = (s.qu q).held) ∧
    (beats = [] → ((s.qu q).eccOf (b.num * 256 + k)).bad = false → e = s.events) := by
  obtain ⟨l, hland, hheld⟩ := (s.qu q).landStave_eq b k
  unfold State.checkBeats State.modQu
  extract_lets stave m e
  dsimp only
  rw [hland, State.countBeats_frame]
  refine ⟨l, _, _, rfl, hheld, fun hbeats hbad => ?_⟩
  have he : e = (0, 0) := by simp [e, m, stave, hbad, hbeats, beatErrs]
  rw [he]
  rfl

/-- A channel on which one more stave of a refill has arrived, the refill then being over. -/
theorem Chan.arrive_without (x : Chan) (r : Req) (idle : Nat) : (x.arrive r).without r idle = x.without r idle := by
  have hreqs : (x.arrive r).reqs.filter (fun k => k.age != r.age) = x.reqs.filter fun k => k.age != r.age := by
    show (x.reqs.map _).filter _ = _
    induction x.reqs with
    | nil => rfl
    | cons k ks ih =>
      by_cases hk : k.age = r.age
      · simp [hk, ih]
      · simp [hk, ih]
  unfold Chan.without
  rw [hreqs]
  rfl

theorem Queue.freePassed_refill {x : Queue} {num : Nat} (h : ∀ b ∈ x.billets, b.num = num → b.refill = none) :
    ∀ b ∈ x.freePassed.billets, b.num = num → b.refill = none := by
  unfold Queue.freePassed
  dsimp only
  split
  · exact h
  · intro b hb hnum
    obtain ⟨a, ha, rfl⟩ := List.mem_map.1 hb
    by_cases hin : a.num ∈ x.passed.map (·.num)
    · rw [if_pos hin]
    · rw [if_neg hin] at hnum ⊢
      exact h a ha hnum

theorem Queue.setBillet_refill (x : Queue) (num : Nat) :
    ∀ b ∈ (x.setBillet num fun b => { b with refill := none }).billets, b.num = num → b.refill = none := by
  intro b hb hnum
  obtain ⟨a, -, rfl⟩ := List.mem_map.1 hb
  by_cases ha : a.num = num
  · rw [if_pos ha]
  · rw [if_neg ha] at hnum
    exact absurd hnum ha

/-- The governor's counts after one core transfer of an eighth of a stave's demand. -/
def Gov.met (g : Gov) (n : Nat) : Gov := { g with acc8 := g.acc8 + n }

/-- The queue into which a stave has arrived. -/
def Queue.received (x : Queue) (num : Nat) (k : Option Nat) (l : List Slot9) (m : Table StaveEcc) : Queue :=
  ({ x with held := l, ecc := m } : Queue).setBillet num fun b => { b with refill := k }

theorem State.setQu_setQu (q : QId) (x y : Queue) : (s.setQu q x).setQu q y = s.setQu q y := by simp [State.setQu]

/-- `s` with a stave arrived in queue `q`, the refill's mark apart. -/
def State.landed (s : State) (q : QId) (c : YId) (r : Req) (l : List Slot9) (m : Table StaveEcc) (e : Table EvCell) : State :=
  ({ (s.demand 1).setQu q { s.qu q with held := l, ecc := m } with events := e } : State).modCh c fun x => x.arrive r

section Landed

variable (q : QId) (c : YId) (r : Req) (l : List Slot9) (m : Table StaveEcc) (e : Table EvCell)

theorem State.landed_ch : (s.landed q c r l m e).ch c = (s.ch c).arrive r := State.modCh_ch _ c _

theorem State.landed_qu : (s.landed q c r l m e).qu q = { s.qu q with held := l, ecc := m } := State.setQu_qu (s.demand 1) q _

theorem State.landed_setQu (x : Queue) : (s.landed q c r l m e).setQu q x =
    s.served q x c ((s.ch c).arrive r) e (s.gov.met 1) (s.order + 1) :=
  State.setQu_setQu (({ s.demand 1 with events := e } : State).setCh c ((s.ch c).arrive r)) q _ x

theorem State.landed_end (e' : Table EvCell) (y : Chan) (x : Queue) :
    (({ s.landed q c r l m e with events := e' } : State).setCh c y).setQu q x =
      s.served q x c y e' (s.gov.met 1) (s.order + 1) := by
  simp only [State.landed, State.served, State.setCh, State.setQu, State.modCh, Vector.set_set]
  rfl

end Landed

section Arrival

variable {s} {c : YId} {q : QId} {r : Req} {b : Billet} {k : Nat} (beats : List Ecc)
variable (harriving : (s.ch c).arriving q = some r) (horphan : r.orphan = false)
variable (hbillet : (s.qu q).billets.find? (fun b => b.num == r.num) = some b) (hrefill : b.refill = some k)
include harriving horphan hbillet hrefill

theorem State.staveArrival_eq : s.staveArrival c q beats =
    if r.issued ≤ k / 2 || (k == 255 && !(s.ch c).oldest r) then s
    else if k + 1 < 256 then ((((s.demand 1).checkBeats c q b k beats).modCh c fun x => x.arrive r).modQu q fun x =>
        x.setBillet r.num fun b => { b with refill := some (k + 1) }).scale q
    else (((((s.demand 1).checkBeats c q b k beats).modCh c fun x => x.arrive r).finishReq c r).modQu q fun x =>
        (x.setBillet r.num fun b => { b with refill := none }).freePassed).scale q := by
  unfold State.staveArrival
  simp only [harriving, horphan, hbillet, hrefill, Bool.false_eq_true, if_false]

theorem State.staveArrival_of_waiting (h : r.issued ≤ k / 2 ∨ (k = 255 ∧ (s.ch c).oldest r = false)) :
    s.staveArrival c q beats = s := by
  rw [State.staveArrival_eq beats harriving horphan hbillet hrefill]
  exact if_pos (by simpa using h)

theorem State.staveArrival_served (hissued : k / 2 < r.issued) (hk : k + 1 < 256) : ∃ l m e,
    (s.staveArrival c q beats).bare = (s.served q ((s.qu q).received r.num (some (k + 1)) l m) c ((s.ch c).arrive r) e
      (s.gov.met 1) (s.order + 1)).bare ∧
    (b.pats = [] → l = (s.qu q).held) ∧
    (beats = [] → ((s.qu q).eccOf (b.num * 256 + k)).bad = false → e = s.events) := by
  obtain ⟨l, m, e, hcheck, hheld, hevents⟩ := (s.demand 1).checkBeats_eq c q b k beats
  refine ⟨l, m, e, ?_, hheld, hevents⟩
  have hgo : ¬(r.issued ≤ k / 2 || (k == 255 && !(s.ch c).oldest r)) = true := by
    simp only [Bool.or_eq_true, decide_eq_true_eq, Bool.and_eq_true, beq_iff_eq]
    omega
  rw [State.staveArrival_eq beats harriving horphan hbillet hrefill, if_neg hgo, if_pos hk, State.scale_bare, hcheck]
  have hqu := s.landed_qu q c r l m e
  have hset := s.landed_setQu q c r l m e
  show ((s.landed q c r l m e).modQu q _).bare = _
  rw [State.modQu, hqu, hset]
  rfl

theorem State.staveArrival_last (hissued : k / 2 < r.issued) (hk : k = 255) (holdest : (s.ch c).oldest r = true) :
    ∃ l m idle e, (s.staveArrival c q beats).bare = (s.served q ((s.qu q).received r.num none l m).freePassed c
      ((s.ch c).without r idle) e (s.gov.met 1) (s.order + 1)).bare ∧ (b.pats = [] → l = (s.qu q).held) := by
  obtain ⟨l, m, e, hcheck, hheld, -⟩ := (s.demand 1).checkBeats_eq c q b k beats
  have hgo : ¬(r.issued ≤ k / 2 || (k == 255 && !(s.ch c).oldest r)) = true := by
    simp [holdest, hissued]
  rw [State.staveArrival_eq beats harriving horphan hbillet hrefill, if_neg hgo, if_neg (by omega), State.scale_bare, hcheck]
  obtain ⟨idle, e', hfinish, -⟩ := (s.landed q c r l m e).finishReq_eq c r
  refine ⟨l, m, idle, e', ?_, hheld⟩
  have hqu : ((s.landed q c r l m e).finishReq c r).qu q = { s.qu q with held := l, ecc := m } := by
    rw [hfinish]
    exact s.landed_qu q c r l m e
  have hset := s.landed_end q c r l m e
  rw [s.landed_ch] at hfinish
  show (((s.landed q c r l m e).finishReq c r).modQu q _).bare = _
  rw [State.modQu, hqu, hfinish, hset, ← (s.ch c).arrive_without r idle]
  rfl

end Arrival

/-! ### Staves for an orphan (R186, R402) -/

section Orphan

variable {s} {c : YId} {q : QId} {r : Req} (beats : List Ecc)
variable (harriving : (s.ch c).arriving q = some r) (horphan : r.orphan = true)
include harriving horphan

theorem State.orphanArrival_eq : s.staveArrival c q beats = s.orphanArrival c q r beats := by
  unfold State.staveArrival
  rw [harriving]
  exact if_pos horphan

theorem State.orphanArrival_of_waiting (h : r.issued ≤ r.arrived / 2) : s.staveArrival c q beats = s :=
  (State.orphanArrival_eq beats harriving horphan).trans (if_pos (by simp [h]))

theorem State.orphanArrival_served (hissued : r.arrived / 2 < r.issued) (hk : r.arrived < 255) : ∃ e,
    (s.staveArrival c q beats).bare =
      (s.served q (s.qu q) c ((s.ch c).arrive r) e (s.gov.met 1) (s.order + 1)).bare := by
  have hbeats := (s.demand 1).countBeats_frame c (beatErrs (r.ue.contains r.arrived) beats)
  have hgo : ¬(r.issued ≤ r.arrived / 2 || (r.arrived == 255 && !(s.ch c).oldest r)) = true := by
    simp only [Bool.or_eq_true, decide_eq_true_eq, Bool.and_eq_true, beq_iff_eq]
    omega
  rw [State.orphanArrival_eq beats harriving horphan, State.orphanArrival, if_neg hgo, if_pos hk, hbeats]
  exact ⟨_, (State.setQu_self_bare _ q).symm⟩

theorem State.orphanArrival_last (hissued : r.arrived / 2 < r.issued) (hk : r.arrived = 255)
    (holdest : (s.ch c).oldest r = true) : ∃ idle e,
    (s.staveArrival c q beats).bare =
      (s.served q (s.qu q) c ((s.ch c).without r idle) e (s.gov.met 1) (s.order + 1)).bare := by
  have hbeats := (s.demand 1).countBeats_frame c (beatErrs (r.ue.contains r.arrived) beats)
  have hgo : ¬(r.issued ≤ r.arrived / 2 || (r.arrived == 255 && !(s.ch c).oldest r)) = true := by
    simp [holdest, hissued]
  rw [State.orphanArrival_eq beats harriving horphan, State.orphanArrival, if_neg hgo, if_neg (by omega), hbeats]
  generalize ((s.demand 1).countBeats c (beatErrs (r.ue.contains r.arrived) beats)).events = e
  obtain ⟨idle, e', hfinish, -⟩ := ({ s.demand 1 with events := e } : State).finishReq_eq c r
  rw [State.scale_bare, hfinish]
  exact ⟨idle, e', (State.setQu_self_bare _ q).symm⟩

end Orphan

end Sys2Proof.Machine

open Sys2Proof Sys2Proof.Machine

/-- Settles O28: each command that acts leaves the state `served`, in which its queue, its channel, the counts and the order
alone may be others. -/
theorem billetRequests : Obligations.BilletRequests := by
  unfold Obligations.BilletRequests
  refine ⟨fun q num c cb s => ?_, fun c q r s => ?_⟩
  · refine ⟨fun hrun hready hrefill hturn => ?_, fun hrun hready hturn => ?_, fun h => ?_, fun h => ?_,
      fun k x hready hx h => ?_, fun k x hready hx hk hother h => ?_⟩
    · have hserved := s.handOver_served .spill q num c cb
        { (s.qu q).setBillet num fun b => { b with spilling := true } with spillSince := none } rfl
      obtain ⟨hevents, hgov, horder⟩ := State.served_fields hserved
      have hframe := State.served_frame hserved
      rw [hevents, hgov, horder] at hframe
      exact ⟨_, congrArg Host.Outcome.next (s.spillRequest_of_turn hrun hready hrefill hturn),
        ⟨State.served_ch hserved, State.served_other hserved, State.served_others hserved, hframe⟩, (State.served_qu hserved :)⟩
    · have hserved := s.handOver_served .refill q num c cb
        { (s.qu q).setBillet num fun b => { b with frame := true, refill := some 0 } with refillSince := none } rfl
      obtain ⟨hevents, hgov, horder⟩ := State.served_fields hserved
      have hframe := State.served_frame hserved
      rw [hevents, hgov, horder] at hframe
      exact ⟨_, congrArg Host.Outcome.next (s.refillRequest_of_turn hrun hready hturn),
        ⟨State.served_ch hserved, State.served_other hserved, State.served_others hserved, hframe⟩, (State.served_qu hserved :)⟩
    · exact congrArg Host.Outcome.next (s.spillRequest_of_not (h.imp_right .inl))
    · exact congrArg Host.Outcome.next (s.refillRequest_of_not (h.imp_right .inl))
    · have hturn := s.spillTurn_of_other hx (h.imp_right fun ⟨hk, hother, hbefore⟩ => ⟨hk, hother, goesBefore_iff.2 hbefore⟩)
      exact congrArg Host.Outcome.next (s.spillRequest_of_not (.inr (.inr ⟨num, c, cb, hready, hturn⟩)))
    · have hturn := s.refillTurn_of_other hx hk hother (goesBefore_iff.2 h)
      exact congrArg Host.Outcome.next (s.refillRequest_of_not (.inr (.inr ⟨num, c, cb, hready, hturn⟩)))
  · refine ⟨fun h => ?_, fun h => ?_, fun beats harriving horphan b k hbillet hrefill => ?_,
      fun beats harriving horphan => ?_⟩
    · exact congrArg Host.Outcome.next (by rw [State.spillAck, h])
    · obtain ⟨x, idle, e, hserved, hlat, hother, hown⟩ := s.spillAck_served h
      have hch := State.served_ch hserved
      refine ⟨_, rfl, ⟨?_, ?_, State.served_other hserved, State.served_others hserved, State.served_frame hserved⟩,
        fun hmode => ?_, fun horphan => ?_, fun horphan => State.served_same hserved (hother horphan)⟩
      · rw [hch]
        rfl
      · rw [hch]
        rfl
      · exact (State.served_fields hserved).1.trans (hlat hmode)
      · have hqu := State.served_qu hserved
        have hecc : ((s.spillAck c q).qu q).ecc = x.ecc := (congrArg Queue.ecc hqu :)
        rw [hqu, hecc, hown horphan]
        rfl
    · refine ⟨fun hwait => ?_, fun hissued hk => ?_, fun hissued hk holdest => ?_, fun hk holdest => ?_⟩
      · exact congrArg Host.Outcome.next
          (State.staveArrival_of_waiting beats harriving horphan hbillet hrefill (.inl hwait))
      · obtain ⟨l, m, e, hserved, hheld, hevents⟩ :=
          State.staveArrival_served beats harriving horphan hbillet hrefill hissued hk
        obtain ⟨hev, hgov, horder⟩ := State.served_fields hserved
        have hframe := State.served_frame hserved
        rw [horder] at hframe
        have hqu := State.served_qu hserved
        have hecc : ((s.staveArrival c q beats).qu q).ecc = m := (congrArg Queue.ecc hqu :)
        have hl : ((s.staveArrival c q beats).qu q).held = l := (congrArg Queue.held hqu :)
        refine ⟨_, rfl, ⟨State.served_ch hserved, State.served_other hserved, State.served_others hserved,
          congrArg Gov.acc8 hgov, hframe⟩, ?_, fun hpats => hl.trans (hheld hpats), fun hb hbad => hev.trans (hevents hb hbad)⟩
        rw [hqu, hecc, hl]
        rfl
      · obtain ⟨l, m, idle, e, hserved, hheld⟩ :=
          State.staveArrival_last beats harriving horphan hbillet hrefill hissued hk holdest
        have hch := State.served_ch hserved
        have hqu := State.served_qu hserved
        have hpassed := ((s.qu q).received r.num none l m).freePassed_eq
        refine ⟨_, rfl, ⟨?_, ?_, State.served_other hserved, State.served_others hserved, State.served_frame hserved⟩,
          congrArg Gov.acc8 (State.served_fields hserved).2.1, ?_, fun hpats => ?_⟩
        · rw [hch]
          rfl
        · rw [hch]
          rfl
        · have hbillets : ((s.staveArrival c q beats).qu q).billets =
            ((s.qu q).received r.num none l m).freePassed.billets := (congrArg Queue.billets hqu :)
          rw [hbillets]
          exact Queue.freePassed_refill (Queue.setBillet_refill _ _)
        · have hl : ((s.staveArrival c q beats).qu q).held = ((s.qu q).received r.num none l m).freePassed.held :=
            (congrArg Queue.held hqu :)
          rw [hl, hpassed]
          exact hheld hpats
      · exact congrArg Host.Outcome.next
          (State.staveArrival_of_waiting beats harriving horphan hbillet hrefill (.inr ⟨hk, holdest⟩))
    · refine ⟨fun hwait => ?_, fun hissued hk => ?_, fun hissued hk holdest => ?_⟩
      · exact congrArg Host.Outcome.next (State.orphanArrival_of_waiting beats harriving horphan hwait)
      · obtain ⟨e, hserved⟩ := State.orphanArrival_served beats harriving horphan hissued hk
        obtain ⟨-, hgov, horder⟩ := State.served_fields hserved
        have hframe := State.served_frame hserved
        rw [horder] at hframe
        exact ⟨_, rfl, ⟨State.served_ch hserved, State.served_other hserved, State.served_others hserved,
          congrArg Gov.acc8 hgov, hframe⟩, State.served_same hserved rfl⟩
      · obtain ⟨idle, e, hserved⟩ := State.orphanArrival_last beats harriving horphan hissued hk holdest
        have hch := State.served_ch hserved
        refine ⟨_, rfl, ⟨?_, ?_, State.served_other hserved, State.served_others hserved, State.served_frame hserved⟩,
          congrArg Gov.acc8 (State.served_fields hserved).2.1, State.served_same hserved rfl⟩
        · rw [hch]
          rfl
        · rw [hch]
          rfl

end

section
/-!
O29. Landing rotation, bank tests, full test and sweep.
-/

-- The theorems one after another: side by side they take more threads than the check allows.
set_option Elab.async false

namespace Sys2Proof.Machine

variable (s : State)

/-! ### Internal reads of the Landing (R190) -/

/-- A mark other than the default is found where it was written, whatever the table holds. -/
theorem Table.get_put_of_ne {α : Type} [DecidableEq α] {d v : α} (h : v ≠ d) (t : Table α) (k : Nat) :
    Table.get d (Table.put d t k v) k = v := by
  induction t with
  | nil => simp [Table.put, Table.get, h]
  | cons a t ih =>
    obtain ⟨k', w⟩ := a
    unfold Table.put
    split
    · simp [Table.get]
    next hne =>
      split
      · simp [Table.get]
      · rw [Table.get, if_neg hne, ih]

/-- `t` is `s` with marks of errors and counts of events changed. -/
structure State.readsOnly (s t : State) : Prop where
  frame : t = { s with queues := t.queues, events := t.events }
  queue : ∀ q, t.qu q = { s.qu q with ecc := (t.qu q).ecc }

theorem State.readsOnly_refl : s.readsOnly s := ⟨rfl, fun _ => rfl⟩

theorem State.readsOnly.trans {s t u : State} (h : s.readsOnly t) (k : t.readsOnly u) : s.readsOnly u where
  frame := k.frame.trans (congrArg (fun v : State => { v with queues := u.queues, events := u.events }) h.frame)
  queue q := (k.queue q).trans (congrArg (fun x : Queue => { x with ecc := (u.qu q).ecc }) (h.queue q))

theorem State.readsOnly_count (code inst : Nat) : s.readsOnly (s.count code inst) where
  frame := s.countN_frame code inst 1
  queue q := by
    rw [State.count, State.countN_qu_frame]

theorem State.readsOnly_setEcc (q : QId) (k : Nat) (e : StaveEcc) : s.readsOnly (s.modQu q fun x => x.setEcc k e) where
  frame := rfl
  queue j := by
    by_cases hj : j = q
    · rw [hj, State.modQu_qu]
      rfl
    · rw [s.modQu_qu_ne q j _ hj]

theorem State.readStave_readsOnly (q : QId) (k : Nat) (e : Ecc) : s.readsOnly (s.readStave q k e) := by
  unfold State.readStave
  dsimp only
  split
  · exact (s.readsOnly_setEcc q k _).trans (State.readsOnly_count _ _ _)
  · split
    · exact s.readsOnly_count _ _
    · exact s.readsOnly_refl

theorem State.readStave_single (q : QId) (k : Nat) (h : ((s.qu q).eccOf k).ue = false) :
    s.readStave q k .single = s.count Ev.lce 0 := by
  unfold State.readStave
  dsimp only
  rw [h]
  rfl

theorem State.readStave_double (q : QId) (k : Nat) : s.readStave q k .double =
    (s.modQu q fun x => x.setEcc k { (s.qu q).eccOf k with poison := true, ue := true }).count Ev.lue 0 :=
  if_pos (by simp)

theorem State.readErrs_readsOnly (errs : List StaveErr) : s.readsOnly (s.readErrs errs) :=
  List.foldlRecOn (motive := fun t => s.readsOnly t) errs _ s.readsOnly_refl fun _ ht e _ =>
    ht.trans (State.readStave_readsOnly _ e.q e.stave e.ecc)

/-! ### The rotation (R200, R201, R206) -/

/-- The Landing as a rest ends and its copy begins. -/
def Land.rotating (x : Land) (tick : Nat) : Land :=
  { x with
    copying := true, restTick := tick, sweepLeft := x.sweepLeft - 1
    restMs := if x.sweepLeft ≤ 1 then 64 * x.rotMs else x.rotMs }

theorem State.bankRotation_of_over (errs : List StaveErr) (h : s.restOver = true) :
    s.bankRotation errs = ({ s with land := s.land.rotating s.time.ticks } : State).readErrs errs := by
  have hlen : ({ s.land with sweepLeft := s.land.sweepLeft - 1 } : Land).nextRestMs =
      if s.land.sweepLeft ≤ 1 then 64 * s.land.rotMs else s.land.rotMs := by
    unfold Land.nextRestMs
    by_cases hone : s.land.sweepLeft ≤ 1
    · rw [if_pos (show s.land.sweepLeft - 1 = 0 by omega), if_pos hone]
      rfl
    · rw [if_neg (show ¬s.land.sweepLeft - 1 = 0 by omega), if_neg hone]
      rfl
  unfold State.bankRotation
  rw [if_pos h]
  dsimp only
  rw [hlen]
  rfl

/-- The Landing as a copy ends. -/
def Land.rotated (x : Land) : Land := { x with copying := false, rest := (x.rest + 1) % 17 }

theorem State.copyEnd_of_copying (frames : List (QId × Nat)) (errs : List StaveErr) (hrun : s.running = true)
    (hcopy : s.land.copying = true) : s.copyEnd frames errs =
      (({ s with land := s.land.rotated } : State).readErrs
        (({ s with land := s.land.rotated } : State).foundAgain frames errs)).readErrs errs :=
  if_pos (by simp [hrun, hcopy])

theorem State.foundAgain_of_clean (h : ∀ q, (s.qu q).ecc = []) (frames : List (QId × Nat)) (errs : List StaveErr) :
    s.foundAgain frames errs = [] := by
  unfold State.foundAgain
  simp [h]

/-! ### A full test begins (R204) -/

/-- A queue that holds slots is emptied. -/
def State.emptyHeld (s : State) (q : QId) : State := if 0 < (s.qu q).occ + s.pend q then (s.resetQueue q).scale q else s

theorem State.resetQueue_frame (q : QId) : (s.resetQueue q).scale q = { s with
    ports := ((s.resetQueue q).scale q).ports, queues := ((s.resetQueue q).scale q).queues
    chans := ((s.resetQueue q).scale q).chans } := by
  by_cases h : (s.qu q).resetting = true
  · rw [show s.resetQueue q = s from if_pos h]
    rfl
  · have hclear : s.resetQueue q = (s.flagged q).drainAll := if_neg h
    have hmoves := s.resetDone_moves q
    rw [hclear]
    generalize ((s.flagged q).drainAll).scale q = t at hmoves
    exact hmoves.frame.trans (congrArg (fun v : State => { v with
      ports := t.ports, queues := t.queues, chans := t.chans }) (s.emptied_frame q))

theorem State.emptyHeld_frame (q : QId) : s.emptyHeld q = { s with
    ports := (s.emptyHeld q).ports, queues := (s.emptyHeld q).queues, chans := (s.emptyHeld q).chans } := by
  unfold State.emptyHeld
  split
  · exact s.resetQueue_frame q
  · rfl

theorem State.emptyHeld_still {q : QId} (hq : (s.qu q).resetting = false) (h : ∀ n, (s.po n).staging = []) :
    (∀ n, ((s.emptyHeld q).po n).staging = []) ∧ ((s.emptyHeld q).qu q).occ = 0 ∧ s.otherQueues (s.emptyHeld q) q := by
  unfold State.emptyHeld
  split
  · have hclear : s.resetQueue q = (s.flagged q).drainAll := if_neg (by simp [hq])
    rw [hclear]
    obtain ⟨hpo, -, hother⟩ := State.resetDone_still (s := s) (q := q) h
    have hqu := s.resetDone_qu q
    generalize ((s.flagged q).drainAll).scale q = t at hpo hother hqu
    refine ⟨fun n => ?_, ?_, hother⟩
    · have hst := (congrArg Port.staging (hpo n).1 :)
      refine hst.trans ?_
      show (dropStaged q _ (s.po n).staging).1 = []
      rw [h n]
      rfl
    · have hw : (t.qu q).w = 0 := (congrArg Queue.w hqu :)
      have hh : (t.qu q).h = 0 := (congrArg Queue.h hqu :)
      rw [Queue.occ, hw, hh]
      rfl
  next hnone => exact ⟨h, by omega, fun _ _ => rfl⟩

theorem State.emptyHelds_still {l : List QId} (hl : l.Nodup) (hq : ∀ q ∈ l, (s.qu q).resetting = false)
    (h : ∀ n, (s.po n).staging = []) :
    (∀ q ∈ l, ((l.foldl State.emptyHeld s).qu q).occ = 0) ∧
    ∀ q, q ∉ l → ((l.foldl State.emptyHeld s).qu q).bare = (s.qu q).bare := by
  induction l generalizing s with
  | nil => exact ⟨fun q hm => absurd hm List.not_mem_nil, fun q _ => rfl⟩
  | cons a l ih =>
    obtain ⟨ha, hnodup⟩ := List.nodup_cons.1 hl
    obtain ⟨hst, hocc, hother⟩ := s.emptyHeld_still (hq a (List.mem_cons_self ..)) h
    have hreset (q : QId) (hm : q ∈ l) : ((s.emptyHeld a).qu q).resetting = false := by
      have hne : q ≠ a := fun e => ha (e ▸ hm)
      exact (congrArg Queue.resetting (hother q hne) :).trans (hq q (List.mem_cons_of_mem _ hm))
    obtain ⟨hin, hout⟩ := ih (s.emptyHeld a) hnodup hreset hst
    refine ⟨fun q hm => ?_, fun q hm => ?_⟩
    · rcases List.mem_cons.1 hm with rfl | hm
      · exact (congrArg Queue.occ (hout q ha) :).trans hocc
      · exact hin q hm
    · have hne : q ≠ a := fun e => hm (e ▸ List.mem_cons_self ..)
      exact (hout q fun e => hm (List.mem_cons_of_mem _ e)).trans (hother q hne)

theorem State.emptyHelds_frame (l : List QId) : l.foldl State.emptyHeld s = { s with
    ports := (l.foldl State.emptyHeld s).ports, queues := (l.foldl State.emptyHeld s).queues
    chans := (l.foldl State.emptyHeld s).chans } :=
  List.foldlRecOn (motive := fun t => t = { s with ports := t.ports, queues := t.queues, chans := t.chans }) l
    State.emptyHeld rfl fun t ht q _ => by
      have hstep := t.emptyHeld_frame q
      generalize t.emptyHeld q = u at hstep ⊢
      exact hstep.trans (congrArg (fun v : State => { v with ports := u.ports, queues := u.queues, chans := u.chans }) ht)

/-- DP:LOCKCFG with the rotation engine. -/
def Direct.tested (d : Direct) (tick : Nat) : Direct :=
  { d with lockCfg := ⟨VWord.of lockRotation, tick, (max 1 d.lease.toNat) * msTicks⟩ }

theorem State.startFull_eq (h : (s.lock .config).holder = VWord.of 0) : s.startFull =
    ({ allQ.foldl State.emptyHeld s with
      dp := s.dp.tested s.time.ticks
      queues := vmap (fun x => { x with ecc := [] }) (allQ.foldl State.emptyHeld s).queues
      land := { s.land with full := true, copying := false } } : State) := by
  have hframe := s.emptyHelds_frame allQ
  unfold State.startFull
  have hfold : (allQ.foldl (fun s q => if 0 < (s.qu q).occ + s.pend q then (s.resetQueue q).scale q else s) s) =
    allQ.foldl State.emptyHeld s := rfl
  rw [hfold]
  generalize allQ.foldl State.emptyHeld s = t at hframe ⊢
  have hlock : (t.lock .config).holder.val = 0 := by
    rw [hframe]
    show (s.lock .config).holder.val = 0
    rw [h]
    rfl
  dsimp only
  rw [if_pos hlock, hframe]
  rfl

theorem State.fullTest_begins (acc : Access) (hbusy : s.busyQ = false) (htest : s.testRuns = false)
    (hlock : (s.lock .config).holder = VWord.of 0) : s.fullTest acc = s.startFull := by
  have hfree (p : Path) : s.holds p .config = false := by
    rw [State.holds, hlock]
    cases p <;> decide
  unfold State.fullTest
  rw [hbusy, htest, hfree, hfree]
  rfl

theorem State.fullTest_busy (acc : Access) (hbusy : s.busyQ = true) :
    s.fullTest acc = s.reject acc Ev.testrej 0 Reason.busy := if_pos (by simp [hbusy])

theorem State.landSweep_begins (acc : Access) (htest : s.testRuns = false) (hspare : s.noSpare = false) :
    s.landSweep acc = { s with land := { s.land with sweepLeft := 17, restTick := s.time.ticks, restMs := s.land.rotMs } } := by
  unfold State.landSweep
  rw [htest, hspare]
  rfl

theorem State.landSweep_noSpare (acc : Access) (htest : s.testRuns = false) (hspare : s.noSpare = true) :
    s.landSweep acc = s.reject acc Ev.testrej 0 Reason.nospare := by
  unfold State.landSweep
  rw [htest, hspare]
  rfl

/-- Banks found failing: those newly so are counted. -/
theorem State.retire_eq (bad : BitVec 17) : s.retire bad = ({ s with land := { s.land with
      retired := s.land.retired ||| bad
      rest := if s.land.retired ||| bad = 0 then s.land.rest else 31
      sweepLeft := if s.land.retired ||| bad = 0 then s.land.sweepLeft else 0 } } : State).countN Ev.lbankfail 0
        (bankCount (bad &&& ~~~s.land.retired)) := by
  have hnew : ((List.range 17).filter fun b => bad.getLsbD b && !s.land.retired.getLsbD b) =
      (List.range 17).filter fun b => (bad &&& ~~~s.land.retired).getLsbD b := by
    refine List.filter_congr fun b hb => ?_
    simp [List.mem_range.1 hb]
  unfold State.retire bankCount
  rw [hnew]

theorem State.countN_land_eq (x : Land) (code inst n : Nat) : ({ s with land := x } : State).countN code inst n =
    { s with land := x, events := (s.countN code inst n).events } := by
  unfold State.countN
  split <;> rfl

theorem State.fullTestDone_eq (bad : BitVec 17) (h : (s.lock .config).holder = VWord.of 4) :
    (({ s with land := { s.land with full := false, restTick := s.time.ticks } } : State).retire bad).rotationFree =
      { s with
        land := { s.land with
          full := false, restTick := s.time.ticks, retired := s.land.retired ||| bad
          rest := if s.land.retired ||| bad = 0 then s.land.rest else 31
          sweepLeft := if s.land.retired ||| bad = 0 then s.land.sweepLeft else 0 }
        events := (s.countN Ev.lbankfail 0 (bankCount (bad &&& ~~~s.land.retired))).events
        dp := { s.dp with lockCfg := Lock.free } } := by
  rw [State.retire_eq, State.countN_land_eq, State.countN_land_eq]
  have hlock : s.dp.lockCfg.holder.val = lockRotation := by
    have hval := congrArg VWord.val h
    exact hval.trans (by decide)
  unfold State.rotationFree
  rw [if_pos]
  · rfl
  · exact hlock

/-- A write of LAND:TCMD by a path that may write. -/
theorem State.rowCommit_tcmd {p : Path} (h : s.hostWrites p) (v : Word) :
    ∃ u, s.pathFrame u ∧ s.rowCommit p .land 1 [v] = u.tcmd ⟨p, 65, 0x34⟩ v :=
  s.rowCommit_of_mayWrite (b := .land) (off := 1) ⟨h, rfl, fun _ hl => nomatch hl⟩ [v]

theorem State.exec_fullTest {p : Path} (h : s.hostWrites p) :
    ∃ u, s.pathFrame u ∧ exec (.fullTest p) s = .next (u.fullTest ⟨p, 65, 0x34⟩) := by
  obtain ⟨u, hu, hrow⟩ := s.rowCommit_tcmd h 1
  exact ⟨u, hu, congrArg Host.Outcome.next hrow⟩

theorem State.exec_sweep {p : Path} (h : s.hostWrites p) :
    ∃ u, s.pathFrame u ∧ exec (.sweep p) s = .next (u.landSweep ⟨p, 65, 0x34⟩) := by
  obtain ⟨u, hu, hrow⟩ := s.rowCommit_tcmd h 2
  exact ⟨u, hu, congrArg Host.Outcome.next hrow⟩

end Sys2Proof.Machine

open Sys2Proof Sys2Proof.Machine

/-- Settles O29: internal reads leave all but marks and counts; the full test empties the queues one after another, each
reset leaving the others. -/
theorem rotationAndTests : Obligations.RotationAndTests := by
  unfold Obligations.RotationAndTests
  refine ⟨fun s => ⟨fun errs hover => ?_, fun errs hover => ?_, fun frames errs hrun hcopy => ?_,
    fun q k hrun hcopy hwf hue => ⟨?_, ?_⟩, fun hrun hwf hrest hcopy hfull => ?_, ?_⟩,
    fun p s => ⟨fun hhost hbusy htest hlock => ?_, fun bad hrun hwf hfull hlock => ?_, fun hhost htest hspare => ?_,
      fun hhost hwf hbusy => ?_, fun hhost hwf htest hspare => ?_⟩⟩
  · have hreads := ({ s with land := s.land.rotating s.time.ticks } : State).readErrs_readsOnly errs
    have hland : (({ s with land := s.land.rotating s.time.ticks } : State).readErrs errs).land =
      s.land.rotating s.time.ticks := (congrArg State.land hreads.frame :)
    refine ⟨_, congrArg Host.Outcome.next (s.bankRotation_of_over errs hover), hland, fun herrs => ?_, ?_, hreads.queue⟩
    · rw [herrs]
      rfl
    · rw [hland]
      exact hreads.frame
  · exact congrArg Host.Outcome.next (if_neg (by simp [hover]))
  · refine ⟨_, congrArg Host.Outcome.next (s.copyEnd_of_copying frames errs hrun hcopy), ?_, fun herrs hclean => ?_, ?_⟩
    · exact ((State.readErrs_readsOnly _ _).trans (State.readErrs_readsOnly _ errs)).frame
    · have hagain := ({ s with land := s.land.rotated } : State).foundAgain_of_clean hclean frames errs
      rw [hagain, herrs]
      exact ⟨rfl, rfl⟩
    · exact ((State.readErrs_readsOnly _ _).trans (State.readErrs_readsOnly _ errs)).queue
  · have hcopyEnd := (s.copyEnd_of_copying [] [⟨q, k, .single⟩] hrun hcopy).trans
      (({ s with land := s.land.rotated } : State).readStave_single q k hue)
    exact ⟨_, congrArg Host.Outcome.next hcopyEnd, s.counted_of_events hwf rfl, rfl⟩
  · have hcopyEnd := (s.copyEnd_of_copying [] [⟨q, k, .double⟩] hrun hcopy).trans
      (({ s with land := s.land.rotated } : State).readStave_double q k)
    have hqu := ({ s with land := s.land.rotated } : State).modQu_qu q fun x =>
      x.setEcc k { (s.qu q).eccOf k with poison := true, ue := true }
    refine ⟨_, congrArg Host.Outcome.next hcopyEnd, s.counted_of_events hwf rfl, ?_, fun j hj => ?_⟩
    · refine (congrArg (fun x : Queue => x.eccOf k) hqu).trans ?_
      exact Table.get_put_of_ne (by simp [StaveEcc.clean]) _ k
    · exact ({ s with land := s.land.rotated } : State).modQu_qu_ne q j
        (fun x => x.setEcc k { (s.qu q).eccOf k with poison := true, ue := true }) hj
  · refine ⟨_, congrArg Host.Outcome.next (if_pos (by simp [hrun, hrest, hcopy, hfull])), rfl, ?_, rfl⟩
    exact s.counted_of_events hwf rfl
  · exact congrArg Host.Outcome.next (if_neg (by simp))
  · obtain ⟨u, hu, hexec⟩ := s.exec_fullTest hhost
    have hbegin := u.fullTest_begins ⟨p, 65, 0x34⟩
    have hstart := u.startFull_eq
    have hstill := u.emptyHelds_still (l := allQ) (List.nodup_finRange 16)
    have hframe := u.emptyHelds_frame allQ
    obtain ⟨⟨_, _, rfl⟩, -⟩ := hu
    rw [hbegin hbusy htest hlock, hstart hlock] at hexec
    have hevents := (congrArg State.events hframe :)
    generalize allQ.foldl State.emptyHeld _ = t at hexec hstill hframe hevents
    have hqu (q : QId) := State.qu_of_vmap (s := t) (u := { t with
      dp := s.dp.tested s.time.ticks, queues := vmap (fun x => { x with ecc := [] }) t.queues
      land := { s.land with full := true, copying := false } }) (g := fun x => { x with ecc := [] }) (q := q) rfl
    refine ⟨_, hexec, rfl, ?_, ?_, ?_, fun hreset hstaging q => ?_, fun q => ?_, hevents⟩
    · show (VWord.of lockRotation).val = 4
      decide
    · rfl
    · rfl
    · refine (congrArg Queue.occ (hqu q)).trans ?_
      exact (hstill (fun q _ => hreset q) hstaging).1 q (mem_allQ q)
    · exact congrArg Queue.ecc (hqu q)
  · have hdone : exec (.fullTestDone bad) s = .next
        (({ s with land := { s.land with full := false, restTick := s.time.ticks } } : State).retire bad).rotationFree :=
      congrArg Host.Outcome.next (if_pos (by simp [hrun, hfull]))
    rw [s.fullTestDone_eq bad hlock] at hdone
    exact ⟨_, hdone, rfl, s.counted_of_events hwf rfl, rfl⟩
  · obtain ⟨u, hu, hexec⟩ := s.exec_sweep hhost
    have hstart := u.landSweep_begins ⟨p, 65, 0x34⟩
    obtain ⟨⟨_, _, rfl⟩, hcore⟩ := hu
    exact ⟨_, hexec.trans (congrArg Host.Outcome.next (hstart htest hspare)), rfl, rfl, hcore⟩
  · obtain ⟨u, hu, hexec⟩ := s.exec_fullTest hhost
    have hreject := u.fullTest_busy ⟨p, 65, 0x34⟩ (by obtain ⟨⟨_, _, rfl⟩, -⟩ := hu; exact hbusy)
    exact ⟨_, hexec.trans (congrArg Host.Outcome.next hreject), hu.reject hwf _ _ _ _⟩
  · obtain ⟨u, hu, hexec⟩ := s.exec_sweep hhost
    have hreject := u.landSweep_noSpare ⟨p, 65, 0x34⟩ (by obtain ⟨⟨_, _, rfl⟩, -⟩ := hu; exact htest)
      (by obtain ⟨⟨_, _, rfl⟩, -⟩ := hu; exact hspare)
    exact ⟨_, hexec.trans (congrArg Host.Outcome.next hreject), hu.reject hwf _ _ _ _⟩

end

section
/-!
O31 and O32. Requests start, and the burst that goes next issues.
-/

-- The theorems one after another: side by side they take more threads than the check allows.
set_option Elab.async false

namespace Sys2Proof.Machine

/-! ### The burst that goes next (R225, R230, R231) -/

section Choice

variable (x : Chan) (tick : Nat) {a b c : Burst}

/-- Burst `a` may go where `b` waits: it is more urgent, or as urgent with an open row `b` has not, or no younger. -/
def Chan.covers (x : Chan) (tick : Nat) (a b : Burst) : Prop :=
  x.burstUrgency tick b ≤ x.burstUrgency tick a ∧ (x.burstUrgency tick b = x.burstUrgency tick a →
    (x.rowHit b = true → x.rowHit a = true) ∧ (x.rowHit b = x.rowHit a → a.age ≤ b.age))

theorem Chan.covers_refl : x.covers tick a a := ⟨le_rfl, fun _ => ⟨id, fun _ => le_rfl⟩⟩

theorem Chan.covers_trans (h : x.covers tick a b) (k : x.covers tick b c) : x.covers tick a c := by
  obtain ⟨hu, hsame⟩ := h
  obtain ⟨ku, ksame⟩ := k
  refine ⟨ku.trans hu, fun hac => ?_⟩
  obtain ⟨hhit, hage⟩ := hsame (by omega)
  obtain ⟨khit, kage⟩ := ksame (by omega)
  refine ⟨fun hc => hhit (khit hc), fun hca => ?_⟩
  cases hb : x.rowHit b with
  | true => exact (hage (by rw [hb, hhit hb])).trans (kage (by rw [hca, hb, hhit hb]))
  | false =>
    have hc : x.rowHit c = false := by
      cases hc : x.rowHit c with
      | true => rw [khit hc] at hb; cases hb
      | false => rfl
    exact (hage (by rw [hb, ← hca, hc])).trans (kage (by rw [hb, hc]))

theorem Chan.covers_of_before (h : x.before tick a b = true) : x.covers tick a b := by
  unfold Chan.before at h
  unfold Chan.covers
  dsimp only at h
  split at h
  next hu => exact ⟨(by simpa using h : _ < _).le, fun e => absurd e.symm hu⟩
  next hu =>
    have hsame : x.burstUrgency tick a = x.burstUrgency tick b := by simpa using hu
    refine ⟨hsame.ge, fun _ => ?_⟩
    split at h
    next hhit => exact ⟨fun _ => h, fun e => absurd e.symm (by simpa using hhit)⟩
    next hhit =>
      have hrow : x.rowHit a = x.rowHit b := by simpa using hhit
      refine ⟨fun hb => hrow.trans hb, fun _ => ?_⟩
      split at h
      · exact (by simpa using h : _ < _).le
      next hage => exact (by simpa using hage : a.age = b.age).le

theorem Chan.covers_of_not_before (h : x.before tick a b = false) : x.covers tick b a := by
  unfold Chan.before at h
  unfold Chan.covers
  dsimp only at h
  split at h
  next hu =>
    have hle : x.burstUrgency tick a ≤ x.burstUrgency tick b := by simpa using h
    exact ⟨hle, fun e => absurd e hu⟩
  next hu =>
    have hsame : x.burstUrgency tick a = x.burstUrgency tick b := by simpa using hu
    refine ⟨hsame.le, fun _ => ?_⟩
    split at h
    next hhit => exact ⟨fun ha => absurd (ha.symm.trans h) (by decide), fun e => absurd e (by simpa using hhit)⟩
    next hhit =>
      have hrow : x.rowHit a = x.rowHit b := by simpa using hhit
      refine ⟨fun ha => hrow ▸ ha, fun _ => ?_⟩
      split at h
      · exact by simpa using h
      next hage => exact (by simpa using hage : a.age = b.age).ge

/-- The better of the burst chosen so far and the next. -/
def Chan.better (x : Chan) (tick : Nat) (acc : Option Burst) (r : Burst) : Option Burst :=
  match acc with
  | none => some r
  | some a => if x.before tick r a then some r else some a

theorem Chan.pick_eq (ok : BitVec 34) : x.pick tick ok =
    (x.heads.filter fun b => ok.getLsbD b.src.idx && !x.throttled tick b && !x.rankBlocked tick (x.rankOf b.cb)).foldl
      (x.better tick) none := rfl

/-- What is chosen from a list, after a burst chosen before, is one of them and covers them all. -/
theorem Chan.foldl_better (l : List Burst) (a : Burst) : ∃ b, l.foldl (x.better tick) (some a) = some b ∧
    (b = a ∨ b ∈ l) ∧ x.covers tick b a ∧ ∀ k ∈ l, x.covers tick b k := by
  induction l generalizing a with
  | nil => exact ⟨a, rfl, .inl rfl, x.covers_refl tick, fun k hk => absurd hk List.not_mem_nil⟩
  | cons r l ih =>
    cases hbefore : x.before tick r a with
    | true =>
      have hstep : x.better tick (some a) r = some r := if_pos hbefore
      obtain ⟨b, hfold, hmem, hcov, hall⟩ := ih r
      refine ⟨b, ?_, .inr ?_, x.covers_trans tick hcov (x.covers_of_before tick hbefore), fun k hk => ?_⟩
      · rw [List.foldl_cons, hstep, hfold]
      · exact hmem.elim (fun e => e ▸ List.mem_cons_self ..) (List.mem_cons_of_mem _)
      · rcases List.mem_cons.1 hk with rfl | hk
        · exact hcov
        · exact hall k hk
    | false =>
      have hstep : x.better tick (some a) r = some a := if_neg (by simp [hbefore])
      obtain ⟨b, hfold, hmem, hcov, hall⟩ := ih a
      refine ⟨b, ?_, hmem.imp_right (List.mem_cons_of_mem _), hcov, fun k hk => ?_⟩
      · rw [List.foldl_cons, hstep, hfold]
      · rcases List.mem_cons.1 hk with rfl | hk
        · exact x.covers_trans tick hcov (x.covers_of_not_before tick hbefore)
        · exact hall k hk

/-- A burst may go: its DDR4 timing allows it, no throttle holds it, and its rank is not kept free. -/
def Chan.mayGo (x : Chan) (tick : Nat) (ok : BitVec 34) (k : Burst) : Prop :=
  ok.getLsbD k.src.idx = true ∧ x.throttled tick k = false ∧ x.rankBlocked tick (x.rankOf k.cb) = false

theorem Chan.pick_spec {ok : BitVec 34} (h : x.pick tick ok = some b) :
    b ∈ x.heads ∧ x.mayGo tick ok b ∧ ∀ k ∈ x.heads, x.mayGo tick ok k → x.covers tick b k := by
  rw [Chan.pick_eq] at h
  have hin (k : Burst) : k ∈ (x.heads.filter fun b =>
      ok.getLsbD b.src.idx && !x.throttled tick b && !x.rankBlocked tick (x.rankOf b.cb)) ↔
      k ∈ x.heads ∧ x.mayGo tick ok k := by
    simp [Chan.mayGo, List.mem_filter, and_assoc]
  generalize (x.heads.filter fun b =>
    ok.getLsbD b.src.idx && !x.throttled tick b && !x.rankBlocked tick (x.rankOf b.cb)) = l at h hin
  cases l with
  | nil => cases h
  | cons a l =>
    obtain ⟨b', hfold, hmem, hcov, hall⟩ := x.foldl_better tick l a
    have hb : b' = b := Option.some.inj (hfold.symm.trans h)
    subst hb
    have hb' : b' ∈ a :: l := hmem.elim (fun e => e ▸ List.mem_cons_self ..) (List.mem_cons_of_mem _)
    obtain ⟨hhead, hgo⟩ := (hin b').1 hb'
    refine ⟨hhead, hgo, fun k hk hfree => ?_⟩
    rcases List.mem_cons.1 ((hin k).2 ⟨hk, hfree⟩) with rfl | hk
    · exact hcov
    · exact hall k hk

/-- What a waiting burst is (R221, R223, R262). -/
theorem Chan.heads_cases (h : b ∈ x.heads) :
    (∃ r, b = r.burst ∧ r ∈ x.reqs ∧ r.started = true ∧ r.issued < 128) ∨
    (∃ k, b = Run.burst k ∧ x.run = some k ∧ k.issued < k.bursts) ∨
    (b = x.testBurst ∧ (x.sweeping.isSome = true ∨ x.readCheck = true)) := by
  unfold Chan.heads at h
  rcases List.mem_append.1 h with h | h
  · rcases List.mem_append.1 h with h | h
    · left
      obtain ⟨k, -, hk⟩ := List.mem_filterMap.1 h
      obtain ⟨r, hfind, rfl⟩ := Option.map_eq_some_iff.1 hk
      have hr := List.find?_some hfind
      simp only [Bool.and_eq_true, decide_eq_true_eq] at hr
      exact ⟨r, rfl, List.mem_of_find?_eq_some hfind, hr.1.2, hr.2⟩
    · right; left
      obtain ⟨k, hk, rfl⟩ := List.mem_map.1 h
      obtain ⟨hrun, hissued⟩ := List.mem_filter.1 hk
      exact ⟨k, rfl, by simpa using hrun, by simpa using hissued⟩
  · right; right
    split at h
    next hgo => exact ⟨by simpa using h, by simpa using hgo⟩
    · cases h

end Choice

end Sys2Proof.Machine

open Sys2Proof Sys2Proof.Machine

/-- Settles O32: the choice runs through the bursts that may go and keeps the better of two, and what is kept covers all. -/
theorem burstChoice : Obligations.BurstChoice := by
  unfold Obligations.BurstChoice
  intro c ok b s hpick
  obtain ⟨hhead, hfree, hcover⟩ := (s.ch c).pick_spec s.time.ticks hpick
  refine ⟨hhead, hfree, fun r hr => ?_, fun hnone => ?_, fun hlat => ?_, hcover⟩
  · rcases (s.ch c).heads_cases hhead with ⟨r', rfl, hmem, hstarted, hissued⟩ | ⟨k, rfl, -, -⟩ | ⟨rfl, -⟩
    · cases hr
      exact ⟨hmem, hstarted, hissued, rfl, rfl, rfl, rfl⟩
    · cases hr
    · cases hr
  · rcases (s.ch c).heads_cases hhead with ⟨r', rfl, -, -, -⟩ | ⟨k, rfl, hrun, hissued⟩ | ⟨rfl, hgo⟩
    · cases hnone
    · exact .inl ⟨rfl, rfl, k, hrun, hissued, rfl⟩
    · refine .inr ⟨rfl, rfl, hgo, (s.ch c).swept % (if (s.ch c).ranks then 16 else 8), ?_, rfl⟩
      split <;> omega
  · show (s.ch c).burstUrgency s.time.ticks b = 0
    unfold Chan.burstUrgency
    split
    · rw [hlat]
      rfl
    · rfl

end

section
/-!
O31. Requests start, and bursts issue.
-/

-- The theorems one after another: side by side they take more threads than the check allows.
set_option Elab.async false

namespace Sys2Proof.Machine

/-! ### A request starts (R224, R228) -/

section Start

variable (x : Chan)

theorem Chan.takeToken_eq (cls : Nat) : ∃ l, x.takeToken cls = { x with bucket := l } ∧ ∀ i : Fin 4, l[i.val] =
    if i.val = cls ∧ x.regulated cls = true then x.bucket[i.val] - 1000 else x.bucket[i.val] := by
  unfold Chan.takeToken
  split
  next hreg =>
    split
    next hcls =>
      refine ⟨_, rfl, fun i => ?_⟩
      by_cases hi : i.val = cls
      · subst hi
        rw [if_pos ⟨rfl, hreg⟩]
        exact Vector.getElem_set_self ..
      · rw [if_neg fun h => hi h.1]
        exact Vector.getElem_set_ne _ i.isLt fun e => hi e.symm
    next hcls => exact ⟨x.bucket, rfl, fun i => (if_neg fun h : i.val = cls ∧ _ => hcls (h.1 ▸ i.isLt)).symm⟩
  next hreg => exact ⟨x.bucket, rfl, fun i => (if_neg fun h : i.val = cls ∧ _ => hreg h.2).symm⟩

end Start

/-! ### The row of a burst opened (R225, R233, R234) -/

section Row

variable (x : Chan) (tick : Nat) (b : Burst)

/-- The tracker after an activation of the burst's row. -/
def Chan.tracks : List HotRow × Nat := trackRow (x.bankOf b.cb).val (x.rowOf b.cb) x.hot

/-- The burst's activation starts a throttle (R234, log 36). -/
def Chan.startsThrottle : Prop :=
  x.rowHit b = false ∧ x.thresh ≤ (x.tracks b).2 ∧
    (x.throttles.any fun h => h.bank == (x.bankOf b.cb).val && h.row == x.rowOf b.cb) = false

/-- The channel with the burst's row open, and whether a throttle starts. -/
def Chan.opened : Chan × Bool := if x.rowHit b then (x, false) else x.activate tick b

theorem throttles_any (l : List Throttle) (bank row : Nat) (p : Throttle → Prop) [DecidablePred p] :
    (l.map fun t => if p t then { t with last := tick } else t).any (fun t => t.bank == bank && t.row == row) =
      l.any fun t => t.bank == bank && t.row == row := by
  rw [List.any_map]
  congr 1
  funext t
  by_cases h : p t <;> simp [h]

theorem Chan.opened_eq : ∃ hot th hits ham, x.opened tick b = ({ x with
      rows := x.rows.set (x.bankOf b.cb).val (some (x.rowOf b.cb)), hot := hot, throttles := th, hamHits := hits }, ham) ∧
    (ham = true ↔ x.startsThrottle b) ∧
    (x.rowHit b = true → hot = x.hot ∧ th = x.throttles) ∧ (x.rowHit b = false → hot = (x.tracks b).1) ∧
    (ham = true → hits = satAdd x.hamHits 1 ∧ ⟨b.src, (x.bankOf b.cb).val, x.rowOf b.cb, tick, x.space⟩ ∈ th) ∧
    (ham = false → hits = x.hamHits) := by
  unfold Chan.opened
  split
  next hit =>
    have hrow : x.rows.set (x.bankOf b.cb).val (some (x.rowOf b.cb)) = x.rows := by
      have hopen : x.rows[(x.bankOf b.cb).val] = some (x.rowOf b.cb) := by simpa [Chan.rowHit] using hit
      rw [← hopen]
      exact Vector.set_getElem_self _
    refine ⟨x.hot, x.throttles, x.hamHits, false, ?_, ?_, fun _ => ⟨rfl, rfl⟩, fun h => ?_, fun h => (nomatch h), fun _ => rfl⟩
    · rw [hrow]
    · exact ⟨fun h => (nomatch h), fun h => absurd (hit.symm.trans h.1) (by decide)⟩
    · exact absurd (hit.symm.trans h) (by decide)
  next hit =>
    have hmiss : x.rowHit b = false := by simpa using hit
    have hany := throttles_any tick x.throttles (x.bankOf b.cb).val (x.rowOf b.cb)
      fun t => t.src = b.src ∧ t.bank = (x.bankOf b.cb).val ∧ t.row = x.rowOf b.cb
    unfold Chan.activate
    dsimp only
    rw [hany]
    split
    next h =>
      refine ⟨_, _, _, true, rfl, ?_, fun h => absurd h hit, fun _ => rfl, fun _ => ⟨rfl, ?_⟩, fun h => nomatch h⟩
      · exact ⟨fun _ => ⟨hmiss, h.1, by simpa using h.2⟩, fun _ => rfl⟩
      · exact List.mem_append_right _ (List.mem_singleton.2 rfl)
    next h =>
      refine ⟨_, _, _, false, rfl, ?_, fun h => absurd h hit, fun _ => rfl, fun h => (nomatch h), fun _ => rfl⟩
      exact ⟨fun e => (nomatch e), fun hs => absurd ⟨hs.2.1, by rw [hs.2.2]; rfl⟩ h⟩

end Row

/-! ### A burst goes out (R220, R223, R267) -/

/-- The channel `y` after burst `b` of channel `x` at instant `tick`. -/
structure Chan.Plays (x y : Chan) (tick : Nat) (b : Burst) : Prop where
  eq : y = { x with
    reqs := y.reqs, run := y.run, swept := y.swept, rows := x.rows.set (x.bankOf b.cb).val (some (x.rowOf b.cb))
    hot := y.hot, throttles := y.throttles, hamHits := y.hamHits, bankAt := x.bankAt.set (x.bankOf b.cb).val tick
    bankUse := x.bankUse.set (x.bankOf b.cb).val x.pageIdle, gap := x.gap.set (x.rankOf b.cb).val none }
  ofReq : ∀ r, b.req = some r → y.run = x.run ∧ y.swept = x.swept ∧
    y.reqs = x.reqs.map fun k => if k.age = r.age then { k with issued := k.issued + 1 } else k
  ofRun : b.req = none → b.src = .host →
    y.reqs = x.reqs ∧ y.swept = x.swept ∧ y.run = x.run.map fun k => { k with issued := k.issued + 1 }
  ofTest : b.req = none → b.src ≠ .host → y.reqs = x.reqs ∧ y.run = x.run ∧ y.swept = x.swept + 1
  hit : x.rowHit b = true → y.hot = x.hot ∧ y.throttles = x.throttles
  miss : x.rowHit b = false → y.hot = (x.tracks b).1
  starts : x.startsThrottle b → y.hamHits = satAdd x.hamHits 1 ∧
    ⟨b.src, (x.bankOf b.cb).val, x.rowOf b.cb, tick, x.space⟩ ∈ y.throttles
  none : ¬x.startsThrottle b → y.hamHits = x.hamHits

theorem Chan.opened_plays (x : Chan) (tick : Nat) (b : Burst) :
    x.Plays ((x.opened tick b).1.issue tick b) tick b ∧ ((x.opened tick b).2 = true ↔ x.startsThrottle b) := by
  obtain ⟨hot, th, hits, ham, heq, hham, hhit, hmiss, hstarts, hnone⟩ := x.opened_eq tick b
  rw [heq]
  refine ⟨?_, hham⟩
  have hnone' : ¬x.startsThrottle b → hits = x.hamHits := fun h => hnone (by simpa using mt hham.1 h)
  unfold Chan.issue
  dsimp only
  cases hreq : b.req with
  | some r =>
    exact ⟨rfl, fun r' hr => by rw [hreq] at hr; cases hr; exact ⟨rfl, rfl, rfl⟩, fun h => absurd h (by simp [hreq]),
      fun h => absurd h (by simp [hreq]), hhit, hmiss, fun h => hstarts (hham.2 h), hnone'⟩
  | none =>
    dsimp only
    split
    next hsrc =>
      exact ⟨rfl, fun r' hr => absurd hr (by simp [hreq]), fun _ _ => ⟨rfl, rfl, rfl⟩, fun _ h => absurd hsrc h, hhit, hmiss,
        fun h => hstarts (hham.2 h), hnone'⟩
    next hsrc =>
      exact ⟨rfl, fun r' hr => absurd hr (by simp [hreq]), fun _ h => absurd h hsrc, fun _ _ => ⟨rfl, rfl, rfl⟩, hhit, hmiss,
        fun h => hstarts (hham.2 h), hnone'⟩

variable (s : State)

theorem State.playBurst_eq (c : YId) (b : Burst) : ∃ y e, s.playBurst c b = { s.setCh c y with events := e } ∧
    (s.ch c).Plays y s.time.ticks b ∧
    ((s.ch c).startsThrottle b → e = (s.countN (Ev.yham c) 0 1).events) ∧ (¬(s.ch c).startsThrottle b → e = s.events) := by
  obtain ⟨hplays, hham⟩ := (s.ch c).opened_plays s.time.ticks b
  have heq : s.playBurst c b = if ((s.ch c).opened s.time.ticks b).2 then
      (s.setCh c (((s.ch c).opened s.time.ticks b).1.issue s.time.ticks b)).count (Ev.yham c) 0
      else s.setCh c (((s.ch c).opened s.time.ticks b).1.issue s.time.ticks b) := rfl
  generalize ((s.ch c).opened s.time.ticks b).2 = ham at hham heq
  generalize ((s.ch c).opened s.time.ticks b).1.issue s.time.ticks b = y at hplays heq
  cases ham with
  | true => exact ⟨y, _, heq, hplays, fun _ => rfl, fun h => absurd (hham.1 rfl) h⟩
  | false => exact ⟨y, _, heq, hplays, fun h => absurd (hham.2 h) (by decide), fun _ => rfl⟩

/-! ### The Landing reads of a spill (R190, R192, R219) -/

theorem State.orphanRead_readsOnly (r : Req) (stave : Nat) (e : Ecc) : s.readsOnly (s.orphanRead r stave e) := by
  unfold State.orphanRead
  split
  · exact s.readsOnly_count _ _
  · split
    · exact s.readsOnly_count _ _
    · exact s.readsOnly_refl

theorem State.readsOnly_modQu (q : QId) {g : Queue → Queue} (h : ∀ x, g x = { x with ecc := (g x).ecc }) :
    s.readsOnly (s.modQu q g) where
  frame := rfl
  queue j := by
    by_cases hj : j = q
    · rw [hj, State.modQu_qu]
      exact h _
    · rw [s.modQu_qu_ne q j _ hj]

theorem State.spillRead_readsOnly (r : Req) (ecc : List Ecc) : s.readsOnly (s.spillRead r ecc) := by
  unfold State.spillRead
  split
  · exact (s.orphanRead_readsOnly r _ _).trans (State.orphanRead_readsOnly _ r _ _)
  · refine ((s.readStave_readsOnly r.q _ _).trans (State.readStave_readsOnly _ r.q _ _)).trans (State.readsOnly_modQu _ _ ?_)
    exact fun _ => rfl

/-- The pattern run and the test engine have bursts of their own and no billet request. -/
theorem Chan.req_of_src (x : Chan) {b : Burst} (h : b ∈ x.heads) (hsrc : b.src = .host ∨ b.src = .test) : b.req = none := by
  rcases x.heads_cases h with ⟨r, rfl, -⟩ | ⟨k, rfl, -⟩ | ⟨rfl, -⟩
  · have hr : r.src ≠ .host ∧ r.src ≠ .test := by
      unfold Req.src
      split
      · exact ⟨fun e => (nomatch e), fun e => (nomatch e)⟩
      · exact ⟨fun e => (nomatch e), fun e => (nomatch e)⟩
    exact absurd hsrc fun e => e.elim hr.1 hr.2
  · rfl
  · rfl

variable {s} {c : YId} {r : Req} {k : Src}

theorem State.startRequest_of_ready (hrun : s.running = true) (href : s.time.refclk = true)
    (hserve : (s.ch c).serving = true) (hstart : (s.ch c).toStart k = some r) (htoken : (s.ch c).tokenOk r.cls = true) :
    s.startRequest c k = s.setCh c { (s.ch c).takeToken r.cls with
      reqs := (s.ch c).reqs.map fun t => if t.age = r.age then { t with started := true } else t } := by
  unfold State.startRequest
  dsimp only
  rw [hstart]
  exact if_pos (by simp [hrun, href, hserve, htoken])

theorem State.startRequest_of_not (h : s.running = false ∨ s.time.refclk = false ∨ (s.ch c).serving = false ∨
    (s.ch c).toStart k = none ∨ ((s.ch c).toStart k = some r ∧ (s.ch c).tokenOk r.cls = false)) :
    s.startRequest c k = s := by
  unfold State.startRequest
  dsimp only
  split
  · rfl
  next r' hr' =>
    refine if_neg ?_
    rcases h with h | h | h | h | ⟨hr, h⟩
    · simp [h]
    · simp [h]
    · simp [h]
    · rw [hr'] at h
      cases h
    · rw [hr'] at hr
      cases hr
      simp [h]

theorem State.burstIssue_of_not {ok : BitVec 34} {ecc : List Ecc} (h : s.running = false ∨ s.time.refclk = false ∨
    (s.ch c).awake = false ∨ (s.ch c).pick s.time.ticks ok = none) : s.burstIssue c ok ecc = s := by
  unfold State.burstIssue
  dsimp only
  split
  · rfl
  next hgo =>
    rcases h with h | h | h | h
    · simp [h] at hgo
    · simp [h] at hgo
    · simp [h] at hgo
    · rw [h]

/-- A burst's command after the burst itself: a spill's reads of the Landing with their demand. -/
def State.afterBurst (s : State) (b : Burst) (ecc : List Ecc) : State :=
  match b.req with
  | some r => if r.kind = .spill then (s.demand 2).spillRead r ecc else s
  | none => s

theorem State.burstIssue_of_pick {ok : BitVec 34} {ecc : List Ecc} {b : Burst} (hrun : s.running = true)
    (href : s.time.refclk = true) (hawake : (s.ch c).awake = true) (hpick : (s.ch c).pick s.time.ticks ok = some b) :
    s.burstIssue c ok ecc = (s.playBurst c b).afterBurst b ecc := by
  unfold State.burstIssue
  dsimp only
  rw [if_neg (by simp [hrun, href, hawake]), hpick]
  rfl

/-- What follows a burst leaves the channels, and all but marks, counts and the demand. -/
theorem State.afterBurst_spec (b : Burst) (ecc : List Ecc) :
    ((∀ r, b.req = some r → r.kind = .refill) → s.afterBurst b ecc = s) ∧
    (∀ r, b.req = some r → r.kind = .spill → (s.demand 2).readsOnly (s.afterBurst b ecc)) := by
  unfold State.afterBurst
  refine ⟨fun h => ?_, fun r hr hk => ?_⟩
  · split
    next r hr => exact if_neg (by rw [h r hr]; decide)
    · rfl
  · rw [hr]
    dsimp only
    rw [if_pos hk]
    exact (s.demand 2).spillRead_readsOnly r ecc

end Sys2Proof.Machine

open Sys2Proof Sys2Proof.Machine

/-- Settles O31: the burst's row is opened, its channel takes the burst, and a spill's burst reads the Landing, which changes
marks and counts alone. -/
theorem requestsAndBursts : Obligations.RequestsAndBursts := by
  unfold Obligations.RequestsAndBursts
  refine ⟨fun c q cas r s => ⟨fun hrun href hserve hstart htoken => ?_, fun h => ?_⟩,
    fun c ok ecc s => ⟨fun h => ?_, fun b hrun href hawake hpick => ?_⟩⟩
  · obtain ⟨l, htake, hl⟩ := (s.ch c).takeToken_eq r.cls
    have hgo := s.startRequest_of_ready (c := c) hrun href hserve hstart htoken
    rw [htake] at hgo
    have hch := s.setCh_ch c { s.ch c with
      bucket := l, reqs := (s.ch c).reqs.map fun k => if k.age = r.age then { k with started := true } else k }
    refine ⟨_, congrArg Host.Outcome.next hgo, ?_, ?_⟩
    · rw [hch]
    · rw [hch]
      exact hl
  · exact congrArg Host.Outcome.next (s.startRequest_of_not h)
  · exact congrArg Host.Outcome.next (s.burstIssue_of_not h)
  · obtain ⟨y, e, hplay, hplays, hham, hno⟩ := s.playBurst_eq c b
    have hissue := State.burstIssue_of_pick (ecc := ecc) hrun href hawake hpick
    obtain ⟨hhead, -, -⟩ := (s.ch c).pick_spec s.time.ticks hpick
    obtain ⟨hrefill, hspill⟩ := (s.playBurst c b).afterBurst_spec b ecc
    generalize (s.playBurst c b).afterBurst b ecc = t at hissue hrefill hspill
    rw [hplay] at hrefill hspill
    have hcases : t = { s.setCh c y with events := e } ∨
        ((∃ r, b.req = some r ∧ r.kind = .spill) ∧ (({ s.setCh c y with events := e } : State).demand 2).readsOnly t) := by
      cases hreq : b.req with
      | none => exact .inl (hrefill fun r hr => by rw [hreq] at hr; cases hr)
      | some r =>
        cases hk : r.kind with
        | refill => exact .inl (hrefill fun r' hr => by rw [hreq] at hr; cases hr; exact hk)
        | spill => exact .inr ⟨⟨r, rfl, hk⟩, hspill r hreq hk⟩
    have hch (d : YId) : t.ch d = (s.setCh c y).ch d := by
      rcases hcases with h | ⟨-, h⟩
      · rw [h]
        rfl
      · exact (congrArg (fun u : State => u.ch d) h.frame :)
    have hy : t.ch c = y := (hch c).trans (s.setCh_ch c y)
    refine ⟨t, congrArg Host.Outcome.next hissue, ?_⟩
    rw [hy]
    refine ⟨hplays.eq, hplays.ofReq, fun hsrc => ?_, fun hsrc => ?_, hplays.hit, hplays.miss, hplays.starts, hplays.none,
      fun hkind => ?_, fun r hr hk => ?_, ?_, ?_⟩
    · exact hplays.ofRun ((s.ch c).req_of_src hhead (.inl hsrc)) hsrc
    · exact hplays.ofTest ((s.ch c).req_of_src hhead (.inr hsrc)) (by rw [hsrc]; decide)
    · have ht := hrefill hkind
      refine ⟨?_, fun hstarts hwf => ?_, fun hstarts => ?_⟩
      · rw [ht]
        rfl
      · refine s.counted_of_events hwf ?_
        rw [ht]
        exact hham hstarts
      · rw [ht]
        exact hno hstarts
    · have hr := hspill r hr hk
      have hgov : t.gov = { s.gov with acc8 := s.gov.acc8 + 2 } := (congrArg State.gov hr.frame :)
      exact ⟨by rw [hgov], hr.queue⟩
    · exact (hch (otherCh c)).trans (s.setCh_ch_ne c (otherCh c) y (otherCh_ne c))
    · rcases hcases with h | ⟨-, h⟩
      · rw [h]
        rfl
      · have hframe := h.frame
        have hgov : t.gov = { s.gov with acc8 := s.gov.acc8 + 2 } := (congrArg State.gov hframe :)
        have horder : t.order = s.order + 1 := (congrArg State.order hframe :)
        have hchans : t.chans = (s.setCh c y).chans := (congrArg State.chans hframe :)
        rw [hgov, horder, hchans]
        exact hframe

end

section
/-!
O33. The timers of a channel, its refreshes, self-refresh and idle precharge.
-/

-- The theorems one after another: side by side they take more threads than the check allows.
set_option Elab.async false

namespace Sys2Proof.Machine

variable (x : Chan)

/-! ### Buckets and refreshes (R228, R237 to R239) -/

theorem Chan.tickBuckets_bucket (i : Fin 4) :
    x.tickBuckets.bucket[i.val] = min ((x.qos[i.val]).cap) (x.bucket[i.val] + (x.qos[i.val]).ratePerMs) := by
  simp [Chan.tickBuckets]

/-- The rows of a rank closed. -/
theorem Chan.closeRank_rows (rank : Bool) (j : Fin 16) :
    (x.closeRank rank).rows[j.val] = if j.val / 8 = (rankIdx rank).val then none else x.rows[j.val] := by
  cases rank <;> simp [Chan.closeRank, rankIdx]

/-- The channel after a refresh of a rank, `m` owed afterwards, and the next due time scheduled or not. -/
def Chan.refreshed (x : Chan) (rank : Bool) (tick : Nat) (m : Int) (next : Bool) : Chan :=
  { x.refresh rank tick m with
    refAt := if next then x.refAt.set (rankIdx rank).val (x.nextRef rank) else x.refAt }

theorem Chan.refreshed_eq (rank : Bool) (tick : Nat) (m : Int) (next : Bool) : x.refreshed rank tick m next = { x with
    owed := x.owed.set (rankIdx rank).val m, rows := (x.closeRank rank).rows
    gap := x.gap.set (rankIdx rank).val (some tick)
    idleSince := if 0 < x.owed[rankIdx rank] ∧ m ≤ 0 then tick else x.idleSince
    refAt := if next then x.refAt.set (rankIdx rank).val (x.nextRef rank) else x.refAt } := rfl

variable {s : State} {c : YId} {rank : Bool}

/-- A refresh, as the command's state shows it. -/
theorem State.refreshed_spec (m : Int) (next : Bool) :
    let t := s.setCh c ((s.ch c).refreshed rank s.time.ticks m next)
    t = s.setCh c { s.ch c with
      owed := (s.ch c).owed.set (rankIdx rank).val m, rows := (t.ch c).rows
      gap := (s.ch c).gap.set (rankIdx rank).val (some s.time.ticks)
      idleSince := if 0 < (s.ch c).owed[rankIdx rank] ∧ m ≤ 0 then s.time.ticks else (s.ch c).idleSince
      refAt := if next then (s.ch c).refAt.set (rankIdx rank).val ((s.ch c).nextRef rank) else (s.ch c).refAt } ∧
    ∀ j : Fin 16, (t.ch c).rows[j.val] = if j.val / 8 = (rankIdx rank).val then none else (s.ch c).rows[j.val] := by
  intro t
  have hrows : (t.ch c).rows = ((s.ch c).closeRank rank).rows := by
    rw [s.setCh_ch, Chan.refreshed_eq]
  rw [hrows]
  exact ⟨congrArg (s.setCh c) ((s.ch c).refreshed_eq ..), (s.ch c).closeRank_rows rank⟩

theorem State.refreshDue_of_awake (kind : RefKind) (hrun : s.running = true) (href : s.time.refclk = true)
    (hawake : (s.ch c).awake = true) (hrank : (s.ch c).hasRank rank = true) :
    s.refreshDue c rank kind = s.setCh c ((s.ch c).takeRefresh rank kind s.time.ticks) :=
  if_pos (by simp [hrun, href, hawake, hrank])

theorem State.setCh_self (s : State) (c : YId) : s.setCh c (s.ch c) = s := by
  simp [State.setCh, State.ch]

theorem State.powered_of_running (h : s.running = true) : s.powered = true := by
  simp only [State.running, State.hostOn, Bool.and_eq_true] at h
  exact h.1.1.1

/-! ### Self-refresh (R240, R242, Table 3.1) -/

theorem State.selfRefresh_of_idle (hrun : s.running = true) (href : s.time.refclk = true) (hcarding : s.boot.carding = false)
    (hst : (s.ch c).st = .active) (hnoref : (s.ch c).noRef = false) (hidle : (s.ch c).idle = true)
    (htracked : (s.ch c).tracked = true) (hsr : (s.ch c).srIdle ≠ 0) :
    s.selfRefresh c = if (s.ch c).idleSince + 100 * (s.ch c).srIdle ≤ s.time.ticks then s.setCh c (s.ch c).rested else s := by
  unfold State.selfRefresh
  simp [hrun, href, hcarding, hst, hnoref, hidle, htracked, hsr]

theorem State.selfRefresh_of_boot (hon : s.cardingOn = true) (hcarding : s.boot.carding = true)
    (hboot : s.boot.straps.boottrn = false) : s.selfRefresh c = s.bootRest c :=
  if_pos (by simp [hon, hcarding, hboot])

/-- The last channel of a start-up without training rests: step 7 begins. -/
theorem State.cardingOver_of_agrees (hhalted : s.boot.halted = false) (hfloor : s.agrees .floor) (hceil : s.agrees .ceil)
    (hmargin : s.agrees .margin) : s.cardingOver = { s with
      boot := { s.boot with carding := false, trained := true, stage := max s.boot.stage 7 }
      gov := { s.gov with
        useFloor := s.gov.floor.val, useCeil := s.gov.ceil.val, useMargin := s.gov.margin.val, tick := s.time.ticks } } := by
  unfold State.cardingOver
  dsimp only
  have hrenew := ({ s with boot := { s.boot with carding := false, trained := true, stage := max s.boot.stage 7 } } :
    State).govRenew_of_agrees hfloor hceil hmargin
  rw [if_neg (by simp [hhalted]), hrenew]
  rfl

end Sys2Proof.Machine

open Sys2Proof Sys2Proof.Machine

/-- Settles O33: each timer and each kind of refresh by its conditions. -/
theorem channelTimersAndRest : Obligations.ChannelTimersAndRest := by
  unfold Obligations.ChannelTimersAndRest
  refine ⟨fun c s => ⟨fun href hdue => ?_, fun href hdue => ?_, fun hon hdue => ?_, fun hnot => ?_, fun hnot => ?_,
    fun hnot => ?_⟩, fun c s hrun href => ⟨fun rank hawake hrank => ?_, fun low => ?_,
    fun hcarding hst hnoref hidle htracked hsr => ⟨fun hdue => ?_, fun hnot => ?_⟩,
    fun b hawake => ⟨fun hover => ?_, fun hnot => ?_⟩⟩,
    fun c s hon hcarding hboot hhalted hfloor hceil hmargin => ⟨fun hr => ?_, fun hr => ?_⟩⟩
  · exact congrArg Host.Outcome.next (if_pos (by simp [href, hdue]))
  · have hch := s.setCh_ch c { (s.ch c).tickBuckets with bucketTick := (s.ch c).bucketTick + 100 }
    refine ⟨_, congrArg Host.Outcome.next (if_pos (by simp [href, hdue])), ?_, fun i => ?_⟩
    · rw [hch]
      rfl
    · rw [hch]
      exact (s.ch c).tickBuckets_bucket i
  · exact congrArg Host.Outcome.next (if_pos (by simp only [hon, Bool.true_and, decide_eq_true_eq]; exact hdue))
  · exact congrArg Host.Outcome.next (if_neg (by simp [hnot]))
  · exact congrArg Host.Outcome.next (if_neg (by simp [hnot]))
  · refine congrArg Host.Outcome.next (if_neg ?_)
    simp only [Bool.and_eq_true, decide_eq_true_eq, not_and]
    exact fun _ => Nat.not_le.2 hnot
  · have hdue (kind : RefKind) : exec (.refreshDue c rank kind) s =
        .next (s.setCh c ((s.ch c).takeRefresh rank kind s.time.ticks)) :=
      congrArg Host.Outcome.next (State.refreshDue_of_awake kind hrun href hawake hrank)
    have hstay (kind : RefKind) (h : (s.ch c).takeRefresh rank kind s.time.ticks = s.ch c) :
        exec (.refreshDue c rank kind) s = .next s := by rw [hdue, h, s.setCh_self]
    refine ⟨fun h => ?_, fun h => ?_, fun h hn => ?_, fun h => ⟨?_, ?_⟩, fun h => ?_, fun h => ?_, fun h => ?_⟩
    · exact ⟨_, (hdue .issue).trans (congrArg (fun y => Host.Outcome.next (s.setCh c y)) (if_pos h)),
        State.refreshed_spec _ true⟩
    · exact ⟨_, (hdue .early).trans (congrArg (fun y => Host.Outcome.next (s.setCh c y)) (if_pos (by simpa using h))),
        State.refreshed_spec _ false⟩
    · exact (hdue .postpone).trans (congrArg (fun y => Host.Outcome.next (s.setCh c y)) (if_pos ⟨h, by simpa using hn⟩))
    · exact hstay .issue (if_neg (Nat.not_le.2 h))
    · exact hstay .postpone (if_neg fun k => absurd k.1 (Nat.not_le.2 h))
    · refine hstay .postpone (if_neg fun k => ?_)
      rcases k.2 with hneg | ⟨hwaits, hlt, hst⟩
      · omega
      · rcases h with h | ⟨-, h | h⟩
        · omega
        · rw [h] at hwaits
          cases hwaits
        · exact hst h
    · refine hstay .early (if_neg fun k => ?_)
      rcases k with hpos | ⟨hwaits, hlt⟩
      · omega
      · rcases h with h | ⟨-, h⟩
        · omega
        · rw [h] at hwaits
          cases hwaits
    · subst h
      rw [Chan.nextRef, Chan.refInt]
      simp [rankIdx]
  · exact congrArg Host.Outcome.next (if_pos (by simp [State.powered_of_running hrun, href]))
  · exact congrArg Host.Outcome.next
      ((State.selfRefresh_of_idle hrun href hcarding hst hnoref hidle htracked hsr).trans (if_pos hdue))
  · exact congrArg Host.Outcome.next
      ((State.selfRefresh_of_idle hrun href hcarding hst hnoref hidle htracked hsr).trans (if_neg (Nat.not_le.2 hnot)))
  · refine congrArg Host.Outcome.next (if_pos ?_)
    split at hover
    next hzero => simp [hrun, href, hawake, hzero, hover]
    next hzero =>
      rw [hrun, href, hawake, if_neg hzero]
      exact decide_eq_true hover
  · refine congrArg Host.Outcome.next (if_neg ?_)
    split at hnot
    next hzero => simp [hzero, hnot]
    next hzero =>
      rw [hrun, href, hawake, if_neg hzero]
      exact fun h => absurd (of_decide_eq_true h) (Nat.not_lt.2 hnot)
  · exact congrArg Host.Outcome.next ((State.selfRefresh_of_boot hon hcarding hboot).trans (if_neg hr))
  · exact congrArg Host.Outcome.next ((State.selfRefresh_of_boot hon hcarding hboot).trans
      ((if_pos hr).trans (State.cardingOver_of_agrees hhalted hfloor hceil hmargin)))

end

section
/-!
O34. Register writes of a channel and of its PHY.
-/

-- The theorems one after another: side by side they take more threads than the check allows.
set_option Elab.async false

namespace Sys2Proof.Machine

variable (s : State)

/-! ### A channel's register written -/

theorem State.pathFrame.hostFrame_setCh {s u : State} (h : s.pathFrame u) (c : YId) (y : Chan) :
    s.hostFrame (u.setCh c y) (s.setCh c y) := by
  obtain ⟨⟨_, _, rfl⟩, hcore⟩ := h
  exact ⟨rfl, fun r => by rw [State.setCh_path_frame]; exact hcore r⟩

theorem State.setCh_noReads {s : State} (h : s.noReads) (c : YId) (y : Chan) : (s.setCh c y).noReads :=
  State.noReads_congr rfl rfl h

/-- A commit of a channel's register. -/
theorem State.rowCommit_chan {p : Path} {c : YId} {off : Nat} (h : s.mayWrite p (.chan c) off) (ws : List Word) :
    ∃ u, s.pathFrame u ∧ s.rowCommit p (.chan c) off ws = u.chanWrite ⟨p, 64 + off, (Bank.chan c).sel⟩ c off ws :=
  s.rowCommit_of_mayWrite h ws

/-- A posted write in one of the channel's banks, landed at once, whose effect on any state is `f`. -/
theorem State.rowPost_effect {p : Path} {b : Bank} {off : Nat} {v : Word} (hreads : s.noReads) (h : s.landsNow p b off)
    (hone : b.stages (off + 1) = false) (hpaths : ∀ u : State,
      (u.effect ⟨p, 64 + off, b.sel⟩ b off [v]).pathA = u.pathA ∧ (u.effect ⟨p, 64 + off, b.sel⟩ b off [v]).pathB = u.pathB) :
    ∃ u, s.pathFrame u ∧ s.rowPost p b off v = u.effect ⟨p, 64 + off, b.sel⟩ b off [v] := by
  obtain ⟨u, hu, hrow⟩ := s.rowPost_of_landsNow h hone v
  refine ⟨u, hu, hrow.trans (State.answerReads_of_noReads _ ?_)⟩
  exact State.noReads_congr (hpaths u).1 (hpaths u).2 (hu.noReads hreads)

theorem State.chanWrite_yqos (acc : Access) (c : YId) (k : Fin 4) (rate burst lat : Word) :
    s.chanWrite acc c (8 + 3 * k.val) [rate, burst, lat] = s.yqos c k rate burst lat := by
  have hk : 8 ≤ 8 + 3 * k.val ∧ 8 + 3 * k.val ≤ 0x13 := by omega
  unfold State.chanWrite
  dsimp only
  rw [dif_pos hk]
  have hidx : (⟨(8 + 3 * k.val - 8) / 3, by omega⟩ : Fin 4) = k := Fin.ext (by simp)
  rw [hidx]
  rfl

/-! ### Trained delays (R252, R264) -/

/-- The bits of a tap register. -/
def tapMask : TapReg → Word
  | .wldly => 0x1FF
  | .gate => 0xF7F
  | .rddly => 0x7F
  | .wrdly => 0xFF
  | .vref => 0x3F

theorem Chan.selTap_lt (x : Chan) : x.selTap < 40 := by
  have hlane : x.selLane ≤ 9 := Nat.min_le_left _ _
  unfold Chan.selTap tapIdx
  split <;> split <;> omega

theorem Chan.selVref_lt (x : Chan) : x.selVref < 20 := by
  have hlane : x.selLane ≤ 9 := Nat.min_le_left _ _
  unfold Chan.selVref
  split <;> split <;> omega

theorem getD_setIfInBounds_self {α : Type} {n : Nat} (l : Vector α n) {i : Nat} (h : i < n) (a d : α) :
    (l.setIfInBounds i a).getD i d = a := by
  simp [Vector.getD, h]

theorem Chan.writeTap_readTap (x : Chan) (r : TapReg) (v : Word) : (x.writeTap r v).readTap r = v &&& tapMask r := by
  have htap (t d : LaneTaps) : (x.taps.setIfInBounds x.selTap t).getD x.selTap d = t :=
    getD_setIfInBounds_self _ x.selTap_lt t d
  cases r with
  | wldly => exact congrArg LaneTaps.wl (htap _ _)
  | gate => exact congrArg LaneTaps.gate (htap _ _)
  | rddly => exact congrArg LaneTaps.rd (htap _ _)
  | wrdly => exact congrArg LaneTaps.wr (htap _ _)
  | vref => exact getD_setIfInBounds_self _ x.selVref_lt _ _

theorem Chan.writeTap_other (x : Chan) {r k : TapReg} (h : k ≠ r) (v : Word) : (x.writeTap r v).readTap k = x.readTap k := by
  have htap (t d : LaneTaps) : (x.taps.setIfInBounds x.selTap t).getD x.selTap d = t :=
    getD_setIfInBounds_self _ x.selTap_lt t d
  have hsel (l : Vector LaneTaps 40) : ({ x with taps := l } : Chan).selTap = x.selTap := rfl
  have hvref (l : Vector LaneTaps 40) : ({ x with taps := l } : Chan).selVref = x.selVref := rfl
  have hsel' (l : Vector Word 20) : ({ x with vref := l } : Chan).selTap = x.selTap := rfl
  cases r <;> cases k <;> simp [Chan.writeTap, Chan.readTap, htap, hsel, hvref, hsel'] at h ⊢

theorem Chan.writeTap_eq (x : Chan) (r : TapReg) (v : Word) :
    x.writeTap r v = { x with taps := (x.writeTap r v).taps, vref := (x.writeTap r v).vref } := by
  cases r <;> rfl

theorem Chan.writeTap_taps (x : Chan) (r : TapReg) (v : Word) (i : Fin 40) (h : i.val ≠ x.selTap ∨ r = .vref) :
    (x.writeTap r v).taps[i.val] = x.taps[i.val] := by
  have hne (t : LaneTaps) (hi : i.val ≠ x.selTap) : (x.taps.setIfInBounds x.selTap t)[i.val] = x.taps[i.val] := by
    simp [hi.symm]
  cases r with
  | vref => rfl
  | wldly => exact hne _ (h.resolve_right (by decide))
  | gate => exact hne _ (h.resolve_right (by decide))
  | rddly => exact hne _ (h.resolve_right (by decide))
  | wrdly => exact hne _ (h.resolve_right (by decide))

theorem Chan.writeTap_vref (x : Chan) (r : TapReg) (v : Word) (i : Fin 20) (h : i.val ≠ x.selVref ∨ r ≠ .vref) :
    (x.writeTap r v).vref[i.val] = x.vref[i.val] := by
  cases r with
  | vref =>
    have hi := h.resolve_right fun e => e rfl
    show (x.vref.setIfInBounds x.selVref _)[i.val] = _
    simp [hi.symm]
  | wldly => rfl
  | gate => rfl
  | rddly => rfl
  | wrdly => rfl

/-! ### The timing sets (R216, R474) -/

/-- A word of a timing set written. -/
def Chan.setTword (x : Chan) (b : Bool) (i : Fin 15) (v : VWord) : Chan :=
  if b then { x with tB := x.tB.set i.val v } else { x with tA := x.tA.set i.val v }

theorem Chan.setTword_spec (x : Chan) (b : Bool) (i : Fin 15) (v : VWord) :
    ((x.setTword b i v).tset b)[i.val] = v ∧
    (∀ j : Fin 15, j ≠ i → ((x.setTword b i v).tset b)[j.val] = (x.tset b)[j.val]) ∧
    (x.setTword b i v).tset (!b) = x.tset (!b) ∧
    x.setTword b i v = { x with tA := (x.setTword b i v).tA, tB := (x.setTword b i v).tB } := by
  cases b with
  | true =>
    exact ⟨Vector.getElem_set_self .., fun j hj => Vector.getElem_set_ne i.isLt j.isLt fun e => hj (Fin.ext e).symm, rfl, rfl⟩
  | false =>
    exact ⟨Vector.getElem_set_self .., fun j hj => Vector.getElem_set_ne i.isLt j.isLt fun e => hj (Fin.ext e).symm, rfl, rfl⟩

variable (acc : Access) (c : YId) (b : Bool) (i : Fin 15) (v : Word)

theorem State.tsetWrite_of_free (hfreq : (s.ch c).freq = none) (hb : b ≠ (s.ch c).setB)
    (hgood : (((s.ch c).tset b)[i.val]).failed = false) :
    s.tsetWrite acc c b i v = s.setCh c ((s.ch c).setTword b i (VWord.of (v &&& tsetMask i))) := by
  unfold State.tsetWrite
  dsimp only
  rw [if_neg (by simp [hfreq, hb]), if_neg (by simp [hgood])]
  rfl

theorem State.tsetWrite_of_failed (hfreq : (s.ch c).freq = none) (hb : b ≠ (s.ch c).setB)
    (hfailed : (((s.ch c).tset b)[i.val]).failed = true) : s.tsetWrite acc c b i v = s := by
  unfold State.tsetWrite
  dsimp only
  rw [if_neg (by simp [hfreq, hb]), if_pos hfailed]

theorem State.tsetWrite_of_inforce (h : b = (s.ch c).setB ∨ (s.ch c).freq ≠ none) :
    s.tsetWrite acc c b i v = s.reject acc Ev.ycmdrej 0 Reason.inforce := by
  refine if_pos ?_
  rcases h with h | h
  · simp [h]
  · simp [Option.isSome_iff_ne_none.2 h]

theorem State.tsetWrite_paths : (s.tsetWrite acc c b i v).pathA = s.pathA ∧ (s.tsetWrite acc c b i v).pathB = s.pathB := by
  unfold State.tsetWrite
  dsimp only
  split
  · exact ⟨rfl, rfl⟩
  · split
    · exact ⟨rfl, rfl⟩
    · exact ⟨rfl, rfl⟩

theorem State.phyWrite_tap (r : TapReg) : s.phyWrite acc c (tapOff r) [v] = s.tapWrite acc c r v := by cases r <;> rfl

theorem State.tapWrite_paths (r : TapReg) :
    (s.tapWrite acc c r v).pathA = s.pathA ∧ (s.tapWrite acc c r v).pathB = s.pathB := by
  unfold State.tapWrite
  dsimp only
  split
  · exact ⟨rfl, rfl⟩
  · split
    · exact ⟨rfl, rfl⟩
    · exact ⟨rfl, rfl⟩

theorem State.exec_tapWrite {p : Path} {r : TapReg} (hreads : s.noReads) (h : s.landsNow p (.phy c) (tapOff r)) :
    ∃ u, s.pathFrame u ∧ exec (.tapWrite p c r v) s =
      .next (u.tapWrite ⟨p, 64 + tapOff r, (Bank.phy c).sel⟩ c r v) := by
  obtain ⟨u, hu, hrow⟩ := s.rowPost_effect (v := v) hreads h (by cases r <;> rfl) fun w => by
    show (w.phyWrite _ c (tapOff r) [v]).pathA = _ ∧ (w.phyWrite _ c (tapOff r) [v]).pathB = _
    rw [w.phyWrite_tap]
    exact w.tapWrite_paths _ c v r
  exact ⟨u, hu, congrArg Host.Outcome.next (hrow.trans (u.phyWrite_tap _ c v r))⟩

theorem State.exec_timingSetWrite {p : Path} (hreads : s.noReads) (h : s.landsNow p (.tset c b) i.val) :
    ∃ u, s.pathFrame u ∧ exec (.timingSetWrite p c b i v) s =
      .next (u.tsetWrite ⟨p, 64 + i.val, (Bank.tset c b).sel⟩ c b i v) := by
  have heffect (w : State) : w.effect ⟨p, 64 + i.val, (Bank.tset c b).sel⟩ (.tset c b) i.val [v] =
      w.tsetWrite ⟨p, 64 + i.val, (Bank.tset c b).sel⟩ c b i v := dif_pos i.isLt
  obtain ⟨u, hu, hrow⟩ := s.rowPost_effect (v := v) hreads h (by simp [Bank.stages]) fun w => by
    rw [heffect]
    exact w.tsetWrite_paths _ c b i v
  exact ⟨u, hu, congrArg Host.Outcome.next (hrow.trans (heffect u))⟩

/-! ### Commits of the Yarder's registers -/

theorem truncate_join2_wordOf_of_le {n : Nat} (hn : n ≤ 32) (v : BitVec n) :
    (join2 (wordOf v 0) (wordOf v 1)).truncate n = v := by
  simp only [join2, wordOf_eq_extractLsb']
  rw [BitVec.extractLsb'_append_extractLsb'_eq_extractLsb' (by rfl)]
  ext i hi
  simp only [BitVec.truncate_eq_setWidth, BitVec.getElem_setWidth, BitVec.getLsbD_extractLsb']
  simp [hi, show i < 32 by omega]

/-- A channel's control words written; the token buckets are filled where the mode changes (R227). -/
def Chan.controlled (x : Chan) (lo hi : Word) : Chan :=
  if ({ x with ctlL := lo &&& 0xFF03, ctlH := hi &&& 0x0FFF } : Chan).latMode = x.latMode then
    { x with ctlL := lo &&& 0xFF03, ctlH := hi &&& 0x0FFF }
  else ({ x with ctlL := lo &&& 0xFF03, ctlH := hi &&& 0x0FFF } : Chan).fillBuckets

theorem Chan.controlled_spec (x : Chan) (lo hi : Word) :
    (x.controlled lo hi).ctlL = lo &&& 0xFF03 ∧ (x.controlled lo hi).ctlH = hi &&& 0x0FFF ∧
    ((x.controlled lo hi).latMode = x.latMode → (x.controlled lo hi).bucket = x.bucket) ∧
    ((x.controlled lo hi).latMode ≠ x.latMode → (x.controlled lo hi).bucket = x.qos.map Qos.cap) ∧
    x.controlled lo hi = { x with
      ctlL := (x.controlled lo hi).ctlL, ctlH := (x.controlled lo hi).ctlH, bucket := (x.controlled lo hi).bucket } := by
  unfold Chan.controlled
  split
  next h => exact ⟨rfl, rfl, fun _ => rfl, fun k => absurd h k, rfl⟩
  next h => exact ⟨rfl, rfl, fun k => absurd k h, fun _ => vmap_eq _ _, rfl⟩

theorem State.exec_ytregWrite {p : Path} {c : YId} (h : s.mayWrite p (.chan c) 0x14) (base : BitVec 21) (len : BitVec 22) :
    ∃ u, s.pathFrame u ∧ exec (.ytregWrite p c base len) s = .next (u.ytreg ⟨p, 84, (Bank.chan c).sel⟩ c base len) := by
  obtain ⟨u, hu, hrow⟩ := s.rowCommit_chan h [wordOf base 0, wordOf base 1, wordOf len 0, wordOf len 1]
  refine ⟨u, hu, congrArg Host.Outcome.next (hrow.trans ?_)⟩
  show u.ytreg _ c ((join2 (wordOf base 0) (wordOf base 1)).truncate 21) ((join2 (wordOf len 0) (wordOf len 1)).truncate 22) = _
  rw [truncate_join2_wordOf_of_le (by decide), truncate_join2_wordOf_of_le (by decide)]

theorem State.pathFrame.ytregRefusal {s u : State} (h : s.pathFrame u) (c : YId) (base : BitVec 21) (len : BitVec 22) :
    u.ytregRefusal c base len = s.ytregRefusal c base len := by
  obtain ⟨⟨_, _, rfl⟩, -⟩ := h
  rfl

/-- A write that is rejected leaves the channels. -/
theorem State.pathFrame.reject_chans {s u : State} (h : s.pathFrame u) (hwf : s.eventsWf) (acc : Access) (k : Nat) :
    s.rejected (u.reject acc Ev.ycmdrej 0 k) acc Ev.ycmdrej 0 k ∧ (u.reject acc Ev.ycmdrej 0 k).chans = s.chans := by
  obtain ⟨hrejected, hframe, -⟩ := h.reject hwf acc Ev.ycmdrej 0 k
  exact ⟨hrejected, (congrArg State.chans hframe :)⟩

end Sys2Proof.Machine

open Sys2Proof Sys2Proof.Machine

/-- Settles O34: each write is the model's change of one channel, or a refusal that leaves the channels. -/
theorem channelAndPhyRegisters : Obligations.ChannelAndPhyRegisters := by
  unfold Obligations.ChannelAndPhyRegisters
  refine ⟨fun p c s => ⟨fun k rate burst lat h => ?_, fun lo hi h => ?_, fun th sp v h => ?_, fun base len h hnone => ?_,
    fun base len k h hwf hsome => ?_⟩, fun p c v s hreads => ⟨fun b i h => ⟨fun hfreq hb hgood => ?_,
    fun hfreq hb hfailed => ?_, fun hwf hforce => ?_⟩, fun r h => ⟨fun hheld hset hrange => ?_, fun hwf hstate => ?_,
    fun hwf hr hheld hset hrange => ?_⟩⟩⟩
  · obtain ⟨u, hu, hrow⟩ := s.rowCommit_chan h [rate, burst, lat]
    rw [u.chanWrite_yqos] at hrow
    refine ⟨_, congrArg Host.Outcome.next hrow, ?_⟩
    rw [← hu.ch]
    exact hu.hostFrame_setCh c _
  · obtain ⟨u, hu, hrow⟩ := s.rowCommit_chan h [lo, hi]
    obtain ⟨hlo, hhi, hsame, hdiff, heq⟩ := (u.ch c).controlled_spec lo hi
    have hwrite : u.chanWrite ⟨p, 64 + 0, (Bank.chan c).sel⟩ c 0 [lo, hi] = u.setCh c ((u.ch c).controlled lo hi) := rfl
    have hch := u.setCh_ch c ((u.ch c).controlled lo hi)
    refine ⟨_, congrArg Host.Outcome.next (hrow.trans hwrite), ?_⟩
    rw [hch, ← hu.ch]
    refine ⟨hlo, hhi, hsame, hdiff, ?_⟩
    rw [← heq]
    exact hu.hostFrame_setCh c _
  · obtain ⟨u, hu, hrow⟩ := s.rowCommit_chan h [th, sp, v]
    refine ⟨_, congrArg Host.Outcome.next hrow, ?_⟩
    rw [← hu.ch]
    exact hu.hostFrame_setCh c _
  · obtain ⟨u, hu, hexec⟩ := s.exec_ytregWrite h base len
    rw [State.ytreg, hu.ytregRefusal, hnone] at hexec
    refine ⟨_, hexec, ?_⟩
    rw [← hu.ch]
    exact hu.hostFrame_setCh c _
  · obtain ⟨u, hu, hexec⟩ := s.exec_ytregWrite h base len
    rw [State.ytreg, hu.ytregRefusal, hsome] at hexec
    exact ⟨_, hexec, hu.reject_chans hwf _ k⟩
  · obtain ⟨u, hu, hexec⟩ := s.exec_timingSetWrite c b i v hreads h
    rw [← hu.ch] at hfreq hb hgood
    rw [u.tsetWrite_of_free _ c b i v hfreq hb hgood] at hexec
    obtain ⟨hword, hothers, hset, heq⟩ := (u.ch c).setTword_spec b i (VWord.of (v &&& tsetMask i))
    have hch := u.setCh_ch c ((u.ch c).setTword b i (VWord.of (v &&& tsetMask i)))
    refine ⟨_, hexec, ?_⟩
    rw [hch, ← hu.ch]
    refine ⟨hword, hothers, hset, ?_⟩
    rw [← heq]
    exact hu.hostFrame_setCh c _
  · obtain ⟨u, hu, hexec⟩ := s.exec_timingSetWrite c b i v hreads h
    rw [← hu.ch] at hfreq hb hfailed
    rw [u.tsetWrite_of_failed _ c b i v hfreq hb hfailed] at hexec
    obtain ⟨⟨_, _, rfl⟩, hcore⟩ := hu
    exact ⟨_, hexec, rfl, hcore⟩
  · obtain ⟨u, hu, hexec⟩ := s.exec_timingSetWrite c b i v hreads h
    rw [← hu.ch] at hforce
    rw [u.tsetWrite_of_inforce _ c b i v hforce] at hexec
    exact ⟨_, hexec, hu.reject_chans hwf _ _⟩
  · obtain ⟨u, hu, hexec⟩ := s.exec_tapWrite c v hreads h
    rw [← hu.ch] at hheld hset ⊢
    have hfld : ¬(r = .vref ∧ 0x32 < fld v 0 6) := fun k => by
      have := hrange k.1
      have hlt := k.2
      simp only [fld, Nat.pow_zero, Nat.div_one] at hlt
      omega
    have hwrite : u.tapWrite ⟨p, 64 + tapOff r, (Bank.phy c).sel⟩ c r v = u.setCh c ((u.ch c).writeTap r v) := by
      unfold State.tapWrite
      dsimp only
      rw [if_neg (by simp [hheld, hset]), if_neg hfld]
    have hch := u.setCh_ch c ((u.ch c).writeTap r v)
    refine ⟨_, hexec.trans (congrArg Host.Outcome.next hwrite), ?_⟩
    rw [hch]
    refine ⟨(u.ch c).writeTap_readTap r v, fun k hk => (u.ch c).writeTap_other hk v, (u.ch c).writeTap_taps r v,
      (u.ch c).writeTap_vref r v, ?_⟩
    rw [← (u.ch c).writeTap_eq]
    exact hu.hostFrame_setCh c _
  · obtain ⟨u, hu, hexec⟩ := s.exec_tapWrite c v hreads h
    rw [← hu.ch] at hstate
    have hwrite : u.tapWrite ⟨p, 64 + tapOff r, (Bank.phy c).sel⟩ c r v =
        u.reject ⟨p, 64 + tapOff r, (Bank.phy c).sel⟩ Ev.ycmdrej 0 Reason.state := by
      refine if_pos ?_
      rcases hstate with h | h <;> simp [h]
    exact ⟨_, hexec.trans (congrArg Host.Outcome.next hwrite), hu.reject_chans hwf _ _⟩
  · obtain ⟨u, hu, hexec⟩ := s.exec_tapWrite c v hreads h
    rw [← hu.ch] at hheld hset
    have hwrite : u.tapWrite ⟨p, 64 + tapOff r, (Bank.phy c).sel⟩ c r v =
        u.reject ⟨p, 64 + tapOff r, (Bank.phy c).sel⟩ Ev.ycmdrej 0 Reason.range := by
      unfold State.tapWrite
      dsimp only
      rw [if_neg (by simp [hheld, hset]), if_pos ⟨hr, by simpa [fld] using hrange⟩]
    exact ⟨_, hexec.trans (congrArg Host.Outcome.next hwrite), hu.reject_chans hwf _ _⟩

end

section
/-!
O37. Drains and sweeps begin.

First the channel as a drain, a sweep or a frequency change's step 4 leaves it, and what the start of a sweep leaves of the
rest; then the rows of a drain and of a sweep that waits.
-/

-- The theorems one after another: side by side they take more threads than the check allows.
set_option Elab.async false

namespace Sys2Proof.Machine

variable (s : State) (x : Chan)

/-! ### Channels that begin a drain or a sweep -/

/-- A channel in none of the stalls begins a drain from the state it is in. -/
theorem Chan.startDrain_of_window (hold : Bool) (h : x.st ≠ .drain ∧ x.st ≠ .freqsw ∧ x.st ≠ .reset) :
    x.startDrain hold = { x with
      st := .drain, prior := x.st, drainHold := hold, pend := none
      begun := if hold then none else x.pend
      holdReq := if hold then none else x.holdReq } := by
  obtain ⟨hdrain, hfreq, hreset⟩ := h
  have henter : x.enter .drain = { x with st := .drain, prior := x.st } := by
    unfold Chan.enter
    split <;> simp_all
  unfold Chan.startDrain
  rw [henter]
  cases hold <;> rfl

theorem Chan.free_of_drainWindow (h : x.drainWindow = true) : x.st ≠ .drain ∧ x.st ≠ .freqsw ∧ x.st ≠ .reset := by
  unfold Chan.drainWindow at h
  split at h <;> simp_all

/-- Step 4 of a frequency change puts the target set in force and keeps requests and delays (Table 8.7). -/
theorem Chan.lockSet_spec (f : Freq) (tick : Nat) (h : x.freq = some f) :
    (x.lockSet f tick).freq = some { f with locked := true } ∧
    (x.lockSet f tick).setB = (if f.locked then x.setB else f.toB) ∧
    (x.lockSet f tick).reqs = x.reqs ∧ (x.lockSet f tick).taps = x.taps := by
  unfold Chan.lockSet
  obtain ⟨toB, came, order, locked, upd, edges⟩ := f
  cases locked with
  | true => exact ⟨h, rfl, rfl, rfl⟩
  | false =>
    by_cases hst : x.st = .freqsw
    · simp [hst, Chan.startRefresh]
    · simp [hst]

/-- What a sweep that begins on a channel leaves of its set, its change of frequency and its YnRESET#. -/
theorem Chan.toSweep_set (k : SweepFor) (tick order : Nat) :
    (x.toSweep k tick order).freq = x.freq ∧ (x.toSweep k tick order).setB = x.setB ∧
    (x.toSweep k tick order).resetN = x.resetN := by
  unfold Chan.toSweep Chan.roused
  cases k <;> dsimp only <;> split <;> exact ⟨rfl, rfl, rfl⟩

/-- A drained channel begins its sweep in the drain it is in. -/
theorem Chan.toSweep_of_drain (h : x.st = .drain) (tick order : Nat) : x.toSweep .retrain tick order =
    { (if x.awake then x else x.startRefresh tick) with
      sweeping := some .retrain, swept := 0, sweptAge := order, begun := none
      rows := Vector.replicate 16 none, gap := Vector.replicate 2 none
      waiting := none } := by
  have henter : x.enter .drain = x := by
    unfold Chan.enter
    rw [h]
    cases x
    simp_all
  unfold Chan.toSweep
  dsimp only
  rw [henter]
  rfl

/-! ### What the start of a sweep leaves of the rest -/

/-- `t` is `s` but for the channels and DP:LOCKDRAM. -/
def State.dramFrame (s t : State) : Prop := t = { s with chans := t.chans, dp := { s.dp with lockDram := t.dp.lockDram } }

theorem State.beginSweep_frame (c : YId) (k : SweepFor) : s.dramFrame (s.beginSweep c k) := by
  unfold State.dramFrame
  rw [s.beginSweep_eq]
  unfold State.cardingLock
  split <;> rfl

theorem State.dramFrame.of_modCh {s t : State} {c : YId} {g : Chan → Chan} (h : (s.modCh c g).dramFrame t) : s.dramFrame t := h

theorem State.chanChanged_bare : s.chanChanged.bare = s.nextOrder.bare := State.scaleAll_bare _

theorem State.chanChanged_chans : s.chanChanged.chans = s.chans := by simp [State.chanChanged]

theorem State.dramFrame.chanChanged {s t : State} (h : s.dramFrame t) : t.chanChanged.bare =
    ({ s with chans := t.chanChanged.chans, dp := { s.dp with lockDram := t.chanChanged.dp.lockDram }, order := s.order + 1 } :
      State).bare := by
  rw [t.chanChanged_bare, t.chanChanged_dp, t.chanChanged_chans]
  exact congrArg (fun u : State => u.nextOrder.bare) h

theorem State.beginSweep_ch (c : YId) (k : SweepFor) :
    (s.beginSweep c k).ch c = (s.ch c).toSweep k s.time.ticks s.order := by
  rw [s.beginSweep_eq, State.modCh_ch, s.cardingLock_ch]

theorem State.beginSweep_ch_ne {c d : YId} (k : SweepFor) (h : d ≠ c) : (s.beginSweep c k).ch d = s.ch d := by
  rw [s.beginSweep_eq, State.modCh_ch_ne _ _ _ _ h, s.cardingLock_ch]

theorem State.beginSweep_dram (c : YId) (k : SweepFor) :
    ((s.beginSweep c k).lock .dram).holder = if s.dramFree then VWord.of 3 else (s.lock .dram).holder := by
  rw [s.beginSweep_eq, ← s.cardingLock_dram]
  rfl

theorem State.dramFree_of_free (h : (s.lock .dram).holder = VWord.of 0) : s.dramFree = true := by
  unfold State.dramFree
  rw [h]
  rfl

/-! ### The rows -/

theorem State.cardingOn_of_running (hrun : s.running = true) (href : s.time.refclk = true) : s.cardingOn = true := by
  unfold State.running State.hostOn at hrun
  simp only [Bool.and_eq_true] at hrun
  obtain ⟨⟨⟨hpow, hstage⟩, -⟩, hfatal⟩ := hrun
  simp only [State.cardingOn, hpow, hstage, hfatal, href, Bool.and_self]

theorem State.sweepsOn_of_running (hrun : s.running = true) (href : s.time.refclk = true) (htrained : s.boot.trained = true) :
    s.sweepsOn = true := by
  simp only [State.sweepsOn, s.cardingOn_of_running hrun href, htrained, Bool.and_self]

/-- The drain that begins at a drain window. -/
theorem State.drainWindow_of_turn {c : YId} {hold : Bool} {d : Pend} (hon : s.sweepsOn = true) (hrun : s.running = true)
    (hnext : s.nextDrain c = some (hold, d)) (hturn : s.turn c d.order = true) (hwait : (s.ch c).waiting = none)
    (hwin : (s.ch c).drainWindow = true) (hfreq : (s.ch c).freq = none) :
    s.drainWindow c = (s.modCh c fun x =>
      { (x.startDrain hold).roused (!(hold && !(x.st == .active || x.st == .selfref))) s.time.ticks with
        heldHost := hold && !(x.st == .active || x.st == .selfref) }).chanChanged := by
  unfold State.drainWindow
  rw [hnext]
  exact if_pos (by simp [hon, hrun, hwin, hfreq, hwait, hturn])

/-- The drain that begins by force. -/
theorem State.forcedDrain_of_due {c : YId} {hold : Bool} {d : Pend} (hon : s.sweepsOn = true) (hrun : s.running = true)
    (hnext : s.nextDrain c = some (hold, d)) (hturn : s.turn c d.order = true) (hwait : (s.ch c).waiting = none)
    (hst : (s.ch c).st = .active) (hwin : (s.ch c).drainWindow = false) (hdue : s.due d = true) :
    s.forcedDrain c = ((s.modCh c fun x => x.startDrain hold).count (Ev.yfdrain c) 0).chanChanged := by
  unfold State.forcedDrain
  rw [hnext]
  exact if_pos (by simp [hon, hrun, hwin, hst, hwait, hturn, hdue])

/-- No drain begins where nothing waits for one, and before start-up step 6 is over. -/
theorem State.noDrain {c : YId} (h : s.nextDrain c = none ∨ s.running = false ∨ s.time.refclk = false ∨
    s.boot.trained = false) : s.drainWindow c = s ∧ s.forcedDrain c = s := by
  have hoff (hne : s.nextDrain c ≠ none) : (s.sweepsOn && s.running) = false := by
    rcases h with h | h | h | h <;> simp_all [State.sweepsOn, State.cardingOn]
  unfold State.drainWindow State.forcedDrain
  split
  · exact ⟨rfl, rfl⟩
  · simp [hoff (by simp_all)]

/-- The channel as a waiting sweep finds it: at step 4 of a frequency change with the target set in force, else with its
YnRESET# high. -/
def Chan.sweepFrom (x : Chan) (k : SweepFor) (tick : Nat) : Chan :=
  match k, x.freq with
  | .freqsw, some f => x.lockSet f tick
  | _, _ => { x with resetN := true }

theorem Chan.sweepFrom_spec (k : SweepFor) (tick : Nat) :
    (x.sweepFrom k tick).reqs = x.reqs ∧ (x.sweepFrom k tick).taps = x.taps ∧
    (k ≠ .freqsw → (x.sweepFrom k tick).resetN = true ∧ (x.sweepFrom k tick).setB = x.setB) ∧
    (∀ f, k = .freqsw → x.freq = some f → (x.sweepFrom k tick).freq = some { f with locked := true } ∧
      (x.sweepFrom k tick).setB = (if f.locked then x.setB else f.toB)) := by
  unfold Chan.sweepFrom
  split
  · next f hf =>
    obtain ⟨hfreq, hset, hreqs, htaps⟩ := x.lockSet_spec f tick hf
    refine ⟨hreqs, htaps, fun h => absurd rfl h, fun g _ hg => ?_⟩
    obtain rfl := Option.some.inj (hf.symm.trans hg)
    exact ⟨hfreq, hset⟩
  · next hno => exact ⟨rfl, rfl, fun _ => ⟨rfl, rfl⟩, fun f hk hf => (hno f hk hf).elim⟩

theorem State.sweepStart_of_ready {c : YId} {k : SweepFor} {o : Nat} (hwait : (s.ch c).waiting = some (some k, o))
    (hready : s.sweepReady c k o = true) :
    s.sweepStart c = ((s.modCh c fun x => x.sweepFrom k s.time.ticks).beginSweep c k).chanChanged := by
  unfold State.sweepStart
  rw [hwait]
  dsimp only
  rw [if_neg (by simp [hready])]
  refine congrArg (fun t : State => (t.beginSweep c k).chanChanged) ?_
  unfold State.modCh Chan.sweepFrom
  dsimp only
  cases k <;> cases (s.ch c).freq <;> rfl

theorem State.sweepStart_of_not_ready {c : YId} {k : SweepFor} {o : Nat} (hwait : (s.ch c).waiting = some (some k, o))
    (hready : s.sweepReady c k o = false) : s.sweepStart c = s := by
  unfold State.sweepStart
  rw [hwait]
  dsimp only
  rw [if_pos (by simp [hready])]

/-- A sweep that begins on a channel changed just before, with what it leaves of its channel and of the rest. -/
theorem State.modCh_beginSweep_spec (c : YId) (k : SweepFor) (g : Chan → Chan) (t : State)
    (ht : ((s.modCh c g).beginSweep c k).chanChanged = t) :
    t.ch c = (g (s.ch c)).toSweep k s.time.ticks s.order ∧ t.ch (otherCh c) = s.ch (otherCh c) ∧
    (t.lock .dram).holder = (if s.dramFree then VWord.of 3 else (s.lock .dram).holder) ∧
    t.bare = ({ s with
      chans := t.chans, dp := { s.dp with lockDram := t.dp.lockDram }, order := s.order + 1 } : State).bare := by
  have hch := State.beginSweep_ch (s.modCh c g) c k
  have hother := State.beginSweep_ch_ne (s.modCh c g) k (otherCh_ne c)
  have hlock := State.beginSweep_dram (s.modCh c g) c k
  have hframe := ((s.modCh c g).beginSweep_frame c k).of_modCh
  rw [State.modCh_ch] at hch
  rw [State.modCh_ch_ne _ _ _ _ (otherCh_ne c)] at hother
  subst ht
  generalize (s.modCh c g).beginSweep c k = u at hch hother hlock hframe
  refine ⟨(u.chanChanged_ch c).trans hch, (u.chanChanged_ch _).trans hother, ?_, hframe.chanChanged⟩
  show u.chanChanged.dp.lockDram.holder = _
  rw [u.chanChanged_dp]
  exact hlock

theorem State.drainDone_of_drained {c : YId} (hrun : s.running = true) (href : s.time.refclk = true)
    (hsweep : (s.ch c).sweeping = none) (hst : (s.ch c).st = .drain) (hwait : (s.ch c).waiting = none)
    (hheld : (s.ch c).heldHost = false) (hquiet : (s.ch c).quiet = true) :
    s.drainDone c = if (s.ch c).drainHold then
        s.setCh c { ((s.ch c).roused (s.ch c).awake s.time.ticks) with
          heldHost := true, rows := Vector.replicate 16 none, gap := Vector.replicate 2 none }
      else if s.dramFree then s.beginSweep c .retrain
      else (s.setCh c { ((s.ch c).undrain s.time.ticks) with pend := (s.ch c).begun, begun := none }).chanChanged := by
  unfold State.drainDone
  dsimp only
  exact if_neg (by simp [s.cardingOn_of_running hrun href, hrun, hsweep, hst, hwait, hheld, hquiet])

end Sys2Proof.Machine

open Sys2Proof Sys2Proof.Machine

/-- Settles O37: a drain begins at its window or by force, and its end and a waiting sweep's turn begin what waits there. -/
theorem drainsAndSweeps : Obligations.DrainsAndSweeps := by
  unfold Obligations.DrainsAndSweeps
  refine ⟨fun c hold d s hrun href htrained hnext hturn hwait => ?_, fun c s h => ?_, fun c s hrun href hsweep => ⟨?_, ?_⟩⟩
  · have hon := s.sweepsOn_of_running hrun href htrained
    refine ⟨fun hwin hfreq => ?_, fun hwf hst hwin hdue => ?_⟩
    · have hfree := (s.ch c).free_of_drainWindow hwin
      refine ⟨_, congrArg Host.Outcome.next (s.drainWindow_of_turn hon hrun hnext hturn hwait hwin hfreq), ?_⟩
      rw [State.chanChanged_bare, State.modCh, (s.ch c).startDrain_of_window hold hfree]
      cases hold && !((s.ch c).st == .active || (s.ch c).st == .selfref) <;> rfl
    · have hforced := s.forcedDrain_of_due hon hrun hnext hturn hwait hst hwin hdue
      have hbare := State.chanChanged_bare ((s.modCh c fun x => x.startDrain hold).count (Ev.yfdrain c) 0)
      have hevents : ((s.modCh c fun x => x.startDrain hold).count (Ev.yfdrain c) 0).chanChanged.events =
          (s.countN (Ev.yfdrain c) 0 1).events := by
        simp only [State.chanChanged, State.scaleAll_events, State.nextOrder_events]
        exact State.countN_events_congr rfl _ _ _
      refine ⟨_, congrArg Host.Outcome.next hforced, s.counted_of_events hwf hevents, ?_⟩
      rw [hevents, hbare, State.count, (s.modCh c fun x => x.startDrain hold).countN_frame,
        State.countN_events_congr (s := s) (t := s.modCh c fun x => x.startDrain hold) rfl, State.modCh,
        (s.ch c).startDrain_of_window hold (by simp [hst]), hst]
      rfl
  · obtain ⟨hwin, hforced⟩ := s.noDrain h
    exact ⟨congrArg Host.Outcome.next hwin, congrArg Host.Outcome.next hforced⟩
  · intro hst hwait hheld
    refine ⟨fun hquiet hhold => ?_, fun hquiet hhold hfree => ?_, fun hquiet hhold hfree => ?_, fun hquiet => ?_⟩
    · have hdone := s.drainDone_of_drained hrun href hsweep hst hwait hheld hquiet
      rw [if_pos hhold] at hdone
      exact congrArg Host.Outcome.next hdone
    · have hdone := s.drainDone_of_drained hrun href hsweep hst hwait hheld hquiet
      rw [if_neg (by simp [hhold]), if_pos hfree] at hdone
      have hch := s.beginSweep_ch c .retrain
      have hlock := s.beginSweep_dram c .retrain
      rw [(s.ch c).toSweep_of_drain hst] at hch
      rw [if_pos hfree] at hlock
      refine ⟨_, congrArg Host.Outcome.next hdone, hch.trans ?_, hlock, s.beginSweep_ch_ne _ (otherCh_ne c),
        s.beginSweep_frame c .retrain⟩
      cases (s.ch c).awake <;> simp [Chan.startRefresh, hwait]
    · have hdone := s.drainDone_of_drained hrun href hsweep hst hwait hheld hquiet
      rw [if_neg (by simp [hhold]), if_neg (by simp [hfree])] at hdone
      exact ⟨_, congrArg Host.Outcome.next hdone, State.chanChanged_bare _⟩
    · exact congrArg Host.Outcome.next (if_pos (by simp [hquiet]))
  · intro k o hreads hwait
    refine ⟨fun hready => ?_, fun hready => ?_⟩
    · obtain ⟨hch, hother, hlock, hbare⟩ :=
        s.modCh_beginSweep_spec c k (fun x => x.sweepFrom k s.time.ticks) _ (s.sweepStart_of_ready hwait hready).symm
      obtain ⟨hreqs, htaps, hset, hlocked⟩ := (s.ch c).sweepFrom_spec k s.time.ticks
      obtain ⟨-, -, -, kreqs, ktaps⟩ := ((s.ch c).sweepFrom k s.time.ticks).toSweep_keeps k s.time.ticks s.order
      obtain ⟨kfreq, ksetB, kresetN⟩ := ((s.ch c).sweepFrom k s.time.ticks).toSweep_set k s.time.ticks s.order
      have hdone := (s.sweepStart c).answerReads_of_noReads
        (State.noReads_congr (congrArg State.pathA hbare :) (congrArg State.pathB hbare :) hreads)
      refine ⟨_, congrArg Host.Outcome.next hdone, ?_⟩
      rw [hch, kreqs, ktaps, kfreq, ksetB, kresetN]
      refine ⟨rfl, rfl, hreqs, htaps, fun hfree => ?_, hset, hlocked, hother, hbare⟩
      rw [hlock, if_pos (s.dramFree_of_free hfree)]
    · exact congrArg Host.Outcome.next
        ((congrArg State.answerReads (s.sweepStart_of_not_ready hwait hready)).trans (s.answerReads_of_noReads hreads))

end

section
/-!
O39. Tracking updates.

An update moves each lane of one rank by one tap at most; what it leaves of its channel is then said once, for an update in
service and for one in step 8 of a frequency change.
-/

-- The theorems one after another: side by side they take more threads than the check allows.
set_option Elab.async false

namespace Sys2Proof.Machine

variable (s : State) (x : Chan)

/-! ### A lane moved by one tap -/

theorem fld_lt (v : Word) (lo n : Nat) : fld v lo n < 2 ^ n := Nat.mod_lt _ (Nat.two_pow_pos n)

theorem moveTap_near {n : Nat} (h : n < 128) (d : Int) : moveTap n d < 128 ∧ moveTap n d ≤ n + 1 ∧ n ≤ moveTap n d + 1 := by
  unfold moveTap
  split
  · omega
  · split <;> omega

theorem fld_at'_tap {n : Nat} (h : n < 128) : fld (at' n 0) 0 7 = n := by
  simp only [fld, at', BitVec.toNat_ofNat]
  omega

/-- The coarse and the fine part of a gate delay, as they are put together. -/
theorem fld_gate {coarse fine : Nat} (hcoarse : coarse < 16) (hfine : fine < 128) :
    fld (at' coarse 8 ||| at' fine 0) 0 7 = fine ∧ fld (at' coarse 8 ||| at' fine 0) 8 4 = coarse := by
  have hor : (at' coarse 8 ||| at' fine 0).toNat = coarse * 2 ^ 8 + fine := by
    simp only [at', BitVec.toNat_or, BitVec.toNat_ofNat]
    rw [Nat.mod_eq_of_lt (by omega), Nat.mod_eq_of_lt (by omega), Nat.pow_zero, Nat.mul_one, ← Nat.shiftLeft_eq]
    exact (Nat.shiftLeft_add_eq_or_of_lt (by omega) coarse).symm
  simp only [fld, hor]
  omega

/-- A lane after an update: its trained values as they were, RDDLY and GATE.FINE near what they were (R267). -/
theorem LaneTaps.track_near (o : LaneTaps) (m : TrackMove) :
    (o.track m).wl = o.wl ∧ (o.track m).wr = o.wr ∧ (o.track m).rdT = o.rdT ∧ (o.track m).fineT = o.fineT ∧
    fld (o.track m).rd 0 7 ≤ fld o.rd 0 7 + 1 ∧ fld o.rd 0 7 ≤ fld (o.track m).rd 0 7 + 1 ∧
    fld (o.track m).gate 0 7 ≤ fld o.gate 0 7 + 1 ∧ fld o.gate 0 7 ≤ fld (o.track m).gate 0 7 + 1 ∧
    fld (o.track m).gate 8 4 = fld o.gate 8 4 := by
  obtain ⟨hrd, hrdUp, hrdDown⟩ := moveTap_near (fld_lt o.rd 0 7) m.rd
  obtain ⟨hfine, hup, hdown⟩ := moveTap_near (fld_lt o.gate 0 7) m.gate
  obtain ⟨hgate, hcoarse⟩ := fld_gate (fld_lt o.gate 8 4) hfine
  have hread : fld (o.track m).rd 0 7 = moveTap (fld o.rd 0 7) m.rd := fld_at'_tap hrd
  have hgate' : fld (o.track m).gate 0 7 = moveTap (fld o.gate 0 7) m.gate := hgate
  rw [hread, hgate']
  exact ⟨rfl, rfl, rfl, rfl, hrdUp, hrdDown, hup, hdown, hcoarse⟩

/-- The delays of a channel after an update of a rank of the set in force `b`, against those before it. -/
def Chan.tracked1 (x y : Chan) (b rank : Bool) : Prop := ∀ k : Fin 40,
  (let o := x.taps[k.val]
   let n := y.taps[k.val]
   n.wl = o.wl ∧ n.wr = o.wr ∧ n.rdT = o.rdT ∧ n.fineT = o.fineT ∧
   (tapIdx b rank 0 ≤ k.val ∧ k.val < tapIdx b rank 0 + 10 →
     fld n.rd 0 7 ≤ fld o.rd 0 7 + 1 ∧ fld o.rd 0 7 ≤ fld n.rd 0 7 + 1 ∧
     fld n.gate 0 7 ≤ fld o.gate 0 7 + 1 ∧ fld o.gate 0 7 ≤ fld n.gate 0 7 + 1 ∧
     fld n.gate 8 4 = fld o.gate 8 4) ∧
   (¬(tapIdx b rank 0 ≤ k.val ∧ k.val < tapIdx b rank 0 + 10) → n = o))

theorem Chan.track_tracked1 (rank : Bool) (moves : List TrackMove) : x.tracked1 (x.track rank moves) x.setB rank := by
  intro k
  have htap : (x.track rank moves).taps[k.val] =
      if tapIdx x.setB rank 0 ≤ k.val ∧ k.val < tapIdx x.setB rank 0 + 10 then
        (x.taps[k.val]).track (moves.getD (k.val - tapIdx x.setB rank 0) ⟨0, 0⟩)
      else x.taps[k.val] := Vector.getElem_mapFinIdx _
  dsimp only
  rw [htap]
  split
  · next hin =>
    obtain ⟨hwl, hwr, hrdT, hfineT, hnear⟩ :=
      (x.taps[k.val]).track_near (moves.getD (k.val - tapIdx x.setB rank 0) ⟨0, 0⟩)
    exact ⟨hwl, hwr, hrdT, hfineT, fun _ => hnear, fun hout => absurd hin hout⟩
  · next hout => exact ⟨rfl, rfl, rfl, rfl, fun hin => absurd hin hout, fun _ => rfl⟩

/-! ### What an update leaves of its channel and of the rest -/

/-- `t` is `s` but for the channels, the events and the order of stamps, the other channel as it was. -/
def State.trackFrame (s t : State) (c : YId) : Prop :=
  t.ch (otherCh c) = s.ch (otherCh c) ∧ t = { s with chans := t.chans, events := t.events, order := t.order }

theorem State.trackFrame.trans {s t u : State} {c : YId} (h : s.trackFrame t c) (k : t.trackFrame u c) : s.trackFrame u c := by
  obtain ⟨hother, hframe⟩ := h
  obtain ⟨kother, kframe⟩ := k
  refine ⟨kother.trans hother, ?_⟩
  have hlift := congrArg (fun v : State => { v with chans := u.chans, events := u.events, order := u.order }) hframe
  exact kframe.trans hlift

theorem State.modCh_trackFrame (c : YId) (g : Chan → Chan) : s.trackFrame (s.modCh c g) c :=
  ⟨State.modCh_ch_ne _ _ _ _ (otherCh_ne c), rfl⟩

theorem State.count_trackFrame (c : YId) (code inst : Nat) : s.trackFrame (s.count code inst) c := by
  have h := s.countN_frame code inst 1
  refine ⟨(congrArg (fun t : State => t.ch (otherCh c)) h :), ?_⟩
  exact h.trans (congrArg (fun t : State =>
    ({ s with chans := t.chans, events := (s.countN code inst 1).events, order := t.order } : State)) h).symm

theorem State.trigger_trackFrame (c : YId) : s.trackFrame (s.trigger c) c := by
  have h := s.trigger_frame c
  refine ⟨s.trigger_ch_ne (otherCh_ne c), ?_⟩
  rw [h]

theorem State.count_ch (c : YId) (code inst : Nat) : (s.count code inst).ch c = s.ch c :=
  (congrArg (fun t : State => t.ch c) (s.countN_frame code inst 1) :)

/-- An update of a rank moves its lanes; beside that a retrain may fall pending, with its event counted (R267, R270). -/
theorem State.trackRank_spec (c : YId) (rank : Bool) (moves : List TrackMove) :
    (s.trackRank c rank moves).ch c =
        { (s.ch c).track rank moves with pend := ((s.trackRank c rank moves).ch c).pend } ∧
      s.trackFrame (s.trackRank c rank moves) c := by
  have hset : s.trackFrame (s.setCh c ((s.ch c).track rank moves)) c := s.modCh_trackFrame c fun x => x.track rank moves
  have hch := s.setCh_ch c ((s.ch c).track rank moves)
  unfold State.trackRank
  dsimp only
  generalize s.setCh c ((s.ch c).track rank moves) = t at hset hch ⊢
  rw [← hch]
  have hcount (b : Bool) : t.trackFrame (if b then t.count (Ev.ydrift c) 0 else t) c ∧
      (if b then t.count (Ev.ydrift c) 0 else t).ch c = t.ch c := by
    cases b with
    | false => exact ⟨⟨rfl, rfl⟩, rfl⟩
    | true => exact ⟨t.count_trackFrame c _ _, t.count_ch c _ _⟩
  obtain ⟨hcounted, hkept⟩ := hcount (((t.ch c).drifts rank).any fun k => !((s.ch c).drifts rank).contains k)
  generalize (if ((t.ch c).drifts rank).any fun k => !((s.ch c).drifts rank).contains k then t.count (Ev.ydrift c) 0 else t) = u
    at hcounted hkept ⊢
  rw [← hkept]
  split
  · exact ⟨rfl, hset.trans hcounted⟩
  · exact ⟨u.trigger_ch c, hset.trans (hcounted.trans (u.trigger_trackFrame c))⟩

/-! ### The rows -/

theorem State.warm_of_running (hrun : s.running = true) : s.boot.warm = false := by
  simp only [State.running, State.hostOn, Bool.and_eq_true, Bool.not_eq_true'] at hrun
  exact hrun.1.2

theorem State.exec_dqsTracking {c : YId} {rank : Bool} {moves : List TrackMove} {t : State} (hrun : s.running = true)
    (hreads : s.noReads) (ht : s.dqsTracking c rank moves = t) (hframe : s.trackFrame t c) :
    exec (.dqsTracking c rank moves) s = .next t := by
  obtain ⟨-, hframe⟩ := hframe
  have hwarm : t.boot.warm = false := (congrArg (fun u : State => u.boot.warm) hframe :).trans (s.warm_of_running hrun)
  have hnone : t.noReads := State.noReads_congr (congrArg State.pathA hframe :) (congrArg State.pathB hframe :) hreads
  refine congrArg Host.Outcome.next ?_
  rw [ht, t.warmOn_of_not hwarm, t.answerReads_of_noReads hnone]

/-- The channel that an update in service finds, its next one due 1 ms on (R267). -/
def Chan.trackNext (x : Chan) (rank : Bool) (tick : Nat) : Chan :=
  { x with
    must := x.must.set (rankIdx rank).val false
    trackAt := x.trackAt.set (rankIdx rank).val ((if x.must[rankIdx rank] then tick else x.trackAt[rankIdx rank]) + msTicks) }

/-- The channel that an update in step 8 of a frequency change finds (Table 8.7). -/
def Chan.trackEight (x : Chan) (f : Freq) (rank : Bool) (tick : Nat) : Chan :=
  { x.lockSet f tick with freq := some { f with locked := true, upd := f.upd.set (rankIdx rank).val true } }

theorem Chan.stepEight_of_active (h : x.st = .active) : x.stepEight = none := if_neg (by simp [h])

theorem Chan.stepEight_of_freqsw {f : Freq} (hst : x.st = .freqsw) (hquiet : x.quiet = true) (hfreq : x.freq = some f)
    (hcarry : x.carry f.toB = true) : x.stepEight = some f := by
  unfold Chan.stepEight
  rw [if_pos ⟨hst, hquiet⟩, hfreq]
  simp [hcarry]

theorem State.dqsTracking_of_active {c : YId} (rank : Bool) (moves : List TrackMove) (hon : s.cardingOn = true)
    (hnoRef : (s.ch c).noRef = false) (hsweep : (s.ch c).sweeping = none) (hst : (s.ch c).st = .active)
    (hrank : (s.ch c).hasRank rank = true) :
    s.dqsTracking c rank moves = if (s.ch c).trackDue rank then
      (s.modCh c fun x => x.trackNext rank s.time.ticks).trackRank c rank moves else s := by
  unfold State.dqsTracking
  rw [if_neg (by simp [hon, hnoRef, hsweep]), (s.ch c).stepEight_of_active hst]
  dsimp only
  cases hdue : (s.ch c).trackDue rank <;> rw [hrank] <;> rfl

theorem State.dqsTracking_of_freqsw {c : YId} {f : Freq} (rank : Bool) (moves : List TrackMove) (hon : s.cardingOn = true)
    (hnoRef : (s.ch c).noRef = false) (hsweep : (s.ch c).sweeping = none) (hstep : (s.ch c).stepEight = some f) :
    s.dqsTracking c rank moves =
      if f.upd[rankIdx rank] then s
      else if ((s.ch c).trackEight f rank s.time.ticks).hasRank rank then
        (s.modCh c fun x => x.trackEight f rank s.time.ticks).trackRank c rank moves
      else s.modCh c fun x => x.trackEight f rank s.time.ticks := by
  unfold State.dqsTracking
  rw [if_neg (by simp [hon, hnoRef, hsweep]), hstep]
  dsimp only
  split
  · rfl
  · rw [← s.modCh_ch c fun x => x.trackEight f rank s.time.ticks]
    rfl

/-- An update of a rank whose channel `g` has made ready for it. -/
theorem State.modCh_trackRank {c : YId} {g : Chan → Chan} (rank : Bool) (moves : List TrackMove) {t : State}
    (ht : (s.modCh c g).trackRank c rank moves = t) (hreqs : (g (s.ch c)).reqs = (s.ch c).reqs)
    (htaps : (g (s.ch c)).taps = (s.ch c).taps) :
    s.trackFrame t c ∧ (t.ch c).reqs = (s.ch c).reqs ∧ (s.ch c).tracked1 (t.ch c) (g (s.ch c)).setB rank ∧
    t.ch c = { g (s.ch c) with taps := (t.ch c).taps, pend := (t.ch c).pend } := by
  obtain ⟨hch, hframe⟩ := (s.modCh c g).trackRank_spec c rank moves
  rw [ht, s.modCh_ch] at hch
  rw [ht] at hframe
  have hmoved := (g (s.ch c)).track_tracked1 rank moves
  have hto := congrArg Chan.taps hch
  refine ⟨(s.modCh_trackFrame c g).trans hframe, (congrArg Chan.reqs hch).trans hreqs, ?_, ?_⟩
  · unfold Chan.tracked1 at hmoved ⊢
    rw [hto, ← htaps]
    exact hmoved
  · exact hch.trans (by rw [hch]; rfl)

theorem Chan.trackEight_spec {f : Freq} (rank : Bool) (tick : Nat) (hfreq : x.freq = some f)
    (hset : f.locked = true → x.setB = f.toB) :
    (x.trackEight f rank tick).reqs = x.reqs ∧ (x.trackEight f rank tick).taps = x.taps ∧
    (x.trackEight f rank tick).setB = f.toB ∧
    (x.trackEight f rank tick).hasRank rank = (!rank || bit (x.tword f.toB 0) 5) := by
  obtain ⟨-, hsetB, hreqs, htaps⟩ := x.lockSet_spec f tick hfreq
  have hto : (x.trackEight f rank tick).setB = f.toB := by
    refine hsetB.trans ?_
    split
    · next h => exact hset h
    · rfl
  have hword : (x.trackEight f rank tick).tword f.toB 0 = x.tword f.toB 0 := by
    unfold Chan.trackEight Chan.lockSet
    split
    · rfl
    · split <;> rfl
  refine ⟨hreqs, htaps, hto, ?_⟩
  unfold Chan.hasRank Chan.ranks
  rw [hto, hword]

end Sys2Proof.Machine

open Sys2Proof Sys2Proof.Machine

/-- Settles O39: an update in service and one in step 8 move the lanes of their rank by a tap at most, and nothing else. -/
theorem trackingMovesOneTap : Obligations.TrackingMovesOneTap := by
  unfold Obligations.TrackingMovesOneTap
  intro c rank moves s hreads x i moved frame hrun href hnoRef hsweep
  have hon := s.cardingOn_of_running hrun href
  refine ⟨fun hst hrank => ⟨fun hdue => ?_, fun hdue => ?_⟩, fun f hst hquiet hfreq hcarry => ⟨fun hupd => ?_, fun hupd hset => ?_⟩⟩
  · have htrack := s.dqsTracking_of_active rank moves hon hnoRef hsweep hst hrank
    rw [if_pos hdue] at htrack
    obtain ⟨hframe, hreqs, hmoved, hch⟩ :=
      s.modCh_trackRank (g := fun x => x.trackNext rank s.time.ticks) rank moves htrack.symm rfl rfl
    obtain ⟨hother, hbare⟩ := hframe
    refine ⟨_, s.exec_dqsTracking hrun hreads rfl ⟨hother, hbare⟩, hmoved, ⟨hother, hreqs, hbare⟩,
      (congrArg Chan.st hch).trans hst, congrArg Chan.must hch, congrArg Chan.trackAt hch⟩
  · have htrack := s.dqsTracking_of_active rank moves hon hnoRef hsweep hst hrank
    rw [if_neg (by simp [x, hdue])] at htrack
    exact s.exec_dqsTracking hrun hreads htrack ⟨rfl, rfl⟩
  · have htrack := s.dqsTracking_of_freqsw rank moves hon hnoRef hsweep ((s.ch c).stepEight_of_freqsw hst hquiet hfreq hcarry)
    rw [if_pos hupd] at htrack
    exact s.exec_dqsTracking hrun hreads htrack ⟨rfl, rfl⟩
  · have htrack := s.dqsTracking_of_freqsw rank moves hon hnoRef hsweep ((s.ch c).stepEight_of_freqsw hst hquiet hfreq hcarry)
    rw [if_neg (by simp [i, hupd])] at htrack
    obtain ⟨hreqs, htaps, hto, hrank⟩ := (s.ch c).trackEight_spec rank s.time.ticks hfreq hset
    rw [hrank] at htrack
    cases hhas : !rank || bit ((s.ch c).tword f.toB 0) 5 with
    | true =>
      rw [if_pos hhas] at htrack
      obtain ⟨hframe, kreqs, hmoved, hch⟩ :=
        s.modCh_trackRank (g := fun x => x.trackEight f rank s.time.ticks) rank moves htrack.symm hreqs htaps
      have hset' := (congrArg Chan.setB hch).trans hto
      rw [hto] at hmoved
      obtain ⟨hother, hbare⟩ := hframe
      refine ⟨_, s.exec_dqsTracking hrun hreads rfl ⟨hother, hbare⟩, ⟨hother, kreqs, hbare⟩, hset', congrArg Chan.freq hch,
        fun _ => hmoved, fun hr hbit => ?_⟩
      rw [hr, hbit] at hhas
      exact absurd hhas (by decide)
    | false =>
      rw [if_neg (by simp [hhas])] at htrack
      have hch := s.modCh_ch c fun x => x.trackEight f rank s.time.ticks
      obtain ⟨hother, hbare⟩ := s.modCh_trackFrame c fun x => x.trackEight f rank s.time.ticks
      refine ⟨_, s.exec_dqsTracking hrun hreads htrack ⟨hother, hbare⟩, ⟨hother, hch ▸ hreqs, hbare⟩, hch ▸ hto, hch ▸ rfl,
        fun hmay => ?_, fun _ _ => hch ▸ htaps⟩
      rcases hmay with hr | hbit
      · rw [hr] at hhas
        exact absurd hhas (by simp)
      · rw [hbit] at hhas
        exact absurd hhas (by simp)

end

section
/-!
O40. Host training: the hold and its release, and the host path's pattern runs.
-/

-- The theorems one after another: side by side they take more threads than the check allows.
set_option Elab.async false

namespace Sys2Proof.Machine

variable (s : State) (x : Chan)

/-! ### What a command leaves of the rest, further on -/

theorem State.pathFrame.hostFrame_self {s u : State} (h : s.pathFrame u) : s.hostFrame u s := by
  obtain ⟨⟨_, _, rfl⟩, hcore⟩ := h
  exact ⟨rfl, hcore⟩

theorem State.hostFrame.nextOrder {s t u : State} (h : s.hostFrame t u) : s.hostFrame t.nextOrder u.nextOrder := by
  obtain ⟨hbare, hcore⟩ := h
  exact ⟨congrArg State.nextOrder hbare, fun r => by rw [State.nextOrder_path_frame]; exact hcore r⟩

theorem State.chanChanged_paths : s.chanChanged.pathA = s.pathA ∧ s.chanChanged.pathB = s.pathB := by
  simp [State.chanChanged]

theorem State.hostFrame.chanChanged {s t u : State} (h : s.hostFrame t u) : s.hostFrame t.chanChanged u.nextOrder := by
  obtain ⟨hbare, hcore⟩ := h.nextOrder
  obtain ⟨hA, hB⟩ := t.chanChanged_paths
  refine ⟨?_, fun r => ?_⟩
  · rw [t.chanChanged_bare, hA, hB]
    exact hbare
  · have hpath : t.chanChanged.path r = t.nextOrder.path r := by cases r <;> assumption
    rw [hpath]
    exact hcore r

/-! ### Writes of HTCTL and PGCMD -/

theorem State.exec_hostTrainingHold {p : Path} {c : YId} (hreads : s.noReads) (h : s.landsNow p (.phy c) 0x0B) :
    ∃ u, s.pathFrame u ∧ exec (.hostTrainingHold p c) s = .next (u.holdSet c) := by
  obtain ⟨u, hu, hrow⟩ := s.rowPost_effect (v := 1) hreads h rfl fun w => by
    show (w.holdSet c).pathA = _ ∧ (w.holdSet c).pathB = _
    unfold State.holdSet
    dsimp only
    split <;> exact ⟨rfl, rfl⟩
  exact ⟨u, hu, congrArg Host.Outcome.next hrow⟩

theorem State.exec_holdRelease {p : Path} {c : YId} (hreads : s.noReads) (h : s.landsNow p (.phy c) 0x0B) :
    ∃ u, s.pathFrame u ∧ exec (.holdRelease p c) s = .next (u.holdClear c) := by
  obtain ⟨u, hu, hrow⟩ := s.rowPost_effect (v := 0) hreads h rfl fun w => by
    show (w.holdClear c).pathA = _ ∧ (w.holdClear c).pathB = _
    unfold State.holdClear
    dsimp only
    split
    · exact ⟨rfl, rfl⟩
    · split
      · exact ⟨rfl, rfl⟩
      · split
        · exact State.chanChanged_paths _
        · exact ⟨rfl, rfl⟩
  exact ⟨u, hu, congrArg Host.Outcome.next hrow⟩

theorem State.exec_patternRun {p : Path} {c : YId} (hreads : s.noReads) (h : s.landsNow p (.phy c) 0x10) :
    ∃ u, s.pathFrame u ∧ exec (.patternRun p c) s = .next (u.patternRun ⟨p, 80, (Bank.phy c).sel⟩ c) := by
  obtain ⟨u, hu, hrow⟩ := s.rowPost_effect (v := 1) hreads h rfl fun w => by
    show (w.patternRun ⟨p, 80, (Bank.phy c).sel⟩ c).pathA = _ ∧ (w.patternRun ⟨p, 80, (Bank.phy c).sel⟩ c).pathB = _
    unfold State.patternRun
    dsimp only
    split
    · exact ⟨rfl, rfl⟩
    · split <;> exact ⟨rfl, rfl⟩
  exact ⟨u, hu, congrArg Host.Outcome.next hrow⟩

/-! ### The end of a hold before the channel is drained -/

/-- A channel that was draining for a hold serves again. -/
theorem Chan.clearHold_of_draining (hhold : x.hold = true) (hheld : x.heldHost = false) (hst : x.st = .drain)
    (hdrain : x.drainHold = true) (tick : Nat) :
    (x.clearHold tick).hold = false ∧ (x.clearHold tick).holdReq = none ∧ (x.clearHold tick).drainHold = false ∧
    (x.clearHold tick).st = (if x.prior = .active then .active else if x.reqs = [] then .selfref else .active) ∧
    (x.clearHold tick).reqs = x.reqs ∧ (x.clearHold tick).taps = x.taps := by
  unfold Chan.clearHold
  simp only [hhold, hst, hdrain, hheld, Bool.not_true, Bool.not_false, Bool.false_eq_true, if_false, and_self, if_true]
  unfold Chan.undrain
  cases hprior : x.prior <;> cases hreqs : x.reqs <;> exact ⟨rfl, rfl, rfl, rfl, rfl, rfl⟩

/-! ### Pattern runs -/

/-- Where a run is discarded for the state of its channel (R479). -/
theorem Chan.run_refused_iff : (x.run.isSome || !((x.st == .active && !x.noRef) || x.heldHost)) = true ↔
    ¬(x.run = none ∧ ((x.st = .active ∧ x.noRef = false) ∨ x.heldHost = true)) := by
  cases x.run <;> simp [imp_iff_not_or]

theorem State.overwrite_frame (c : YId) (lo hi slots pat : Nat) (seed : Word) : s.overwrite c lo hi slots pat seed =
    { s with queues := (s.overwrite c lo hi slots pat seed).queues, freeCtr := s.freeCtr + 1 } := rfl

/-- CMPPASS shows the lanes on which no beat mismatches (Table 9.5). -/
theorem foldl_or_getElem {n i : Nat} (hi : i < n) (l : List (BitVec n)) (a : BitVec n) :
    (l.foldl (· ||| ·) a)[i] = (a[i] || l.any fun b => b[i]) := by
  induction l generalizing a with
  | nil => simp
  | cons b l ih => rw [List.foldl_cons, ih, BitVec.getElem_or, List.any_cons, Bool.or_assoc]

theorem Chan.compared_pass (beats : List (BitVec 10)) (i : Fin 10) :
    (x.compared beats).cmppass.getLsbD i.val = true ↔ ∀ b ∈ beats, b.getLsbD i.val = false := by
  have hi : i.val < 16 := by omega
  simp [Chan.compared, foldl_or_getElem, hi]

theorem Chan.compared_err (beats : List (BitVec 10)) :
    (x.compared beats).cmperr.toNat = min 65535 (beats.filter (· != 0)).length := by
  simp only [Chan.compared, at', BitVec.toNat_ofNat]
  omega

/-- A billet under patterns written over channel billets of `c` from `lo` to `hi` − 1 (R255, R261). -/
def Queue.lay (x : Queue) (c : YId) (lo hi : Nat) (o : Overwrite) (b : Billet) : Billet :=
  match x.map.bind fun m => m.home b.num with
  | some (d, cb) => if d = c ∧ lo ≤ cb ∧ cb < hi ∧ b.boom then { b with pats := o :: b.pats } else b
  | none => b

theorem State.overwrite_qu (c : YId) (lo hi slots pat : Nat) (seed : Word) (q : QId) :
    (s.overwrite c lo hi slots pat seed).qu q = { s.qu q with
      billets := (s.qu q).billets.map ((s.qu q).lay c lo hi ⟨slots, pat, seed, s.freeCtr⟩) } :=
  State.qu_of_vmap (g := fun x => { x with billets := x.billets.map (x.lay c lo hi ⟨slots, pat, seed, s.freeCtr⟩) }) rfl

theorem Queue.lay_one (x : Queue) (c : YId) (cb : Nat) (o : Overwrite) (b : Billet) : x.lay c cb (cb + 1) o b =
    if b.boom = true ∧ (x.map.bind fun m => m.home b.num) = some (c, cb) then { b with pats := o :: b.pats } else b := by
  unfold Queue.lay
  cases hhome : x.map.bind fun m => m.home b.num with
  | none => simp
  | some h =>
    obtain ⟨d, k⟩ := h
    have hone : (d = c ∧ cb ≤ k ∧ k < cb + 1 ∧ b.boom = true) ↔ (b.boom = true ∧ some (d, k) = some (c, cb)) := by
      simp only [Option.some.injEq, Prod.mk.injEq]
      exact ⟨fun ⟨hd, hlo, hhi, hb⟩ => ⟨hb, hd, by omega⟩, fun ⟨hb, hd, hk⟩ => ⟨hd, by omega, by omega, hb⟩⟩
    simp only [hone]

theorem fld_high (v : Word) : fld v 8 8 = v.toNat / 256 := by
  have := v.isLt
  simp only [fld]
  omega

/-- A channel whose run has ended with the lanes that mismatch on each beat (R261, Table 9.5). -/
def Chan.runEnded (x : Chan) (beats : List (BitVec 10)) (tick : Nat) : Chan :=
  { x.compared beats with pgDone := true, run := none, idleSince := tick }

def State.runEnded (s : State) (c : YId) (k : Run) (beats : List (BitVec 10)) : State :=
  let t := s.setCh c ((s.ch c).runEnded beats s.time.ticks)
  if k.writes = 0 then t else t.overwrite c k.cb (k.cb + 1) (64 * k.writes) k.pat k.seed

theorem State.runEnded_spec (c : YId) (k : Run) (beats : List (BitVec 10)) :
    (s.runEnded c k beats).ch c = (s.ch c).runEnded beats s.time.ticks ∧
    (s.runEnded c k beats).ch (otherCh c) = s.ch (otherCh c) ∧
    s.runEnded c k beats = { s with
      chans := (s.runEnded c k beats).chans, queues := (s.runEnded c k beats).queues
      freeCtr := (s.runEnded c k beats).freeCtr } ∧
    (k.writes = 0 → s.runEnded c k beats = s.setCh c ((s.ch c).runEnded beats s.time.ticks)) ∧
    (k.writes ≠ 0 → ∀ (q : QId) (i : Nat) (b : Billet), (s.qu q).billets[i]? = some b →
      ((s.runEnded c k beats).qu q).billets[i]? = some (if b.boom = true ∧
          ((s.qu q).map.bind fun m => m.home b.num) = some (c, k.cb) then
        { b with pats := ⟨64 * k.writes, k.pat, k.seed, s.freeCtr⟩ :: b.pats } else b)) ∧
    ∀ q, (s.runEnded c k beats).qu q = { s.qu q with billets := ((s.runEnded c k beats).qu q).billets } := by
  have hch := s.setCh_ch c ((s.ch c).runEnded beats s.time.ticks)
  have hother := s.setCh_ch_ne c (otherCh c) ((s.ch c).runEnded beats s.time.ticks) (otherCh_ne c)
  by_cases hw : k.writes = 0
  · have heq : s.runEnded c k beats = s.setCh c ((s.ch c).runEnded beats s.time.ticks) := if_pos hw
    rw [heq]
    exact ⟨hch, hother, rfl, fun _ => rfl, fun h => absurd hw h, fun q => rfl⟩
  · have heq : s.runEnded c k beats = (s.setCh c ((s.ch c).runEnded beats s.time.ticks)).overwrite c k.cb (k.cb + 1)
        (64 * k.writes) k.pat k.seed := if_neg hw
    have hqu := State.overwrite_qu (s.setCh c ((s.ch c).runEnded beats s.time.ticks)) c k.cb (k.cb + 1) (64 * k.writes)
      k.pat k.seed
    rw [heq]
    refine ⟨hch, hother, rfl, fun h => absurd h hw, fun _ q i b hb => ?_, fun q => (hqu q).trans (by rw [hqu q]; rfl)⟩
    rw [hqu q]
    refine (List.getElem?_map ..).trans ?_
    rw [State.setCh_qu_frame, hb, Option.map_some, Queue.lay_one]
    rfl

/-- The last burst of a run has issued: its results are published, and what it wrote lies in its billet (R261). -/
theorem State.patternDone_of_issued {c : YId} {k : Run} (hrun : s.running = true) (href : s.time.refclk = true)
    (hnoRef : (s.ch c).noRef = false) (hk : (s.ch c).run = some k) (hall : k.issued = k.bursts) (mism : List (BitVec 10)) :
    s.patternDone c mism =
      s.runEnded c k (mism.take (8 * k.reads)) := by
  unfold State.patternDone
  dsimp only
  rw [hk]
  exact if_neg (by simp [s.cardingOn_of_running hrun href, hrun, hnoRef, hall])

end Sys2Proof.Machine

open Sys2Proof Sys2Proof.Machine

/-- Settles O40: the hold, its release and the pattern run as the commands' effects, and the run's end with its results. -/
theorem hostTraining : Obligations.HostTraining := by
  unfold Obligations.HostTraining
  intro p c s hreads
  refine ⟨fun h hhold => ?_, fun h hhold => ⟨fun hheld => ?_, fun hheld hfree => ?_, fun hheld hst hdrain => ?_, ?_⟩,
    fun h hhold => ?_, fun h => ⟨fun hwf hmay => ?_, fun hwf hmay hrange => ?_, fun hmay hrange => ?_⟩,
    fun mism clean k hrun href hnoRef hk => ⟨fun hall => ?_, fun hall => ?_⟩⟩
  · obtain ⟨u, hu, hexec⟩ := s.exec_hostTrainingHold hreads h
    rw [← hu.ch] at hhold
    rw [State.holdSet, if_neg (by simp [hhold])] at hexec
    refine ⟨_, hexec, ?_⟩
    obtain ⟨⟨_, _, rfl⟩, hcore⟩ := hu
    exact ⟨rfl, fun r => by rw [State.nextOrder_path_frame, State.setCh_path_frame]; exact hcore r⟩
  · obtain ⟨u, hu, hexec⟩ := s.exec_holdRelease hreads h
    rw [State.holdClear, hu.ch, if_neg (by simp [hhold]), if_pos hheld, hu.order] at hexec
    exact ⟨_, hexec, hu.hostFrame_setCh c _⟩
  · obtain ⟨u, hu, hexec⟩ := s.exec_holdRelease hreads h
    rw [State.holdClear, hu.ch, if_neg (by simp [hhold]), if_neg (by simp [hheld]), if_neg (by simpa [or_iff_not_imp_left] using hfree)] at hexec
    exact ⟨_, hexec, hu.hostFrame_setCh c _⟩
  · obtain ⟨u, hu, hexec⟩ := s.exec_holdRelease hreads h
    rw [State.holdClear, hu.ch, if_neg (by simp [hhold]), if_neg (by simp [hheld]), if_pos ⟨hst, hdrain⟩] at hexec
    obtain ⟨khold, kreq, kdrain, kst, kreqs, ktaps⟩ := (s.ch c).clearHold_of_draining hhold hheld hst hdrain u.time.ticks
    have hch := (State.chanChanged_ch (u.setCh c ((s.ch c).clearHold u.time.ticks)) c).trans (u.setCh_ch c _)
    refine ⟨_, hexec, ?_⟩
    rw [hch]
    refine ⟨khold, kreq, kdrain, kst, kreqs, ktaps, ?_⟩
    exact (hu.hostFrame_setCh c _).chanChanged
  · obtain ⟨u, hu, hexec⟩ := s.exec_hostTrainingHold hreads h
    rw [State.holdSet, hu.ch, if_pos hhold] at hexec
    exact ⟨_, hexec, hu.hostFrame_self⟩
  · obtain ⟨u, hu, hexec⟩ := s.exec_holdRelease hreads h
    rw [State.holdClear, hu.ch, if_pos (by simp [hhold])] at hexec
    exact ⟨_, hexec, hu.hostFrame_self⟩
  · obtain ⟨u, hu, hexec⟩ := s.exec_patternRun hreads h
    rw [State.patternRun, hu.ch, if_pos ((Chan.run_refused_iff _).mpr hmay)] at hexec
    exact ⟨_, hexec, hu.reject hwf _ _ _ _⟩
  · obtain ⟨u, hu, hexec⟩ := s.exec_patternRun hreads h
    rw [State.patternRun, hu.ch, if_neg (fun k => (Chan.run_refused_iff _).mp k hmay), if_pos hrange] at hexec
    exact ⟨_, hexec, hu.reject hwf _ _ _ _⟩
  · obtain ⟨u, hu, hexec⟩ := s.exec_patternRun hreads h
    rw [State.patternRun, hu.ch, if_neg (fun k => (Chan.run_refused_iff _).mp k hmay), if_neg (by omega), hu.order] at hexec
    refine ⟨_, (s.ch c).runAsked s.order, hexec, ?_, ?_⟩
    · obtain ⟨⟨_, _, rfl⟩, hcore⟩ := hu
      exact ⟨rfl, fun r => by rw [State.nextOrder_path_frame, State.setCh_path_frame]; exact hcore r⟩
    · have hbursts := fld_high (s.ch c).pgctlL
      unfold Chan.runAsked
      dsimp only
      rw [hbursts]
      exact ⟨rfl, rfl, rfl, rfl, rfl, rfl, rfl⟩
  · have hdone := s.patternDone_of_issued hrun href hnoRef hk hall (List.replicate clean 0#10 ++ mism)
    obtain ⟨hch, hother, hframe, hnone, hlaid, hqu⟩ := s.runEnded_spec c k ((List.replicate clean 0#10 ++ mism).take (8 * k.reads))
    rw [← hdone] at hch hother hframe hnone hlaid hqu
    refine ⟨_, rfl, ?_⟩
    rw [hch]
    exact ⟨rfl, (s.ch c).compared_pass _, (s.ch c).compared_err _, hother, hnone, hlaid, hqu, hframe⟩
  · refine congrArg Host.Outcome.next ?_
    unfold State.patternDone
    dsimp only
    rw [hk]
    exact if_pos (by simp [Run.bursts, hall])

end

section
/-!
O35. Training asked for, and frequency changes.

First what the test engine's bursts and the return into service leave of a channel; then TRAIN and FREQSW as their commits carry
them out, and the end of a frequency change.
-/

-- The theorems one after another: side by side they take more threads than the check allows.
set_option Elab.async false

namespace Sys2Proof.Machine

variable (s : State) (x : Chan)

/-! ### Bursts of the test engine -/

/-- `t` is `s` after bursts of the test engine on channel `c`: its rows, its tracker and its burst clocks differ, and events. -/
structure State.Tests (s t : State) (c : YId) : Prop where
  frame : t = { s with chans := t.chans, events := t.events }
  other : t.ch (otherCh c) = s.ch (otherCh c)
  own : t.ch c = { s.ch c with
    rows := (t.ch c).rows, hot := (t.ch c).hot, throttles := (t.ch c).throttles, hamHits := (t.ch c).hamHits
    bankAt := (t.ch c).bankAt, bankUse := (t.ch c).bankUse, gap := (t.ch c).gap, swept := (t.ch c).swept }

theorem State.tests_refl (c : YId) : s.Tests s c := ⟨rfl, rfl, rfl⟩

theorem State.Tests.trans {s t u : State} {c : YId} (h : s.Tests t c) (k : t.Tests u c) : s.Tests u c := by
  have hframe := congrArg (fun v : State => ({ v with chans := u.chans, events := u.events } : State)) h.frame
  have hown := congrArg (fun y : Chan => ({ y with
    rows := (u.ch c).rows, hot := (u.ch c).hot, throttles := (u.ch c).throttles, hamHits := (u.ch c).hamHits
    bankAt := (u.ch c).bankAt, bankUse := (u.ch c).bankUse, gap := (u.ch c).gap, swept := (u.ch c).swept } : Chan)) h.own
  exact ⟨k.frame.trans hframe, k.other.trans h.other, k.own.trans hown⟩

theorem State.playBurst_tests (c : YId) {b : Burst} (hreq : b.req = none) (hsrc : b.src ≠ .host) :
    s.Tests (s.playBurst c b) c := by
  obtain ⟨y, e, heq, hplays, -, -⟩ := s.playBurst_eq c b
  obtain ⟨hreqs, hrun, -⟩ := hplays.ofTest hreq hsrc
  have hch : (s.playBurst c b).ch c = y := (congrArg (fun t : State => t.ch c) heq).trans (s.setCh_ch c y)
  have hother : (s.playBurst c b).ch (otherCh c) = s.ch (otherCh c) :=
    (congrArg (fun t : State => t.ch (otherCh c)) heq).trans (s.setCh_ch_ne c (otherCh c) y (otherCh_ne c))
  refine ⟨?_, hother, ?_⟩
  · rw [heq]
    rfl
  · rw [hch]
    have hy := hplays.eq
    rw [hreqs, hrun] at hy
    exact hy.trans (by rw [hy])

theorem State.testBursts_tests (c : YId) : ∀ (n : Nat) (s : State), s.Tests (s.testBursts n c) c
  | 0, s => s.tests_refl c
  | n + 1, s => (s.playBurst_tests c (b := (s.ch c).testBurst) rfl nofun).trans (State.testBursts_tests c n _)

/-! ### The channel that serves again -/

theorem Chan.serve_eq (tick : Nat) : x.serve tick = { x with
    st := if x.reqs = [] then .selfref else .active
    rows := (x.serve tick).rows, gap := (x.serve tick).gap, owed := (x.serve tick).owed
    idleSince := (x.serve tick).idleSince } := by
  unfold Chan.serve
  split
  · next h =>
    rw [if_pos (List.isEmpty_iff.1 h)]
    rfl
  · next h => rw [if_neg (mt List.isEmpty_iff.2 h)]

/-! ### TRAIN (R271, R275, R276, R468) -/

theorem State.exec_train {p : Path} {c : YId} (h : s.mayWrite p (.chan c) 2) :
    ∃ u, s.pathFrame u ∧ exec (.train p c) s = .next (u.train c) := by
  obtain ⟨u, hu, hrow⟩ := s.rowCommit_of_mayWrite h [1]
  exact ⟨u, hu, congrArg Host.Outcome.next hrow⟩

theorem State.pathFrame.turn {s u : State} (h : s.pathFrame u) (c : YId) (o : Nat) : u.turn c o = s.turn c o := by
  obtain ⟨⟨_, _, rfl⟩, -⟩ := h
  rfl

theorem State.pathFrame.sweepsOn {s u : State} (h : s.pathFrame u) : u.sweepsOn = s.sweepsOn := by
  obtain ⟨⟨_, _, rfl⟩, -⟩ := h
  rfl

theorem State.pathFrame.dramFree {s u : State} (h : s.pathFrame u) : u.dramFree = s.dramFree := by
  obtain ⟨⟨_, _, rfl⟩, -⟩ := h
  rfl

/-- Where a sweep that a TRAIN asks for has to wait. -/
theorem State.noTrain {c : YId} (h : (s.ch c).freq ≠ none ∨ s.time.refclk = false ∨ s.boot.trained = false ∨
    s.turn c s.order = false) : ¬((s.ch c).freq.isNone && s.sweepsOn && s.turn c s.order) = true := by
  rcases h with h | h | h | h
  · simp [h]
  · simp [State.sweepsOn, State.cardingOn, h]
  · simp [State.sweepsOn, h]
  · simp [h]

/-- A path that may write Yn:YCMD holds DP:LOCKDRAM. -/
theorem State.dramFree_of_mayWrite {p : Path} {c : YId} (h : s.mayWrite p (.chan c) 2) : s.dramFree = false := by
  obtain ⟨-, hrefusal, -⟩ := h
  have hholds : s.holds p .dram = true := by
    by_contra hno
    have hlock : (Bank.chan c).lockOf 2 = some .dram := rfl
    unfold State.writeRefusal at hrefusal
    rw [hlock] at hrefusal
    simp [hno] at hrefusal
  have hcode := beq_iff_eq.1 hholds
  unfold State.dramFree
  rw [hcode]
  cases p <;> rfl

/-- The channel on which a sweep that a TRAIN asks for begins, out of service and at rest. -/
def Chan.trainBegun (x : Chan) (tick order : Nat) : Chan :=
  { x.startRefresh tick with
    st := .drain, prior := x.st, sweeping := some .train, swept := 0, sweptAge := order, begun := none
    rows := Vector.replicate 16 none, gap := Vector.replicate 2 none }

theorem Chan.toSweep_train (hst : x.st = .untrained ∨ x.st = .absent ∨ x.st = .failed) (hwait : x.waiting = none)
    (tick order : Nat) : x.toSweep .train tick order = x.trainBegun tick order := by
  have hasleep : x.awake = false := by
    unfold Chan.awake
    rcases hst with h | h | h <;> simp [h]
  have henter : x.enter .drain = { x with st := .drain, prior := x.st } := by
    unfold Chan.enter
    rcases hst with h | h | h <;> rw [h]
  unfold Chan.toSweep
  dsimp only
  rw [henter, hasleep, ← hwait]
  rfl

theorem State.train_of_idle {c : YId} (hst : (s.ch c).st = .untrained ∨ (s.ch c).st = .absent ∨ (s.ch c).st = .failed)
    (hsweep : (s.ch c).sweeping = none) (hwait : (s.ch c).waiting = none) (hhold : (s.ch c).holdReq = none) :
    s.train c = if (s.ch c).freq.isNone && s.sweepsOn && s.turn c s.order then (s.beginSweep c .train).nextOrder.chanChanged
      else (s.setCh c { s.ch c with waiting := some (some .train, s.order) }).nextOrder := by
  unfold State.train
  dsimp only
  rw [if_pos hst, if_neg (by simp [hsweep, hwait, hhold])]

theorem State.train_of_serving {c : YId} (hst : (s.ch c).st = .active ∨ (s.ch c).st = .selfref)
    (hpend : (s.ch c).pend = none) (hsweep : (s.ch c).sweeping = none) (hhold : (s.ch c).holdReq = none)
    (hheld : (s.ch c).heldHost = false) : s.train c =
      (s.setCh c { s.ch c with pend := some ⟨s.time.ticks, fld (s.ch c).defermax 0 8, s.order⟩ }).nextOrder := by
  unfold State.train State.trigger
  dsimp only
  rw [if_neg (by rcases hst with h | h <;> simp [h]), if_neg (by simp [hpend, hhold, hheld, hsweep])]
  split
  · rfl
  · rfl
  · next h => exact absurd hst (by simp [h])
  · next hactive hself _ => exact (hst.elim hactive hself).elim

/-! ### FREQSW (R244, R245, R247) -/

theorem State.exec_freqsw {p : Path} {c : YId} (h : s.mayWrite p (.chan c) 2) :
    ∃ u, s.pathFrame u ∧ exec (.freqsw p c) s = .next (u.freqsw ⟨p, 66, (Bank.chan c).sel⟩ c) := by
  obtain ⟨u, hu, hrow⟩ := s.rowCommit_of_mayWrite h [2]
  have hycmd : u.ycmd ⟨p, 66, (Bank.chan c).sel⟩ c 2 = u.freqsw ⟨p, 66, (Bank.chan c).sel⟩ c := by
    unfold State.ycmd
    rw [show fld 2 0 4 = 2 by decide]
    simp
  have heffect (v : Word) : u.effect ⟨p, 66, (Bank.chan c).sel⟩ (.chan c) 2 [v] = u.ycmd ⟨p, 66, (Bank.chan c).sel⟩ c v := rfl
  have hcommit : s.rowCommit p (.chan c) 2 [2] = u.freqsw ⟨p, 66, (Bank.chan c).sel⟩ c := hrow.trans ((heffect 2).trans hycmd)
  have hexec : exec (.freqsw p c) s = .next (s.rowCommit p (.chan c) 2 [2]) := rfl
  exact ⟨u, hu, hexec.trans (congrArg Host.Outcome.next hcommit)⟩

theorem State.pathFrame.freqswRefusal {s u : State} (h : s.pathFrame u) (c : YId) : u.freqswRefusal c = s.freqswRefusal c := by
  obtain ⟨⟨_, _, rfl⟩, -⟩ := h
  rfl

/-- The change of frequency that FREQSW asks for. -/
def Chan.freqAsked (x : Chan) (order : Nat) : Freq := ⟨!x.setB, x.st, order, false, Vector.replicate 2 false, 0⟩

/-- A channel in service goes through a change of frequency, and waits for a sweep where the target carries no training. -/
def Chan.toFreqsw (x : Chan) (order : Nat) : Chan :=
  { x with
    st := .freqsw, prior := x.st, freq := some (x.freqAsked order), swept := 0, sweptAge := order
    must := Vector.replicate 2 false, owed := #v[min 0 x.owed[0], min 0 x.owed[1]]
    waiting := if x.carry (!x.setB) then x.waiting else some (some .freqsw, order) }

theorem Chan.toFreqsw_of_enter (hst : x.st = .active ∨ x.st = .selfref) (order : Nat) :
    (let y := { x.enter .freqsw with
      freq := some (x.freqAsked order), swept := 0, sweptAge := order, must := Vector.replicate 2 false
      owed := vmap (min 0) x.owed }
    if y.carry (x.freqAsked order).toB then y else { y with waiting := some (some .freqsw, order) }) = x.toFreqsw order := by
  have henter : x.enter .freqsw = { x with st := .freqsw, prior := x.st } := by
    unfold Chan.enter
    rcases hst with h | h <;> rw [h]
  have howed : vmap (min 0) x.owed = (#v[min 0 x.owed[0], min 0 x.owed[1]] : Vector Int 2) := by
    ext i hi
    obtain rfl | rfl : i = 0 ∨ i = 1 := by omega
    · simp [vmap]
    · simp [vmap]
  rw [henter, howed]
  unfold Chan.toFreqsw
  dsimp only
  by_cases hcarry : x.carry (!x.setB) = true
  · rw [if_pos hcarry]
    exact if_pos hcarry
  · rw [if_neg hcarry]
    exact if_neg hcarry

section Accepted

variable {s : State} {acc : Access} {c : YId} (hagree : ∀ r ∈ setRefs c, s.agrees r) (hfatal : s.dp.fatal = false)
include hagree hfatal

theorem State.freqsw_of_refused {k : Nat} (hsome : s.freqswRefusal c = some k) :
    s.freqsw acc c = s.reject acc Ev.ycmdrej 0 k := by
  unfold State.freqsw
  rw [s.compareAll_of_agrees hagree]
  dsimp only
  rw [if_neg (by simp [hfatal]), hsome]

theorem State.freqsw_of_serving (hnone : s.freqswRefusal c = none)
    (hst : (s.ch c).st = .active ∨ (s.ch c).st = .selfref) :
    s.freqsw acc c = (s.setCh c ((s.ch c).toFreqsw s.order)).nextOrder.chanChanged := by
  unfold State.freqsw
  rw [s.compareAll_of_agrees hagree]
  dsimp only
  rw [if_neg (by simp [hfatal]), hnone]
  dsimp only
  rw [if_pos hst]
  exact congrArg (fun y : Chan => (s.setCh c y).nextOrder.chanChanged) ((s.ch c).toFreqsw_of_enter hst s.order)

theorem State.freqsw_of_idle (hnone : s.freqswRefusal c = none)
    (hst : ¬((s.ch c).st = .active ∨ (s.ch c).st = .selfref)) :
    s.freqsw acc c = s.setCh c { s.ch c with freq := some ((s.ch c).freqAsked s.order) } := by
  unfold State.freqsw
  rw [s.compareAll_of_agrees hagree]
  dsimp only
  rw [if_neg (by simp [hfatal]), hnone]
  dsimp only
  rw [if_neg hst]
  rfl

end Accepted

/-! ### The end of a frequency change (Table 8.7, R247) -/

theorem State.freqswComplete_of_updated {c : YId} {f : Freq} (hrun : s.running = true) (href : s.time.refclk = true)
    (hfreq : (s.ch c).freq = some f) (hsweep : (s.ch c).sweeping = none) (hquiet : (s.ch c).quiet = true)
    (hnoRef : (s.ch c).noRef = false) (hst : (s.ch c).st = .freqsw) (hcarry : (s.ch c).carry f.toB = true)
    (hupd : (s.ch c).updated f = true) :
    s.freqswComplete c = (let u := s.testBursts (readCheckBursts - (s.ch c).swept) c
      ((u.scratch c).setCh c (({ u.ch c with
        freq := none, rows := Vector.replicate 16 none
        pend := (s.ch c).pend.map fun (p : Pend) => if f.order < p.order then p.restart u.time.ticks else p } : Chan).serve
          u.time.ticks)).chanChanged) := by
  unfold State.freqswComplete
  dsimp only
  rw [hfreq]
  dsimp only
  rw [if_neg (by simp [s.cardingOn_of_running hrun href, hrun, hsweep, hquiet, hnoRef]), if_pos hst,
    if_pos (by simp [hcarry, hupd])]

theorem State.freqswComplete_of_idle {c : YId} {f : Freq} (hrun : s.running = true) (href : s.time.refclk = true)
    (hfreq : (s.ch c).freq = some f) (hsweep : (s.ch c).sweeping = none) (hquiet : (s.ch c).quiet = true)
    (hnoRef : (s.ch c).noRef = false) (hst : (s.ch c).st ≠ .freqsw) :
    s.freqswComplete c = s.setCh c { s.ch c with setB := f.toB, freq := none } := by
  unfold State.freqswComplete
  dsimp only
  rw [hfreq]
  dsimp only
  rw [if_neg (by simp [s.cardingOn_of_running hrun href, hrun, hsweep, hquiet, hnoRef]), if_neg hst]

/-- What a channel's return into service after bursts of the test engine leaves, with its patterns in Yn:YTREG. -/
theorem State.Tests.scratch_qu {s u : State} {c : YId} (h : s.Tests u c) (q : QId) : (u.scratch c).qu q = (s.scratch c).qu q := by
  have hqu : u.qu q = s.qu q := (congrArg (fun t : State => t.qu q) h.frame :)
  have hctr : u.freeCtr = s.freeCtr := (congrArg State.freeCtr h.frame :)
  have hbase : (u.ch c).tregBase = (s.ch c).tregBase := (congrArg Chan.tregBase h.own :)
  have hlen : (u.ch c).tregLen = (s.ch c).tregLen := (congrArg Chan.tregLen h.own :)
  unfold State.scratch
  dsimp only
  rw [State.overwrite_qu, State.overwrite_qu, hqu, hctr, hbase, hlen]

theorem State.resume_spec (c : YId) (y : Chan) :
    (s.setCh c y).chanChanged.ch c = y ∧ (s.setCh c y).chanChanged.ch (otherCh c) = s.ch (otherCh c) ∧
    (s.setCh c y).chanChanged.events = s.events ∧ (∀ q, ((s.setCh c y).chanChanged.qu q).bare = (s.qu q).bare) ∧
    (s.setCh c y).storeFrame (s.setCh c y).chanChanged 1 := by
  refine ⟨(State.chanChanged_ch _ c).trans (s.setCh_ch c y),
    (State.chanChanged_ch _ _).trans (s.setCh_ch_ne c _ y (otherCh_ne c)),
    (State.chanChanged_storeFrame _).events, fun q => ?_, State.chanChanged_storeFrame _⟩
  rw [State.chanChanged, State.scaleAll_qu_bare, State.nextOrder_qu_frame, State.setCh_qu_frame]

theorem State.Tests.resume {s u : State} {c : YId} (h : s.Tests u c) (y : Chan) (t : State)
    (ht : ((u.scratch c).setCh c y).chanChanged = t) :
    t.ch c = y ∧ t.ch (otherCh c) = s.ch (otherCh c) ∧ t.events = u.events ∧
    (∀ q, (t.qu q).bare = ((s.scratch c).qu q).bare) ∧
    t.bare = ({ s with
      chans := t.chans, queues := t.queues, events := t.events, freeCtr := s.freeCtr + 1, order := s.order + 1 } :
        State).bare := by
  have hframe : u.scratch c = { u with queues := (u.scratch c).queues, freeCtr := u.freeCtr + 1 } := rfl
  have hscratch := h.scratch_qu
  have hother : (u.scratch c).ch (otherCh c) = s.ch (otherCh c) := h.other
  have hevents : (u.scratch c).events = u.events := rfl
  generalize u.scratch c = v at hframe hscratch hother hevents ht
  have hto := v.resume_spec c y
  rw [ht] at hto
  obtain ⟨hch, kother, kevents, hqu, hstore⟩ := hto
  refine ⟨hch, kother.trans hother, kevents.trans hevents, fun q => (hqu q).trans (congrArg Queue.bare (hscratch q)), ?_⟩
  have hevents' := kevents.trans hevents
  have hlift := congrArg (fun w : State => ({ w with
    chans := t.chans, queues := t.queues, order := w.order + 1 } : State)) hframe
  have hlift' := congrArg (fun w : State => ({ w with
    chans := t.chans, queues := t.queues, freeCtr := w.freeCtr + 1, order := w.order + 1 } : State)) h.frame
  dsimp only at hlift hlift'
  rw [← hevents'] at hlift hlift'
  have hto : t = { v with queues := t.queues, chans := t.chans, order := v.order + 1 } := hstore
  exact congrArg State.bare (hto.trans (hlift.trans hlift'))

end Sys2Proof.Machine

open Sys2Proof Sys2Proof.Machine

/-- Settles O35: TRAIN and FREQSW as their commits carry them out, and the end of a frequency change. -/
theorem trainAndFrequency : Obligations.TrainAndFrequency := by
  unfold Obligations.TrainAndFrequency
  refine ⟨fun p c s h hsweep hhold => ⟨fun hst hwait => ⟨fun hfreq href htrained hturn => ?_, fun hnot => ?_⟩,
    fun hst hpend hheld => ?_⟩, fun p c s => ⟨fun h hagree hnone => ?_, fun k h hagree hwf hsome => ?_,
    fun f hrun href hreads hfreq hsweep hquiet hnoRef => ⟨fun hst hcarry hlocked hupd hupd' => ?_, fun hst => ?_⟩⟩⟩
  · obtain ⟨u, hu, hexec⟩ := s.exec_train h
    have hon := s.sweepsOn_of_running (s.running_of_hostWrites h.1) href htrained
    have hheld := s.dramFree_of_mayWrite h
    rw [u.train_of_idle (by rwa [hu.ch]) (by rwa [hu.ch]) (by rwa [hu.ch]) (by rwa [hu.ch]), hu.ch, hu.order, hu.turn,
      hu.sweepsOn, if_pos (by simp [hfreq, hturn, hon])] at hexec
    have hlock : u.cardingLock = u := u.cardingLock_of_held (hu.dramFree ▸ hheld)
    rw [u.beginSweep_eq, hlock, State.modCh, hu.ch, hu.time, hu.order, (s.ch c).toSweep_train hst hwait] at hexec
    have hframe := (hu.hostFrame_setCh c ((s.ch c).trainBegun s.time.ticks s.order)).nextOrder.chanChanged
    have hch := s.setCh_ch c ((s.ch c).trainBegun s.time.ticks s.order)
    have hother := s.setCh_ch_ne c (otherCh c) ((s.ch c).trainBegun s.time.ticks s.order) (otherCh_ne c)
    generalize (u.setCh c ((s.ch c).trainBegun s.time.ticks s.order)).nextOrder.chanChanged = t at hexec hframe
    have hchans : t.chans = (s.setCh c ((s.ch c).trainBegun s.time.ticks s.order)).chans := (congrArg State.chans hframe.1 :)
    have hto (d : YId) : t.ch d = (s.setCh c ((s.ch c).trainBegun s.time.ticks s.order)).ch d :=
      congrArg (fun v : Vector Chan 2 => v[d.val]) hchans
    refine ⟨t, hexec, (hto c).trans hch, (hto _).trans hother, ?_⟩
    rw [hchans]
    exact hframe
  · obtain ⟨u, hu, hexec⟩ := s.exec_train h
    rw [u.train_of_idle (by rwa [hu.ch]) (by rwa [hu.ch]) (by rwa [hu.ch]) (by rwa [hu.ch]), hu.ch, hu.order, hu.turn,
      hu.sweepsOn, if_neg (s.noTrain hnot)] at hexec
    exact ⟨_, hexec, (hu.hostFrame_setCh c _).nextOrder⟩
  · obtain ⟨u, hu, hexec⟩ := s.exec_train h
    rw [u.train_of_serving (by rwa [hu.ch]) (by rwa [hu.ch]) (by rwa [hu.ch]) (by rwa [hu.ch]) (by rwa [hu.ch]), hu.ch,
      hu.order, hu.time] at hexec
    exact ⟨_, hexec, (hu.hostFrame_setCh c _).nextOrder⟩
  · obtain ⟨u, hu, hexec⟩ := s.exec_freqsw h
    have hagree' : ∀ r ∈ setRefs c, u.agrees r := fun r hr => hu.agrees (hagree r hr)
    have hfatal : u.dp.fatal = false := hu.dp ▸ h.1.2
    refine ⟨_, hexec, fun hst => ?_, fun hactive hself => ?_⟩
    · rw [State.freqsw_of_serving hagree' hfatal (hu.freqswRefusal c ▸ hnone) (by rwa [hu.ch]), hu.ch, hu.order]
      exact (hu.hostFrame_setCh c _).nextOrder.chanChanged
    · rw [State.freqsw_of_idle hagree' hfatal (hu.freqswRefusal c ▸ hnone) (by simp [hu.ch, hactive, hself]), hu.ch, hu.order]
      exact hu.hostFrame_setCh c _
  · obtain ⟨u, hu, hexec⟩ := s.exec_freqsw h
    rw [State.freqsw_of_refused (fun r hr => hu.agrees (hagree r hr)) (hu.dp ▸ h.1.2) (hu.freqswRefusal c ▸ hsome)] at hexec
    exact ⟨_, hexec, hu.reject hwf _ _ _ _⟩
  · have hchecked : (s.ch c).updated f = true := by
      unfold Chan.updated
      rcases hupd' with h | h <;> simp [hlocked, hupd, h]
    have hdone := s.freqswComplete_of_updated hrun href hfreq hsweep hquiet hnoRef hst hcarry hchecked
    have htests := State.testBursts_tests c (readCheckBursts - (s.ch c).swept) s
    have hnone : 10 ≤ (s.ch c).swept → s.testBursts (readCheckBursts - (s.ch c).swept) c = s := fun h => by
      rw [readCheckBursts, Nat.sub_eq_zero_of_le h]
      rfl
    dsimp only at hdone
    generalize s.testBursts (readCheckBursts - (s.ch c).swept) c = u at hdone htests hnone
    obtain ⟨hch, hother, hevents, hqu, hbare⟩ := htests.resume _ _ hdone.symm
    have hexec : exec (.freqswComplete c) s = .next (s.freqswComplete c) := congrArg Host.Outcome.next
      (State.answerReads_of_noReads _
        (State.noReads_congr (congrArg State.pathA hbare :) (congrArg State.pathB hbare :) hreads))
    refine ⟨_, hexec, ?_⟩
    rw [Chan.serve_eq] at hch
    have hown := htests.own
    generalize s.freqswComplete c = t at hch hother hevents hqu hbare
    refine ⟨(congrArg Chan.freq hch :), ?_, ?_, ?_, ?_, hother, hqu, fun h => ?_, ?_⟩
    · exact (congrArg Chan.setB hch :).trans (congrArg Chan.setB hown :)
    · refine (congrArg Chan.st hch :).trans ?_
      rw [(congrArg Chan.reqs hown :)]
    · exact (congrArg Chan.reqs hch :).trans (congrArg Chan.reqs hown :)
    · exact (congrArg Chan.taps hch :).trans (congrArg Chan.taps hown :)
    · rw [hnone h] at hevents hch
      exact ⟨hevents, (congrArg Chan.hot hch :)⟩
    · exact hbare
  · have hdone := s.freqswComplete_of_idle hrun href hfreq hsweep hquiet hnoRef hst
    exact congrArg Host.Outcome.next ((congrArg State.answerReads hdone).trans
      (State.answerReads_of_noReads _ (State.setCh_noReads hreads c _)))

end

section
/-!
O38. The end of a sweep.

First the outcome on the channel itself, passing or failing; then the refills that a channel reset asks for again; then the whole
end of a sweep, in service, after a final check and at start-up.
-/

-- The theorems one after another: side by side they take more threads than the check allows.
set_option Elab.async false

namespace Sys2Proof.Machine

variable (s : State) (x : Chan)

/-! ### The step in which a sweep fails (Table 9.3) -/

theorem laneFail_le (m : LaneMeas) : laneFail m ≤ 7 := by
  unfold laneFail
  repeat' split
  all_goals decide

theorem foldl_least_le {n : Nat} (l : List Nat) (hl : ∀ a ∈ l, a ≤ n) (acc : Nat) (hacc : acc ≤ n) :
    l.foldl (fun acc n => if acc = 0 then n else min acc n) acc ≤ n := by
  induction l generalizing acc with
  | nil => exact hacc
  | cons a l ih =>
    have ha := hl a (by simp)
    refine ih (fun b hb => hl b (by simp [hb])) _ ?_
    dsimp only
    split
    · exact ha
    · exact (Nat.min_le_left _ _).trans hacc

theorem sweepStep_le (m : SweepData) (two : Bool) : sweepStep m two ≤ 7 := by
  refine foldl_least_le _ (fun a ha => ?_) 0 (by decide)
  obtain ⟨ha, -⟩ := List.mem_filter.1 ha
  rcases List.mem_append.1 ha with ha | ha
  · obtain ⟨k, -, rfl⟩ := List.mem_map.1 ha
    exact laneFail_le _
  · split at ha
    · obtain ⟨k, -, rfl⟩ := List.mem_map.1 ha
      exact laneFail_le _
    · simp at ha

/-! ### The outcome on the channel (R66, R256, R258, R259, R478) -/

theorem Chan.setCarry_eq (b v : Bool) :
    x.setCarry b v = { x with carryA := if b then x.carryA else v, carryB := if b then v else x.carryB } := by
  cases b <;> rfl

theorem Chan.carry_of_setCarry {x y : Chan} {b v : Bool} (hA : y.carryA = if b then x.carryA else v)
    (hB : y.carryB = if b then v else x.carryB) : y.carry b = v ∧ y.carry (!b) = x.carry (!b) := by
  unfold Chan.carry
  rw [hA, hB]
  cases b <;> exact ⟨rfl, rfl⟩

/-- A channel whose sweep has ended in step `f`, 0 for none, before what the outcome brings. -/
def Chan.sweptTo (x : Chan) (f : Nat) : Chan :=
  { x with sweeping := none, heldHost := false, drainHold := false, freq := none, fstep := at' f 0 }

/-- A channel that a sweep has trained. -/
def Chan.asTrained (x : Chan) (temp : Word) : Chan :=
  { x.setCarry x.setB true with lfail0 := 0, lfail1 := 0, ttrain := temp, noRef := false, failed := false }

theorem Chan.sweepResult_of_pass {k : SweepFor} {m : SweepData} (hk : k ≠ .final) (h : sweepStep m x.ranks = 0)
    (temp : Word) (tick : Nat) :
    x.sweepResult k m temp tick = ((((x.sweptTo 0).takeTaps m).asTrained temp).serve tick, true) := by
  unfold Chan.sweepResult
  simp only [if_neg hk, h]
  rfl

/-- A channel whose sweep has failed in step `f`, with the lanes that fail there. -/
def Chan.asFailed (x : Chan) (l0 l1 : Word) : Chan :=
  { x.setCarry x.setB false with
    lfail0 := l0, lfail1 := l1, pend := none, st := if l0 = 0x3FF then .absent else .failed
    failed := x.failed || l0 != 0x3FF }

theorem Chan.sweepResult_of_fail {k : SweepFor} {m : SweepData} {f : Nat} (hk : k ≠ .final) (h : sweepStep m x.ranks = f)
    (hf : f ≠ 0) (temp : Word) (tick : Nat) :
    x.sweepResult k m temp tick =
      ((x.sweptTo f).asFailed (lfailOf m.rank0 f) (if x.ranks then lfailOf m.rank1 f else 0), false) := by
  unfold Chan.sweepResult
  simp only [if_neg hk, h, if_neg hf]
  rfl

/-- The final check passes on every lane of the channel's ranks. -/
def Chan.finalPass (x : Chan) (m : SweepData) : Bool :=
  (List.range 10).all (fun i => (laneOf m.rank0 i).final) &&
    (!x.ranks || (List.range 10).all (fun i => (laneOf m.rank1 i).final))

/-- The lanes of a rank that fail the final check. -/
def finalFails (l : List LaneMeas) : Word :=
  (List.range 10).foldl (fun acc i => acc ||| flagAt (!(laneOf l i).final) i) 0

theorem Chan.sweepResult_final (m : SweepData) (temp : Word) (tick : Nat) : x.sweepResult .final m temp tick =
    if x.finalPass m then (((x.sweptTo 0).markTrained.asTrained temp).serve tick, true)
    else ((x.sweptTo 7).asFailed (finalFails m.rank0) (if x.ranks then finalFails m.rank1 else 0), false) := by
  unfold Chan.sweepResult
  cases hpass : x.finalPass m with
  | true =>
    unfold Chan.finalPass at hpass
    simp only [hpass, if_true]
    rfl
  | false =>
    unfold Chan.finalPass at hpass
    simp only [hpass, if_true, Bool.false_eq_true, if_false]
    rfl

/-! ### Refills asked for again (Table 13.3, step 6) -/

/-- `t` is `s` after refills handed over to channel `c`: the queues and the order of stamps differ, the channel's requests have
grown by refills, and a channel in self-refresh that may wake has woken. -/
structure State.Asks (s t : State) (c : YId) : Prop where
  frame : t = { s with queues := t.queues, chans := t.chans, order := t.order }
  other : t.ch (otherCh c) = s.ch (otherCh c)
  own : t.ch c = { s.ch c with
    st := (t.ch c).st, owed := (t.ch c).owed, gap := (t.ch c).gap, refAt := (t.ch c).refAt, trackAt := (t.ch c).trackAt
    idleSince := (t.ch c).idleSince, reqs := (t.ch c).reqs }
  reqs : ∃ l, (t.ch c).reqs = (s.ch c).reqs ++ l ∧ ∀ r ∈ l, r.kind = .refill
  st : (s.ch c).noRef = false → (s.ch c).sweeping = none → (s.ch c).waiting = none →
    (s.ch c).st = (if (s.ch c).reqs = [] then .selfref else .active) →
    (t.ch c).st = (if (t.ch c).reqs = [] then .selfref else .active)

theorem State.asks_refl (c : YId) : s.Asks s c := ⟨rfl, rfl, rfl, ⟨[], by simp⟩, fun _ _ _ h => h⟩

theorem State.Asks.trans {s t u : State} {c : YId} (h : s.Asks t c) (k : t.Asks u c) : s.Asks u c := by
  have hframe := congrArg (fun v : State => ({ v with queues := u.queues, chans := u.chans, order := u.order } : State)) h.frame
  have hown := congrArg (fun y : Chan => ({ y with
    st := (u.ch c).st, owed := (u.ch c).owed, gap := (u.ch c).gap, refAt := (u.ch c).refAt, trackAt := (u.ch c).trackAt
    idleSince := (u.ch c).idleSince, reqs := (u.ch c).reqs } : Chan)) h.own
  obtain ⟨l, hl, hrefill⟩ := h.reqs
  obtain ⟨l', kl, krefill⟩ := k.reqs
  refine ⟨k.frame.trans hframe, k.other.trans h.other, k.own.trans hown, ⟨l ++ l', by rw [kl, hl, List.append_assoc], ?_⟩, ?_⟩
  · intro r hr
    rcases List.mem_append.1 hr with hr | hr
    · exact hrefill r hr
    · exact krefill r hr
  · intro hnoRef hsweep hwait hst
    exact k.st ((congrArg Chan.noRef h.own).trans hnoRef) ((congrArg Chan.sweeping h.own).trans hsweep)
      ((congrArg Chan.waiting h.own).trans hwait) (h.st hnoRef hsweep hwait hst)

/-- What a request wakes of a channel. -/
theorem Chan.wake_eq (tick : Nat) : x.wake tick = { x with
    st := (x.wake tick).st, owed := (x.wake tick).owed, gap := (x.wake tick).gap, refAt := (x.wake tick).refAt
    trackAt := (x.wake tick).trackAt, idleSince := (x.wake tick).idleSince } := by
  unfold Chan.wake
  split <;> rfl

theorem Chan.wake_st (hnoRef : x.noRef = false) (hsweep : x.sweeping = none) (hwait : x.waiting = none)
    (hst : x.st = .selfref ∨ x.st = .active) (tick : Nat) : (x.wake tick).st = .active := by
  unfold Chan.wake
  rcases hst with h | h
  · rw [if_pos ⟨h, by simp [hnoRef], hsweep, hwait⟩]
    rfl
  · rw [if_neg (by simp [h])]
    exact h

theorem State.refillRequest_frame (q : QId) : s.refillRequest q =
    { s with
      queues := (s.refillRequest q).queues, chans := (s.refillRequest q).chans, order := (s.refillRequest q).order } := by
  unfold State.refillRequest
  split
  · rfl
  · split <;> rfl

/-- A refill handed over to channel `c`. -/
theorem State.refillRequest_asks {q : QId} {num cb : Nat} {c : YId} (hrun : s.running = true)
    (hready : s.refillReady q = some (num, c, cb)) (hturn : s.refillTurn q c = true) :
    s.Asks (s.refillRequest q) c ∧ ((s.refillRequest q).ch c).reqs.length = (s.ch c).reqs.length + 1 := by
  have hserved := s.handOver_served .refill q num c cb
    { (s.qu q).setBillet num fun b => { b with frame := true, refill := some 0 } with refillSince := none } rfl
  rw [← s.refillRequest_of_turn hrun hready hturn] at hserved
  have hch := State.served_ch hserved
  have hother := State.served_other hserved
  have hframe := s.refillRequest_frame q
  generalize s.refillRequest q = t at hch hother hframe ⊢
  have hwake := (s.ch c).wake_eq s.time.ticks
  refine ⟨⟨hframe, hother, ?_, ⟨[s.request .refill q num cb], congrArg Chan.reqs hch, by simp [State.request]⟩, ?_⟩, ?_⟩
  · rw [hch]
    exact (congrArg (fun y : Chan => { y with reqs := (s.ch c).reqs ++ [s.request .refill q num cb] }) hwake :)
  · intro hnoRef hsweep hwait hst
    rw [hch, if_neg (by simp)]
    refine (s.ch c).wake_st hnoRef hsweep hwait ?_ s.time.ticks
    rw [hst]
    split
    · exact .inl rfl
    · exact .inr rfl
  · rw [hch]
    simp

theorem State.Asks.running {s t : State} {c : YId} (h : s.Asks t c) : t.running = s.running :=
  (congrArg State.running h.frame :)

/-- Queue `q` has a refill that channel `c` may take. -/
def State.refillsOn (s : State) (q : QId) (c : YId) : Bool := (s.refillReady q).any fun t => t.2.1 == c

theorem State.refillsOn_iff {q : QId} {c : YId} :
    s.refillsOn q c = true ↔ ∃ num cb, s.refillReady q = some (num, c, cb) := by
  unfold State.refillsOn
  cases hready : s.refillReady q with
  | none => simp
  | some t =>
    obtain ⟨num, d, cb⟩ := t
    simp

/-- Of the queues with a refill for a channel, one goes before all others. -/
theorem State.refillTurn_of_refillsOn {q : QId} {c : YId} (h : s.refillsOn q c = true) :
    ∃ k, s.refillsOn k c = true ∧ s.refillTurn k c = true := by
  obtain ⟨k, hk, hleast⟩ := (Finset.univ.filter fun k => s.refillsOn k c = true).exists_min_image
    (fun k => toLex (sinceAt (s.qu k).refillSince, k)) ⟨q, by simpa using h⟩
  refine ⟨k, by simpa using hk, List.all_eq_true.2 fun j _ => ?_⟩
  cases hj : s.refillsOn j c with
  | false =>
    unfold State.refillsOn at hj
    simp [hj]
  | true =>
    have hle := hleast j (by simpa using hj)
    have hbefore : goesBefore (s.qu k).refillSince k (s.qu j).refillSince j = false := by
      rw [← Bool.not_eq_true, goesBefore_iff]
      intro hlt
      exact absurd hle (not_le.2 (Prod.Lex.toLex_lt_toLex.2 hlt))
    simp [hbefore]

theorem State.reask_succ (n : Nat) (c : YId) :
    (∃ q num cb, s.refillReady q = some (num, c, cb) ∧ s.refillTurn q c = true ∧
      s.reask (n + 1) c = (s.refillRequest q).reask n c) ∨
    ((∀ q, s.refillsOn q c = false) ∧ s.reask (n + 1) c = s) := by
  rw [State.reask]
  split
  · next q hq =>
    have hfound := List.find?_some hq
    obtain ⟨hon, hturn⟩ := Bool.and_eq_true_iff.1 hfound
    obtain ⟨num, cb, hready⟩ := s.refillsOn_iff.1 hon
    exact .inl ⟨q, num, cb, hready, hturn, rfl⟩
  · next hnone =>
    refine .inr ⟨fun q => ?_, rfl⟩
    by_contra hon
    obtain ⟨k, hk, hturn⟩ := s.refillTurn_of_refillsOn (Bool.not_eq_false _ ▸ hon)
    exact List.find?_eq_none.1 hnone k (mem_allQ k) (Bool.and_eq_true_iff.2 ⟨hk, hturn⟩)

theorem State.reask_asks (c : YId) (n : Nat) : s.Asks (s.reask n c) c := by
  induction n generalizing s with
  | zero => exact s.asks_refl c
  | succ n ih =>
    rcases s.reask_succ n c with ⟨q, num, cb, hready, hturn, heq⟩ | ⟨-, heq⟩
    · rw [heq]
      cases hrun : s.running with
      | true => exact (s.refillRequest_asks hrun hready hturn).1.trans (ih _)
      | false =>
        rw [s.refillRequest_of_not (.inl hrun)]
        exact ih s
    · rw [heq]
      exact s.asks_refl c

theorem State.refillsOn_of_full {c : YId} (h : 8 ≤ (s.ch c).reqs.length) (q : QId) : s.refillsOn q c = false := by
  by_contra hon
  obtain ⟨num, cb, hready⟩ := s.refillsOn_iff.1 (Bool.not_eq_false _ ▸ hon)
  have hfree := (Option.filter_eq_some_iff.1 hready).2
  simp [Chan.full, h] at hfree

/-- As many requests as a channel may hold in flight leave it none to take. -/
theorem State.reask_none (hrun : s.running = true) (c : YId) (n : Nat) (hn : 8 ≤ (s.ch c).reqs.length + n) (q : QId) :
    (s.reask n c).refillsOn q c = false := by
  induction n generalizing s with
  | zero => exact s.refillsOn_of_full hn q
  | succ n ih =>
    rcases s.reask_succ n c with ⟨k, num, cb, hready, hturn, heq⟩ | ⟨hnone, heq⟩
    · obtain ⟨hasks, hlen⟩ := s.refillRequest_asks hrun hready hturn
      rw [heq]
      exact ih _ (hasks.running.trans hrun) (by omega)
    · rw [heq]
      exact hnone q

theorem State.refillsOn_congr {s t : State} (h : t.bare = s.bare) (q : QId) (c : YId) : t.refillsOn q c = s.refillsOn q c := by
  have hwant : t.refillWant q = s.refillWant q := by rw [← t.refillWant_bare, h, s.refillWant_bare]
  have hch : t.ch = s.ch := (congrArg State.ch h :)
  unfold State.refillsOn State.refillReady
  rw [hwant, hch]

/-! ### The sweep's bursts, patterns and outcome -/

/-- `t` is `s` as a sweep on channel `c` leaves it: the channel, the queues' flags, refills and patterns, events, DP:LOCKDRAM
and the counters of stamps and free values differ. -/
def State.sweepFrame (s t : State) (c : YId) : Prop :=
  t.ch (otherCh c) = s.ch (otherCh c) ∧ t = { s with
    chans := t.chans, queues := t.queues, events := t.events, dp := { s.dp with lockDram := t.dp.lockDram }
    freeCtr := t.freeCtr, order := t.order }

theorem State.sweepFrame.trans {s t u : State} {c : YId} (h : s.sweepFrame t c) (k : t.sweepFrame u c) : s.sweepFrame u c := by
  obtain ⟨hother, hframe⟩ := h
  obtain ⟨kother, kframe⟩ := k
  have hlift := congrArg (fun v : State => ({ v with
    chans := u.chans, queues := u.queues, events := u.events, dp := { v.dp with lockDram := u.dp.lockDram }
    freeCtr := u.freeCtr, order := u.order } : State)) hframe
  exact ⟨kother.trans hother, Eq.trans kframe hlift⟩

theorem State.sweepFrame_refl (c : YId) : s.sweepFrame s c := ⟨rfl, rfl⟩

/-- The fields in which a sweep's state differs, read from one that differs in some of them. -/
theorem State.sweepFrame_of {s t u : State} {c : YId} (hother : t.ch (otherCh c) = s.ch (otherCh c)) (ht : t = u)
    (hu : u = { s with
      chans := u.chans, queues := u.queues, events := u.events, dp := { s.dp with lockDram := u.dp.lockDram }
      freeCtr := u.freeCtr, order := u.order }) : s.sweepFrame t c := by
  unfold State.sweepFrame
  refine ⟨hother, ?_⟩
  rw [ht]
  exact hu

theorem State.Tests.sweepFrame {s t : State} {c : YId} (h : s.Tests t c) : s.sweepFrame t c :=
  State.sweepFrame_of h.other h.frame rfl

theorem State.Asks.sweepFrame {s t : State} {c : YId} (h : s.Asks t c) : s.sweepFrame t c :=
  State.sweepFrame_of h.other h.frame rfl

theorem State.storeFrame.sweepFrame {s t : State} {c : YId} {n : Nat} (h : s.storeFrame t n)
    (hother : t.ch (otherCh c) = s.ch (otherCh c)) : s.sweepFrame t c :=
  State.sweepFrame_of (u := { s with queues := t.queues, chans := t.chans, order := s.order + n }) hother h rfl

theorem State.chanChanged_sweepFrame (c : YId) : s.sweepFrame s.chanChanged c :=
  s.chanChanged_storeFrame.sweepFrame (s.chanChanged_ch _)

theorem State.setCh_sweepFrame (c : YId) (y : Chan) : s.sweepFrame (s.setCh c y) c :=
  ⟨s.setCh_ch_ne c _ y (otherCh_ne c), rfl⟩

theorem State.scratch_sweepFrame (c : YId) : s.sweepFrame (s.scratch c) c := ⟨rfl, rfl⟩

theorem State.count_sweepFrame (c : YId) (code inst : Nat) : s.sweepFrame (s.count code inst) c :=
  State.sweepFrame_of (s.count_ch _ _ _) (s.countN_frame code inst 1) rfl

theorem State.cardingFree_sweepFrame (c : YId) : s.sweepFrame s.cardingFree c :=
  State.sweepFrame_of ((congrArg (fun t : State => t.ch (otherCh c)) s.cardingFree_eq :)) s.cardingFree_eq rfl

/-- A condition of the model on top of a frame. -/
theorem State.sweepFrame.ite {s t u : State} {c : YId} {p : Prop} [Decidable p] (h : s.sweepFrame t c) (k : s.sweepFrame u c) :
    s.sweepFrame (if p then t else u) c := by
  split
  · exact h
  · exact k

/-- The state after the bursts of a sweep with result `y`: it has issued them where it has come to its write training. -/
def State.sweepTested (s : State) (c : YId) (y : Chan) : State :=
  if y.wrote then s.testBursts ((s.ch c).testRound - (s.ch c).swept) c else s

theorem State.sweepTested_tests (c : YId) (y : Chan) : s.Tests (s.sweepTested c y) c := by
  unfold State.sweepTested
  split
  · exact State.testBursts_tests c _ s
  · exact s.tests_refl c

/-- A channel with result `y`, its tracker as the bursts have left it. -/
def Chan.sweptAs (u y : Chan) : Chan := { y with hot := u.hot, throttles := u.throttles, hamHits := u.hamHits }

/-- The channel after its sweep with result `y`, and the state with the sweep's bursts and patterns. -/
def State.sweepSet (s : State) (c : YId) (y : Chan) (pass : Bool) : State :=
  let u := s.sweepTested c y
  let v := u.setCh c ((u.ch c).sweptAs y)
  let v := if y.wrote then v.scratch c else v
  if pass then v.count (Ev.ytrain c) 0 else v

/-- What is left of the lock and of what follows a channel's state, after all else of a sweep's end. -/
def State.sweepRest (s : State) : State :=
  (if s.boot.stage = 8 ∨ s.boot.halted then s.cardingFree else s).chanChanged

/-- What follows the outcome: at start-up the next sweep or step 7, after a channel reset the refills again, then the lock. -/
def State.sweepOver (s : State) (c : YId) (k : SweepFor) (pass : Bool) : State :=
  let v := if k ≠ .boot then s else if c = 0 then s.beginSweep 1 .boot else s.cardingOver
  (if pass && (k == .keep || k == .drop) then v.chanChanged.reask 8 c else v).sweepRest

theorem State.sweepDone_eq {c : YId} {k : SweepFor} {m : SweepData} {y : Chan} {pass : Bool} (hk : (s.ch c).sweeping = some k)
    (hon : s.cardingOn = true) (hresult : (s.ch c).sweepResult k m s.dp.temp s.time.ticks = (y, pass)) :
    s.sweepDone c m = (s.sweepSet c y pass).sweepOver c k pass := by
  unfold State.sweepDone
  rw [hk]
  dsimp only
  rw [if_neg (by simp [hon]), hresult]
  rfl

theorem State.scratch_qu_congr {s t : State} {c : YId} {q : QId} (hqu : t.qu q = s.qu q) (hctr : t.freeCtr = s.freeCtr)
    (hbase : (t.ch c).tregBase = (s.ch c).tregBase) (hlen : (t.ch c).tregLen = (s.ch c).tregLen) :
    (t.scratch c).qu q = (s.scratch c).qu q := by
  unfold State.scratch
  dsimp only
  rw [State.overwrite_qu, State.overwrite_qu, hqu, hctr, hbase, hlen]

theorem State.sweepSet_spec {c : YId} {y : Chan} (pass : Bool) (hbase : y.tregBase = (s.ch c).tregBase)
    (hlen : y.tregLen = (s.ch c).tregLen) :
    (s.sweepSet c y pass).ch c = ((s.sweepTested c y).ch c).sweptAs y ∧
    s.sweepFrame (s.sweepSet c y pass) c ∧
    (s.sweepSet c y pass).events =
      (if pass then ((s.sweepTested c y).countN (Ev.ytrain c) 0 1).events else (s.sweepTested c y).events) ∧
    ∀ q, (s.sweepSet c y pass).qu q = if y.wrote then (s.scratch c).qu q else s.qu q := by
  unfold State.sweepSet
  dsimp only
  have htests := s.sweepTested_tests c y
  generalize s.sweepTested c y = u at htests ⊢
  have hch := u.setCh_ch c ((u.ch c).sweptAs y)
  have hframe := htests.sweepFrame.trans (u.setCh_sweepFrame c ((u.ch c).sweptAs y))
  have hqu (q : QId) : (u.setCh c ((u.ch c).sweptAs y)).qu q = s.qu q := (congrArg (fun t : State => t.qu q) htests.frame :)
  have hctr : (u.setCh c ((u.ch c).sweptAs y)).freeCtr = s.freeCtr := (congrArg State.freeCtr htests.frame :)
  have hevents : (u.setCh c ((u.ch c).sweptAs y)).events = u.events := rfl
  generalize u.setCh c ((u.ch c).sweptAs y) = v at hch hframe hqu hctr hevents
  have hscratch (q : QId) : (if y.wrote then v.scratch c else v).qu q = if y.wrote then (s.scratch c).qu q else s.qu q := by
    split
    · exact State.scratch_qu_congr (hqu q) hctr ((congrArg Chan.tregBase hch).trans hbase) ((congrArg Chan.tregLen hch).trans hlen)
    · exact hqu q
  have hframe' := hframe.trans (State.sweepFrame.ite (p := y.wrote = true) (v.scratch_sweepFrame c) (v.sweepFrame_refl c))
  have hch' : (if y.wrote then v.scratch c else v).ch c = (u.ch c).sweptAs y := by
    split
    · exact hch
    · exact hch
  have hevents' : (if y.wrote then v.scratch c else v).events = u.events := by
    split
    · exact hevents
    · exact hevents
  generalize (if y.wrote then v.scratch c else v) = w at hscratch hframe' hch' hevents'
  cases pass with
  | false => exact ⟨hch', hframe', hevents', hscratch⟩
  | true =>
    simp only [if_true]
    refine ⟨(w.count_ch _ _ _).trans hch', hframe'.trans (w.count_sweepFrame c _ _),
      State.countN_events_congr hevents' _ _ _, fun q => ?_⟩
    have hq : (w.count (Ev.ytrain c) 0).qu q = w.qu q := (congrArg (fun t : State => t.qu q) (w.countN_frame _ _ _) :)
    exact hq.trans (hscratch q)

theorem State.sweepRest_spec (c : YId) :
    (∀ d, s.sweepRest.ch d = s.ch d) ∧ s.sweepFrame s.sweepRest c ∧ s.sweepRest.events = s.events ∧
    (∀ q, (s.sweepRest.qu q).bare = (s.qu q).bare) ∧ ∀ q d, s.sweepRest.refillsOn q d = s.refillsOn q d := by
  have hfree (b : Bool) : ∃ k, (if b then s.cardingFree else s) = { s with dp := { s.dp with lockDram := k } } := by
    cases b with
    | false => exact ⟨_, rfl⟩
    | true => exact ⟨_, s.cardingFree_eq⟩
  obtain ⟨k, hk⟩ := hfree (decide (s.boot.stage = 8 ∨ s.boot.halted))
  have hrest : s.sweepRest = ({ s with dp := { s.dp with lockDram := k } } : State).chanChanged := by
    rw [← hk]
    unfold State.sweepRest
    simp only [decide_eq_true_eq]
  have hto : s.sweepFrame { s with dp := { s.dp with lockDram := k } } c := ⟨rfl, rfl⟩
  have hqu (q : QId) : ({ s with dp := { s.dp with lockDram := k } } : State).qu q = s.qu q := rfl
  have hch (d : YId) : ({ s with dp := { s.dp with lockDram := k } } : State).ch d = s.ch d := rfl
  have hevents : ({ s with dp := { s.dp with lockDram := k } } : State).events = s.events := rfl
  have hon (q : QId) (d : YId) : ({ s with dp := { s.dp with lockDram := k } } : State).refillsOn q d = s.refillsOn q d := rfl
  rw [hrest]
  generalize ({ s with dp := { s.dp with lockDram := k } } : State) = v at hto hqu hch hevents hon
  refine ⟨fun d => (v.chanChanged_ch d).trans (hch d), hto.trans (v.chanChanged_sweepFrame c),
    v.chanChanged_storeFrame.events.trans hevents, fun q => ?_, fun q d => ?_⟩
  · rw [State.chanChanged, State.scaleAll_qu_bare, State.nextOrder_qu_frame, hqu]
  · rw [State.refillsOn_congr (v.chanChanged_bare) q d, ← hon q d]
    rfl

/-- The end of a sweep after start-up with no refills to ask for again. -/
theorem State.sweepOver_of_rest {c : YId} {k : SweepFor} {pass : Bool} (hk : k ≠ .boot)
    (h : pass = false ∨ (k ≠ .keep ∧ k ≠ .drop)) : s.sweepOver c k pass = s.sweepRest := by
  unfold State.sweepOver
  dsimp only
  rw [if_pos hk, if_neg]
  rcases h with h | ⟨hkeep, hdrop⟩
  · simp [h]
  · simp [hkeep, hdrop]

/-- The end of a channel reset's sweep: the refills that the channel may take are asked for again. -/
theorem State.sweepOver_of_reset {c : YId} {k : SweepFor} (hk : k = .keep ∨ k = .drop) :
    s.sweepOver c k true = (s.chanChanged.reask 8 c).sweepRest := by
  unfold State.sweepOver
  dsimp only
  rw [if_pos (by rcases hk with rfl | rfl <;> decide), if_pos (by rcases hk with rfl | rfl <;> decide)]

/-! ### The channel's fields after an outcome -/

theorem Chan.wrote_of_fstep {y : Chan} {f : Nat} (hf : y.fstep = at' f 0) (hle : f ≤ 7) :
    y.wrote = (f == 0 || decide (5 ≤ f)) := by
  have hnat : y.fstep.toNat = f := by
    rw [hf]
    simp only [at', BitVec.toNat_ofNat]
    omega
  have hzero : (y.fstep == 0) = (f == 0) := by
    rw [Bool.eq_iff_iff, beq_iff_eq, beq_iff_eq, ← BitVec.toNat_inj, hnat]
    simp
  unfold Chan.wrote
  rw [hzero, hnat]

/-- What a passing sweep gives its channel. -/
theorem Chan.passed_spec (m : SweepData) (temp : Word) (tick : Nat) (y : Chan)
    (hy : (((x.sweptTo 0).takeTaps m).asTrained temp).serve tick = y) :
    (y.sweeping = none ∧ y.waiting = x.waiting ∧ y.freq = none ∧ y.setB = x.setB) ∧
    (y.reqs = x.reqs ∧ y.noRef = false ∧ y.st = if x.reqs = [] then .selfref else .active) ∧
    (y.carry x.setB = true ∧ y.carry (!x.setB) = x.carry (!x.setB)) ∧
    (y.lfail0 = 0 ∧ y.lfail1 = 0 ∧ y.fstep = 0 ∧ y.ttrain = temp ∧ y.failed = false) ∧
    (y.taps = (x.takeTaps m).taps ∧ y.vref = (x.takeTaps m).vref) ∧ y.tregBase = x.tregBase ∧ y.tregLen = x.tregLen := by
  rw [Chan.serve_eq, Chan.asTrained, Chan.setCarry_eq] at hy
  subst hy
  refine ⟨⟨rfl, rfl, rfl, rfl⟩, ⟨rfl, rfl, rfl⟩, ?_, ⟨rfl, rfl, rfl, rfl, rfl⟩, ⟨rfl, rfl⟩, rfl, rfl⟩
  exact Chan.carry_of_setCarry rfl rfl

/-- What a failing sweep leaves of its channel. -/
theorem Chan.failed_spec (f : Nat) (l0 l1 : Word) (y : Chan) (hy : (x.sweptTo f).asFailed l0 l1 = y) :
    (y.sweeping = none ∧ y.waiting = x.waiting ∧ y.freq = none ∧ y.setB = x.setB ∧ y.heldHost = false) ∧
    (y.reqs = x.reqs ∧ y.st = (if l0 = 0x3FF then .absent else .failed) ∧ y.failed = (x.failed || l0 != 0x3FF)) ∧
    y.carry x.setB = false ∧ (y.fstep = at' f 0 ∧ y.lfail0 = l0 ∧ y.lfail1 = l1 ∧ y.pend = none) ∧
    (y.taps = x.taps ∧ y.vref = x.vref) ∧ y.tregBase = x.tregBase ∧ y.tregLen = x.tregLen := by
  rw [Chan.asFailed, Chan.setCarry_eq] at hy
  subst hy
  refine ⟨⟨rfl, rfl, rfl, rfl, rfl⟩, ⟨rfl, rfl, rfl⟩, ?_, ⟨rfl, rfl, rfl, rfl⟩, ⟨rfl, rfl⟩, rfl, rfl⟩
  exact (Chan.carry_of_setCarry rfl rfl).1

/-- What a passing final check leaves of its channel. -/
theorem Chan.checked_spec (temp : Word) (tick : Nat) (y : Chan)
    (hy : ((x.sweptTo 0).markTrained.asTrained temp).serve tick = y) :
    y.sweeping = none ∧ y.heldHost = false ∧ y.fstep = 0 ∧ y.carry x.setB = true ∧ y.taps = x.markTrained.taps ∧
      y.vref = x.vref ∧ y.tregBase = x.tregBase ∧ y.tregLen = x.tregLen := by
  rw [Chan.serve_eq, Chan.asTrained, Chan.setCarry_eq] at hy
  subst hy
  exact ⟨rfl, rfl, rfl, (Chan.carry_of_setCarry rfl rfl).1, rfl, rfl, rfl, rfl⟩

/-- The mark of training takes the delays in force as they are. -/
theorem Chan.markTrained_taps (i : Fin 40) :
    (x.markTrained.taps[i.val]).rd = (x.taps[i.val]).rd ∧ (x.markTrained.taps[i.val]).wr = (x.taps[i.val]).wr ∧
    (x.markTrained.taps[i.val]).wl = (x.taps[i.val]).wl ∧ (x.markTrained.taps[i.val]).gate = (x.taps[i.val]).gate := by
  have htap : x.markTrained.taps[i.val] =
      if i.val / 20 = (if x.setB then 1 else 0) then
        { x.taps[i.val] with rdT := (x.taps[i.val]).rd, fineT := at' (fld (x.taps[i.val]).gate 0 7) 0 }
      else x.taps[i.val] := Vector.getElem_mapFinIdx _
  rw [htap]
  by_cases hin : i.val / 20 = (if x.setB then 1 else 0)
  · rw [if_pos hin]
    exact ⟨rfl, rfl, rfl, rfl⟩
  · rw [if_neg hin]
    exact ⟨rfl, rfl, rfl, rfl⟩

/-! ### The whole end of a sweep -/

theorem State.playBurst_eventsWf (h : s.eventsWf) (c : YId) (b : Burst) : (s.playBurst c b).eventsWf := by
  obtain ⟨y, e, heq, -, hstarts, hnone⟩ := s.playBurst_eq c b
  have hevents : (s.playBurst c b).events = e := (congrArg State.events heq :)
  unfold State.eventsWf
  rw [hevents]
  by_cases hs : (s.ch c).startsThrottle b
  · rw [hstarts hs]
    exact State.eventsWf_count h _ _ _
  · rw [hnone hs]
    exact h

theorem State.testBursts_eventsWf (c : YId) : ∀ (n : Nat) (s : State), s.eventsWf → (s.testBursts n c).eventsWf
  | 0, _, h => h
  | n + 1, s, h => State.testBursts_eventsWf c n _ (s.playBurst_eventsWf h c _)

theorem State.cardingOn_of (hpow : s.powered = true) (hstage : 3 ≤ s.boot.stage) (hfatal : s.dp.fatal = false)
    (href : s.time.refclk = true) : s.cardingOn = true := by
  simp [State.cardingOn, hpow, hstage, hfatal, href]

theorem State.exec_sweepDone {c : YId} {m : SweepData} {t : State} (ht : s.sweepDone c m = t)
    (hwarm : s.boot.warm = true → s.boot.warmed ≠ 1) (hkept : t.boot.warm = s.boot.warm ∧ t.boot.warmed = s.boot.warmed) :
    exec (.sweepDone c m) s = .next t := by
  refine congrArg Host.Outcome.next ?_
  rw [ht]
  unfold State.warmOn
  rw [hkept.1, hkept.2]
  refine if_neg fun h => ?_
  simp only [Bool.and_eq_true, beq_iff_eq] at h
  exact hwarm h.1.1.1 h.1.2

/-- The end of a sweep after which no refills are asked for again, with what it leaves of its channel and of the rest. -/
theorem State.sweepRest_end {c : YId} {y : Chan} {pass : Bool} (hbase : y.tregBase = (s.ch c).tregBase)
    (hlen : y.tregLen = (s.ch c).tregLen) (t : State) (ht : (s.sweepSet c y pass).sweepRest = t) :
    t.ch c = ((s.sweepTested c y).ch c).sweptAs y ∧ s.sweepFrame t c ∧
    t.events = (if pass then ((s.sweepTested c y).countN (Ev.ytrain c) 0 1).events else (s.sweepTested c y).events) ∧
    ∀ q, (t.qu q).bare = (if y.wrote then (s.scratch c).qu q else s.qu q).bare := by
  obtain ⟨hch, hframe, hevents, hqu⟩ := s.sweepSet_spec pass hbase hlen
  obtain ⟨kch, kframe, kevents, kqu, -⟩ := (s.sweepSet c y pass).sweepRest_spec c
  rw [ht] at kch kframe kevents kqu
  exact ⟨(kch c).trans hch, hframe.trans kframe, kevents.trans hevents, fun q => (kqu q).trans (congrArg Queue.bare (hqu q))⟩

/-- The end of a channel reset's sweep: beside that, the refills that the channel may take have been asked for again. -/
theorem State.sweepReset_end {c : YId} {y x : Chan} (hbase : y.tregBase = (s.ch c).tregBase)
    (hlen : y.tregLen = (s.ch c).tregLen) (hx : ((s.sweepTested c y).ch c).sweptAs y = x) (t : State)
    (ht : ((s.sweepSet c y true).chanChanged.reask 8 c).sweepRest = t) :
    t.ch c = { x with
      st := (t.ch c).st, owed := (t.ch c).owed, gap := (t.ch c).gap, refAt := (t.ch c).refAt, trackAt := (t.ch c).trackAt
      idleSince := (t.ch c).idleSince, reqs := (t.ch c).reqs } ∧
    (∃ l, (t.ch c).reqs = x.reqs ++ l ∧ ∀ r ∈ l, r.kind = .refill) ∧
    (x.noRef = false → x.sweeping = none → x.waiting = none → x.st = (if x.reqs = [] then .selfref else .active) →
      (t.ch c).st = (if (t.ch c).reqs = [] then .selfref else .active)) ∧
    s.sweepFrame t c ∧ t.events = ((s.sweepTested c y).countN (Ev.ytrain c) 0 1).events ∧
    (s.running = true → ∀ q, t.refillsOn q c = false) := by
  obtain ⟨hch, hframe, hevents, -⟩ := s.sweepSet_spec true hbase hlen
  have hchanged := hframe.trans ((s.sweepSet c y true).chanChanged_sweepFrame c)
  have hch' : (s.sweepSet c y true).chanChanged.ch c = x := ((State.chanChanged_ch _ c).trans hch).trans hx
  have hevents' := (State.chanChanged_storeFrame (s.sweepSet c y true)).events.trans hevents
  have hrun : (s.sweepSet c y true).chanChanged.running = s.running := (congrArg State.running hchanged.2 :)
  generalize (s.sweepSet c y true).chanChanged = v at hchanged hch' hevents' hrun ht
  have hasks := v.reask_asks c 8
  have hnone := v.reask_none (n := 8) (c := c)
  generalize v.reask 8 c = w at hasks hnone ht
  obtain ⟨kch, kframe, kevents, -, kon⟩ := w.sweepRest_spec c
  rw [ht] at kch kframe kevents kon
  have hown := hasks.own
  have hreqs := hasks.reqs
  have hst := hasks.st
  rw [hch'] at hown hreqs hst
  rw [kch c]
  refine ⟨hown, hreqs, hst, (hchanged.trans hasks.sweepFrame).trans kframe, ?_, fun hruns q => ?_⟩
  · exact kevents.trans ((congrArg State.events hasks.frame :).trans hevents')
  · rw [kon]
    exact hnone (hrun.trans hruns) (by omega) q

theorem State.refillReady_of_refillsOn {q : QId} {c : YId} (h : s.refillsOn q c = false) (t : Nat × YId × Nat)
    (ht : s.refillReady q = some t) : t.2.1 ≠ c := by
  rintro rfl
  simp [State.refillsOn, ht] at h

/-! ### The final check and the start-up sweeps -/

theorem Chan.final_spec (m : SweepData) (temp : Word) (tick : Nat) :
    ∃ y, x.sweepResult .final m temp tick = (y, x.finalPass m) ∧ y.sweeping = none ∧ y.heldHost = false ∧
      y.fstep = (if x.finalPass m then 0 else 7) ∧ y.carry x.setB = x.finalPass m ∧
      y.taps = (if x.finalPass m then x.markTrained.taps else x.taps) ∧ y.vref = x.vref ∧
      y.tregBase = x.tregBase ∧ y.tregLen = x.tregLen ∧ y.wrote = true := by
  rw [Chan.sweepResult_final]
  cases x.finalPass m with
  | true =>
    obtain ⟨hsweep, hheld, hfstep, hcarry, htaps, hvref, hbase, hlen⟩ := x.checked_spec temp tick _ rfl
    exact ⟨_, if_pos rfl, hsweep, hheld, hfstep, hcarry, htaps, hvref, hbase, hlen, Chan.wrote_of_fstep (f := 0) hfstep (by decide)⟩
  | false =>
    obtain ⟨⟨hsweep, -, -, -, hheld⟩, -, hcarry, ⟨hfstep, -⟩, ⟨htaps, hvref⟩, hbase, hlen⟩ := x.failed_spec 7 _ _ _ rfl
    exact ⟨_, if_neg nofun, hsweep, hheld, hfstep, hcarry, htaps, hvref, hbase, hlen, Chan.wrote_of_fstep (f := 7) hfstep (by decide)⟩

theorem Chan.result_spec {k : SweepFor} (hk : k ≠ .final) (m : SweepData) (temp : Word) (tick : Nat) :
    ∃ y pass, x.sweepResult k m temp tick = (y, pass) ∧ y.sweeping = none ∧ y.tregBase = x.tregBase ∧
      y.tregLen = x.tregLen := by
  by_cases hf : sweepStep m x.ranks = 0
  · obtain ⟨⟨hsweep, -⟩, -, -, -, -, hbase, hlen⟩ := x.passed_spec m temp tick _ rfl
    exact ⟨_, _, x.sweepResult_of_pass hk hf temp tick, hsweep, hbase, hlen⟩
  · obtain ⟨⟨hsweep, -⟩, -, -, -, -, hbase, hlen⟩ := x.failed_spec _ _ _ _ rfl
    exact ⟨_, _, x.sweepResult_of_fail hk rfl hf temp tick, hsweep, hbase, hlen⟩

theorem State.sweepSet_dp (c : YId) (y : Chan) (pass : Bool) : (s.sweepSet c y pass).dp = s.dp := by
  have htested : (s.sweepTested c y).dp = s.dp := (congrArg State.dp (s.sweepTested_tests c y).frame :)
  unfold State.sweepSet
  dsimp only
  cases pass <;> cases y.wrote <;> simp [htested]

theorem State.sweepOver_boot (c : YId) (pass : Bool) : s.sweepOver c .boot pass =
    (if c = 0 then s.beginSweep 1 .boot else s.cardingOver).sweepRest := by
  unfold State.sweepOver
  dsimp only
  have hno : (SweepFor.boot == SweepFor.keep || SweepFor.boot == SweepFor.drop) = false := rfl
  rw [hno, Bool.and_false, if_neg (by decide : ¬false = true), if_neg (not_not_intro rfl)]

theorem State.agrees_congr {s t : State} {r : VRef} (h : t.vget r = s.vget r) (hr : s.agrees r) : t.agrees r := by
  unfold State.agrees at hr ⊢
  rw [h]
  exact hr

theorem State.cardingFree_free (h : s.dp.lockDram = Lock.free) : s.cardingFree.dp.lockDram = Lock.free := by
  rw [s.cardingFree_eq]
  dsimp only
  split
  · rfl
  · exact h

/-- Where its Landing test has stopped start-up, Carding's sweeps end with the lock freed (log 14). -/
theorem State.cardingOver_of_halted (h : s.boot.halted = true) :
    (∀ d, s.cardingOver.ch d = s.ch d) ∧ s.cardingOver.boot = { s.boot with carding := false, trained := true } ∧
    (s.dp.lockDram.holder = VWord.of 3 → (∀ d, (s.ch d).sweeping = none) → s.cardingOver.dp.lockDram = Lock.free) := by
  have hover : s.cardingOver = ({ s with boot := { s.boot with carding := false, trained := true } } : State).cardingFree :=
    if_pos h
  rw [hover, State.cardingFree_eq]
  exact ⟨fun _ => rfl, rfl, fun hlock hnone => if_pos ⟨congrArg VWord.val hlock, hnone, rfl⟩⟩

theorem State.sweepRest_free (h : s.dp.lockDram = Lock.free) : s.sweepRest.dp.lockDram = Lock.free := by
  unfold State.sweepRest
  rw [State.chanChanged_dp]
  split
  · exact s.cardingFree_free h
  · exact h

end Sys2Proof.Machine

open Sys2Proof Sys2Proof.Machine

/-- Settles O38: the outcome on the channel, then what follows it, in service, after a final check and at start-up. -/
theorem sweepEnds : Obligations.SweepEnds := by
  unfold Obligations.SweepEnds
  refine ⟨fun c k m s hpow hstage hfatal href hwarm hwf hk hboot hfinal => ?_, fun c m s hpow hstage hfatal href hwarm =>
    ⟨fun hk => ?_, fun hk hc => ?_, fun hk hc hhalted hfloor hceil hmargin => ?_, fun hk hc hhalted hlock hother => ?_⟩⟩
  · have hon := s.cardingOn_of hpow hstage hfatal href
    intro u rest
    refine ⟨fun hstep => ?_, fun f hstep hf => ?_⟩
    · have hresult := (s.ch c).sweepResult_of_pass hfinal hstep s.dp.temp s.time.ticks
      generalize hy : ((((s.ch c).sweptTo 0).takeTaps m).asTrained s.dp.temp).serve s.time.ticks = y at hresult
      obtain ⟨⟨hsweep, hwait, hfreq, hsetB⟩, ⟨hreqs, hnoRef, hst⟩, ⟨hcarry, hcarry'⟩, ⟨hl0, hl1, hfstep, htemp, hfailed⟩,
        ⟨htaps, hvref⟩, hbase, hlen⟩ := (s.ch c).passed_spec m s.dp.temp s.time.ticks y hy
      have hwrote : y.wrote = true := Chan.wrote_of_fstep (f := 0) hfstep (by decide)
      have hu : s.sweepTested c y = u := if_pos hwrote
      have hcounted : u.eventsWf := State.testBursts_eventsWf c _ s hwf
      have hdone := s.sweepDone_eq hk hon hresult
      by_cases hreset : k = .keep ∨ k = .drop
      · rw [State.sweepOver_of_reset _ hreset] at hdone
        obtain ⟨hch, hasked, hserves, hframe, hevents, hnone⟩ := s.sweepReset_end hbase hlen rfl _ hdone.symm
        rw [hu] at hch hasked hserves hevents
        have hbootEq : (s.sweepDone c m).boot = s.boot := (congrArg State.boot hframe.2 :)
        have hexec := s.exec_sweepDone rfl hwarm (by rw [hbootEq]; exact ⟨rfl, rfl⟩)
        generalize s.sweepDone c m = t at hch hasked hserves hframe hevents hnone hexec
        have hkeeps : (k ≠ .keep → k ≠ .drop → False) := fun h h' => hreset.elim h h'
        refine ⟨t, hexec, ⟨(congrArg Chan.sweeping hch).trans hsweep, (congrArg Chan.waiting hch).trans hwait,
          (congrArg Chan.freq hch).trans hfreq, (congrArg Chan.setB hch).trans hsetB, hframe.1, congrArg State.bare hframe.2⟩,
          fun h h' => (hkeeps h h').elim, fun _ hrun hidle => ⟨?_, fun q => t.refillReady_of_refillsOn (hnone hrun q), ?_⟩,
          (congrArg (fun z : Chan => z.carry (s.ch c).setB) hch).trans hcarry,
          (congrArg (fun z : Chan => z.carry (!(s.ch c).setB)) hch).trans hcarry',
          (congrArg Chan.lfail0 hch).trans hl0, (congrArg Chan.lfail1 hch).trans hl1, (congrArg Chan.fstep hch).trans hfstep,
          (congrArg Chan.ttrain hch).trans htemp, (congrArg Chan.failed hch).trans hfailed,
          (congrArg Chan.taps hch).trans htaps, (congrArg Chan.vref hch).trans hvref, u.counted_of_events hcounted hevents,
          (congrArg Chan.hot hch).trans rfl⟩
        · exact hreqs ▸ hasked
        · exact hserves hnoRef hsweep (hwait.trans hidle) (by rw [← hreqs] at hst; exact hst)
      · have hkeep : k ≠ .keep := fun h => hreset (.inl h)
        have hdrop : k ≠ .drop := fun h => hreset (.inr h)
        rw [State.sweepOver_of_rest _ hboot (.inr ⟨hkeep, hdrop⟩)] at hdone
        obtain ⟨hch, hframe, hevents, hqu⟩ := s.sweepRest_end hbase hlen _ hdone.symm
        rw [hu] at hch hevents
        have hbootEq : (s.sweepDone c m).boot = s.boot := (congrArg State.boot hframe.2 :)
        have hexec := s.exec_sweepDone rfl hwarm (by rw [hbootEq]; exact ⟨rfl, rfl⟩)
        generalize s.sweepDone c m = t at hch hframe hevents hqu hexec
        refine ⟨t, hexec, ⟨(congrArg Chan.sweeping hch).trans hsweep, (congrArg Chan.waiting hch).trans hwait,
          (congrArg Chan.freq hch).trans hfreq, (congrArg Chan.setB hch).trans hsetB, hframe.1, congrArg State.bare hframe.2⟩,
          fun _ _ => ⟨(congrArg Chan.reqs hch).trans hreqs, fun q => ?_, (congrArg Chan.st hch).trans hst⟩,
          fun h => (hreset h).elim,
          (congrArg (fun z : Chan => z.carry (s.ch c).setB) hch).trans hcarry,
          (congrArg (fun z : Chan => z.carry (!(s.ch c).setB)) hch).trans hcarry',
          (congrArg Chan.lfail0 hch).trans hl0, (congrArg Chan.lfail1 hch).trans hl1, (congrArg Chan.fstep hch).trans hfstep,
          (congrArg Chan.ttrain hch).trans htemp, (congrArg Chan.failed hch).trans hfailed,
          (congrArg Chan.taps hch).trans htaps, (congrArg Chan.vref hch).trans hvref, u.counted_of_events hcounted hevents,
          (congrArg Chan.hot hch).trans rfl⟩
        rw [hqu q, hwrote]
        rfl
    · have hle : f ≤ 7 := hstep ▸ sweepStep_le m _
      have hresult := (s.ch c).sweepResult_of_fail hfinal hstep hf s.dp.temp s.time.ticks
      generalize hy : ((s.ch c).sweptTo f).asFailed (lfailOf m.rank0 f) (if (s.ch c).ranks then lfailOf m.rank1 f else 0) = y
        at hresult
      obtain ⟨⟨hsweep, hwait, hfreq, hsetB, -⟩, ⟨hreqs, hst, hfail⟩, hcarry, ⟨hfstep, hl0, hl1, hpend⟩, ⟨htaps, hvref⟩, hbase,
        hlen⟩ := (s.ch c).failed_spec f _ _ y hy
      have hwrote := Chan.wrote_of_fstep hfstep hle
      have hdone := (s.sweepDone_eq hk hon hresult).trans (State.sweepOver_of_rest _ hboot (.inl rfl))
      have hu : s.sweepTested c y = if y.wrote then u else s := rfl
      obtain ⟨hch, hframe, hevents, hqu⟩ := s.sweepRest_end hbase hlen _ hdone.symm
      have hbootEq : (s.sweepDone c m).boot = s.boot := (congrArg State.boot hframe.2 :)
      have hexec := s.exec_sweepDone rfl hwarm (by rw [hbootEq]; exact ⟨rfl, rfl⟩)
      generalize s.sweepDone c m = t at hch hframe hevents hqu hexec
      have hlate : y.wrote = !decide (f < 5) := by
        rw [hwrote, beq_eq_false_iff_ne.2 hf, Bool.false_or, Bool.eq_iff_iff]
        simp
      have hcases : (f < 5 → y.wrote = false ∧ s.sweepTested c y = s) ∧ (¬f < 5 → y.wrote = true ∧ s.sweepTested c y = u) := by
        rw [hu, hlate]
        exact ⟨fun h => by simp [h], fun h => by simp [h]⟩
      refine ⟨t, hexec, ⟨(congrArg Chan.sweeping hch).trans hsweep, (congrArg Chan.waiting hch).trans hwait,
        (congrArg Chan.freq hch).trans hfreq, (congrArg Chan.setB hch).trans hsetB, hframe.1, congrArg State.bare hframe.2⟩,
        (congrArg Chan.st hch).trans hst, (congrArg Chan.failed hch).trans hfail,
        (congrArg (fun z : Chan => z.carry (s.ch c).setB) hch).trans hcarry,
        ((congrArg Chan.fstep hch).trans hfstep).trans (by simp [at']), (congrArg Chan.lfail0 hch).trans hl0,
        (congrArg Chan.lfail1 hch).trans hl1, (congrArg Chan.pend hch).trans hpend, (congrArg Chan.taps hch).trans htaps,
        (congrArg Chan.vref hch).trans hvref, (hevents.trans (if_neg (nomatch ·))).trans ?_, (congrArg Chan.reqs hch).trans hreqs, ?_⟩
      · split
        · next h => exact congrArg State.events (hcases.1 h).2
        · next h => exact congrArg State.events (hcases.2 h).2
      · split
        · next h =>
          intro q
          rw [hqu q, (hcases.1 h).1]
          rfl
        · next h =>
          intro q
          rw [hqu q, (hcases.2 h).1]
          rfl
  · have hon := s.cardingOn_of hpow hstage hfatal href
    have hresult := (s.ch c).sweepResult_final m s.dp.temp s.time.ticks
    obtain ⟨y, hresult, hsweep, hheld, hfstep, hcarry, htaps, hvref, hbase, hlen, hwrote⟩ :=
      (s.ch c).final_spec m s.dp.temp s.time.ticks
    intro pass
    have hdone := (s.sweepDone_eq hk hon hresult).trans (State.sweepOver_of_rest _ nofun (.inr ⟨nofun, nofun⟩))
    obtain ⟨hch, hframe, -, hqu⟩ := s.sweepRest_end hbase hlen _ hdone.symm
    have hbootEq : (s.sweepDone c m).boot = s.boot := (congrArg State.boot hframe.2 :)
    have hexec := s.exec_sweepDone rfl hwarm (by rw [hbootEq]; exact ⟨rfl, rfl⟩)
    generalize s.sweepDone c m = t at hch hframe hqu hexec
    have htaps' : (t.ch c).taps = _ := (congrArg Chan.taps hch).trans htaps
    refine ⟨t, hexec, (congrArg Chan.sweeping hch).trans hsweep, (congrArg Chan.heldHost hch).trans hheld,
      (congrArg Chan.fstep hch).trans hfstep, (congrArg (fun z : Chan => z.carry (s.ch c).setB) hch).trans hcarry, fun i => ?_,
      (congrArg Chan.vref hch).trans hvref, hframe.1, fun q => ?_⟩
    · rw [htaps']
      split
      · exact (s.ch c).markTrained_taps i
      · exact ⟨rfl, rfl, rfl, rfl⟩
    · rw [hqu q, hwrote]
      rfl
  · have hon := s.cardingOn_of hpow hstage hfatal href
    obtain ⟨y, pass, hresult, hsweep, hbase, hlen⟩ := (s.ch c).result_spec (k := .boot) nofun m s.dp.temp s.time.ticks
    obtain ⟨hch, hframe, -, -⟩ := s.sweepSet_spec pass hbase hlen
    have hdone := (s.sweepDone_eq hk hon hresult).trans (State.sweepOver_boot _ c pass)
    rw [if_pos hc] at hdone
    subst hc
    generalize s.sweepSet 0 y pass = v at hch hframe hdone
    have hbegun := v.beginSweep_ch 1 .boot
    have hzero := v.beginSweep_ch_ne .boot (c := 1) (d := 0) (by decide)
    have hbootEq : (v.beginSweep 1 .boot).boot = s.boot :=
      (congrArg State.boot (v.beginSweep_frame 1 .boot) :).trans (congrArg State.boot hframe.2 :)
    generalize v.beginSweep 1 .boot = w at hbegun hzero hbootEq hdone
    obtain ⟨kch, kframe, -⟩ := w.sweepRest_spec 0
    have hto : w.sweepRest.boot = s.boot := (congrArg State.boot kframe.2 :).trans hbootEq
    refine ⟨_, s.exec_sweepDone hdone hwarm (by rw [hto]; exact ⟨rfl, rfl⟩), ?_, ?_, hto⟩
    · rw [kch, hzero, hch]
      exact hsweep
    · rw [kch, hbegun]
      rfl
  · have hon := s.cardingOn_of hpow hstage hfatal href
    obtain ⟨y, pass, hresult, hsweep, hbase, hlen⟩ := (s.ch c).result_spec (k := .boot) nofun m s.dp.temp s.time.ticks
    obtain ⟨hch, hframe, -, -⟩ := s.sweepSet_spec pass hbase hlen
    have hdone := (s.sweepDone_eq hk hon hresult).trans (State.sweepOver_boot _ c pass)
    subst hc
    rw [if_neg (by decide)] at hdone
    generalize s.sweepSet 1 y pass = v at hch hframe hdone
    have hboot : v.boot = s.boot := (congrArg State.boot hframe.2 :)
    have hgov : v.gov = s.gov := (congrArg State.gov hframe.2 :)
    have hover := v.cardingOver_of_agrees (hboot ▸ hhalted) (State.agrees_congr (congrArg Gov.floor hgov) hfloor)
      (State.agrees_congr (congrArg Gov.ceil hgov) hceil) (State.agrees_congr (congrArg Gov.margin hgov) hmargin)
    have hbootEq : v.cardingOver.boot = { s.boot with carding := false, trained := true, stage := max s.boot.stage 7 } :=
      (congrArg State.boot hover :).trans (by rw [hboot])
    have hkept (d : YId) : v.cardingOver.ch d = v.ch d := (congrArg (fun t : State => t.ch d) hover :)
    generalize v.cardingOver = w at hbootEq hkept hdone
    obtain ⟨kch, kframe, -⟩ := w.sweepRest_spec 1
    have hto := (congrArg State.boot kframe.2 :).trans hbootEq
    refine ⟨_, s.exec_sweepDone hdone hwarm (by rw [hto]; exact ⟨rfl, rfl⟩), ?_, hto, ?_⟩
    · rw [kch, hkept, hch]
      exact hsweep
    · rw [kch, hkept]
      exact hframe.1
  · have hon := s.cardingOn_of hpow hstage hfatal href
    obtain ⟨y, pass, hresult, hsweep, hbase, hlen⟩ := (s.ch c).result_spec (k := .boot) nofun m s.dp.temp s.time.ticks
    obtain ⟨hch, hframe, -, -⟩ := s.sweepSet_spec pass hbase hlen
    have hdp := s.sweepSet_dp c y pass
    have hdone := (s.sweepDone_eq hk hon hresult).trans (State.sweepOver_boot _ c pass)
    subst hc
    rw [if_neg (by decide)] at hdone
    generalize s.sweepSet 1 y pass = v at hch hframe hdone hdp
    have hboot : v.boot = s.boot := (congrArg State.boot hframe.2 :)
    obtain ⟨hkept, hbootEq, hfreed⟩ := v.cardingOver_of_halted (hboot ▸ hhalted)
    have hlock' : v.cardingOver.dp.lockDram = Lock.free := by
      refine hfreed ?_ fun d => ?_
      · rw [hdp]
        exact hlock
      · obtain rfl | rfl : d = 0 ∨ d = 1 := by revert d; decide
        · exact (congrArg Chan.sweeping hframe.1).trans hother
        · exact (congrArg Chan.sweeping hch).trans hsweep
    rw [hboot] at hbootEq
    generalize v.cardingOver = w at hbootEq hkept hdone hlock'
    obtain ⟨kch, kframe, -⟩ := w.sweepRest_spec 1
    have hto := (congrArg State.boot kframe.2 :).trans hbootEq
    refine ⟨_, s.exec_sweepDone hdone hwarm (by rw [hto]; exact ⟨rfl, rfl⟩), ?_, hto, w.sweepRest_free hlock', ?_⟩
    · rw [kch, hkept, hch]
      exact hsweep
    · rw [kch, hkept]
      exact hframe.1

end

section
/-!
O42. Link frames received.
-/

-- The theorems one after another: side by side they take more threads than the check allows.
set_option Elab.async false

namespace Sys2Proof.Machine

variable (s : State)

/-! ### Events counted on top of a state -/

/-- An event counted on a state that has the events of `s`. -/
theorem State.counted_count {s t : State} (hwf : s.eventsWf) (h : t.events = s.events) (code inst n : Nat) :
    s.counted (t.countN code inst n) code inst n ∧
      t.countN code inst n = { t with events := (t.countN code inst n).events } :=
  ⟨s.counted_of_events hwf (State.countN_events_congr h code inst n), t.countN_frame code inst n⟩

/-! ### Link frames (R284, R287, R302, R304) -/

/-- A link frame that is valid, whatever its sender's position. -/
def goodLink (ctl : BitVec 36) : Prop := ctlCrc ctl = frameCrc ctl [] ∧ ctlType ctl = 2 ∧ ctlSub ctl ≠ 3

theorem goodLink_iff (ctl : BitVec 36) :
    (ctlCrc ctl != frameCrc ctl [] || ctlType ctl != 2 || ctlSub ctl == 3) = false ↔ goodLink ctl := by
  simp [goodLink, and_assoc]

/-- What a valid link frame makes of the inbound end (R304). -/
def State.seenIn (s : State) (ctl : BitVec 36) : InLink :=
  { s.azl.inn with
    peerPos := ctlPos ctl, peerTwin := ctlTwin ctl, peerVal := true, lastRx := s.time.ticks, mism := s.posMismatch ctl
    st := if s.posMismatch ctl then .train else s.azl.inn.st
    got := if s.posMismatch ctl then false else s.azl.inn.got }

/-- What the frame carries, taken by the end that has seen its sender. -/
def InLink.takes (x : InLink) (sub : Nat) (seq : BitVec 8) : InLink :=
  match sub with
  | 1 => if x.fresh then x.restart seq else { x with hold := false, got := true }
  | 2 => x.restart seq
  | _ => x

section Up

variable {s} {ctl : BitVec 36} (hrun : s.running = true) (hen : s.inEnabled = true) (hst : s.azl.inn.st ≠ .down)
include hrun hen hst

theorem State.rxLink_of_bad (hbad : ¬goodLink ctl) (sub : Nat) : s.rxLink sub ctl = s.frameDiscard := by
  unfold State.rxLink
  dsimp only
  rw [if_neg (by simp [hrun, hen, hst]), if_pos (by_contra fun h => hbad ((goodLink_iff ctl).1 (Bool.not_eq_true _ ▸ h)))]

theorem State.rxLink_of_mismatch {sub : Nat} (hgood : goodLink ctl) (hsub : ctlSub ctl = sub)
    (hpos : s.posMismatch ctl = true) : s.rxLink sub ctl = (s.setIn (s.seenIn ctl)).count Ev.azpos 0 := by
  have hseen : s.peerSeen ctl = (s.setIn (s.seenIn ctl)).count Ev.azpos 0 := by
    unfold State.peerSeen State.seenIn
    dsimp only
    rw [hpos]
    rfl
  unfold State.rxLink
  dsimp only
  rw [if_neg (by simp [hrun, hen, hst]), if_neg (by rw [(goodLink_iff ctl).2 hgood]; decide), if_neg (not_not_intro hsub), hseen]
  have hmism : ((s.setIn (s.seenIn ctl)).count Ev.azpos 0).azl.inn.mism = true :=
    (congrArg (fun t : State => t.azl.inn.mism) ((s.setIn (s.seenIn ctl)).countN_frame Ev.azpos 0 1)).trans hpos
  rw [if_pos hmism]

theorem State.rxLink_of_match {sub : Nat} (hgood : goodLink ctl) (hsub : ctlSub ctl = sub)
    (hpos : s.posMismatch ctl = false) :
    (s.rxLink sub ctl).bare = (s.setIn ((s.seenIn ctl).takes sub (ctlSeq ctl))).bare ∧ (s.rxLink sub ctl).events = s.events := by
  have hseen : s.peerSeen ctl = s.setIn (s.seenIn ctl) := by
    unfold State.peerSeen State.seenIn
    dsimp only
    rw [hpos]
    rfl
  unfold State.rxLink
  dsimp only
  rw [if_neg (by simp [hrun, hen, hst]), if_neg (by rw [(goodLink_iff ctl).2 hgood]; decide), if_neg (not_not_intro hsub), hseen]
  have hmism : ¬(s.setIn (s.seenIn ctl)).azl.inn.mism = true := by
    show ¬s.posMismatch ctl = true
    simp [hpos]
  rw [if_neg hmism]
  rcases sub with _ | _ | _ | k
  · exact ⟨rfl, rfl⟩
  · exact ⟨State.scaleAll_bare _, State.scaleAll_events _⟩
  · exact ⟨State.scaleAll_bare _, State.scaleAll_events _⟩
  · exact ⟨rfl, rfl⟩

end Up

end Sys2Proof.Machine

open Sys2Proof Sys2Proof.Machine

/-- Settles O42: a frame is discarded, or shows its sender, and carries what its kind says where the position fits. -/
theorem linkFrameReceived : Obligations.LinkFrameReceived := by
  unfold Obligations.LinkFrameReceived
  intro ctl s hrun hen hst good seen afresh becomes discards
  have hmis (c : Instr) (sub : Nat) (hexec : exec c s = .next (s.rxLink sub ctl)) (hgood : good) (hsub : ctlSub ctl = sub)
      (hpos : s.posMismatch ctl = true) : becomes c seen := by
    have hframe := (s.setIn (s.seenIn ctl)).countN_frame Ev.azpos 0 1
    refine ⟨_, hexec.trans (congrArg Host.Outcome.next (State.rxLink_of_mismatch hrun hen hst hgood hsub hpos)),
      congrArg State.bare hframe, fun h => ?_, fun _ hwf => ?_⟩
    · rw [hpos] at h
      cases h
    · exact (State.counted_count (t := s.setIn (s.seenIn ctl)) hwf rfl Ev.azpos 0 1).1
  have hfit (c : Instr) (sub : Nat) (hexec : exec c s = .next (s.rxLink sub ctl)) (hgood : good) (hsub : ctlSub ctl = sub)
      (hpos : s.posMismatch ctl = false) : becomes c (seen.takes sub (ctlSeq ctl)) := by
    obtain ⟨hbare, hevents⟩ := State.rxLink_of_match hrun hen hst hgood hsub hpos
    refine ⟨_, hexec, ?_, fun _ => hevents, fun h => ?_⟩
    · rw [hevents]
      exact hbare
    · rw [hpos] at h
      cases h
  have hbad (c : Instr) (sub : Nat) (hexec : exec c s = .next (s.rxLink sub ctl)) (hwf : s.eventsWf) (hno : ¬good) :
      discards c := by
    obtain ⟨hcounted, hframe⟩ := State.counted_count (t := s.setIn { s.azl.inn with hold := true }) hwf rfl Ev.azcrc 0 1
    exact ⟨_, hexec.trans (congrArg Host.Outcome.next (State.rxLink_of_bad hrun hen hst hno sub)), hcounted, hframe⟩
  refine ⟨fun hgood => ⟨fun hsub => ?_, fun hpos => ⟨fun hsub => hmis (.resync ctl) 1 rfl hgood hsub hpos, fun hsub => hmis (.restart ctl) 2 rfl hgood hsub hpos⟩,
    fun hpos => ⟨fun hsub hfresh => ?_, fun hsub hfresh => ?_, fun hsub => hfit _ 2 rfl hgood hsub hpos⟩⟩,
    fun hwf hno => ⟨hbad _ 0 rfl hwf hno, hbad _ 1 rfl hwf hno, hbad _ 2 rfl hwf hno⟩⟩
  · cases hpos : s.posMismatch ctl with
    | true => exact hmis _ 0 rfl hgood hsub hpos
    | false => exact hfit _ 0 rfl hgood hsub hpos
  · have hresync := hfit (.resync ctl) 1 rfl hgood hsub hpos
    rw [show seen.takes 1 (ctlSeq ctl) = { seen with hold := false, got := true } from
      if_neg (by simp [seen, hfresh])] at hresync
    exact hresync
  · have hresync := hfit (.resync ctl) 1 rfl hgood hsub hpos
    rw [show seen.takes 1 (ctlSeq ctl) = afresh from if_pos hfresh] at hresync
    exact hresync

end

section
/-!
O45. The states of the two link ends.

What the sender's resends do is said once, for a buffer in which every stave waits and none needs a new credit.
-/

-- The theorems one after another: side by side they take more threads than the check allows.
set_option Elab.async false

namespace Sys2Proof.Machine

variable (s : State)

/-! ### Resends (R298, R303) -/

/-- The frame in which a stave of the resend buffer goes out. -/
def Resend.frame (r : Resend) : List (BitVec 36) := staveFrame r.seq r.q r.slots r.poison

theorem resendLoop_of_waiting (cred : Vector Nat 16) : ∀ l : List Resend, (∀ r ∈ l, r.need = false) →
    resendLoop (l.map fun r => { r with wait := true }) cred =
      (l.map fun r => { r with wait := false }, cred, l.map Resend.frame)
  | [], _ => rfl
  | r :: l, h => by
    have hr := h r (by simp)
    have ih := resendLoop_of_waiting cred l fun k hk => h k (by simp [hk])
    obtain ⟨seq, q, slots, poison, wait, need⟩ := r
    subst hr
    simp only [List.map_cons, resendLoop, Bool.not_true, Bool.false_and, Bool.false_eq_true, if_false, ih]
    rfl

theorem resendLoop_of_sent (cred : Vector Nat 16) : ∀ l : List Resend, (∀ r ∈ l, r.wait = false) →
    resendLoop l cred = (l, cred, [])
  | [], _ => rfl
  | r :: l, h => by
    have hr := h r (by simp)
    have ih := resendLoop_of_sent cred l fun k hk => h k (by simp [hk])
    simp only [resendLoop, ih, hr]
    rfl

theorem State.drainResend_of_not_up (h : s.azl.out.st ≠ .up) (before : List (List (BitVec 36))) : s.drainResend before = s := by
  unfold State.drainResend
  exact if_pos (by simp [h])

theorem State.drainResend_of_sent (h : ∀ r ∈ s.azl.out.resend, r.wait = false) (before : List (List (BitVec 36))) :
    s.drainResend before = s := by
  unfold State.drainResend
  dsimp only
  rw [resendLoop_of_sent _ _ h]
  split
  · rfl
  · rfl

/-- `t` is `s` but for the link, events, the governor's counts and the order of stamps. -/
def State.linkFrameOf (s t : State) : Prop := t = { s with azl := t.azl, events := t.events, gov := t.gov, order := t.order }

/-- While UP every stave of the buffer that waits goes out, in order, where none needs a new credit. -/
theorem State.drainResend_of_waiting {l : List Resend} (hup : s.azl.out.st = .up) (hneed : ∀ r ∈ l, r.need = false)
    (hwait : s.azl.out.resend = l.map fun r => { r with wait := true }) (before : List (List (BitVec 36))) :
    (s.drainResend before).azl = { s.azl with out := { s.azl.out with
      resend := l.map fun r => { r with wait := false }
      tx := if l = [] then s.azl.out.tx else before ++ l.map Resend.frame
      lastTx := if l = [] then s.azl.out.lastTx else s.time.ticks } } ∧
    (s.drainResend before).events = (s.countN Ev.azresend 0 l.length).events ∧
    (s.drainResend before).gov.acc8 = s.gov.acc8 + 8 * l.length ∧ s.linkFrameOf (s.drainResend before) := by
  have hloop := resendLoop_of_waiting s.azl.out.cred l hneed
  rw [← hwait] at hloop
  have hdrain : s.drainResend before = if (l.map Resend.frame).isEmpty then s
      else ((s.setOut { s.azl.out with
        resend := l.map fun r => { r with wait := false }, tx := before ++ l.map Resend.frame, lastTx := s.time.ticks }).demand
        (8 * (l.map Resend.frame).length)).countN Ev.azresend 0 (l.map Resend.frame).length := by
    unfold State.drainResend
    dsimp only
    rw [if_neg (by simp [hup]), hloop]
  rw [hdrain]
  by_cases hl : l = []
  · subst hl
    have hempty : s.azl.out.resend = [] := hwait
    refine ⟨?_, ?_, rfl, rfl⟩
    · show s.azl = { s.azl with out := { s.azl.out with
        resend := [], tx := s.azl.out.tx, lastTx := s.azl.out.lastTx } }
      rw [← hempty]
    · show s.events = (s.countN Ev.azresend 0 0).events
      rfl
  · rw [if_neg (by simpa using hl), if_neg hl, if_neg hl, List.length_map]
    generalize hv : (s.setOut { s.azl.out with
      resend := l.map fun r => { r with wait := false }, tx := before ++ l.map Resend.frame, lastTx := s.time.ticks }).demand
        (8 * l.length) = v
    have hframe := v.countN_frame Ev.azresend 0 l.length
    have hazl : (v.countN Ev.azresend 0 l.length).azl = v.azl := (congrArg State.azl hframe :)
    have hgov : (v.countN Ev.azresend 0 l.length).gov = v.gov := (congrArg State.gov hframe :)
    have horder : (v.countN Ev.azresend 0 l.length).order = v.order := (congrArg State.order hframe :)
    refine ⟨?_, State.countN_events_congr ?_ _ _ _, ?_, ?_⟩
    · rw [hazl, ← hv]
      rfl
    · rw [← hv]
      rfl
    · rw [hgov, ← hv]
      rfl
    · unfold State.linkFrameOf
      rw [hazl, hgov, horder]
      refine hframe.trans ?_
      rw [← hv]
      rfl

/-! ### Link states (R300, R301, R306) -/

theorem State.lossOver_iff (href : s.time.refclk = true) (lost : Option Nat) :
    s.lossOver lost = true ↔ ∀ k, lost = some k → k + 10000 ≤ s.time.ticks := by
  unfold State.lossOver
  cases lost <;> simp [href]

section Ends

variable {s} (hrun : s.running = true) (href : s.time.refclk = true)
include hrun href

theorem State.linkLoss_out (hst : s.azl.out.st = .up) (hlate : s.azl.out.lastRx + 10000 ≤ s.time.ticks) :
    s.linkLoss .out = ({ s with azl := { s.azl with
      out := s.azl.out.toDown (some s.time.ticks), lostOut := s.twin } } : State).count Ev.azloss 0 :=
  if_pos (by simp [hrun, href, hst, hlate])

theorem State.linkLoss_inn (hst : s.azl.inn.st = .up) (hlate : s.azl.inn.lastRx + 10000 ≤ s.time.ticks) :
    s.linkLoss .inn = ({ s with azl := { s.azl with
      inn := s.azl.inn.toDown (some s.time.ticks), lostIn := s.twin } } : State).count Ev.azloss 0 :=
  if_pos (by simp [hrun, href, hst, hlate])

theorem State.linkTrain_out (hen : s.outEnabled = true) (hst : s.azl.out.st ≠ .train) {pattern : Bool}
    (hmay : pattern = true ∨ (s.azl.out.st = .down ∧ s.lossOver s.azl.out.lost = true)) :
    s.linkTrain .out pattern = s.setOut s.azl.out.toTrain := by
  have hcond : (pattern || (s.azl.out.st == .down && s.lossOver s.azl.out.lost)) = true := by simpa using hmay
  exact if_pos (by simp [hrun, href, hen, hst, hcond])

omit href in
theorem State.linkTrain_inn (hen : s.inEnabled = true) (hst : s.azl.inn.st ≠ .train) {pattern : Bool}
    (hmay : pattern = true ∨ (s.azl.inn.st = .down ∧ s.lossOver s.azl.inn.lost = true)) :
    s.linkTrain .inn pattern = s.setIn s.azl.inn.toTrain := by
  have hcond : (pattern || (s.azl.inn.st == .down && s.lossOver s.azl.inn.lost)) = true := by simpa using hmay
  exact if_pos (by simp [hrun, hen, hst, hcond])

/-- The sender's bring-up ends: every stave of the buffer goes out again. -/
theorem State.linkUp_out (hen : s.outEnabled = true) (hst : s.azl.out.st = .train) (hans : s.azl.out.answered = true) :
    s.linkUp .out = State.drainResend { s with azl := { s.azl with
      lostOut := false
      out := { s.azl.out with
        st := .up, fresh := false, episode := false, rqAt := none, lastRx := s.time.ticks, lastTx := s.time.ticks
        resend := s.azl.out.resend.map fun r => { r with wait := true } } } } [] :=
  if_pos (by simp [hrun, href, hen, hst, hans])

end Ends

end Sys2Proof.Machine

open Sys2Proof Sys2Proof.Machine

/-- Settles O45: each row of a link end's states as the model's condition and change of that end. -/
theorem linkStates : Obligations.LinkStates := by
  unfold Obligations.LinkStates
  intro s hrun href o n train lossOver
  refine ⟨fun hwf hst hlate => ?_, fun hwf hst hlate => ?_, fun h => ?_, fun h => ?_, fun pattern hen hst hmay => ?_,
    fun pattern hen hst hmay => ?_, fun h => ?_, fun h => ?_, fun hen hst hans hneed => ?_, fun h => ?_,
    fun hen hst hgot hmis => ?_, fun h => ?_⟩
  · obtain ⟨hcounted, hframe⟩ := State.counted_count (t := { s with azl := { s.azl with
      out := s.azl.out.toDown (some s.time.ticks), lostOut := s.twin } }) hwf rfl Ev.azloss 0 1
    exact ⟨_, congrArg Host.Outcome.next (State.linkLoss_out hrun href hst hlate), hcounted, hframe⟩
  · obtain ⟨hcounted, hframe⟩ := State.counted_count (t := { s with azl := { s.azl with
      inn := s.azl.inn.toDown (some s.time.ticks), lostIn := s.twin } }) hwf rfl Ev.azloss 0 1
    exact ⟨_, congrArg Host.Outcome.next (State.linkLoss_inn hrun href hst hlate), hcounted, hframe⟩
  · refine congrArg Host.Outcome.next (if_neg ?_)
    rcases h with h | h
    · simp [o] at h
      simp [h]
    · simp [href, o] at h ⊢
      omega
  · refine congrArg Host.Outcome.next (if_neg ?_)
    rcases h with h | h
    · simp [n] at h
      simp [h]
    · simp [href, n] at h ⊢
      omega
  · exact congrArg Host.Outcome.next (State.linkTrain_out hrun href hen hst
      (hmay.imp_right fun ⟨hdown, hover⟩ => ⟨hdown, (s.lossOver_iff href _).2 hover⟩))
  · exact congrArg Host.Outcome.next (State.linkTrain_inn hrun hen hst
      (hmay.imp_right fun ⟨hdown, hover⟩ => ⟨hdown, (s.lossOver_iff href _).2 hover⟩))
  · have hno : s.lossOver s.azl.out.lost = false := Bool.not_eq_true _ ▸ mt (s.lossOver_iff href _).1 h
    exact congrArg Host.Outcome.next (if_neg (by simp [hno]))
  · have hno : s.lossOver s.azl.inn.lost = false := Bool.not_eq_true _ ▸ mt (s.lossOver_iff href _).1 h
    exact congrArg Host.Outcome.next (if_neg (by simp [hno]))
  · have hup := State.linkUp_out hrun href hen hst hans
    generalize hv : ({ s with azl := { s.azl with
      lostOut := false
      out := { s.azl.out with
        st := .up, fresh := false, episode := false, rqAt := none, lastRx := s.time.ticks, lastTx := s.time.ticks
        resend := s.azl.out.resend.map fun r => { r with wait := true } } } } : State) = v at hup
    have hvup : v.azl.out.st = .up := by rw [← hv]
    obtain ⟨hazl, hevents, -, hframe⟩ := v.drainResend_of_waiting hvup hneed (by rw [← hv]) []
    rw [← hup] at hazl hevents hframe
    refine ⟨_, rfl, ?_, fun hwf => ?_, ?_⟩
    · rw [hazl, ← hv]
      dsimp only
      rw [ite_self]
      rfl
    · exact s.counted_of_events hwf (hevents.trans (State.countN_events_congr (by rw [← hv]) _ _ _))
    · rw [← hv] at hframe
      exact hframe
  · exact congrArg Host.Outcome.next (if_neg (by simp [o] at h; simp [h]))
  · exact ⟨_, congrArg Host.Outcome.next (if_pos (by simp [n] at hst hgot hmis; simp [hrun, hen, hst, hgot, hmis])), rfl⟩
  · refine congrArg Host.Outcome.next (if_neg ?_)
    rcases h with h | h <;> simp [n] at h <;> simp [h]

end

section
/-!
O44. Credit frames received.
-/

-- The theorems one after another: side by side they take more threads than the check allows.
set_option Elab.async false

namespace Sys2Proof.Machine

variable (s : State)

/-! ### What a credit frame says (Table 10.3) -/

def creditRq (b : BitVec 38) : Nat := (b.extractLsb' 35 2).toNat
def creditAck (b : BitVec 38) : BitVec 8 := b.extractLsb' 27 8
def creditQueue (b : BitVec 38) : QId := ⟨(b.extractLsb' 23 4).toNat, (b.extractLsb' 23 4).isLt⟩
def creditCount (b : BitVec 38) : BitVec 8 := b.extractLsb' 15 8

/-- The sender takes the frame's counts. -/
def OutLink.takesCounts (x : OutLink) (rq : Nat) : Prop := x.fresh = false ∨ (x.sync = true ∧ rq = 0)

/-- The sender with the counts of a valid frame taken where it takes them. -/
def OutLink.heard (x : OutLink) (tick rq : Nat) (ack : BitVec 8) (q : QId) (cc : BitVec 8) : OutLink :=
  if ({ x with lastRx := tick } : OutLink).counts rq then (({ x with lastRx := tick } : OutLink).ack ack).takeCcnt q cc
  else { x with lastRx := tick }

theorem OutLink.counts_iff (x : OutLink) (tick rq : Nat) :
    ({ x with lastRx := tick } : OutLink).counts rq = true ↔ x.takesCounts rq := by
  simp [OutLink.counts, OutLink.takesCounts]

/-! ### The answer to a request for a resync (R288, R300, R303) -/

/-- The frame that answers a request for a resync. -/
def State.syncFrame (s : State) (x : OutLink) : List (BitVec 36) := [s.linkFrame (if x.fresh then 2 else 1) x.first]

/-- The sender after RESYNC or RESTART, every stave of its buffer as `g` makes it. -/
def State.synced (s : State) (x : OutLink) (g : Resend → Resend) : OutLink :=
  { x with
    tx := [s.syncFrame x], lastTx := s.time.ticks, lastResync := s.time.ticks, rqAt := none, sync := true, answered := false
    resend := x.resend.map g }

theorem State.sendResync_setOut (x : OutLink) :
    (s.setOut x).sendResync false = s.setOut (s.synced x fun r => { r with wait := true }) ∧
    (s.setOut x).sendResync true = s.setOut (s.synced x fun r => { r with wait := true, need := true }) := by
  have hno (r : Resend) : ({ r with wait := true, need := r.need || false } : Resend) = { r with wait := true } := by
    rw [Bool.or_false]
  have hyes (r : Resend) : ({ r with wait := true, need := r.need || true } : Resend) = { r with wait := true, need := true } := by
    rw [Bool.or_true]
  constructor
  · unfold State.sendResync State.synced
    simp only [hno]
    rfl
  · unfold State.sendResync State.synced
    simp only [hyes]
    rfl

/-- Outside UP the answer is all that goes out. -/
theorem State.resync_of_not_up {x : OutLink} (h : x.st ≠ .up) :
    (s.setOut x).resync false = s.setOut (s.synced x fun r => { r with wait := true }) := by
  unfold State.resync
  rw [(s.sendResync_setOut x).1]
  exact State.drainResend_of_not_up _ h _

/-- With a new credit needed for each, none goes out after the answer but where the end is UP and a buffer waits. -/
theorem State.resync_of_fresh {x : OutLink} (h : x.st ≠ .up ∨ x.resend = []) :
    (s.setOut x).resync true = s.setOut (s.synced x fun r => { r with wait := true, need := true }) := by
  unfold State.resync
  rw [(s.sendResync_setOut x).2]
  rcases h with h | h
  · exact State.drainResend_of_not_up _ h _
  · refine State.drainResend_of_sent _ (fun r hr => ?_) _
    have hempty : (s.synced x fun r => { r with wait := true, need := true }).resend = [] := by simp [State.synced, h]
    rw [show (s.setOut (s.synced x fun r => { r with wait := true, need := true })).azl.out.resend = [] from hempty] at hr
    simp at hr

/-- UP, with no stave in need of a new credit, the buffer goes out in order after the answer. -/
theorem State.resync_of_up {x : OutLink} (h : x.st = .up) (hneed : ∀ r ∈ x.resend, r.need = false) (t : State)
    (ht : (s.setOut x).resync false = t) :
    t.azl = { s.azl with out := { s.synced x fun r => { r with wait := false } with
      tx := s.syncFrame x :: x.resend.map Resend.frame } } ∧
    t.events = (s.countN Ev.azresend 0 x.resend.length).events ∧ t.gov.acc8 = s.gov.acc8 + 8 * x.resend.length ∧
    s.linkFrameOf t := by
  have hdrain : (s.setOut x).resync false =
      (s.setOut (s.synced x fun r => { r with wait := true })).drainResend [s.syncFrame x] := by
    unfold State.resync
    rw [(s.sendResync_setOut x).1]
    rfl
  have hwait := State.drainResend_of_waiting (s.setOut (s.synced x fun r => { r with wait := true })) (l := x.resend) h hneed rfl
    [s.syncFrame x]
  rw [← hdrain, ht] at hwait
  obtain ⟨hazl, hevents, hgov, hframe⟩ := hwait
  refine ⟨hazl.trans ?_, hevents.trans (State.countN_events_congr ?_ _ _ _), hgov, hframe⟩
  on_goal 2 => rfl
  by_cases hl : x.resend = []
  · rw [if_pos hl, if_pos hl]
    cases x
    cases hl
    rfl
  · rw [if_neg hl, if_neg hl]
    rfl

section Heard

variable {s} {b : BitVec 38} (hrun : s.running = true) (hen : s.outEnabled = true) (hst : s.azl.out.st ≠ .down)
  (hbit : b.getLsbD 37 = true)
include hrun hen hst hbit

theorem State.rxCredit_of_bad (hok : creditOk b = false) : s.rxCredit b = s.count Ev.azcrc 0 := by
  unfold State.rxCredit
  dsimp only
  rw [if_neg (by simp [hrun, hen, hst, hbit]), if_pos (by simp [hok])]

/-- A fresh receiver's frame starts the credits afresh (R303). -/
theorem State.rxCredit_of_fresh (hok : creditOk b = true) (hrq : 2 ≤ creditRq b) :
    s.rxCredit b = (s.setOut (({ s.azl.out with
      lastRx := s.time.ticks, cred := Vector.replicate 16 0, ccnt := Vector.replicate 16 0 } : OutLink).takeCcnt
        (creditQueue b) (creditCount b))).resync true := by
  unfold State.rxCredit
  dsimp only
  rw [if_neg (by simp [hrun, hen, hst, hbit]), if_neg (by simp [hok])]
  exact if_pos hrq

theorem State.rxCredit_of_counts (hok : creditOk b = true) (hrq : creditRq b < 2) :
    s.rxCredit b =
      (let y := s.azl.out.heard s.time.ticks (creditRq b) (creditAck b) (creditQueue b) (creditCount b)
       if creditRq b = 0 then (s.setOut { y with episode := false, rqAt := none, answered := y.sync }).drainResend []
       else if y.episode && y.st == .up then (s.setOut { y with rqAt := some s.time.ticks }).drainResend []
       else (s.setOut { y with episode := true }).resync false) := by
  unfold State.rxCredit
  dsimp only
  rw [if_neg (by simp [hrun, hen, hst, hbit]), if_neg (by simp [hok])]
  exact if_neg (Nat.not_le.2 hrq)

end Heard

end Sys2Proof.Machine

open Sys2Proof Sys2Proof.Machine

/-- Settles O44: a frame is discarded, its counts are taken, or it is answered with a resync and the resends. -/
theorem creditFrameReceived : Obligations.CreditFrameReceived := by
  unfold Obligations.CreditFrameReceived
  intro b s hrun hen hst hbit x q ack cc rq takes left y sync
  have hy : x.heard s.time.ticks (creditRq b) (creditAck b) (creditQueue b) (creditCount b) = y := by
    have hcounts := x.counts_iff s.time.ticks (creditRq b)
    unfold OutLink.heard
    by_cases h : takes
    · rw [if_pos (hcounts.2 h)]
      simp only [y, left, if_pos h]
      rfl
    · rw [if_neg (mt hcounts.1 h)]
      simp only [y, left, if_neg h]
  have hcounted (hok : creditOk b = true) (hrq : rq < 2) := State.rxCredit_of_counts hrun hen hst hbit hok hrq
  refine ⟨fun hok hrq hsent => ?_, fun hok hrq => ⟨fun hup hep hsent => ?_, fun hup => ?_, fun hup hep hneed => ?_⟩,
    fun hok hrq hidle => ?_, fun hwf hok => ?_⟩
  · have hcount := hcounted hok (by omega)
    dsimp only at hcount
    rw [hy, if_pos (show creditRq b = 0 from hrq), State.drainResend_of_sent _ hsent] at hcount
    exact congrArg Host.Outcome.next hcount
  · have hone : ¬creditRq b = 0 := fun h => absurd (h.symm.trans hrq) (by decide)
    have hcount := hcounted hok (by omega)
    dsimp only at hcount
    rw [hy, if_neg hone, if_pos (by simp [y, hup, hep]), State.drainResend_of_sent _ hsent] at hcount
    exact congrArg Host.Outcome.next hcount
  · have hone : ¬creditRq b = 0 := fun h => absurd (h.symm.trans hrq) (by decide)
    have hcount := hcounted hok (by omega)
    dsimp only at hcount
    rw [hy, if_neg hone, if_neg (by simp [y, hup]),
      State.resync_of_not_up s (x := { y with episode := true }) hup] at hcount
    exact congrArg Host.Outcome.next hcount
  · have hone : ¬creditRq b = 0 := fun h => absurd (h.symm.trans hrq) (by decide)
    have hcount := hcounted hok (by omega)
    dsimp only at hcount
    rw [hy, if_neg hone, if_neg (by simp [y, hep])] at hcount
    obtain ⟨hazl, hevents, hgov, hframe⟩ := s.resync_of_up (x := { y with episode := true }) hup hneed _ hcount.symm
    exact ⟨_, rfl, hazl, fun hwf => s.counted_of_events hwf hevents, hgov, hframe⟩
  · have hfresh := State.rxCredit_of_fresh hrun hen hst hbit hok hrq
    rw [State.resync_of_fresh s (x := OutLink.takeCcnt { s.azl.out with
      lastRx := s.time.ticks, cred := Vector.replicate 16 0, ccnt := Vector.replicate 16 0 } (creditQueue b) (creditCount b))
      hidle] at hfresh
    refine congrArg Host.Outcome.next (hfresh.trans ?_)
    have hcred : (Vector.replicate 16 0 : Vector Nat 16).set q.val
        ((Vector.replicate 16 0 : Vector Nat 16)[q.val] + (cc - (Vector.replicate 16 (0 : BitVec 8))[q.val]).toNat) =
        (Vector.replicate 16 0).set q.val cc.toNat := by simp
    rw [← hcred]
    rfl
  · obtain ⟨hcount, hframe⟩ := State.counted_count (t := s) hwf rfl Ev.azcrc 0 1
    exact ⟨_, congrArg Host.Outcome.next (State.rxCredit_of_bad hrun hen hst hbit hok), hframe, hcount⟩

end

section
/-!
SUPPORT. Slots taken from R.

R past a slot, R past several; then what `takeSlots` answers and leaves where no billet of the queue is lost.
-/

-- The theorems one after another: side by side they take more threads than the check allows.
set_option Elab.async false

namespace Sys2Proof.Machine

variable (s : State) (x : Queue)

/-! ### R past several slots (R160) -/

/-- R past one slot changes the positions and the two counters of delivery alone. -/
theorem Queue.advance_eq : x.advance = { x with
    r := x.r + 1, f := if x.r = x.f then x.r + 1 else x.f, rcnt := if x.r = x.f then x.rcnt + 1 else x.rcnt
    xcnt := if x.r = x.f then x.xcnt else x.xcnt + 1 } := by
  unfold Queue.advance
  split <;> rfl

/-- R past `n` slots. -/
def Queue.advanceN : Nat → Queue → Queue
  | 0, x => x
  | n + 1, x => advanceN n x.advance

/-- A queue as a reader leaves it in a stave: what it has read of the stave, and the errors found there. -/
def Queue.readAs (x : Queue) (k : Option Nat) (e : Table StaveEcc) : Queue := { x with rdStave := k, ecc := e }

theorem Queue.advance_readAs (k : Option Nat) (e : Table StaveEcc) : (x.readAs k e).advance = x.advance.readAs k e := by
  rw [Queue.advance_eq, Queue.advance_eq]
  rfl

theorem Queue.advanceN_readAs (k : Option Nat) (e : Table StaveEcc) (n : Nat) :
    (x.readAs k e).advanceN n = (x.advanceN n).readAs k e := by
  induction n generalizing x with
  | zero => rfl
  | succ n ih => rw [Queue.advanceN, Queue.advance_readAs, ih, Queue.advanceN]

theorem ofNat_succ_pos (n : Nat) : (BitVec.ofNat 48 (n + 1) : Pos) = 1 + BitVec.ofNat 48 n := by
  rw [Nat.add_comm n 1, BitVec.ofNat_add]
  rfl

theorem Queue.advanceN_eq (n : Nat) : x.advanceN n = { x with
    r := x.r + BitVec.ofNat 48 n, f := (x.advanceN n).f, rcnt := (x.advanceN n).rcnt, xcnt := (x.advanceN n).xcnt } := by
  induction n generalizing x with
  | zero => simp [Queue.advanceN]
  | succ n ih =>
    have hstep := ih x.advance
    rw [show x.advanceN (n + 1) = x.advance.advanceN n from rfl]
    generalize x.advance.advanceN n = y at hstep ⊢
    have hlift := congrArg (fun z : Queue => ({ z with
      r := z.r + BitVec.ofNat 48 n, f := y.f, rcnt := y.rcnt, xcnt := y.xcnt } : Queue)) x.advance_eq
    rw [ofNat_succ_pos, ← BitVec.add_assoc]
    exact hstep.trans hlift

theorem Queue.advance_off (p : Pos) : x.advance.off p = x.off p := by
  rw [Queue.advance_eq]
  rfl

/-- Slots from F on count in RCNT and advance F, those below it in XCNT (R160). -/
theorem Queue.advanceN_counts (n : Nat) (hfr : x.off x.r ≤ x.off x.f) (hn : x.off x.r + n < 2 ^ 48) :
    (x.advanceN n).f = (if min n (x.off x.f - x.off x.r) = n then x.f else x.r + BitVec.ofNat 48 n) ∧
    (x.advanceN n).rcnt = x.rcnt + BitVec.ofNat 48 (n - min n (x.off x.f - x.off x.r)) ∧
    (x.advanceN n).xcnt = x.xcnt + BitVec.ofNat 48 (min n (x.off x.f - x.off x.r)) := by
  induction n generalizing x with
  | zero => simp [Queue.advanceN]
  | succ n ih =>
    have hoff : x.off (x.r + 1) = x.off x.r + 1 := x.off_succ (by omega)
    have hcount : (x.off x.r = x.off x.f) ↔ x.r = x.f := ⟨x.off_inj, fun h => by rw [h]⟩
    have hr : x.advance.r = x.r + 1 := congrArg Queue.r x.advance_eq
    have hf : x.advance.f = if x.r = x.f then x.r + 1 else x.f := congrArg Queue.f x.advance_eq
    have hrc : x.advance.rcnt = if x.r = x.f then x.rcnt + 1 else x.rcnt := congrArg Queue.rcnt x.advance_eq
    have hxc : x.advance.xcnt = if x.r = x.f then x.xcnt else x.xcnt + 1 := congrArg Queue.xcnt x.advance_eq
    have hstep := ih x.advance
    simp only [Queue.advance_off, hr, hf, hrc, hxc, hoff] at hstep
    rw [show x.advanceN (n + 1) = x.advance.advanceN n from rfl]
    by_cases h : x.r = x.f
    · have hzero : x.off x.f - x.off x.r = 0 := by rw [h, Nat.sub_self]
      simp only [if_pos h, hoff] at hstep
      obtain ⟨kf, krc, kxc⟩ := hstep (Nat.le_refl _) (by omega)
      rw [kf, krc, kxc, hzero]
      simp only [Nat.sub_self, Nat.min_zero, Nat.sub_zero, ofNat_succ_pos, BitVec.add_assoc]
      refine ⟨?_, trivial, trivial⟩
      cases n with
      | zero => simp
      | succ n => simp
    · have hlt : x.off x.r < x.off x.f := lt_of_le_of_ne hfr (mt hcount.1 h)
      simp only [if_neg h] at hstep
      obtain ⟨kf, krc, kxc⟩ := hstep (by omega) (by omega)
      rw [kf, krc, kxc]
      have hrep : min (n + 1) (x.off x.f - x.off x.r) = min n (x.off x.f - (x.off x.r + 1)) + 1 := by omega
      rw [hrep]
      simp only [Nat.add_right_cancel_iff, Nat.add_sub_add_right, ofNat_succ_pos, BitVec.add_assoc]
      exact ⟨trivial, trivial, trivial⟩

/-! ### Slots taken from R -/

/-- `t` is `s` but for queue `q`, events, the governor's counts and the order of stamps. -/
structure State.Takes (s t : State) (q : QId) : Prop where
  frame : t = { s with queues := t.queues, events := t.events, gov := t.gov, order := t.order }
  others : ∀ k, k ≠ q → t.qu k = s.qu k

theorem State.takes_refl (q : QId) : s.Takes s q := ⟨rfl, fun _ _ => rfl⟩

theorem State.Takes.trans {s t u : State} {q : QId} (h : s.Takes t q) (k : t.Takes u q) : s.Takes u q := by
  have hframe := congrArg (fun v : State => ({ v with
    queues := u.queues, events := u.events, gov := u.gov, order := u.order } : State)) h.frame
  exact ⟨k.frame.trans hframe, fun j hj => (k.others j hj).trans (h.others j hj)⟩

theorem State.modQu_takes (q : QId) (g : Queue → Queue) : s.Takes (s.modQu q g) q :=
  ⟨rfl, fun k hk => s.modQu_qu_ne q k g hk⟩

theorem State.readStave_takes (q : QId) (stave : Nat) (e : Ecc) : s.Takes (s.readStave q stave e) q := by
  have hcount (t : State) (code : Nat) : t.Takes (t.count code 0) q :=
    ⟨by
      have h := t.countN_frame code 0 1
      exact h.trans (congrArg (fun v : State => ({ t with
        queues := v.queues, events := (t.countN code 0 1).events, gov := v.gov, order := v.order } : State)) h).symm,
      fun k _ => (congrArg (fun v : State => v.qu k) (t.countN_frame code 0 1) :)⟩
  unfold State.readStave
  dsimp only
  split
  · exact (s.modQu_takes q _).trans (hcount _ _)
  · split
    · exact hcount _ _
    · exact s.takes_refl q

theorem State.readStave_clean {q : QId} {stave : Nat} (h : (s.qu q).eccOf stave = StaveEcc.clean) :
    s.readStave q stave .clean = s := by
  unfold State.readStave
  dsimp only
  rw [h]
  rfl

/-- A reader enters a stave: what it has read there, and the errors found, change of the queue alone. -/
theorem State.enterStave_takes (q : QId) (stave : Nat) (ecc : List Ecc) :
    s.Takes (s.enterStave q stave ecc).1 q ∧ ∃ k e, ((s.enterStave q stave ecc).1.qu q) = (s.qu q).readAs k e := by
  unfold State.enterStave
  split
  · exact ⟨s.takes_refl q, _, _, rfl⟩
  · have hread := (s.readStave_readsOnly q stave (ecc.headD .clean)).queue q
    have htakes := s.readStave_takes q stave (ecc.headD .clean)
    generalize s.readStave q stave (ecc.headD .clean) = t at hread htakes
    refine ⟨(htakes.trans (t.modQu_takes q _)).trans ⟨rfl, fun _ _ => rfl⟩, some stave, (t.qu q).ecc, ?_⟩
    have hqu : (t.modQu q fun x => { x with rdStave := some stave }).qu q = { t.qu q with rdStave := some stave } :=
      t.modQu_qu q _
    exact hqu.trans (congrArg (fun y : Queue => ({ y with rdStave := some stave } : Queue)) hread)

/-- Where the reader has found no error and none comes, entering a stave counts and marks none. -/
theorem State.enterStave_clean {q : QId} (stave : Nat) (h : ∀ k, (s.qu q).eccOf k = StaveEcc.clean) :
    (s.enterStave q stave []).2 = [] ∧ (s.enterStave q stave []).1.events = s.events ∧
      ((s.enterStave q stave []).1.qu q).ecc = (s.qu q).ecc := by
  unfold State.enterStave
  split
  · exact ⟨rfl, rfl, rfl⟩
  · rw [show ([] : List Ecc).headD .clean = .clean from rfl, s.readStave_clean (h stave)]
    exact ⟨rfl, rfl, (congrArg Queue.ecc (s.modQu_qu q fun x => { x with rdStave := some stave }) :)⟩

/-- The slots from R in order, with R past them, where no billet of the queue is lost and it holds them all. -/
theorem State.takeSlots_spec {q : QId} (n : Nat) (ecc : List Ecc) (hlost : (s.qu q).noLost)
    (hn : (s.qu q).off (s.qu q).r + n ≤ (s.qu q).held.length) (hlen : (s.qu q).held.length < 2 ^ 48) :
    s.Takes (s.takeSlots n q ecc).2.2 q ∧
    (∃ k e, (s.takeSlots n q ecc).2.2.qu q = ((s.qu q).advanceN n).readAs k e) ∧
    (s.takeSlots n q ecc).1.map (·.v) = ((s.qu q).held.drop ((s.qu q).off (s.qu q).r)).take n ∧
    (ecc = [] → (∀ k, (s.qu q).eccOf k = StaveEcc.clean) →
      (s.takeSlots n q ecc).2.2.events = s.events ∧ ∀ v ∈ (s.takeSlots n q ecc).1, v.poison = false) := by
  induction n generalizing s ecc with
  | zero => exact ⟨s.takes_refl q, ⟨_, _, rfl⟩, by simp [State.takeSlots], fun _ _ => ⟨rfl, by simp [State.takeSlots]⟩⟩
  | succ n ih =>
    rw [State.takeSlots, s.jumpLost_of_noLost hlost]
    obtain ⟨htakes, k, e, hqu⟩ := s.enterStave_takes q ((s.qu q).r.toNat / 32) ecc
    have hclean := s.enterStave_clean (q := q) ((s.qu q).r.toNat / 32)
    have hslot : (s.qu q).slotAt ((s.qu q).off (s.qu q).r) = some ((s.qu q).held[(s.qu q).off (s.qu q).r]'(by omega)) := by
      unfold Queue.slotAt
      rw [if_pos (by omega), List.getElem?_eq_getElem]
    have hnext := List.drop_eq_getElem_cons (show (s.qu q).off (s.qu q).r < (s.qu q).held.length by omega)
    have hoff : (s.qu q).off ((s.qu q).r + 1) = (s.qu q).off (s.qu q).r + 1 := (s.qu q).off_succ (by omega)
    have hclean' (hnil : ecc = []) (hall : ∀ k, (s.qu q).eccOf k = StaveEcc.clean) :
        (s.enterStave q ((s.qu q).r.toNat / 32) ecc).2 = [] ∧
        (s.enterStave q ((s.qu q).r.toNat / 32) ecc).1.events = s.events ∧ e = (s.qu q).ecc := by
      subst hnil
      obtain ⟨hnone, hevents, hecc⟩ := hclean hall
      rw [hqu] at hecc
      exact ⟨hnone, hevents, hecc⟩
    generalize s.enterStave q ((s.qu q).r.toNat / 32) ecc = p at htakes hqu hclean' ⊢
    obtain ⟨u, ecc'⟩ := p
    dsimp only at htakes hqu hclean' ⊢
    have hslot' : (u.qu q).slotAt ((u.qu q).off (u.qu q).r) = some ((s.qu q).held[(s.qu q).off (s.qu q).r]'(by omega)) := by
      rw [hqu]
      exact hslot
    rw [hslot']
    dsimp only
    have hset : (u.setQu q (u.qu q).advance).qu q = (s.qu q).advance.readAs k e := by
      rw [State.setQu_qu, hqu, Queue.advance_readAs]
    have hstep := ih (u.setQu q (u.qu q).advance) ecc'
    have htakes' : s.Takes (u.setQu q (u.qu q).advance) q := htakes.trans ⟨rfl, fun j hj => u.setQu_qu_ne q j _ hj⟩
    have hevents' : (u.setQu q (u.qu q).advance).events = u.events := rfl
    generalize u.setQu q (u.qu q).advance = w at hset hstep htakes' hevents' ⊢
    have hadv := (s.qu q).advance_eq
    rw [show (s.qu q).advanceN (n + 1) = (s.qu q).advance.advanceN n from rfl]
    generalize (s.qu q).advance = y at hset hadv ⊢
    have hheld : (w.qu q).held = (s.qu q).held := by
      rw [hset]
      exact (congrArg Queue.held hadv :)
    have hr : (w.qu q).off (w.qu q).r = (s.qu q).off (s.qu q).r + 1 := by
      rw [hset, ← hoff]
      exact (congrArg (fun z : Queue => z.off z.r) hadv :)
    have hlost' : (w.qu q).noLost := by
      rw [hset]
      have hbillets : y.billets = (s.qu q).billets := (congrArg Queue.billets hadv :)
      intro b hb
      exact hlost b (hbillets ▸ hb)
    rw [hheld, hr] at hstep
    obtain ⟨htook, ⟨k', e', hqu'⟩, hslots, hnone⟩ := hstep hlost' (by omega) hlen
    refine ⟨htakes'.trans htook, ⟨k', e', ?_⟩, ?_, fun hnil hall => ?_⟩
    · rw [hqu', hset, Queue.advanceN_readAs]
      rfl
    · rw [hnext, List.take_succ_cons, ← hslots]
      rfl
    · obtain ⟨hecc', hevents, he⟩ := hclean' hnil hall
      have hall' (j : Nat) : (w.qu q).eccOf j = StaveEcc.clean := by
        rw [hset, ← hall j, he]
        rfl
      obtain ⟨kevents, kpoison⟩ := hnone hecc' hall'
      refine ⟨kevents.trans (hevents'.trans hevents), fun v hv => ?_⟩
      rcases List.mem_cons.1 hv with rfl | hv
      · rw [hqu, he]
        exact congrArg StaveEcc.poison (hall _)
      · exact kpoison v hv

end Sys2Proof.Machine

end

section
/-!
O43. What the two ends of the link send.
-/

-- The theorems one after another: side by side they take more threads than the check allows.
set_option Elab.async false

namespace Sys2Proof.Machine

variable (s : State)

/-! ### What a jump and a delivery leave -/

/-- `t` is `s` but for queue `q`, whose W stays, and the requests of the channels. -/
structure State.Jumps (s t : State) (q : QId) : Prop where
  frame : t = { s with queues := t.queues, chans := t.chans }
  others : ∀ k, k ≠ q → t.qu k = s.qu k
  w : (t.qu q).w = (s.qu q).w

/-- `t` is `s` but for queue `q`, whose W stays, events, the governor's counts, the order of stamps and the channels'
requests. -/
structure State.Walks (s t : State) (q : QId) : Prop where
  frame : t = { s with queues := t.queues, events := t.events, gov := t.gov, order := t.order, chans := t.chans }
  others : ∀ k, k ≠ q → t.qu k = s.qu k
  w : (t.qu q).w = (s.qu q).w

theorem State.jumps_refl (q : QId) : s.Jumps s q := ⟨rfl, fun _ _ => rfl, rfl⟩
theorem State.walks_refl (q : QId) : s.Walks s q := ⟨rfl, fun _ _ => rfl, rfl⟩

theorem State.Jumps.trans {s t u : State} {q : QId} (h : s.Jumps t q) (k : t.Jumps u q) : s.Jumps u q := by
  have hframe := congrArg (fun v : State => ({ v with queues := u.queues, chans := u.chans } : State)) h.frame
  exact ⟨k.frame.trans hframe, fun j hj => (k.others j hj).trans (h.others j hj), k.w.trans h.w⟩

theorem State.Walks.trans {s t u : State} {q : QId} (h : s.Walks t q) (k : t.Walks u q) : s.Walks u q := by
  have hframe := congrArg (fun v : State => ({ v with
    queues := u.queues, events := u.events, gov := u.gov, order := u.order, chans := u.chans } : State)) h.frame
  exact ⟨k.frame.trans hframe, fun j hj => (k.others j hj).trans (h.others j hj), k.w.trans h.w⟩

theorem State.Jumps.walks {s t : State} {q : QId} (h : s.Jumps t q) : s.Walks t q := by
  have hframe := congrArg (fun v : State => ({ v with
    events := t.events, gov := t.gov, order := t.order } : State)) h.frame
  exact ⟨hframe, h.others, h.w⟩

theorem State.Takes.walks {s t : State} {q : QId} (h : s.Takes t q) (hw : (t.qu q).w = (s.qu q).w) : s.Walks t q := by
  have hframe := congrArg (fun v : State => ({ v with chans := t.chans } : State)) h.frame
  exact ⟨hframe, h.others, hw⟩

theorem State.setQu_jumps {q : QId} {x : Queue} (h : x.w = (s.qu q).w) : s.Jumps (s.setQu q x) q :=
  ⟨rfl, fun k hk => s.setQu_qu_ne q k x hk, by rw [State.setQu_qu, h]⟩

theorem State.settle_jumps (q : QId) : s.Jumps (s.settle q) q := by
  obtain ⟨x, chans, hset, hpasses⟩ := s.settle_passes q
  refine ⟨?_, fun k hk => s.settle_qu_ne hk, ?_⟩
  · rw [hset]
    rfl
  · rw [hset]
    exact ((congrArg Queue.w (s.setQu_qu q x) :)).trans (congrArg Queue.w hpasses.eq :)

theorem Queue.jump_w (x : Queue) (t : Nat) : (x.jump t).w = x.w := by
  unfold Queue.jump
  dsimp only
  split <;> rfl

theorem State.jumpN_jumps (n : Nat) (q : QId) : s.Jumps (s.jumpN n q) q := by
  induction n generalizing s with
  | zero => exact s.jumps_refl q
  | succ n ih =>
    rw [State.jumpN]
    split
    · exact s.jumps_refl q
    next t _ => exact ((s.setQu_jumps ((s.qu q).jump_w t)).trans (State.settle_jumps _ q)).trans (ih _)

theorem State.jumpLost_jumps (q : QId) : s.Jumps (s.jumpLost q) q := s.jumpN_jumps _ q

theorem State.enterStave_walks (q : QId) (stave : Nat) (ecc : List Ecc) : s.Walks (s.enterStave q stave ecc).1 q := by
  obtain ⟨htakes, k, e, hqu⟩ := s.enterStave_takes q stave ecc
  exact htakes.walks (by rw [hqu]; rfl)

theorem State.takeSlots_walks (n : Nat) (q : QId) (ecc : List Ecc) : s.Walks (s.takeSlots n q ecc).2.2 q := by
  induction n generalizing s ecc with
  | zero => exact s.walks_refl q
  | succ n ih =>
    rw [State.takeSlots]
    have hjump := (s.jumpLost_jumps q).walks
    generalize s.jumpLost q = t at hjump ⊢
    dsimp only
    have henter := hjump.trans (t.enterStave_walks q ((t.qu q).r.toNat / 32) ecc)
    generalize t.enterStave q ((t.qu q).r.toNat / 32) ecc = p at henter ⊢
    obtain ⟨u, ecc'⟩ := p
    dsimp only at henter ⊢
    split
    · exact henter
    · have hw : (u.qu q).advance.w = (u.qu q).w := (congrArg Queue.w (u.qu q).advance_eq :)
      exact (henter.trans (u.setQu_jumps hw).walks).trans (ih _ _)

/-! ### A stave sent (R292, R293, R297) -/

/-- A state with its demand count back at `n`. -/
def State.withAcc (s : State) (n : Nat) : State := { s with gov := { s.gov with acc8 := n } }

theorem State.withAcc_walks (n : Nat) (q : QId) : s.Walks ((s.withAcc n).demand 8) q := ⟨rfl, fun _ _ => rfl, rfl⟩

/-- The sender with one more stave in its buffer. -/
def OutLink.sent (x : OutLink) (tick : Nat) (q : QId) (slots : List Slot9) (poison : Bool) : OutLink :=
  { x with
    nseq := x.nseq + 1, cred := x.cred.set q.val (x.cred[q.val] - 1)
    asent := x.asent.set q.val (x.asent[q.val] + 1), resend := x.resend ++ [⟨x.nseq, q, slots, poison, false, false⟩]
    tx := [staveFrame x.nseq q slots poison], lastTx := tick }

/-- What follows a stave: a jump past lost billets that R has reached, and the flags. -/
theorem State.jumpLost_scale (q : QId) (t : State) (ht : (s.jumpLost q).scale q = t) :
    t.azl = s.azl ∧ t.gov = s.gov ∧ t.ports = s.ports ∧ (t.qu q).w = (s.qu q).w ∧ s.otherQueues t q ∧
    ((s.qu q).noLost → (t.qu q).r = (s.qu q).r) := by
  subst ht
  have hjump := s.jumpLost_jumps q
  have hstay := s.jumpLost_of_noLost (q := q)
  generalize s.jumpLost q = u at hjump hstay ⊢
  obtain ⟨hframe, hothers, hw⟩ := hjump
  refine ⟨(congrArg State.azl hframe :), (congrArg State.gov hframe :), (congrArg State.ports hframe :),
    (u.scale_qu_w q q).trans hw, fun k hk => ?_, fun h => ?_⟩
  · rw [State.scale_qu_bare, hothers k hk]
  · rw [State.scale_qu_r, hstay h]

variable {s}

/-- The slots of the stave are those that the read takes; only its queue, the sender and the counts of a transfer change. -/
theorem State.staveSend_spec {q : QId} {ecc : List Ecc} (hrun : s.running = true) (hclk : s.time.refclk = true)
    (hen : s.outEnabled = true) (hup : s.azl.out.st = .up) (htwin : s.twin = false) (hread : (s.qu q).chainRead = true)
    (hholder : s.holder q = none) (hforced : (s.qu q).forced = false) (hcred : 0 < s.azl.out.cred[q.val])
    (hsent : ∀ r ∈ s.azl.out.resend, r.wait = false) (hsize : s.sendSize q ≠ 0) (t : State) (ht : s.staveSend q ecc = t) :
    (∃ poison, t.azl = { s.azl with
      out := s.azl.out.sent s.time.ticks q ((s.takeSlots (s.sendSize q) q ecc).1.map (·.v)) poison }) ∧
    t.gov.acc8 = s.gov.acc8 + 8 ∧ t.ports = s.ports ∧ (t.qu q).w = (s.qu q).w ∧ s.otherQueues t q ∧
    ((s.qu q).noLost → (s.qu q).off (s.qu q).r + s.sendSize q ≤ (s.qu q).held.length → (s.qu q).held.length < 2 ^ 48 →
      (t.qu q).r = (s.qu q).r + BitVec.ofNat 48 (s.sendSize q)) := by
  unfold State.staveSend at ht
  dsimp only at ht
  rw [if_pos (by simp [hrun, hclk, hen, hup, htwin, hread, hholder, hforced, hcred, hsize]; exact hsent)] at ht
  have hwalk := s.takeSlots_walks (s.sendSize q) q ecc
  have hspec := s.takeSlots_spec (q := q) (s.sendSize q) ecc
  generalize s.takeSlots (s.sendSize q) q ecc = p at hwalk hspec ht ⊢
  obtain ⟨vs, ecc', u⟩ := p
  dsimp only at hwalk hspec ht ⊢
  have hpaid := hwalk.trans (u.withAcc_walks s.gov.acc8 q)
  have hacc : ((u.withAcc s.gov.acc8).demand 8).gov.acc8 = s.gov.acc8 + 8 := rfl
  have hqu : ((u.withAcc s.gov.acc8).demand 8).qu q = u.qu q := rfl
  replace ht : (State.jumpLost (State.setOut (((u.withAcc s.gov.acc8).demand 8).settle q)
    (s.azl.out.sent (((u.withAcc s.gov.acc8).demand 8).settle q).time.ticks q (vs.map (·.v)) (vs.any (·.poison)))) q).scale q =
      t := ht
  generalize (u.withAcc s.gov.acc8).demand 8 = v at hpaid hacc hqu ht
  have hsettle := v.settle_jumps q
  obtain ⟨z, chans, hz, hpasses⟩ := v.settle_passes q
  have hvz : (v.settle q).qu q = z := by rw [hz]; exact State.setQu_qu v q z
  generalize v.settle q = w at hsettle hvz ht
  obtain ⟨hframe, hothers, hw⟩ := hpaid.trans hsettle.walks
  have htime : w.time = s.time := (congrArg State.time hframe :)
  rw [htime] at ht
  have hgov : w.gov = v.gov := (congrArg State.gov hsettle.frame :)
  obtain ⟨kazl, kgov, kports, kw, kothers, kr⟩ := (w.setOut _).jumpLost_scale q t ht
  refine ⟨⟨vs.any (·.poison), kazl.trans ?_⟩, ?_, kports.trans (congrArg State.ports hframe :), kw.trans hw, fun k hk => ?_,
    fun hlost hfit hlen => ?_⟩
  · have hazl : w.azl = s.azl := (congrArg State.azl hframe :)
    exact congrArg (fun a : Azl => ({ a with out := s.azl.out.sent s.time.ticks q (vs.map (·.v)) (vs.any (·.poison)) } : Azl)) hazl
  · rw [kgov, ← hacc, ← hgov]
    rfl
  · rw [kothers k hk, ← hothers k hk]
    rfl
  · obtain ⟨-, ⟨j, e, hadv⟩, -, -⟩ := hspec hlost hfit hlen
    have hr : (v.qu q).r = (s.qu q).r + BitVec.ofNat 48 (s.sendSize q) := by
      rw [hqu, hadv]
      exact (congrArg Queue.r ((s.qu q).advanceN_eq (s.sendSize q)) :)
    have hbillets : (v.qu q).billets = (s.qu q).billets := by
      rw [hqu, hadv]
      exact (congrArg Queue.billets ((s.qu q).advanceN_eq (s.sendSize q)) :)
    have hlost' : (v.qu q).noLost := fun b hb => hlost b (hbillets ▸ hb)
    have hkeep : (w.qu q).r = (v.qu q).r := by
      rw [hvz]
      exact (congrArg Queue.r hpasses.eq :)
    have hwlost : (w.qu q).noLost := by rw [hvz]; exact hpasses.noLost hlost'
    exact (kr hwlost).trans (hkeep.trans hr)

theorem State.staveSend_of_not {q : QId} {ecc : List Ecc}
    (h : s.twin = true ∨ s.azl.out.cred[q.val] = 0 ∨ (s.qu q).chainRead = false ∨ s.sendSize q = 0) :
    s.staveSend q ecc = s := by
  unfold State.staveSend
  refine if_neg fun hall => ?_
  simp only [Bool.and_eq_true, Bool.not_eq_true', decide_eq_true_eq, bne_iff_ne] at hall
  obtain ⟨⟨⟨⟨⟨⟨-, htwin⟩, hread⟩, -⟩, -⟩, hcred⟩, -⟩ := hall.1
  rcases h with h | h | h | h
  · rw [h] at htwin
    nomatch htwin
  · omega
  · rw [h] at hread
    nomatch hread
  · exact hall.2 h

/-! ### Credits granted, and a resync again (R288, R291) -/

theorem State.linkGrant_of_turn {q : QId} (hrun : s.running = true) (hen : s.inEnabled = true) (hup : s.azl.inn.st = .up)
    (hfed : s.chainFed q = true) (hq : (s.qu q).en = true) (hreset : (s.qu q).resetting = false) :
    (s.azl.inn.out[q.val] < 32 → s.azl.inn.out.sum < 64 → 32 ≤ s.free q - (s.qu q).ffresSlots - s.resv q →
      s.frameFor q 32 = true → s.linkGrant q = (s.setIn { s.azl.inn with
        out := s.azl.inn.out.set q.val (s.azl.inn.out[q.val] + 1)
        ccnt := s.azl.inn.ccnt.set q.val (s.azl.inn.ccnt[q.val] + 1) }).scale q) ∧
    (32 ≤ s.azl.inn.out[q.val] ∨ 64 ≤ s.azl.inn.out.sum ∨ s.free q - (s.qu q).ffresSlots - s.resv q < 32 ∨
      s.frameFor q 32 = false → s.linkGrant q = s) := by
  refine ⟨fun hone hall hfree hframe => ?_, fun h => ?_⟩
  · unfold State.linkGrant
    exact if_pos (by simp [hrun, hen, hup, hfed, hq, hreset, hone, hall, hfree, hframe])
  · unfold State.linkGrant
    refine if_neg fun hgo => ?_
    simp only [Bool.and_eq_true, decide_eq_true_eq] at hgo
    obtain ⟨⟨⟨⟨-, hone⟩, hall⟩, hfree⟩, hframe⟩ := hgo
    rcases h with h | h | h | h
    · omega
    · omega
    · omega
    · rw [h] at hframe
      nomatch hframe

theorem State.resyncAgain_of_due {k : Nat} (hrun : s.running = true) (hclk : s.time.refclk = true) (hen : s.outEnabled = true)
    (hup : s.azl.out.st = .up) (hat : s.azl.out.rqAt = some k) (hstill : s.time.ticks ≤ k + 100)
    (hdue : s.azl.out.lastResync + 200 ≤ s.time.ticks) : s.resyncAgain = s.resync false := by
  unfold State.resyncAgain
  exact if_pos (by simp [hrun, hclk, hen, hup, hat, hstill, hdue])

theorem State.resyncAgain_of_not (h : s.azl.out.rqAt = none ∨ s.time.ticks < s.azl.out.lastResync + 200) :
    s.resyncAgain = s := by
  unfold State.resyncAgain
  refine if_neg fun hgo => ?_
  simp only [Bool.and_eq_true, decide_eq_true_eq] at hgo
  obtain ⟨⟨-, hstill⟩, hdue⟩ := hgo
  rcases h with h | h
  · rw [h] at hstill
    nomatch hstill
  · omega

end Sys2Proof.Machine

open Sys2Proof Sys2Proof.Machine

/-- Settles O43: what each end sends in its turn, and what it withholds. -/
theorem linkEndsSend : Obligations.LinkEndsSend := by
  unfold Obligations.LinkEndsSend
  refine ⟨fun s hrun hen => ⟨fun q hup hfed hq hreset => ?_, fun hst hdue => ?_⟩,
    fun s hrun hclk hen hup => ⟨fun q ecc htwin hread hholder hforced hcred hsent hsize => ?_, fun q ecc h => ?_,
      fun hdue => ?_, fun k hat hstill hdue hneed => ?_, fun h => ?_⟩⟩
  · obtain ⟨hgrant, hkeep⟩ := State.linkGrant_of_turn hrun hen hup hfed hq hreset
    refine ⟨fun hone hall hfree hframe => ⟨_, rfl, ?_⟩, fun h => congrArg Host.Outcome.next (hkeep h)⟩
    rw [hgrant hone hall hfree hframe]
    exact State.scale_bare _ q
  · refine congrArg Host.Outcome.next ?_
    unfold State.creditSend
    refine if_pos ?_
    rcases hdue with hdue | hdue | hdue <;> simp [hrun, hen, hst, hdue]
  · obtain ⟨⟨poison, hazl⟩, hgov, hports, hw, hothers, hr⟩ :=
      State.staveSend_spec hrun hclk hen hup htwin hread hholder hforced hcred hsent hsize _ rfl (ecc := ecc)
    refine ⟨_, ⟨s.azl.out.nseq, q, (s.takeSlots (s.sendSize q) q ecc).1.map Slot.v, poison, false, false⟩, rfl,
      (congrArg Azl.out hazl :), rfl, rfl, rfl, rfl, hgov, fun hlost hocc hfit => ?_, (congrArg Azl.inn hazl :), hw, hothers, hports⟩
    have hlen : (s.qu q).held.length < 2 ^ 48 := by
      rw [hocc]
      exact BitVec.isLt _
    rw [← hocc] at hfit
    obtain ⟨-, -, hslots, -⟩ := s.takeSlots_spec (s.sendSize q) ecc hlost hfit hlen
    exact ⟨hslots, hr hlost hfit hlen⟩
  · exact congrArg Host.Outcome.next (State.staveSend_of_not h)
  · exact congrArg Host.Outcome.next (if_pos (by simp [hrun, hclk, hen, hup, hdue]))
  · obtain ⟨hazl, hevents, hgov, hframe⟩ := s.resync_of_up (x := s.azl.out) hup hneed _ rfl
    have hgo := State.resyncAgain_of_due hrun hclk hen hup hat hstill hdue
    refine ⟨_, congrArg Host.Outcome.next hgo, hazl, fun hwf => State.counted_of_events s hwf hevents, hframe⟩
  · exact congrArg Host.Outcome.next (State.resyncAgain_of_not h)

end

section
/-!
O41. Stave frames received.
-/

-- The theorems one after another: side by side they take more threads than the check allows.
set_option Elab.async false

namespace Sys2Proof.Machine

variable (s : State)

/-! ### A queue after a chain arrival (R125, R294, R311) -/

/-- A queue with the slots of a stave frame committed at W. -/
def Queue.chained (x : Queue) (vs : List Slot9) (poison part : Bool) : Queue :=
  (x.poisonFrom poison vs.length (x.push vs part)).parse x.w vs part

theorem Queue.parseOne_eq (x : Queue) (p : Pos) (v : Slot9) : x.parseOne p v = { x with segs := (x.parseOne p v).segs } := by
  unfold Queue.parseOne
  repeat' split
  all_goals rfl

theorem Queue.parse_eq (x : Queue) (w : Pos) (vs : List Slot9) (part : Bool) : x.parse w vs part =
    { x with segs := (x.parse w vs part).segs, tailCut := (x.parse w vs part).tailCut } := by
  have hfold (l : List (Slot9 × Nat)) : ∃ gs, l.foldl (fun y (v, i) => y.parseOne (w + BitVec.ofNat 48 i) v) x = { x with segs := gs } :=
    List.foldlRecOn (motive := fun y : Queue => ∃ gs, y = { x with segs := gs }) l _ ⟨x.segs, rfl⟩ fun y hy e _ => by
      obtain ⟨gs, rfl⟩ := hy
      exact ⟨_, Queue.parseOne_eq _ _ _⟩
  obtain ⟨gs, hgs⟩ := hfold vs.zipIdx
  unfold Queue.parse
  rw [hgs]

theorem Queue.poisonFrom_eq (x y : Queue) (poison : Bool) (n : Nat) :
    x.poisonFrom poison n y = { y with ecc := (x.poisonFrom poison n y).ecc } := by
  unfold Queue.poisonFrom
  split
  · obtain ⟨e, he⟩ := List.foldlRecOn (motive := fun z : Queue => ∃ e, z = { y with ecc := e }) (x.tailStaves n)
      (fun z st => z.setEcc st { z.eccOf st with poison := true }) ⟨y.ecc, rfl⟩ fun z hz st _ => by
        obtain ⟨e, rfl⟩ := hz
        exact ⟨_, rfl⟩
    rw [he]
  · rfl

theorem Queue.chained_eq (x : Queue) (vs : List Slot9) (poison part : Bool) : x.chained vs poison part =
    { x.push vs part with
      ecc := (x.poisonFrom poison vs.length (x.push vs part)).ecc, segs := (x.chained vs poison part).segs
      tailCut := (x.chained vs poison part).tailCut } := by
  have hparse := (x.poisonFrom poison vs.length (x.push vs part)).parse_eq x.w vs part
  have hpoison := x.poisonFrom_eq (x.push vs part) poison vs.length
  rw [show (x.poisonFrom poison vs.length (x.push vs part)).parse x.w vs part = x.chained vs poison part from rfl] at hparse
  generalize x.chained vs poison part = y at hparse ⊢
  exact hparse.trans (congrArg (fun z : Queue => ({ z with segs := y.segs, tailCut := y.tailCut } : Queue)) hpoison)

theorem Queue.chained_counts (x : Queue) (vs : List Slot9) (poison part : Bool) :
    (x.chained vs poison part).w = x.w + BitVec.ofNat 48 vs.length ∧
    (x.chained vs poison part).wcnt = x.wcnt + BitVec.ofNat 48 vs.length := by
  have hshape : (x.chained vs poison part).shape = (x.push vs part).shape := by
    rw [Queue.chained, Queue.parse_shape, Queue.poisonFrom_shape]
  have h := hshape.trans (x.push_shape vs part)
  exact ⟨congrArg Queue.Shape.w h, congrArg Queue.Shape.wcnt h⟩

theorem Queue.chained_held (x : Queue) (vs : List Slot9) (poison part : Bool) :
    (x.chained vs poison part).held = x.held ++ vs ∧ (x.chained vs poison part).mmode = x.mmode := by
  obtain ⟨hheld, -, hmode⟩ := x.push_held vs part
  have heq := x.chained_eq vs poison part
  generalize x.chained vs poison part = y at heq ⊢
  exact ⟨(congrArg Queue.held heq).trans hheld, (congrArg Queue.mmode heq).trans hmode⟩

theorem Queue.chained_noLost {x : Queue} (h : x.noLost) (vs : List Slot9) (poison part : Bool) :
    (x.chained vs poison part).noLost := by
  have hbillets : (x.chained vs poison part).billets = (x.push vs part).billets :=
    (congrArg Queue.billets (x.chained_eq vs poison part) :)
  intro b hb
  exact Queue.push_noLost h vs part b (hbillets ▸ hb)

theorem Queue.chained_tailCut (x : Queue) (vs : List Slot9) (poison : Bool) : (x.chained vs poison true).tailCut = true :=
  Bool.true_or (((x.chained vs poison true).segs.getLast?.map (·.complete)).getD false)

/-! ### Poison that came with the stave (R294) -/

theorem Queue.eccOf_setEcc_poison (x : Queue) (j k : Nat) (h : j = k ∨ (x.eccOf k).poison = true) :
    ((x.setEcc j { x.eccOf j with poison := true }).eccOf k).poison = true := by
  by_cases hjk : j = k
  · subst hjk
    have hne : ({ x.eccOf j with poison := true } : StaveEcc) ≠ StaveEcc.clean :=
      fun hclean => nomatch (congrArg StaveEcc.poison hclean : true = false)
    exact congrArg StaveEcc.poison (Table.get_put_of_ne hne x.ecc j)
  · have hkeep := congrArg StaveEcc.poison (Table.get_put_ne StaveEcc.clean j k { x.eccOf j with poison := true } x.ecc (Ne.symm hjk))
    exact hkeep.trans (h.resolve_left hjk)

theorem Queue.poisonAll_poisons (l : List Nat) (x : Queue) (k : Nat) (h : k ∈ l ∨ (x.eccOf k).poison = true) :
    ((l.foldl (fun y st => y.setEcc st { y.eccOf st with poison := true }) x).eccOf k).poison = true := by
  induction l generalizing x with
  | nil => exact h.resolve_left (by simp)
  | cons j l ih =>
    refine ih _ ?_
    rcases h with h | h
    · rcases List.mem_cons.1 h with rfl | h
      · exact .inr (x.eccOf_setEcc_poison k k (.inl rfl))
      · exact .inl h
    · exact .inr (x.eccOf_setEcc_poison j k (.inr h))

theorem Queue.mem_tailStaves (x : Queue) {n : Nat} (h : 0 < n) : x.w.toNat / 32 ∈ x.tailStaves n := by
  refine List.mem_map.2 ⟨0, List.mem_range.2 (by omega), ?_⟩
  have := x.w.isLt
  omega

theorem Queue.chained_poison (x : Queue) {vs : List Slot9} (part : Bool) (h : 0 < vs.length) :
    ((x.chained vs true part).eccOf (x.w.toNat / 32)).poison = true := by
  have hecc : (x.chained vs true part).ecc = (x.poisonFrom true vs.length (x.push vs part)).ecc :=
    (congrArg Queue.ecc (x.chained_eq vs true part) :)
  have hpoison := Queue.poisonAll_poisons (x.tailStaves vs.length) (x.push vs part) _ (.inl (x.mem_tailStaves h))
  unfold Queue.eccOf
  rw [hecc]
  exact hpoison

/-! ### The commit of a chain arrival (R125, R294) -/

/-- The state in which a chain arrival is committed, before the parity check and jumps past lost billets. -/
def State.chainPushed (s : State) (q : QId) (vs : List Slot9) (poison part : Bool) : State :=
  (s.demand 8).modQu q fun x => x.chained vs poison part

theorem State.chainPushed_qu (q : QId) (vs : List Slot9) (poison part : Bool) :
    (s.chainPushed q vs poison part).qu q = (s.qu q).chained vs poison part := State.modQu_qu _ _ _

theorem State.checkParity_of_mmode {q : QId} (h : (s.qu q).mmode = true) (vs : List Slot9) : s.checkParity q vs = s := by
  rw [State.checkParity_eq, if_neg (by simp [h])]
  rfl

theorem State.chainCommit_spec (q : QId) (vs : List Slot9) (poison part : Bool) (t : State)
    (ht : s.chainCommit q vs poison part = t) :
    t = { s with
      queues := t.queues, chans := t.chans, events := t.events, gov := { s.gov with acc8 := s.gov.acc8 + 8 }
      order := s.order + 1 } ∧
    s.otherQueues t q ∧
    (t.qu q).w = (s.qu q).w + BitVec.ofNat 48 vs.length ∧ (t.qu q).wcnt = (s.qu q).wcnt + BitVec.ofNat 48 vs.length ∧
    (t.qu q).tailCut = ((s.qu q).chained vs poison part).tailCut ∧
    ((s.qu q).mmode = true → t.events = s.events) ∧
    ((s.qu q).noLost → (t.qu q).held = (s.qu q).held ++ vs ∧ (t.qu q).ecc = ((s.qu q).chained vs poison part).ecc) := by
  replace ht : (((s.chainPushed q vs poison part).checkParity q vs).jumpLost q).scale q = t := ht
  have hpushed : s.chainPushed q vs poison part = { s with
    queues := (s.chainPushed q vs poison part).queues, gov := { s.gov with acc8 := s.gov.acc8 + 8 }, order := s.order + 1 } := rfl
  have hne (k : QId) (hk : k ≠ q) : (s.chainPushed q vs poison part).qu k = s.qu k :=
    (s.demand 8).modQu_qu_ne q k _ hk
  have hqu := s.chainPushed_qu q vs poison part
  generalize s.chainPushed q vs poison part = u at ht hpushed hne hqu
  have hparity := u.checkParity_keeps q vs
  have hmode := u.checkParity_of_mmode (q := q) (vs := vs)
  generalize u.checkParity q vs = v at ht hparity hmode
  have hvqu (k : QId) : v.qu k = u.qu k := (congrArg (fun w : State => w.qu k) hparity :)
  have hjump := v.jumpLost_jumps q
  have hsheds := (v.sheds_jumpLost q).queue q
  have hcut := v.jumpN_tailCut ((v.qu q).segs.length + 2) q
  rw [show v.jumpN ((v.qu q).segs.length + 2) q = v.jumpLost q from rfl] at hcut
  have hstay := v.jumpLost_of_noLost (q := q)
  generalize v.jumpLost q = w at ht hjump hsheds hcut hstay
  subst ht
  obtain ⟨hw, hwcnt⟩ := (s.qu q).chained_counts vs poison part
  rw [hvqu, hqu] at hcut hsheds hstay
  have hevents : w.events = v.events := (congrArg State.events hjump.frame :)
  refine ⟨?_, fun k hk => ?_, ?_, ?_, ?_, fun hm => ?_, fun hlost => ?_⟩
  · have hv := congrArg (fun z : State => ({ z with events := v.events } : State)) hpushed
    have hw' := congrArg (fun z : State => ({ z with queues := w.queues, chans := w.chans } : State)) (hparity.trans hv)
    have hall := congrArg (fun z : State => ({ z with queues := (w.scale q).queues } : State)) (hjump.frame.trans hw')
    have hev : (w.scale q).events = v.events := hevents
    rw [hev]
    exact hall
  · rw [State.scale_qu_bare, hjump.others k hk, hvqu, hne k hk]
  · rw [State.scale_qu_w, hsheds.w, hw]
  · rw [State.scale_qu_wcnt, hsheds.wcnt, hwcnt]
  · rw [State.scale_qu_tailCut, hcut]
  · have hum : (u.qu q).mmode = true := by rw [hqu, ((s.qu q).chained_held vs poison part).2, hm]
    have hvu : v.events = u.events := congrArg State.events (hmode hum)
    exact hevents.trans (hvu.trans (congrArg State.events hpushed :))
  · have hwv : w.qu q = (s.qu q).chained vs poison part := by
      rw [hstay (Queue.chained_noLost hlost vs poison part), hvqu, hqu]
    have hecc : ((w.scale q).qu q).ecc = (w.qu q).ecc := by
      rw [State.scale_qu]
      exact Queue.scale_ecc _ _
    exact ⟨by rw [State.scale_qu_held, hwv, ((s.qu q).chained_held vs poison part).1], by rw [hecc, hwv]⟩

/-! ### The frame and its number (R287, R294, R299) -/

section Up

variable {s} {ctl : BitVec 36} {data : List (BitVec 36)} (hrun : s.running = true) (hen : s.inEnabled = true)
  (hup : s.azl.inn.st = .up)
include hrun hen hup

theorem State.rxStave_of_bad (hcrc : ctlCrc ctl ≠ frameCrc ctl data) : s.rxStave ctl data = s.frameDiscard := by
  unfold State.rxStave
  dsimp only
  rw [if_neg (by simp [hrun, hen, hup]), if_pos (by simp [hcrc])]

/-- A frame that passes its check: what follows turns on the discarding and on its number. -/
theorem State.rxStave_of_good (hcrc : ctlCrc ctl = frameCrc ctl data) (htype : ctlType ctl < 2) :
    s.rxStave ctl data =
      (let x : InLink := { s.azl.inn with lastRx := s.time.ticks }
       let u := s.setIn x
       if x.hold then u
       else if ctlSeq ctl = x.e then
         let q := ctlQueue ctl
         let v := u.setIn { (x.park q) with e := x.e + 1 }
         if v.chainFed q && (v.qu q).en && !(v.qu q).resetting then
           v.chainCommit q (frameSlots (ctlType ctl == 1) data) (ctlPoison ctl) (ctlType ctl == 1)
         else (v.count Ev.azqdrop 0).scale q
       else if (x.e - ctlSeq ctl).toNat ≤ 64 then u.count Ev.azdup 0
       else u.frameDiscard) := by
  unfold State.rxStave
  dsimp only
  rw [if_neg (by simp [hrun, hen, hup]), if_neg (by simp [hcrc]; omega)]

end Up

/-- The link after the expected number has come: E advances and its credit returns. -/
def State.tookIn (s : State) (q : QId) : State :=
  s.setIn { s.azl.inn with
    lastRx := s.time.ticks, e := s.azl.inn.e + 1, out := s.azl.inn.out.set q.val (s.azl.inn.out[q.val] - 1) }

end Sys2Proof.Machine

open Sys2Proof Sys2Proof.Machine

/-- Settles O41: a frame is discarded, or its number says whether it is the next one, a duplicate or out of place. -/
theorem staveReceived : Obligations.StaveReceived := by
  unfold Obligations.StaveReceived
  intro ctl data s hrun hen hup q took
  have hgood := State.rxStave_of_good (ctl := ctl) (data := data) hrun hen hup
  have hcount (u : State) (hwf : s.eventsWf) (hev : u.events = s.events) (code : Nat) :=
    State.counted_count (t := u) hwf hev code 0 1
  have hexpected (hcrc : ctlCrc ctl = frameCrc ctl data) (htype : ctlType ctl < 2) (hhold : s.azl.inn.hold = false)
      (hseq : ctlSeq ctl = s.azl.inn.e) : s.rxStave ctl data =
        if s.chainFed q && (s.qu q).en && !(s.qu q).resetting then
          (s.tookIn q).chainCommit q (frameSlots (ctlType ctl == 1) data) (ctlPoison ctl) (ctlType ctl == 1)
        else ((s.tookIn q).count Ev.azqdrop 0).scale q := by
    rw [hgood hcrc htype]
    exact (if_neg (by simp [hhold])).trans (if_pos hseq)
  refine ⟨fun hcrc htype hhold hseq hfed hqen hreset => ?_, fun hwf hcrc htype hhold hseq hdup => ?_, fun hwf hcrc => ?_,
    fun hcrc htype => ⟨fun hhold => ?_, fun hwf hhold hseq hno => ?_, fun hwf hhold hfar => ?_⟩⟩
  · have hrx := (hexpected hcrc htype hhold hseq).trans (if_pos (by simp [hfed, hqen, hreset]))
    refine ⟨_, congrArg Host.Outcome.next hrx, ?_⟩
    obtain ⟨hframe, hothers, hw, hwcnt, hcut, hmode, hlost⟩ := (s.tookIn q).chainCommit_spec q
      (frameSlots (ctlType ctl == 1) data) (ctlPoison ctl) (ctlType ctl == 1) _ rfl
    generalize (s.tookIn q).chainCommit q (frameSlots (ctlType ctl == 1) data) (ctlPoison ctl) (ctlType ctl == 1) = t at *
    refine ⟨(congrArg State.azl hframe :), hw, hwcnt, fun h => (hlost h).1, fun htail => ?_, fun hpoison h hpos => ?_,
      (congrArg (fun v : State => v.gov.acc8) hframe :), hmode, hothers, ?_⟩
    · rw [hcut, show (ctlType ctl == 1) = true by simp [htail]]
      exact Queue.chained_tailCut _ _ _
    · have hecc : (t.qu q).eccOf = (((s.tookIn q).qu q).chained (frameSlots (ctlType ctl == 1) data) (ctlPoison ctl)
          (ctlType ctl == 1)).eccOf := by
        unfold Queue.eccOf
        rw [(hlost h).2]
      rw [hecc, hpoison]
      exact Queue.chained_poison _ _ hpos
    · have hazl : t.azl = (s.tookIn q).azl := (congrArg State.azl hframe :)
      have hgov : t.gov = { s.gov with acc8 := s.gov.acc8 + 8 } := (congrArg State.gov hframe :)
      rw [hazl, hgov]
      exact congrArg State.bare hframe
  · have hrx : s.rxStave ctl data = (s.setIn { s.azl.inn with lastRx := s.time.ticks }).count Ev.azdup 0 := by
      rw [hgood hcrc htype]
      exact (if_neg (by simp [hhold])).trans ((if_neg hseq).trans (if_pos hdup))
    obtain ⟨hcounted, hframe⟩ := hcount (s.setIn { s.azl.inn with lastRx := s.time.ticks }) hwf rfl Ev.azdup
    exact ⟨_, congrArg Host.Outcome.next hrx, hcounted, hframe⟩
  · obtain ⟨hcounted, hframe⟩ := hcount (s.setIn { s.azl.inn with hold := true }) hwf rfl Ev.azcrc
    exact ⟨_, congrArg Host.Outcome.next (State.rxStave_of_bad hrun hen hup hcrc), hcounted, hframe⟩
  · refine congrArg Host.Outcome.next ?_
    rw [hgood hcrc htype]
    exact if_pos hhold
  · have hrx := (hexpected hcrc htype hhold hseq).trans (if_neg (by
      rcases hno with hno | hno | hno <;> simp [hno]))
    obtain ⟨hcounted, hframe⟩ := hcount (s.tookIn q) hwf rfl Ev.azqdrop
    have hbare := State.scale_bare ((s.tookIn q).count Ev.azqdrop 0) q
    exact ⟨_, congrArg Host.Outcome.next hrx, hcounted, hbare.trans (congrArg State.bare hframe)⟩
  · have hne : ctlSeq ctl ≠ s.azl.inn.e := fun h => by simp [h] at hfar
    have hrx : s.rxStave ctl data = (s.setIn { s.azl.inn with lastRx := s.time.ticks, hold := true }).count Ev.azcrc 0 := by
      rw [hgood hcrc htype]
      exact (if_neg (by simp [hhold])).trans ((if_neg hne).trans (if_neg (Nat.not_le.2 hfar)))
    obtain ⟨hcounted, hframe⟩ := hcount (s.setIn { s.azl.inn with lastRx := s.time.ticks, hold := true }) hwf rfl Ev.azcrc
    exact ⟨_, congrArg Host.Outcome.next hrx, hcounted, hframe⟩

end

section
/-!
O21. The words that an egress port launches.

The obligation says of slot 1 of a launched bark header that REPLAY tells whether the segment begins below F, for every
queue whose reader may launch it. The model fills REPLAY into the segment that ends where the launched one does. It takes
the first such one, and no hypothesis keeps an earlier segment of the list from ending there too: slot 1 then goes out as it
is held.
-/

-- The theorems one after another: side by side they take more threads than the check allows.
set_option Elab.async false

namespace Sys2Proof.Machine

/-- A part in service whose queue 0 port 2 reads in segment mode, two slots a word. The queue holds a segment of 25 slots,
R and F at its first; its list has a segment of one slot before it that ends there too, and bit 4 of slot 1 is set. -/
def sharedEnd : State :=
  let on : State := { State.reset with
    boot := { State.reset.boot with porst := true, stage := 8, sensed := true, trained := true }
    dp := { Direct.reset with en := true, ready := true, readySeen := true } }
  let queue : Queue := { Queue.reset with
    en := true, map := some ⟨4, 0, 0, 1, 0, 0⟩, qcfg := VWord.of 2
    w := 25, wcnt := 25, held := (List.replicate 25 0).set 1 0x010, segs := [⟨24, 1, true, 0⟩, ⟨0, 25, true, 0⟩]
    billets := [⟨0, true, false, false, false, none, []⟩] }
  (on.setQu 0 queue).setPo 2 { Port.reset with
    en := true, lcfg := 0x49, crossed := Vector.replicate 16 (false, false) }

theorem sharedEnd_runs : sharedEnd.portActive 2 = true ∧ (sharedEnd.po 2).egress = true ∧ (sharedEnd.po 2).stopped = false ∧
    (sharedEnd.po 2).starved = false ∧ (sharedEnd.po 2).segMode = true := by decide

theorem sharedEnd_queue : (sharedEnd.qu 0).noLost ∧ (sharedEnd.qu 0).off (sharedEnd.qu 0).r = 0 ∧
    (sharedEnd.qu 0).off (sharedEnd.qu 0).f = 0 ∧ (sharedEnd.qu 0).held.length = 25 ∧ (sharedEnd.qu 0).occ = 25 ∧
    (sharedEnd.qu 0).markPend = none := by
  unfold Queue.noLost
  decide

theorem sharedEnd_launch : sharedEnd.launch 2 0 = some (⟨2, 1, false⟩, some 25) := by decide

/-- Slot 1 goes out with bit 4 set. -/
theorem sharedEnd_slot1 :
    (slotData (lineSlot ((sharedEnd.egressRead 2 true 0 .enough []).po 2).pins.d 1)).getLsbD 4 = true := by decide

end Sys2Proof.Machine

open Sys2Proof Sys2Proof.Machine

/-- Refutes O21: REPLAY of a bark header launched from `sharedEnd` is 1 though its segment does not begin below F. -/
theorem not_streamWordDelivered : ¬ Obligations.StreamWordDelivered := by
  unfold Obligations.StreamWordDelivered
  intro h
  obtain ⟨hactive, hegress, hstopped, hstarved, hseg⟩ := sharedEnd_runs
  obtain ⟨hlost, hr, hf, hheld, hocc, hpend⟩ := sharedEnd_queue
  obtain ⟨-, -, hread⟩ := h 2 0 [] sharedEnd
  obtain ⟨-, hword, -⟩ := hread hactive hegress hstopped
  obtain ⟨-, hsegment⟩ := hword hlost (hr.trans hf.symm).le (hheld.trans hocc.symm)
  obtain ⟨t, hexec, -, -, hreplay⟩ := hsegment .enough ⟨2, 1, false⟩ (some 25) nofun hstarved hseg sharedEnd_launch hpend
    (show (sharedEnd.qu 0).off (sharedEnd.qu 0).r + 2 ≤ (sharedEnd.qu 0).occ by omega)
  obtain rfl : sharedEnd.egressRead 2 true 0 .enough [] = t := Host.Outcome.next.inj hexec
  have hbit := sharedEnd_slot1.symm.trans (hreplay nofun (Nat.le_refl 2))
  exact absurd (of_decide_eq_true hbit.symm) (show ¬(sharedEnd.qu 0).off (sharedEnd.qu 0).r < (sharedEnd.qu 0).off (sharedEnd.qu 0).f by omega)

end

section
/-!
SUPPORT and O15. What moves on at a port, the flags that it launches, and its clock.
-/

-- The theorems one after another: side by side they take more threads than the check allows.
set_option Elab.async false

namespace Sys2Proof.Machine

variable (s : State)

/-! ### Staged words that move on (R99, R112, R122) -/

/-- The open segment of a port ends: that port alone changes, and of it only what it holds for queues. -/
theorem State.endSeg_ports (n : PId) (c : CurSeg) (q : QId) (trunc : Bool) :
    ∃ y, (s.po n).moved y ∧ (s.endSeg n c q trunc).ports = (s.setPo n y).ports := by
  unfold State.endSeg
  dsimp only
  split
  · split
    · refine ⟨_, ?_, rfl⟩
      rfl
    · exact ⟨{ s.po n with cur := none }, rfl, State.closeNow_ports _ q _⟩
  · refine ⟨_, ?_, rfl⟩
    rfl

theorem State.drainOne_ports {n : PId} {t : State} (h : s.drainOne n = some t) :
    ∃ y, (s.po n).moved y ∧ t.ports = (s.setPo n y).ports := by
  unfold State.drainOne at h
  dsimp only at h
  split at h
  · cases h
  · split at h
    · cases h
      refine ⟨_, ?_, rfl⟩
      rfl
    next c tok ts hcur hst =>
      split at h
      next => cases h
      next =>
        split at h
        · cases h
          refine ⟨_, ?_, rfl⟩
          rfl
        · split at h
          · cases h
          · split at h
            · cases h
              refine ⟨_, ?_, rfl⟩
              rfl
            · cases h
              refine ⟨_, ?_, rfl⟩
              rfl
      next trunc discard =>
        split at h
        · cases h
          refine ⟨_, ?_, rfl⟩
          rfl
        · split at h
          · cases h
            rw [s.setPo_modPo]
            refine ⟨_, ?_, rfl⟩
            rfl
          next k _ _ =>
            cases h
            obtain ⟨y, hmoved, hports⟩ := (s.setPo n { s.po n with staging := ts }).endSeg_ports n c k trunc
            rw [s.setPo_po] at hmoved
            rw [s.setPo_setPo] at hports
            exact ⟨y, hmoved, hports⟩
    · cases h

/-- `t` is `s` as its words at port `n` move on: that port alone changes, and of it only what it holds for queues. -/
structure State.movesAt (s t : State) (n : PId) : Prop where
  own : (s.po n).moved (t.po n)
  others : ∀ m, m ≠ n → t.po m = s.po m

theorem State.po_of_ports {s t : State} (h : t.ports = s.ports) (m : PId) : t.po m = s.po m := by rw [State.po, State.po, h]

theorem State.drainN_movesAt (k : Nat) (n : PId) : s.movesAt (s.drainN k n) n := by
  induction k generalizing s with
  | zero => exact ⟨(s.po n).moved_refl, fun _ _ => rfl⟩
  | succ k ih =>
    rw [State.drainN]
    split
    · exact ⟨(s.po n).moved_refl, fun _ _ => rfl⟩
    next t h =>
      obtain ⟨y, hmoved, hports⟩ := s.drainOne_ports h
      obtain ⟨hown, hothers⟩ := ih t
      have hpo := State.po_of_ports hports
      rw [hpo, s.setPo_po] at hown
      exact ⟨hmoved.trans hown, fun m hm => by rw [hothers m hm, hpo, s.setPo_po_ne n m y hm]⟩

theorem State.drain_movesAt (n : PId) : s.movesAt (s.drain n) n := s.drainN_movesAt _ n

theorem State.movesAt.moved {s t : State} {n : PId} (h : s.movesAt t n) (m : PId) : (s.po m).moved (t.po m) := by
  by_cases hm : m = n
  · rw [hm]
    exact h.own
  · rw [h.others m hm]
    exact (s.po m).moved_refl

theorem State.drainAll_moved (m : PId) : (s.po m).moved (s.drainAll.po m) :=
  List.foldlRecOn (motive := fun t : State => (s.po m).moved (t.po m)) allP State.drain (s.po m).moved_refl
    fun t ht n _ => ht.trans ((t.drain_movesAt n).moved m)

/-! ### The flags that a port launches (R94, R130) -/

theorem State.portsOnly.segBlocks {s t : State} (h : s.portsOnly t) (n : PId) (q : QId) : t.segBlocks n q = s.segBlocks n q := by
  have hbegun (m : PId) : (t.po m).segBegun q = (s.po m).segBegun q := (congrArg (fun x : Port => x.segBegun q) (h.load m) :)
  have horder (m : PId) : (t.po m).segOrder q = (s.po m).segOrder q := (congrArg (fun x : Port => x.segOrder q) (h.load m) :)
  unfold State.segBlocks
  simp only [hbegun, horder]

theorem State.portsOnly.mayCommit {s t : State} (h : s.portsOnly t) (n : PId) : t.mayCommit n = s.mayCommit n := by
  funext d
  have hpart : (t.po n).segPart d.q = (s.po n).segPart d.q := (congrArg (fun x : Port => x.segPart d.q) (h.load n) :)
  have hframe (k : Nat) : t.frameFor d.q k = s.frameFor d.q k := (congrArg (fun u : State => u.frameFor d.q k) h.frame :)
  rw [State.mayCommit, State.mayCommit, h.segBlocks, hpart, hframe]

theorem State.portsOnly.fullFor {s t : State} (h : s.portsOnly t) (n : PId) (q : QId) : t.fullFor n q = s.fullFor n q := by
  have hroom : (t.po n).wordRoom q (s.width n) = (s.po n).wordRoom q (s.width n) :=
    (congrArg (fun x : Port => x.wordRoom q (s.width n)) (h.load n) :)
  have hdone : (t.po n).done = (s.po n).done := (congrArg Port.done (h.load n) :)
  have hwaits : t.staveWaits n q = s.staveWaits n q := by rw [State.staveWaits, State.staveWaits, hdone, h.mayCommit]
  have hseg : (t.po n).segMode = (s.po n).segMode := (congrArg Port.segMode (h.load n) :)
  have hwaiting : (t.po n).waiting = (s.po n).waiting := (congrArg Port.waiting (h.load n) :)
  have hlimit : t.creditLimit n = s.creditLimit n := by
    rw [State.creditLimit, State.creditLimit, State.paired_of_lcfg h.lcfg]
  have hstage : t.stageRoom n = s.stageRoom n := by
    unfold State.stageRoom
    simp only [hwaiting, hseg, h.width, hlimit]
  rw [State.fullFor, State.fullFor, hwaits, hseg, hstage, h.width, hroom]

theorem State.portsOnly.pinLevels {s t : State} (h : s.portsOnly t) {n : PId} (hshown : (t.po n).shown = (s.po n).shown)
    (f : Bool × Bool) : t.pinLevels n f = s.pinLevels n f := by
  have hegress : (t.po n).egress = (s.po n).egress := (congrArg Port.egress (h.load n) :)
  rw [State.pinLevels, State.pinLevels, hegress, h.fullFor, hshown]

theorem State.pinsOnly.portsOnly {s t : State} (h : s.pinsOnly t) : s.portsOnly t :=
  ⟨h.frame, fun n => by rw [h.port n]; rfl⟩

theorem State.pinsOnly.flagPins {s t : State} (h : s.pinsOnly t) (n : PId) : t.flagPins n = s.flagPins n := by
  have hshown : (t.po n).shown = (s.po n).shown := (congrArg Port.shown (h.port n) :)
  have hcrossed : (t.po n).crossed = (s.po n).crossed := (congrArg Port.crossed (h.port n) :)
  rw [State.flagPins, State.flagPins, h.portsOnly.pinLevels hshown]
  simp only [hshown, hcrossed]

/-- The pins of port `n` after a launch of its flags, EF# held low where it is starved; those of the upper port of its pair
with it. -/
structure State.launchesFlags (s t : State) (n : PId) : Prop where
  own : t.po n = { s.po n with pins := { (s.po n).pins with
    fla := if (s.po n).starved then .low else (s.flagPins n).1, flb := (s.flagPins n).2 } }
  upper : s.paired n = true → t.po (upperPort n) = { s.po (upperPort n) with
    pins := (t.po n).pins.copied (s.po (upperPort n)).pins.d }
  others : ∀ m, m ≠ n → (m = upperPort n → s.paired n = false) → t.po m = s.po m
  pins : s.pinsOnly t

/-- Port `n` with other pins, mirrored on the upper port with the data lines which that one drives. -/
def State.repinned (s : State) (n : PId) (p : Pins) : State :=
  s.pinned n { s.po n with pins := p } s.freeCtr (s.po (upperPort n)).pins.d

variable {s} in
theorem State.own_of_paired {n : PId} (hn : s.master n = n) (hp : s.paired n = true) : n = lowerPort n :=
  hn.symm.trans (s.master_of_paired hp)

theorem State.repinned_po {n : PId} (hn : s.master n = n) (p : Pins) :
    (s.repinned n p).po n = { s.po n with pins := p } ∧
    (s.paired n = true → (s.repinned n p).po (upperPort n) =
      { s.po (upperPort n) with pins := p.copied (s.po (upperPort n)).pins.d }) ∧
    ∀ m, m ≠ n → (m = upperPort n → s.paired n = false) → (s.repinned n p).po m = s.po m := by
  have hpo := s.pinned_po (n := n) (y := { s.po n with pins := p }) hn rfl s.freeCtr (s.po (upperPort n)).pins.d
  refine ⟨(hpo n).trans (if_pos rfl), fun hp => ?_, fun m hm hup => ?_⟩
  · have hne : upperPort n ≠ n := by
      intro h
      have hlow := State.own_of_paired hn hp
      exact upperPort_ne_lowerPort n (h.trans hlow)
    exact (hpo _).trans ((if_neg hne).trans (if_pos ((s.master_eq_iff hn).2 (.inr ⟨hp, State.own_of_paired hn hp, rfl⟩))))
  · refine (hpo m).trans ((if_neg hm).trans (if_neg fun hmaster => ?_))
    rcases (s.master_eq_iff hn).1 hmaster with h | ⟨hp, -, h⟩
    · exact hm h
    · rw [hup h] at hp
      nomatch hp

theorem State.repinned_pinsOnly (n : PId) (p : Pins) : s.pinsOnly (s.repinned n p) := by
  have hset : s.pinsOnly (s.setPo n { s.po n with pins := p }) :=
    State.pinsOnly_modPo n (fun x => { x with pins := p }) fun _ => rfl
  exact hset.trans (State.mirror_pinsOnly n (s.po (upperPort n)).pins.d)

theorem State.showFlags_eq (n : PId) :
    s.showFlags n = s.repinned n { (s.po n).pins with fla := (s.flagPins n).1, flb := (s.flagPins n).2 } := rfl

theorem State.holdLow_eq {n : PId} (h : (s.po n).starved = true) :
    s.holdLow n = s.repinned n { (s.po n).pins with fla := .low } := if_pos h

theorem Pins.copied_d (p : Pins) (hi : BitVec 36) : (p.copied hi).d = if p.dz then 0 else hi := rfl

theorem State.launch_flags {n : PId} (hn : s.master n = n) : s.launchesFlags ((s.showFlags n).holdLow n) n := by
  have hshow := State.showFlags_eq s n
  obtain ⟨hown, hupper, hothers⟩ := s.repinned_po hn { (s.po n).pins with fla := (s.flagPins n).1, flb := (s.flagPins n).2 }
  have hpins := s.repinned_pinsOnly n { (s.po n).pins with fla := (s.flagPins n).1, flb := (s.flagPins n).2 }
  rw [← hshow] at hown hupper hothers hpins
  generalize s.showFlags n = t at hown hupper hothers hpins ⊢
  have hstarved : (t.po n).starved = (s.po n).starved := (congrArg Port.starved hown :)
  have hpaired : t.paired n = s.paired n := State.paired_of_lcfg hpins.lcfg n
  have hmaster : t.master n = n := (State.master_of_lcfg hpins.lcfg n).trans hn
  cases h : (s.po n).starved with
  | false =>
    rw [State.holdLow_of_enough t (hstarved.trans h)]
    refine ⟨by rw [hown, h]; rfl, fun hp => ?_, hothers, hpins⟩
    rw [hupper hp, hown]
  | true =>
    rw [State.holdLow_eq t (hstarved.trans h)]
    obtain ⟨kown, kupper, kothers⟩ := t.repinned_po hmaster { (t.po n).pins with fla := .low }
    have kpins := t.repinned_pinsOnly n { (t.po n).pins with fla := .low }
    generalize t.repinned n { (t.po n).pins with fla := .low } = u at kown kupper kothers kpins ⊢
    refine ⟨?_, fun hp => ?_, fun m hm hup => ?_, hpins.trans kpins⟩
    · rw [kown, hown, h]
      rfl
    · rw [kupper (hpaired.trans hp), kown, hupper hp, hown]
      simp only [Pins.copied]
      split <;> rfl
    · rw [kothers m hm (fun e => hpaired.trans (hup e)), hothers m hm hup]

/-! ### Pending marks applied where a port does not run (Table 6.3) -/

/-- What pending mark commands leave: ports' crossed flags at their reader, queues, channels' requests and stamps change. -/
structure State.marksAt (s t : State) (n : PId) : Prop where
  frame : t = { s with ports := t.ports, queues := t.queues, chans := t.chans, order := t.order }
  own : t.po n = { s.po n with crossed := (t.po n).crossed }
  others : ∀ m, m ≠ n → t.po m = s.po m
  idle : ∀ q, (s.qu q).markPend = none → t.qu q = s.qu q

theorem State.marksAt_refl (n : PId) : s.marksAt s n := ⟨rfl, rfl, fun _ _ => rfl, fun _ _ => rfl⟩

theorem State.marksAt.trans {s t u : State} {n : PId} (h : s.marksAt t n) (k : t.marksAt u n) : s.marksAt u n := by
  have hframe := congrArg (fun v : State => ({ v with
    ports := u.ports, queues := u.queues, chans := u.chans, order := u.order } : State)) h.frame
  have hown := congrArg (fun x : Port => ({ x with crossed := (u.po n).crossed } : Port)) h.own
  refine ⟨k.frame.trans hframe, k.own.trans hown, fun m hm => (k.others m hm).trans (h.others m hm), fun q hq => ?_⟩
  rw [k.idle q (by rw [h.idle q hq, hq]), h.idle q hq]

theorem State.marksAt.lcfg {s t : State} {n : PId} (h : s.marksAt t n) (m : PId) : (t.po m).lcfg = (s.po m).lcfg := by
  by_cases hm : m = n
  · rw [hm]
    exact (congrArg Port.lcfg h.own :)
  · rw [h.others m hm]

theorem State.marksAt.en {s t : State} {n : PId} (h : s.marksAt t n) (m : PId) : (t.po m).en = (s.po m).en := by
  by_cases hm : m = n
  · rw [hm]
    exact (congrArg Port.en h.own :)
  · rw [h.others m hm]

/-- The reader of a queue, as far as QCFG names one, is the port that QCFG names. -/
theorem State.namedPort_of_reader {q : QId} {n : PId} (h : s.readPort q = some n) : s.namedPort q = n := by
  unfold State.readPort at h
  dsimp only at h
  split at h
  · cases h
  · split at h
    · exact Option.some.inj h
    · cases h

theorem State.jumpLost_qu_ne {q k : QId} (h : k ≠ q) : (s.jumpLost q).qu k = s.qu k := s.jumpN_qu_ne _ h

theorem State.settle_qcfg (q : QId) : ((s.settle q).qu q).qcfg = (s.qu q).qcfg := by
  obtain ⟨x, chans, heq, hpasses⟩ := s.settle_passes q
  rw [heq]
  exact ((congrArg Queue.qcfg (s.setQu_qu q x) :)).trans (congrArg Queue.qcfg hpasses.eq :)

/-- A queue's pending command carried out, before the handshake carries its flags over. -/
def State.marking (s : State) (q : QId) (c : MarkCmd) : State :=
  ((((s.nextOrder.modQu q fun x => x.applyMark c).settle q).jumpLost q).scale q)

theorem State.marking_frame (q : QId) (c : MarkCmd) : s.marking q c =
    { s with queues := (s.marking q c).queues, chans := (s.marking q c).chans, order := s.order + 1 } := by
  have hstart : (s.nextOrder.modQu q fun x => x.applyMark c) =
    { s with queues := (s.nextOrder.modQu q fun x => x.applyMark c).queues, order := s.order + 1 } := rfl
  have hmark : s.marking q c = (((s.nextOrder.modQu q fun x => x.applyMark c).settle q).jumpLost q).scale q := rfl
  generalize (s.nextOrder.modQu q fun x => x.applyMark c) = t at hstart hmark
  have hjumps := ((t.settle_jumps q).trans (State.jumpLost_jumps _ q)).frame
  generalize (t.settle q).jumpLost q = u at hmark hjumps
  rw [hmark]
  exact congrArg (fun v : State => ({ v with queues := (u.scale q).queues, chans := u.chans } : State)) (hjumps.trans
    (congrArg (fun v : State => ({ v with queues := u.queues, chans := u.chans } : State)) hstart))

theorem State.marking_qu_ne {q k : QId} (c : MarkCmd) (h : k ≠ q) : (s.marking q c).qu k = s.qu k := by
  have hscale := ((((s.nextOrder.modQu q fun x => x.applyMark c).settle q).jumpLost q)).setQu_qu_ne q k
  refine (hscale _ h).trans ?_
  rw [State.jumpLost_qu_ne _ h, State.settle_qu_ne _ h]
  exact s.nextOrder.modQu_qu_ne q k _ h

theorem State.jumpN_qcfg (n : Nat) (q : QId) : ((s.jumpN n q).qu q).qcfg = (s.qu q).qcfg := by
  induction n generalizing s with
  | zero => rfl
  | succ n ih =>
    rw [State.jumpN]
    split
    · rfl
    next t _ =>
      rw [ih, State.settle_qcfg, State.modQu_qu, Queue.jump]
      dsimp only
      split <;> rfl

theorem State.marking_qcfg (q : QId) (c : MarkCmd) : ((s.marking q c).qu q).qcfg = (s.qu q).qcfg := by
  rw [State.marking, State.scale_qu_qcfg, State.jumpLost, State.jumpN_qcfg, State.settle_qcfg, State.modQu_qu]
  cases c <;> rfl

theorem State.applyPend_of_some {q : QId} {c : MarkCmd} (h : (s.qu q).markPend = some c) :
    s.applyPend q = (s.marking q c).crossReader q := by
  rw [State.applyPend, h]
  rfl

theorem State.applyPend_of_none {q : QId} (h : (s.qu q).markPend = none) : s.applyPend q = s := by
  rw [State.applyPend, h]

theorem State.applyPend_marksAt {q : QId} {n : PId} (hn : s.namedPort q = n) :
    s.marksAt (s.applyPend q) n ∧ ∀ k, k ≠ q → (s.applyPend q).qu k = s.qu k := by
  cases hpend : (s.qu q).markPend with
  | none =>
    rw [s.applyPend_of_none hpend]
    exact ⟨s.marksAt_refl n, fun _ _ => rfl⟩
  | some c =>
    rw [s.applyPend_of_some hpend]
    have hframe := s.marking_frame q c
    have hne (k : QId) (hk : k ≠ q) := s.marking_qu_ne c hk
    have hqcfg := s.marking_qcfg q c
    generalize s.marking q c = t at hframe hne hqcfg ⊢
    have hpo (m : PId) : t.po m = s.po m := (congrArg (fun u : State => u.po m) hframe :)
    have hnamed : t.namedPort q = s.namedPort q := by
      rw [State.namedPort, State.namedPort]
      simp only [hqcfg, State.master_of_lcfg fun m => congrArg Port.lcfg (hpo m)]
    have hreader {m : PId} (h : t.readPort q = some m) : m = n :=
      (t.namedPort_of_reader h).symm.trans (hnamed.trans hn)
    have hports := t.crossReader_po q
    have hcross := t.crossReader_frame q
    have hqu (k : QId) : (t.crossReader q).qu k = t.qu k := (congrArg (fun u : State => u.qu k) hcross :)
    refine ⟨⟨?_, ?_, fun m hm => ?_, fun k hk => ?_⟩, fun k hk => ?_⟩
    · have hlift := congrArg (fun u : State => ({ u with ports := (t.crossReader q).ports } : State)) hframe
      rw [show (t.crossReader q).queues = t.queues from (congrArg State.queues hcross :),
        show (t.crossReader q).chans = t.chans from (congrArg State.chans hcross :),
        show (t.crossReader q).order = s.order + 1 from
          ((congrArg State.order hcross :) : (t.crossReader q).order = t.order).trans (congrArg State.order hframe :)]
      exact hcross.trans hlift
    · have hown := hports n
      rw [hpo] at hown
      split at hown
      · rw [hown]
      · rw [hown]
    · have hother := hports m
      rw [hpo] at hother
      split at hother
      next h => exact absurd (hreader h) hm
      next => exact hother
    · rw [hqu, hne k]
      rintro rfl
      rw [hpend] at hk
      cases hk
    · rw [hqu, hne k hk]

/-- Pending marks of one queue applied where port `n` is its reader and no segment is in progress (Table 6.3). -/
def State.idleMark (n : PId) (s : State) (q : QId) : State :=
  if !s.midSegment q && !(s.qu q).chainRead && s.namedPort q == n then s.applyPend q else s

theorem State.idleMark_marksAt (n : PId) (q : QId) :
    s.marksAt (s.idleMark n q) n ∧ ∀ k, k ≠ q → (s.idleMark n q).qu k = s.qu k := by
  unfold State.idleMark
  split
  next h =>
    simp only [Bool.and_eq_true, beq_iff_eq] at h
    exact s.applyPend_marksAt h.2
  next => exact ⟨s.marksAt_refl n, fun _ _ => rfl⟩

theorem State.applyIdleMarks_marksAt (n : PId) : s.marksAt (s.applyIdleMarks n) n :=
  List.foldlRecOn (motive := fun t => s.marksAt t n) allQ (State.idleMark n) (s.marksAt_refl n)
    fun t ht q _ => ht.trans (t.idleMark_marksAt n q).1

theorem State.idleMark_of_unmarked {n : PId} {q : QId} (h : (s.qu q).markPend = none) : s.idleMark n q = s := by
  unfold State.idleMark
  rw [s.applyPend_of_none h, ite_self]

theorem State.applyIdleMarks_of_unmarked {n : PId} (h : ∀ q, (s.qu q).markPend = none) : s.applyIdleMarks n = s :=
  List.foldlRecOn (motive := fun t => t = s) allQ (State.idleMark n) rfl fun t ht q _ => by
    rw [ht]
    exact s.idleMark_of_unmarked (h q)

/-- A queue whose pending command has been carried out. -/
structure Queue.Stepped (x : Queue) (c : MarkCmd) (y : Queue) : Prop where
  markPend : y.markPend = none
  marks : y.marks = (x.applyMark c).marks
  r : y.r = (x.applyMark c).r

theorem State.applyPend_stepped {q : QId} {c : MarkCmd} (hpend : (s.qu q).markPend = some c) (hlost : (s.qu q).noLost) :
    (s.qu q).Stepped c ((s.applyPend q).qu q) := by
  obtain ⟨x, chans, hmarked, heq⟩ := s.applyPend_eq hpend hlost
  have hqu : (s.applyPend q).qu q = x.scale (({ s.nextOrder.setQu q x with chans := chans } : State).scaleIn q) := by
    rw [heq]
    refine (congrArg (fun u : State => u.qu q) (State.crossReader_frame _ q)).trans ?_
    refine (State.scale_qu _ q).trans ?_
    rw [show ({ s.nextOrder.setQu q x with chans := chans } : State).qu q = x from State.setQu_qu s.nextOrder q x]
  rw [hqu]
  have hnone : ((s.qu q).applyMark c).markPend = none := by cases c <;> rfl
  exact ⟨(congrArg Queue.markPend hmarked.eq).trans hnone, (congrArg Queue.marks hmarked.eq :), (congrArg Queue.r hmarked.eq :)⟩

/-- What Table 6.3 asks of a queue for its pending command to be applied at port `n`. -/
structure State.MarksAt (s : State) (q : QId) (c : MarkCmd) (n : PId) : Prop where
  pend : (s.qu q).markPend = some c
  idle : s.midSegment q = false
  reads : (s.qu q).chainRead = false
  named : s.namedPort q = n
  noLost : (s.qu q).noLost

theorem State.marksAt.readPort {s t : State} {n : PId} {q : QId} (h : s.marksAt t n) (hqu : t.qu q = s.qu q) :
    t.readPort q = s.readPort q ∧ t.namedPort q = s.namedPort q ∧ t.midSegment q = s.midSegment q := by
  have hread : t.readPort q = s.readPort q := State.readPort_congr (by rw [hqu]) h.lcfg h.en
  have hseg (m : PId) : (t.po m).segMode = (s.po m).segMode := by rw [Port.segMode, Port.segMode, h.lcfg]
  refine ⟨hread, ?_, ?_⟩
  · rw [State.namedPort, State.namedPort]
    simp only [hqu, State.master_of_lcfg h.lcfg]
  · rw [State.midSegment, State.midSegment]
    simp only [hread, hqu, hseg]

theorem State.foldIdleMarks_keeps {n : PId} {q : QId} (l : List QId) (h : q ∉ l ∨ (s.qu q).markPend = none) :
    ((l.foldl (State.idleMark n) s).qu q) = s.qu q := by
  induction l generalizing s with
  | nil => rfl
  | cons k l ih =>
    obtain ⟨hat, hne⟩ := s.idleMark_marksAt n k
    have hsame : (s.idleMark n k).qu q = s.qu q := by
      by_cases hk : q = k
      · exact hat.idle q (h.resolve_left fun hnot => hnot (hk ▸ List.mem_cons_self ..))
      · exact hne q hk
    refine (ih (s.idleMark n k) ?_).trans hsame
    rw [hsame]
    exact h.imp_left fun hnot hl => hnot (List.mem_cons_of_mem _ hl)

theorem State.foldIdleMarks_stepped {n : PId} {q : QId} {c : MarkCmd} (l : List QId) (hq : q ∈ l) (h : s.MarksAt q c n) :
    (s.qu q).Stepped c ((l.foldl (State.idleMark n) s).qu q) := by
  induction l generalizing s with
  | nil => cases hq
  | cons k l ih =>
    rw [List.foldl_cons]
    by_cases hk : q = k
    · subst hk
      have hstep := s.applyPend_stepped h.pend h.noLost
      have hone : s.idleMark n q = s.applyPend q := if_pos (by simp [h.idle, h.reads, h.named])
      rw [hone, State.foldIdleMarks_keeps _ l (.inr hstep.markPend)]
      exact hstep
    · obtain ⟨hat, hne⟩ := s.idleMark_marksAt n k
      have hsame := hne q hk
      obtain ⟨-, hnamed, hmid⟩ := hat.readPort hsame
      have hall := ih (s.idleMark n k) ((List.mem_cons.1 hq).resolve_left hk)
        ⟨by rw [hsame, h.pend], hmid.trans h.idle, by rw [hsame, h.reads], hnamed.trans h.named, by rw [hsame]; exact h.noLost⟩
      rwa [hsame] at hall

theorem State.applyIdleMarks_stepped {n : PId} {q : QId} {c : MarkCmd} (h : s.MarksAt q c n) :
    (s.qu q).Stepped c ((s.applyIdleMarks n).qu q) := s.foldIdleMarks_stepped allQ (mem_allQ q) h

/-! ### The flags that have crossed (R130, R460) -/

/-- Port `n` as its crossings have completed. -/
def State.crossedPort (s : State) (n : PId) : Port :=
  { s.po n with shown := s.showNow n (s.po n).shown, crossed := Vector.ofFn (s.coreFlags n) }

theorem State.crossFlags_eq {n : PId} (h : s.portActive n = true) :
    s.crossFlags n = (((s.setPo n (s.crossedPort n)).showFlags n).holdLow n) := by
  unfold State.crossFlags
  rw [if_pos h, State.showEdge, State.crossedPort]
  have hfirst : (s.modPo n fun x => { x with crossed := Vector.ofFn (s.coreFlags n) }) =
      s.setPo n { s.po n with crossed := Vector.ofFn (s.coreFlags n) } := rfl
  rw [hfirst, s.setPo_modPo]

end Sys2Proof.Machine

open Sys2Proof Sys2Proof.Machine

/-- Settles O15: the clock of a port as it stops, runs and is measured, and the flags as they have crossed. -/
theorem portClockAndFlags : Obligations.PortClockAndFlags := by
  unfold Obligations.PortClockAndFlags
  refine ⟨fun n s hpow hstage => ⟨?_, fun hreads => ?_, fun khz hclk => ?_⟩, fun n s hactive => ?_⟩
  · have hexec : exec (.portNoclk n) s = .next ((s.modPo n fun x => { x with noclk := true, stopped := true }).applyIdleMarks n) :=
      congrArg Host.Outcome.next (if_pos (by simp [hpow, hstage]))
    refine ⟨_, hexec, ?_⟩
    have hset : (s.modPo n fun x => { x with noclk := true, stopped := true }) =
      s.setPo n { s.po n with noclk := true, stopped := true } := rfl
    rw [hset]
    have hown := s.setPo_po n { s.po n with noclk := true, stopped := true }
    have hother (m : PId) := s.setPo_po_ne n m { s.po n with noclk := true, stopped := true }
    have hkeeps (m : PId) : ((s.setPo n { s.po n with noclk := true, stopped := true }).po m).lcfg = (s.po m).lcfg ∧
        ((s.setPo n { s.po n with noclk := true, stopped := true }).po m).en = (s.po m).en := by
      by_cases hm : m = n
      · rw [hm, hown]
        exact ⟨rfl, rfl⟩
      · rw [hother m hm]
        exact ⟨rfl, rfl⟩
    have hat := (s.setPo n { s.po n with noclk := true, stopped := true }).applyIdleMarks_marksAt n
    have hnone := (s.setPo n { s.po n with noclk := true, stopped := true }).applyIdleMarks_of_unmarked (n := n)
    have hstepped {q : QId} {c : MarkCmd} :=
      (s.setPo n { s.po n with noclk := true, stopped := true }).applyIdleMarks_stepped (n := n) (q := q) (c := c)
    have hlcfg (m : PId) := (hkeeps m).1
    have hframe : s.setPo n { s.po n with noclk := true, stopped := true } =
      { s with ports := (s.setPo n { s.po n with noclk := true, stopped := true }).ports } := rfl
    generalize s.setPo n { s.po n with noclk := true, stopped := true } = u at hown hother hkeeps hat hnone hstepped hlcfg hframe ⊢
    have hqu (q : QId) : u.qu q = s.qu q := (congrArg (fun v : State => v.qu q) hframe :)
    generalize u.applyIdleMarks n = t at hat hnone hstepped ⊢
    refine ⟨?_, fun m hm => (hat.others m hm).trans (hother m hm), ?_, fun q hq => ?_, fun hall => hnone fun q => by rw [hqu, hall],
      fun q c hpend hidle hreads hnamed hlost => ?_⟩
    · have ho := hat.own
      rw [hown] at ho
      exact ho
    · have hlift := congrArg (fun v : State => ({ v with
        ports := t.ports, queues := t.queues, chans := t.chans, order := t.order } : State)) hframe
      exact hat.frame.trans hlift
    · rw [hat.idle q (by rw [hqu, hq]), hqu]
    · have hread : u.readPort q = s.readPort q := State.readPort_congr (by rw [hqu]) hlcfg fun m => (hkeeps m).2
      have hseg (m : PId) : (u.po m).segMode = (s.po m).segMode := by rw [Port.segMode, Port.segMode, hlcfg]
      have hmid : u.midSegment q = s.midSegment q := by
        rw [State.midSegment, State.midSegment]
        simp only [hread, hqu, hseg]
      have hname : u.namedPort q = s.namedPort q := by
        rw [State.namedPort, State.namedPort]
        simp only [hqu, State.master_of_lcfg hlcfg]
      obtain ⟨kpend, kmarks, kr⟩ := hstepped (q := q) (c := c)
        ⟨by rw [hqu, hpend], hmid.trans hidle, by rw [hqu, hreads], hname.trans hnamed, by rw [hqu]; exact hlost⟩
      rw [hqu] at kmarks kr
      exact ⟨kpend, kmarks, kr⟩
  · have hresume : s.clockResume n =
        ((s.setPo n { s.po n with noclk := false, stopped := false }).drain (s.master n)).scaleAll :=
      if_pos (by simp [hpow, hstage])
    have hown := s.setPo_po n { s.po n with noclk := false, stopped := false }
    have hother (m : PId) := s.setPo_po_ne n m { s.po n with noclk := false, stopped := false }
    have hstay : (s.po (s.master n)).staging = [] → (s.setPo n { s.po n with noclk := false, stopped := false }).drain (s.master n) =
        s.setPo n { s.po n with noclk := false, stopped := false } := fun h => State.drain_of_unstaged _ (by
      by_cases hm : s.master n = n
      · rw [hm, hown, ← hm]
        exact h
      · rw [hother _ hm, h])
    have hframe : s.setPo n { s.po n with noclk := false, stopped := false } =
      { s with ports := (s.setPo n { s.po n with noclk := false, stopped := false }).ports } := rfl
    have hmoved := ((s.setPo n { s.po n with noclk := false, stopped := false }).drain_movesAt (s.master n)).moved n
    have hmoves := (s.setPo n { s.po n with noclk := false, stopped := false }).drain_moves (s.master n)
    rw [hown] at hmoved
    dsimp only
    generalize (s.setPo n { s.po n with noclk := false, stopped := false }).drain (s.master n) = t at hresume hstay hmoved hmoves ⊢
    generalize s.setPo n { s.po n with noclk := false, stopped := false } = u at hstay hframe hmoves ⊢
    have hpo : (t.scaleAll).po n = t.po n := State.scaleAll_po _ n
    have hnone : t.scaleAll.noReads := by
      refine State.noReads_congr (s := s) ?_ ?_ hreads
      · rw [State.scaleAll_pathA]
        exact (congrArg State.pathA hmoves.frame :).trans (congrArg State.pathA hframe :)
      · rw [State.scaleAll_pathB]
        exact (congrArg State.pathB hmoves.frame :).trans (congrArg State.pathB hframe :)
    refine ⟨t.scaleAll, congrArg Host.Outcome.next ?_, ?_, ?_, t.scaleAll_bare, fun h => ?_⟩
    · rw [hresume, State.answerReads_of_noReads _ hnone]
    · rw [hpo]
      exact (congrArg Port.noclk hmoved :)
    · rw [hpo]
      exact (congrArg Port.stopped hmoved :)
    · rw [← hstay h]
      exact t.scaleAll_bare
  · refine ⟨_, congrArg Host.Outcome.next (if_pos (by simp [hpow, hstage, hclk])), ?_, ?_⟩
    · rw [State.modPo_po]
      rfl
    · rw [State.modPo_po]
      simp [Port.s3, bit]
  · have hn := State.master_of_active hactive
    have hflags := (s.setPo n (s.crossedPort n)).launch_flags (n := n)
    have hown := s.setPo_po n (s.crossedPort n)
    have hother (m : PId) := s.setPo_po_ne n m (s.crossedPort n)
    have hports : s.portsOnly (s.setPo n (s.crossedPort n)) := by
      refine ⟨rfl, fun m => ?_⟩
      by_cases hm : m = n
      · rw [hm, hown]
        rfl
      · rw [hother m hm]
    have heq := s.crossFlags_eq hactive
    have hlevels : s.showNow n (s.po n).shown = (s.po n).shown →
        (s.setPo n (s.crossedPort n)).flagPins n = s.settledPins n := by
      intro hnow
      have hshown : ((s.setPo n (s.crossedPort n)).po n).shown = (s.po n).shown := by rw [hown]; exact hnow
      rw [State.flagPins, State.settledPins, hports.pinLevels hshown]
      have hpair (y : Port) (hy : y = s.crossedPort n) : y.crossed[y.shown.val] = s.coreFlags n (s.po n).shown := by
        subst hy
        simp [State.crossedPort, hnow]
      exact congrArg (s.pinLevels n) (hpair _ hown)
    generalize s.setPo n (s.crossedPort n) = u at hflags hown hother hports heq hlevels
    obtain ⟨kown, kupper, kothers, kpins⟩ := hflags ((State.master_of_lcfg hports.lcfg n).trans hn)
    rw [← heq] at kown kupper kothers kpins
    have hpaired := State.paired_of_lcfg hports.lcfg n
    have hflag := kpins.flagPins n
    refine ⟨_, rfl, ?_, fun hnow => hflag.trans (hlevels hnow), fun hp => ?_, ?_, fun m hm hup => ?_⟩
    · rw [hflag, kown, hown]
      rfl
    · have hne : upperPort n ≠ n := fun h => upperPort_ne_lowerPort n (h.trans (State.own_of_paired hn hp))
      rw [kupper (hpaired.trans hp), hother _ hne, kown, hown]
      rfl
    · have hlift := congrArg (fun v : State => ({ v with ports := (s.crossFlags n).ports } : State)) hports.frame
      exact kpins.frame.trans hlift
    · rw [kothers m hm fun e => hpaired.trans (hup e), hother m hm]

end

section
/-!
O16. Enable and disable of a port, with its pair, and of the device.
-/

-- The theorems one after another: side by side they take more threads than the check allows.
set_option Elab.async false

namespace Sys2Proof.Machine

variable (s : State)

/-! ### The pins of a port that starts (R48, R72) -/

variable {s} in
theorem State.master_iff_lower {n : PId} (h : s.master n = n) : s.paired n = false ∨ n = lowerPort n := by
  cases hp : s.paired n with
  | false => exact .inl rfl
  | true => exact .inr (State.own_of_paired h hp)

/-- A port with its flags fresh and its pins off. -/
def Port.unpinned (x : Port) : Port := { x.freshFlags with pins := Pins.off }

theorem State.startPins_eq {n : PId} (hn : s.master n = n) (hfatal : s.dp.fatal = false) : s.startPins n =
    if s.portsOn && (s.po n).en && (s.po n).egress then (s.setPo n (s.po n).unpinned).idlePins n
    else (s.setPo n (s.po n).unpinned).mirror n 0 := by
  unfold State.startPins
  dsimp only
  rw [if_neg (by simp [State.isUpper, hn]), hfatal, show (s.po n).freshFlags.egress = (s.po n).egress from rfl,
    show (s.po n).freshFlags.en = (s.po n).en from rfl]
  cases s.portsOn && (s.po n).en with
  | false => rfl
  | true => rfl

theorem Port.unpinned_inner (x : Port) : x.unpinned.inner = x.inner := rfl
theorem Port.idled_inner (x : Port) (w k : Nat) : (x.idled w k).inner = x.inner := rfl
theorem Port.idled_shown (x : Port) (w k : Nat) : (x.idled w k).shown = x.shown := rfl
theorem Port.idled_levels (x : Port) (w k : Nat) : (x.idled w k).pins.err = .high ∧ (x.idled w k).pins.dv = .low := ⟨rfl, rfl⟩

/-- Outside FATAL: the flag pins show QSEL, PnERR# is high, and an egress port in service alone drives PnDV. -/
theorem State.startPins_own {n : PId} (hn : s.master n = n) (hfatal : s.dp.fatal = false) :
    ((s.startPins n).po n).shown = (s.po n).qsel ∧ ((s.startPins n).po n).pins.err = .high ∧
    ((s.startPins n).po n).pins.dv = (if s.portsOn && (s.po n).en && (s.po n).egress then .low else .z) := by
  have hpo {y : Port} (hy : y.inner = (s.po n).inner) {k : Nat} {hi : BitVec 36} : (s.pinned n y k hi).po n = y :=
    (s.pinned_po hn hy k hi n).trans (if_pos rfl)
  rw [s.startPins_eq hn hfatal]
  split
  · have hidle : (s.setPo n (s.po n).unpinned).idlePins n =
        s.pinned n ((s.po n).unpinned.idled ((s.setPo n (s.po n).unpinned).width n) s.freeCtr) (s.freeCtr + 2)
          (Config.idleData (s.freeCtr + 1)) := by
      rw [State.idlePins_eq, State.pinned, State.setPo_po]
      unfold State.pinned
      rw [State.setPo_setPo]
      rfl
    rw [hidle, hpo ((Port.idled_inner _ _ _).trans (Port.unpinned_inner _)), Port.idled_shown]
    exact ⟨rfl, Port.idled_levels _ _ _⟩
  · rw [show (s.setPo n (s.po n).unpinned).mirror n 0 = s.pinned n (s.po n).unpinned s.freeCtr 0 from rfl,
      hpo (Port.unpinned_inner _)]
    exact ⟨rfl, rfl, rfl⟩

/-- The upper port of a pair shows the pins of the lower one. -/
theorem State.startPins_upper {n : PId} (hn : s.master n = n) (hp : s.paired n = true) :
    ((s.startPins n).po (upperPort n)).pins =
      { ((s.startPins n).po n).pins with d := ((s.startPins n).po (upperPort n)).pins.d } := by
  obtain ⟨y, k, hi, heq, hy, -⟩ := s.startPins_pinned hn
  have hne : upperPort n ≠ n := fun h => upperPort_ne_lowerPort n (h.trans (State.own_of_paired hn hp))
  have hupper := (s.pinned_po hn hy k hi (upperPort n)).trans ((if_neg hne).trans
    (if_pos ((s.master_eq_iff hn).2 (.inr ⟨hp, State.own_of_paired hn hp, rfl⟩))))
  have hown := (s.pinned_po hn hy k hi n).trans (if_pos rfl)
  rw [heq, hupper, hown]
  rfl

theorem State.startPins_other {m n : PId} (hn : s.master n = n) (hm : m ≠ n) (hup : m = upperPort n → s.paired n = false) :
    (s.startPins n).po m = s.po m := by
  refine s.startPins_po_ne fun h => ?_
  rcases (s.master_eq_iff hn).1 h with e | ⟨hp, -, e⟩
  · exact hm e
  · rw [hup e] at hp
    nomatch hp

/-! ### PCFG latched (R82, R83, R91) -/

/-- A lower port forms its pair as it latches PCFG. -/
def State.forms (s : State) (n : PId) : Bool := decide (n = lowerPort n) && !s.paired n && (s.po n).cfg.getLsbD 5

/-- A lower port leaves its pair as it latches PCFG. -/
def State.leaves (s : State) (n : PId) : Bool := decide (n = lowerPort n) && s.paired n && !(s.po n).cfg.getLsbD 5

/-- The credits of a port after it has latched PCFG. -/
def State.heldAfter (s : State) (n : PId) : Vector Nat 16 :=
  if s.forms n then ((s.poolCredits n (upperPort n)).po n).held
  else if s.leaves n then (s.po n).cutCredits.held
  else (s.po n).held

/-- The state with PCFG latched, and nothing else done. -/
def State.cfgLatched (s : State) (n : PId) : State := s.setPo n { s.po n with lcfg := (s.po n).cfg }

theorem State.cfgLatched_po (n m : PId) :
    (s.cfgLatched n).po m = if m = n then { s.po n with lcfg := (s.po n).cfg } else s.po m := by
  split
  next h => rw [h]; exact s.setPo_po n _
  next h => exact s.setPo_po_ne n m _ h

theorem State.cfgLatched_paired {n : PId} (h : n = lowerPort n) : (s.cfgLatched n).paired n = (s.po n).cfg.getLsbD 5 := by
  rw [State.paired, ← h, State.cfgLatched_po, if_pos rfl]
  rfl

theorem State.poolCredits_po (n u m : PId) : (s.poolCredits n u).po m =
    { s.po m with held := ((s.poolCredits n u).po m).held } := by
  unfold State.poolCredits
  dsimp only
  by_cases hu : m = u
  · rw [hu, State.setPo_po]
  · rw [State.setPo_po_ne _ _ _ _ hu]
    by_cases hm : m = n
    · rw [hm, State.setPo_po]
    · rw [State.setPo_po_ne _ _ _ _ hm]

/-- Pooling reads of the two ports only their credits and what they have set aside. -/
theorem State.poolCredits_held {t : State} {n u : PId} (hne : u ≠ n)
    (hn : (t.po n).held = (s.po n).held ∧ (t.po n).spent = (s.po n).spent) (hu : t.po u = s.po u) :
    ((t.poolCredits n u).po n).held = ((s.poolCredits n u).po n).held ∧
    ((t.poolCredits n u).po u).held = ((s.poolCredits n u).po u).held := by
  obtain ⟨hheld, hspent⟩ := hn
  unfold State.poolCredits
  dsimp only
  refine ⟨?_, ?_⟩
  · rw [State.setPo_po_ne _ _ _ _ hne.symm, State.setPo_po_ne _ _ _ _ hne.symm, State.setPo_po, State.setPo_po]
    simp only [hheld, hspent, hu]
  · rw [State.setPo_po, State.setPo_po]
    simp only [hu]

/-- What latching PCFG does at the ports. -/
structure State.latches (s t : State) (n : PId) : Prop where
  own : t.po n = { s.po n with lcfg := (s.po n).cfg, held := s.heldAfter n }
  others : ∀ m, m ≠ n → m ≠ upperPort n → t.po m = s.po m
  formed : s.forms n = true → (t.po (upperPort n)).fsm = .idle
  upper : s.forms n = false ∨ ((s.po (upperPort n)).staging = [] ∧ ∀ l k, (s.po (upperPort n)).fsm ≠ .body l k) →
    upperPort n ≠ n → (t.po (upperPort n)).inner = ({ s.po (upperPort n) with
      fsm := if s.forms n then .idle else (s.po (upperPort n)).fsm
      held := if s.forms n then ((s.poolCredits n (upperPort n)).po (upperPort n)).held
        else (s.po (upperPort n)).held } : Port).inner
  quiet : s.forms n = false ∨ ((s.po (upperPort n)).staging = [] ∧ ∀ l k, (s.po (upperPort n)).fsm ≠ .body l k) →
    t = { s with ports := t.ports, freeCtr := t.freeCtr }
  counts : ∀ q, (s.qu q).Sheds (t.qu q)

theorem Port.closeOpen_idle (x : Port) : x.closeOpen.fsm = .idle := by
  unfold Port.closeOpen
  split <;> rfl

theorem Port.closeOpen_eq (x : Port) : x.closeOpen = { x with fsm := .idle, staging := x.closeOpen.staging } := by
  unfold Port.closeOpen
  split <;> rfl

theorem Port.closeOpen_of_not_body {x : Port} (h : ∀ l k, x.fsm ≠ .body l k) : x.closeOpen = { x with fsm := .idle } := by
  unfold Port.closeOpen
  split
  next l k hfsm => exact absurd hfsm (h l k)
  next => rfl

theorem State.poolCredits_po_ne {n u m : PId} (hm : m ≠ n) (hu : m ≠ u) : (s.poolCredits n u).po m = s.po m := by
  unfold State.poolCredits
  dsimp only
  rw [State.setPo_po_ne _ _ _ _ hu, State.setPo_po_ne _ _ _ _ hm]

/-- Without a change of its pair a port changes its configuration alone. -/
theorem State.cfgLatched_latches {n : PId} (hforms : s.forms n = false) (hleaves : s.leaves n = false) :
    s.latches (s.cfgLatched n) n := by
  have hpo := s.cfgLatched_po n
  have hheld : s.heldAfter n = (s.po n).held := by simp [State.heldAfter, hforms, hleaves]
  refine ⟨?_, fun m hm _ => (hpo m).trans (if_neg hm), fun h => ?_, fun _ hne => ?_, fun _ => rfl, fun q => (s.qu q).sheds_refl⟩
  · rw [hpo, if_pos rfl, hheld]
  · rw [hforms] at h
    nomatch h
  · rw [hpo, if_neg hne, hforms]
    rfl

/-- A lower port that forms its pair pools the credits, and what is open at the upper port ends. -/
theorem State.formPair_latches {n : PId} (hlow : n = lowerPort n) (hforms : s.forms n = true) :
    s.latches ((((s.cfgLatched n).poolCredits n (upperPort n)).modPo (upperPort n) fun x => x.closeOpen.freshFlags).drain
      (upperPort n)) n := by
  have hne : upperPort n ≠ n := fun h => upperPort_ne_lowerPort n (h.trans hlow)
  have hpo := s.cfgLatched_po n
  have hframe : s.cfgLatched n = { s with ports := (s.cfgLatched n).ports } := rfl
  have hmoves : s.Moves (s.cfgLatched n) := s.moves_setPo n _
  have hheld := s.poolCredits_held (t := s.cfgLatched n) hne (by rw [hpo, if_pos rfl]; exact ⟨rfl, rfl⟩) (by rw [hpo, if_neg hne])
  generalize s.cfgLatched n = t at hpo hframe hmoves hheld ⊢
  have hpool := t.poolCredits_po n (upperPort n)
  have hpool_ne (m : PId) := t.poolCredits_po_ne (n := n) (u := upperPort n) (m := m)
  have kmoves := hmoves.trans (t.poolCredits_moves n (upperPort n))
  have kframe : t.poolCredits n (upperPort n) = { t with ports := (t.poolCredits n (upperPort n)).ports } := rfl
  generalize t.poolCredits n (upperPort n) = p at hheld hpool hpool_ne kmoves kframe ⊢
  have hown := p.modPo_po (upperPort n) fun x => x.closeOpen.freshFlags
  have hother (m : PId) := p.modPo_po_ne (upperPort n) m fun x => x.closeOpen.freshFlags
  have jmoves := kmoves.trans (p.moves_modPo (upperPort n) fun x => x.closeOpen.freshFlags)
  have jframe : (p.modPo (upperPort n) fun x => x.closeOpen.freshFlags) =
    { p with ports := (p.modPo (upperPort n) fun x => x.closeOpen.freshFlags).ports } := rfl
  generalize (p.modPo (upperPort n) fun x => x.closeOpen.freshFlags) = v at hown hother jmoves jframe ⊢
  obtain ⟨hmoved, hkeep⟩ := v.drain_movesAt (upperPort n)
  have hstay := v.drain_of_unstaged (n := upperPort n)
  have jmoves' := jmoves.trans (v.drain_moves (upperPort n))
  have hquiet (h : (s.po (upperPort n)).staging = [] ∧ ∀ l k, (s.po (upperPort n)).fsm ≠ .body l k) :
      v.drain (upperPort n) = v ∧ (v.po (upperPort n)).inner = ({ s.po (upperPort n) with
        fsm := .idle, held := ((s.poolCredits n (upperPort n)).po (upperPort n)).held } : Port).inner := by
    have hup : p.po (upperPort n) = { s.po (upperPort n) with
        held := ((s.poolCredits n (upperPort n)).po (upperPort n)).held } := by
      rw [hpool, hheld.2, hpo, if_neg hne]
    have hclose : (p.po (upperPort n)).closeOpen = { p.po (upperPort n) with fsm := .idle } :=
      Port.closeOpen_of_not_body (by rw [hup]; exact h.2)
    refine ⟨hstay ?_, ?_⟩
    · rw [hown, hclose, hup]
      exact h.1
    · rw [hown, hclose, hup]
      rfl
  generalize v.drain (upperPort n) = w at hmoved hkeep hstay jmoves' hquiet ⊢
  have hfalse (h : s.forms n = false) : False := by
    rw [hforms] at h
    nomatch h
  refine ⟨?_, fun m hm hu => ?_, fun _ => ?_, fun h _ => ?_, fun h => ?_, jmoves'.queue⟩
  · have hafter : s.heldAfter n = ((s.poolCredits n (upperPort n)).po n).held := if_pos hforms
    rw [hkeep n hne.symm, hother n hne.symm, hpool, hheld.1, hpo, if_pos rfl, hafter]
  · rw [hkeep m hu, hother m hu, hpool_ne m hm hu, hpo, if_neg hm]
  · refine (congrArg Port.fsm hmoved).trans ?_
    rw [hown]
    exact Port.closeOpen_idle _
  · obtain ⟨hsame, hinner⟩ := hquiet (h.resolve_left hfalse)
    rw [hsame, hinner, hforms]
    rfl
  · obtain ⟨hsame, -⟩ := hquiet (h.resolve_left hfalse)
    rw [hsame, jframe, kframe, hframe]

/-- A lower port that leaves its pair keeps its own credits, and the upper port stands alone. -/
theorem State.leavePair_latches {n : PId} (hlow : n = lowerPort n) (hleaves : s.leaves n = true) :
    s.latches (((s.cfgLatched n).modPo n Port.cutCredits).startPins (upperPort n)) n := by
  have hne : upperPort n ≠ n := fun h => upperPort_ne_lowerPort n (h.trans hlow)
  obtain ⟨hpaired, hbit⟩ : s.paired n = true ∧ (s.po n).cfg.getLsbD 5 = false := by
    simpa [State.leaves, ← hlow, and_assoc] using hleaves
  have hforms : s.forms n = false := by simp [State.forms, hpaired]
  have hset : (s.cfgLatched n).modPo n Port.cutCredits =
      s.setPo n ({ s.po n with lcfg := (s.po n).cfg } : Port).cutCredits := s.setPo_modPo n _ _
  have hcut (x : Port) (w : Word) : ({ x with lcfg := w } : Port).cutCredits = { x with lcfg := w, held := x.cutCredits.held } := rfl
  have hafter : s.heldAfter n = (s.po n).cutCredits.held := by simp [State.heldAfter, hforms, hleaves]
  rw [hset, hcut, ← hafter]
  have hown := s.setPo_po n { s.po n with lcfg := (s.po n).cfg, held := s.heldAfter n }
  have hother (m : PId) := s.setPo_po_ne n m { s.po n with lcfg := (s.po n).cfg, held := s.heldAfter n }
  have hframe : s.setPo n { s.po n with lcfg := (s.po n).cfg, held := s.heldAfter n } =
    { s with ports := (s.setPo n { s.po n with lcfg := (s.po n).cfg, held := s.heldAfter n }).ports } := rfl
  have hmoves : s.Moves (s.setPo n { s.po n with lcfg := (s.po n).cfg, held := s.heldAfter n }) := s.moves_setPo n _
  generalize s.setPo n { s.po n with lcfg := (s.po n).cfg, held := s.heldAfter n } = t at hown hother hframe hmoves ⊢
  have hsplit : t.paired (upperPort n) = false := by
    rw [State.paired, lowerPort_upperPort, ← hlow, hown]
    exact hbit
  have hup : t.master (upperPort n) = upperPort n := t.master_of_unpaired hsplit
  have hsame := t.startPins_samePorts (upperPort n)
  have hstart (m : PId) (hm : m ≠ upperPort n) := t.startPins_other hup hm fun _ => hsplit
  have hstartFrame := t.startPins_frame (upperPort n)
  generalize t.startPins (upperPort n) = u at hsame hstart hstartFrame ⊢
  refine ⟨by rw [hstart n hne.symm, hown], fun m hm hu => by rw [hstart m hu, hother m hm], fun h => ?_, fun _ _ => ?_, fun _ => ?_,
    fun q => ?_⟩
  · rw [hforms] at h
    nomatch h
  · rw [hsame, hother _ hne, hforms]
    rfl
  · have hlift := congrArg (fun v : State => ({ v with ports := u.ports, freeCtr := u.freeCtr } : State)) hframe
    exact hstartFrame.trans hlift
  · rw [show u.qu q = t.qu q from (congrArg (fun v : State => v.qu q) hstartFrame :)]
    exact hmoves.queue q

theorem State.latchPort_latches (n : PId) : s.latches (s.latchPort n) n := by
  have hset : (s.modPo n fun x => { x with lcfg := x.cfg }) = s.cfgLatched n := rfl
  unfold State.latchPort
  dsimp only
  rw [hset]
  by_cases hlow : n = lowerPort n
  · rw [if_pos hlow, s.cfgLatched_paired hlow]
    cases hforms : s.forms n with
    | true =>
      rw [if_pos (by simpa [State.forms, ← hlow, and_comm] using hforms)]
      exact s.formPair_latches hlow hforms
    | false =>
      rw [if_neg (by simpa [State.forms, ← hlow, and_comm] using hforms)]
      cases hleaves : s.leaves n with
      | true =>
        rw [if_pos (by simpa [State.leaves, ← hlow] using hleaves)]
        exact s.leavePair_latches hlow hleaves
      | false =>
        rw [if_neg (by simpa [State.leaves, ← hlow] using hleaves)]
        exact s.cfgLatched_latches hforms hleaves
  · rw [if_neg hlow]
    exact s.cfgLatched_latches (by simp [State.forms, hlow]) (by simp [State.leaves, hlow])

/-! ### A port enabled (R72, R82) -/

/-- The state in which an enabled port starts: PCFG latched and EN set. -/
def State.switchedOn (s : State) (n : PId) : State := (s.latchPort n).modPo n fun x => { x with en := true }

theorem State.enablePort_eq (n : PId) : s.enablePort n = ((s.switchedOn n).startPins n).scaleAll := rfl

theorem State.switchedOn_po (n : PId) :
    (s.switchedOn n).po n = { s.po n with en := true, lcfg := (s.po n).cfg, held := s.heldAfter n } ∧
    ∀ m, m ≠ n → (s.switchedOn n).po m = (s.latchPort n).po m := by
  refine ⟨?_, fun m hm => (s.latchPort n).modPo_po_ne n m _ hm⟩
  rw [State.switchedOn, State.modPo_po, (s.latchPort_latches n).own]

theorem State.switchedOn_frame (n : PId) : s.switchedOn n = { s with
    ports := (s.switchedOn n).ports, queues := (s.switchedOn n).queues, chans := (s.switchedOn n).chans
    freeCtr := (s.switchedOn n).freeCtr } := by
  have hlift := congrArg (fun v : State => ({ v with ports := (s.switchedOn n).ports } : State)) (s.latchPort_frame n)
  exact hlift

variable {s} in
theorem State.switchedOn_master {n : PId} (hn : s.master n = n) : (s.switchedOn n).master n = n := by
  by_cases hlow : n = lowerPort n
  · unfold State.master
    split
    · exact hlow.symm
    · rfl
  · have hsplit : s.paired n = false := (State.master_iff_lower hn).resolve_right hlow
    have hne : lowerPort n ≠ upperPort n := (upperPort_ne_lowerPort n).symm
    have hpo : (s.switchedOn n).po (lowerPort n) = s.po (lowerPort n) :=
      ((s.switchedOn_po n).2 _ (Ne.symm hlow)).trans ((s.latchPort_latches n).others _ (Ne.symm hlow) hne)
    refine State.master_of_unpaired _ ?_
    rw [State.paired, hpo]
    exact hsplit

/-- What an enable does at the ports, and to the rest. -/
structure State.starts (s t : State) (n : PId) : Prop where
  inner : (t.po n).inner = ({ s.po n with en := true, lcfg := (s.po n).cfg, held := (t.po n).held } : Port).inner
  held : (t.po n).held = s.heldAfter n
  shown : (t.po n).shown = (s.po n).qsel
  flags : (t.po n).pins.fla = .low ∧ (t.po n).pins.flb = .low
  err : (t.po n).pins.err = .high
  dv : (t.po n).pins.dv = (if s.portsOn && (s.po n).cfg.getLsbD 0 then .low else .z)
  mirrored : t.paired n = true →
    (t.po (upperPort n)).pins = { (t.po n).pins with d := (t.po (upperPort n)).pins.d }
  formed : s.forms n = true → (t.po (upperPort n)).fsm = .idle
  upper : s.forms n = false ∨ ((s.po (upperPort n)).staging = [] ∧ ∀ l k, (s.po (upperPort n)).fsm ≠ .body l k) →
    upperPort n ≠ n → (t.po (upperPort n)).inner = ({ s.po (upperPort n) with
      fsm := if s.forms n then .idle else (s.po (upperPort n)).fsm
      held := if s.forms n then ((s.poolCredits n (upperPort n)).po (upperPort n)).held
        else (s.po (upperPort n)).held } : Port).inner
  quiet : s.forms n = false ∨ ((s.po (upperPort n)).staging = [] ∧ ∀ l k, (s.po (upperPort n)).fsm ≠ .body l k) →
    t.bare = ({ s with ports := t.ports, freeCtr := t.freeCtr } : State).bare
  others : ∀ m, m ≠ n → m ≠ upperPort n → t.po m = s.po m
  frame : t = { s with ports := t.ports, queues := t.queues, chans := t.chans, freeCtr := t.freeCtr }
  counts : ∀ q, (s.qu q).Sheds (t.qu q)

theorem State.enablePort_starts {n : PId} (hn : s.master n = n) (hfatal : s.dp.fatal = false) :
    s.starts (s.enablePort n) n := by
  obtain ⟨-, hothers, hformed, hupper, hquiet, hcounts⟩ := s.latchPort_latches n
  obtain ⟨kown, kothers⟩ := s.switchedOn_po n
  have kframe := s.switchedOn_frame n
  have kmaster := State.switchedOn_master hn
  have kquiet (h : s.latchPort n = { s with ports := (s.latchPort n).ports, freeCtr := (s.latchPort n).freeCtr }) :
      s.switchedOn n = { s with ports := (s.switchedOn n).ports, freeCtr := (s.switchedOn n).freeCtr } := by
    have hlift := congrArg (fun v : State => ({ v with ports := (s.switchedOn n).ports } : State)) h
    exact hlift
  have kcounts (q : QId) : (s.qu q).Sheds ((s.switchedOn n).qu q) := hcounts q
  rw [s.enablePort_eq]
  generalize s.latchPort n = l at hothers hformed hupper hquiet kothers kquiet
  generalize s.switchedOn n = e at kown kothers kframe kmaster kquiet kcounts ⊢
  have hon : e.portsOn = s.portsOn := (congrArg State.portsOn kframe :)
  obtain ⟨jshown, jerr, jdv⟩ := e.startPins_own kmaster ((congrArg (fun v : State => v.dp.fatal) kframe).trans hfatal)
  have jflags := e.startPins_low kmaster
  have jsame := e.startPins_samePorts n
  have jupper := e.startPins_upper kmaster
  have jother (m : PId) := e.startPins_other (m := m) kmaster
  have jframe := e.startPins_frame n
  generalize e.startPins n = t at jshown jerr jdv jflags jsame jupper jother jframe ⊢
  have hpo := t.scaleAll_po
  have hpaired : t.scaleAll.paired n = e.paired n := by
    rw [State.paired, hpo, State.paired, jsame.lcfg]
  have hheld : (t.po n).held = s.heldAfter n := (congrArg Port.held (jsame n) :).trans (congrArg Port.held kown :)
  refine ⟨?_, ?_, ?_, ?_, ?_, ?_, fun hp => ?_, fun h => ?_, fun h hne => ?_, fun h => ?_, fun m hm hu => ?_, ?_, fun q => ?_⟩
  · rw [hpo, jsame, kown, hheld]
  · rw [hpo, hheld]
  · rw [hpo, jshown, kown]
    rfl
  · rw [hpo]
    exact jflags
  · rw [hpo, jerr]
  · have hegress : (e.po n).egress = (s.po n).cfg.getLsbD 0 := by rw [kown]; rfl
    have hen : (e.po n).en = true := by rw [kown]
    rw [hpo, jdv, hon, hegress, hen, Bool.and_true]
  · rw [hpo, hpo]
    exact jupper (hpaired.symm.trans hp)
  · have hlow : n = lowerPort n := by
      simp only [State.forms, Bool.and_eq_true, decide_eq_true_eq] at h
      exact h.1.1
    have hne : upperPort n ≠ n := fun e => upperPort_ne_lowerPort n (e.trans hlow)
    rw [hpo]
    refine (congrArg Port.fsm (jsame (upperPort n)) :).trans ?_
    rw [kothers _ hne]
    exact hformed h
  · rw [hpo, jsame, kothers _ hne]
    exact hupper h hne
  · rw [State.scaleAll_bare, State.scaleAll_ports, State.scaleAll_freeCtr]
    have hlift := congrArg (fun v : State => ({ v with ports := t.ports, freeCtr := t.freeCtr } : State)) (kquiet (hquiet h))
    exact congrArg State.bare (jframe.trans hlift)
  · have hsplit (hp : m = upperPort n) : e.paired n = false := absurd hp hu
    rw [hpo, jother m hm hsplit, kothers m hm, hothers m hm hu]
  · have hscale := t.moves_scaleAll.frame
    have hall := jframe.trans (congrArg (fun v : State => ({ v with ports := t.ports, freeCtr := t.freeCtr } : State)) kframe)
    have hlift := congrArg (fun v : State => ({ v with
      ports := t.scaleAll.ports, queues := t.scaleAll.queues, chans := t.scaleAll.chans } : State)) hall
    rw [State.scaleAll_freeCtr]
    exact hscale.trans hlift
  · have hqu : t.qu q = e.qu q := (congrArg (fun v : State => v.qu q) jframe :)
    have hscale := t.moves_scaleAll.queue q
    rw [hqu] at hscale
    exact (kcounts q).trans hscale

/-! ### Words that cannot move on (R99, R112, R122) -/

/-- A port without its enable, its framing and what it shows and records. -/
def Port.still (x : Port) : Port := { x.load with en := false, fsm := .idle }

theorem Port.still_of_inner {x y : Port} (h : y.inner = x.inner) : y.still = x.still := by
  have hlift := congrArg (fun z : Port => ({ z with
    en := false, fsm := .idle, capTrig := false, capArmed := false, capDone := false, capWait := false, capt0 := 0
    capt1 := 0, capt2 := 0 } : Port)) h
  exact hlift

/-- Whether a port's words move on turns neither on its enable and its framing nor on what it shows. -/
theorem State.stuck_congr {s t : State} (h : ∀ m, (t.po m).still = (s.po m).still) {n : PId} (hs : s.drainOne n = none) :
    t.drainOne n = none := by
  have hlcfg (m : PId) : (t.po m).lcfg = (s.po m).lcfg := (congrArg Port.lcfg (h m) :)
  have hstopped : t.stoppedAt n = s.stoppedAt n := by
    rw [State.stoppedAt, State.stoppedAt, State.master_of_lcfg hlcfg]
    exact (congrArg Port.stopped (h _) :)
  have hbegun (m : PId) (q : QId) : (t.po m).segBegun q = (s.po m).segBegun q :=
    (congrArg (fun x : Port => x.segBegun q) (h m) :)
  have horder (m : PId) (q : QId) : (t.po m).segOrder q = (s.po m).segOrder q :=
    (congrArg (fun x : Port => x.segOrder q) (h m) :)
  have hblocks (q : QId) : t.segBlocks n q = s.segBlocks n q := by
    unfold State.segBlocks
    simp only [hbegun, horder]
  have hcredit (q : QId) : (t.po n).creditFor q = (s.po n).creditFor q := (congrArg (fun x : Port => x.creditFor q) (h n) :)
  have hcur : (t.po n).cur = (s.po n).cur := (congrArg Port.cur (h n) :)
  have hstaging : (t.po n).staging = (s.po n).staging := (congrArg Port.staging (h n) :)
  unfold State.drainOne at hs ⊢
  dsimp only at hs ⊢
  rw [hstopped, hcur, hstaging]
  simp only [hblocks, hcredit]
  split at hs
  next hstop => exact if_pos hstop
  next hstop =>
    rw [if_neg hstop]
    split at hs
    next => cases hs
    next c tok ts hc ht =>
      rw [hc]
      cases tok with
      | lead => rfl
      | pay v par =>
        dsimp only at hs ⊢
        cases hq : c.q with
        | none =>
          rw [hq] at hs
          cases hs
        | some q =>
          rw [hq] at hs
          dsimp only at hs ⊢
          split at hs
          next hwait => exact if_pos hwait
          next => split at hs <;> cases hs
      | fin trunc discard =>
        dsimp only at hs
        split at hs
        · cases hs
        · split at hs <;> cases hs
    next => rfl

/-! ### A port disabled (R84, Table 13.2) -/

/-- A port as it stops: what is open at an ingress port ends. -/
def Port.halted (x : Port) : Port := { (if x.egress then x else x.closeOpen) with en := false }

/-- A port without what it holds for queues and what it shows. -/
def Port.shell (x : Port) : Port :=
  { x.inner with
    held := Vector.replicate 16 0, spent := Vector.replicate 16 0, done := [], staging := [], cur := none }

theorem Port.moved.shell {x y : Port} (h : x.moved y) : y.shell = x.shell := by
  rw [h]
  rfl

theorem Port.shell_of_inner {x y : Port} (h : y.inner = x.inner) : y.shell = x.shell :=
  congrArg (fun z : Port => ({ z with
    held := Vector.replicate 16 0, spent := Vector.replicate 16 0, done := [], staging := [], cur := none } : Port)) h

theorem State.marksAt.inner {s t : State} {n : PId} (h : s.marksAt t n) (m : PId) : (t.po m).inner = (s.po m).inner := by
  by_cases hm : m = n
  · rw [hm, h.own]
    rfl
  · rw [h.others m hm]

/-- What a queue has taken in and given out stays as marks are applied. -/
theorem State.applyPend_sheds (q k : QId) : (s.qu k).Sheds ((s.applyPend q).qu k) := by
  by_cases hk : k = q
  · subst hk
    cases hpend : (s.qu k).markPend with
    | none =>
      rw [s.applyPend_of_none hpend]
      exact (s.qu k).sheds_refl
    | some c =>
      have hmark : (s.qu k).Sheds ((s.nextOrder.modQu k fun x => x.applyMark c).qu k) := by
        rw [State.modQu_qu]
        cases c <;> exact ⟨rfl, rfl, rfl, rfl, fun b hb => ⟨b, hb, rfl, id⟩⟩
      rw [s.applyPend_of_some hpend, show ((s.marking k c).crossReader k).qu k = (s.marking k c).qu k from
        (congrArg (fun v : State => v.qu k) (State.crossReader_frame _ k) :)]
      unfold State.marking
      generalize (s.nextOrder.modQu k fun x => x.applyMark c) = t at hmark
      exact ((hmark.trans ((t.sheds_settle k).queue k)).trans ((State.sheds_jumpLost _ k).queue k)).trans
        ((State.sheds_scale _ k).queue k)
  · rw [(s.applyPend_marksAt rfl).2 k hk]
    exact (s.qu k).sheds_refl

theorem State.applyIdleMarks_sheds (n : PId) (k : QId) : (s.qu k).Sheds ((s.applyIdleMarks n).qu k) :=
  List.foldlRecOn (motive := fun t : State => (s.qu k).Sheds (t.qu k)) allQ (State.idleMark n) (s.qu k).sheds_refl
    fun t ht q _ => by
      refine ht.trans ?_
      unfold State.idleMark
      split
      · exact t.applyPend_sheds q k
      · exact (t.qu k).sheds_refl

/-- `t` is `s` but for ports, queues, channels' requests, free values and stamps. -/
def State.stirs (s t : State) : Prop := t = { s with
  ports := t.ports, queues := t.queues, chans := t.chans, freeCtr := t.freeCtr, order := t.order }

theorem State.stirs.trans {s t u : State} (h : s.stirs t) (k : t.stirs u) : s.stirs u := by
  have hlift := congrArg (fun v : State => ({ v with
    ports := u.ports, queues := u.queues, chans := u.chans, freeCtr := u.freeCtr, order := u.order } : State)) h
  exact Eq.trans k hlift

theorem State.Moves.stirs {s t : State} (h : s.Moves t) : s.stirs t := by
  have hlift := congrArg (fun v : State => ({ v with freeCtr := t.freeCtr, order := t.order } : State)) h.frame
  exact hlift

theorem State.marksAt.stirs {s t : State} {n : PId} (h : s.marksAt t n) : s.stirs t := by
  have hlift := congrArg (fun v : State => ({ v with freeCtr := t.freeCtr } : State)) h.frame
  exact hlift

theorem State.startPins_stirs (n : PId) : s.stirs (s.startPins n) := by
  have hframe := s.startPins_frame n
  generalize s.startPins n = t at hframe ⊢
  have hlift := congrArg (fun v : State => ({ v with queues := t.queues, chans := t.chans, order := t.order } : State)) hframe
  exact hlift

/-- What a disable does at the ports, and to the rest. -/
structure State.stops (s t : State) (n : PId) : Prop where
  own : (t.po n).shell = (s.po n).halted.shell
  others : ∀ m, m ≠ n → (t.po m).shell = (s.po m).shell
  frame : s.stirs t
  counts : ∀ q, (s.qu q).Sheds (t.qu q)

/-- What a disable leaves where no word can move on, no segment is open at the port and no mark is pending. -/
structure State.stopsQuietly (s t : State) (n : PId) : Prop where
  own : (t.po n).inner = (s.po n).halted.inner
  others : ∀ m, m ≠ n → (m = upperPort n → s.paired n = false) → t.po m = s.po m
  upper : s.paired n = true → (t.po (upperPort n)).inner = (s.po (upperPort n)).inner ∧
    (t.po (upperPort n)).pins = { (t.po n).pins with d := (t.po (upperPort n)).pins.d }
  bare : t.bare = ({ s with ports := t.ports, freeCtr := t.freeCtr } : State).bare

/-- The state in which a port has just been stopped. -/
def State.haltedAt (s : State) (n : PId) : State := s.setPo n (s.po n).halted

theorem State.disablePort_eq (n : PId) : s.disablePort n =
    (((((s.haltedAt n).drain n).startPins n).applyIdleMarks n).drainAll).scaleAll := by
  have hhalt : (s.modPo n fun x => if x.egress then x else x.closeOpen).modPo n (fun x => { x with en := false }) =
      s.haltedAt n := s.setPo_modPo n _ _
  unfold State.disablePort
  dsimp only
  rw [hhalt]

theorem State.haltedAt_po (n m : PId) : (s.haltedAt n).po m = if m = n then (s.po n).halted else s.po m := by
  split
  next h => rw [h]; exact s.setPo_po n _
  next h => exact s.setPo_po_ne n m _ h

theorem State.disablePort_stops (n : PId) : s.stops (s.disablePort n) n := by
  have hpo := s.haltedAt_po n
  have hcounts (q : QId) : (s.qu q).Sheds ((s.haltedAt n).qu q) := (s.qu q).sheds_refl
  have hstirs : s.stirs (s.haltedAt n) := (s.moves_setPo n (s.po n).halted).stirs
  rw [s.disablePort_eq]
  generalize s.haltedAt n = c at hpo hcounts hstirs ⊢
  have hdrain := (c.drain_movesAt n).moved
  have kmoves := c.drain_moves n
  generalize c.drain n = d at hdrain kmoves ⊢
  have hstart := d.startPins_samePorts n
  have hstartFrame := d.startPins_frame n
  have kstirs := d.startPins_stirs n
  generalize d.startPins n = p at hstart hstartFrame kstirs ⊢
  have hmarks := p.applyIdleMarks_marksAt n
  have hsheds := p.applyIdleMarks_sheds n
  generalize p.applyIdleMarks n = m at hmarks hsheds ⊢
  have hall := m.drainAll_moved
  have jmoves := m.drainAll_moves
  generalize m.drainAll = a at hall jmoves ⊢
  have hscale := a.moves_scaleAll
  have hports := a.scaleAll_po
  generalize a.scaleAll = t at hscale hports ⊢
  have hshell (k : PId) : (t.po k).shell = (c.po k).shell := by
    rw [hports]
    exact (hall k).shell.trans ((Port.shell_of_inner (hmarks.inner k)).trans
      ((Port.shell_of_inner (hstart k)).trans (hdrain k).shell))
  refine ⟨?_, fun k hk => ?_, ?_, fun q => ?_⟩
  · rw [hshell, hpo, if_pos rfl]
  · rw [hshell, hpo, if_neg hk]
  · exact ((hstirs.trans kmoves.stirs).trans kstirs).trans (hmarks.stirs.trans (jmoves.trans hscale).stirs)
  · have hqu : p.qu q = d.qu q := (congrArg (fun v : State => v.qu q) hstartFrame :)
    have hq := hsheds q
    rw [hqu] at hq
    exact (((hcounts q).trans (kmoves.queue q)).trans hq).trans ((jmoves.trans hscale).queue q)

theorem Port.halted_still {x : Port} (h : ∀ l k, x.fsm ≠ .body l k) : x.halted.still = x.still := by
  unfold Port.halted
  split
  · rfl
  · rw [Port.closeOpen_of_not_body h]
    rfl

theorem State.disablePort_stopsQuietly {n : PId} (hn : s.master n = n) (hstuck : ∀ m, s.drainOne m = none)
    (hbody : ∀ l k, (s.po n).fsm ≠ .body l k) (hmarks : ∀ q, (s.qu q).markPend = none) :
    s.stopsQuietly (s.disablePort n) n := by
  have hpo := s.haltedAt_po n
  have hframe : s.haltedAt n = { s with ports := (s.haltedAt n).ports } := rfl
  have hstill (m : PId) : ((s.haltedAt n).po m).still = (s.po m).still := by
    rw [hpo]
    split
    next h => rw [h, Port.halted_still hbody]
    next => rfl
  have hlcfg (m : PId) : ((s.haltedAt n).po m).lcfg = (s.po m).lcfg := (congrArg Port.lcfg (hstill m) :)
  rw [s.disablePort_eq]
  generalize s.haltedAt n = c at hpo hframe hstill hlcfg ⊢
  rw [c.drain_of_stuck (State.stuck_congr hstill (hstuck n))]
  have hmaster : c.master n = n := (State.master_of_lcfg hlcfg n).trans hn
  have hpaired : c.paired n = s.paired n := State.paired_of_lcfg hlcfg n
  have hstart := c.startPins_samePorts n
  have hstartFrame := c.startPins_frame n
  have hother (m : PId) := c.startPins_other (m := m) hmaster
  have hupper := c.startPins_upper hmaster
  generalize c.startPins n = p at hstart hstartFrame hother hupper ⊢
  have hqu (q : QId) : p.qu q = s.qu q := (congrArg (fun v : State => v.qu q) hstartFrame :).trans
    (congrArg (fun v : State => v.qu q) hframe :)
  have hstuck' (m : PId) : p.drainOne m = none := by
    refine State.stuck_congr (fun k => ?_) (hstuck m)
    rw [← hstill k, Port.still_of_inner (hstart k)]
  rw [p.applyIdleMarks_of_unmarked fun q => by rw [hqu, hmarks], p.drainAll_of_stuck hstuck']
  have hports := p.scaleAll_po
  refine ⟨?_, fun m hm hu => ?_, fun hp => ⟨?_, ?_⟩, ?_⟩
  · rw [hports, hstart, hpo, if_pos rfl]
  · rw [hports, hother m hm fun e => hpaired.trans (hu e), hpo, if_neg hm]
  · have hne : upperPort n ≠ n := fun h => upperPort_ne_lowerPort n (h.trans (State.own_of_paired hn hp))
    rw [hports, hstart, hpo, if_neg hne]
  · rw [hports, hports]
    exact hupper (hpaired.trans hp)
  · rw [State.scaleAll_bare, State.scaleAll_ports, State.scaleAll_freeCtr]
    have hlift := congrArg (fun v : State => ({ v with ports := p.ports, freeCtr := p.freeCtr } : State)) hframe
    exact congrArg State.bare (hstartFrame.trans hlift)

/-! ### DP:GCTL.EN (R71, R84) -/

/-- A running port as DP:GCTL.EN goes to 0: it stops as at a clear of its PCTL.EN, which keeps what it reads. -/
def State.gateOff (s : State) (n : PId) : State :=
  if (s.po n).en && !s.isUpper n then (s.disablePort n).modPo n fun x => { x with en := true } else s

/-- `t` is `s` with ports stopped: what each port is set to and holds in partial staves, and the queues' counts, stay. -/
structure State.gated (s t : State) : Prop where
  kept : ∀ n, (t.po n).en = (s.po n).en ∧ (t.po n).partials = (s.po n).partials ∧ (t.po n).lcfg = (s.po n).lcfg
  frame : s.stirs t
  counts : ∀ q, (s.qu q).Sheds (t.qu q)

theorem State.gated_refl : s.gated s := ⟨fun _ => ⟨rfl, rfl, rfl⟩, rfl, fun q => (s.qu q).sheds_refl⟩

theorem State.gated.trans {s t u : State} (h : s.gated t) (k : t.gated u) : s.gated u where
  kept n := by
    obtain ⟨hen, hpart, hlcfg⟩ := h.kept n
    obtain ⟨ken, kpart, klcfg⟩ := k.kept n
    exact ⟨ken.trans hen, kpart.trans hpart, klcfg.trans hlcfg⟩
  frame := h.frame.trans k.frame
  counts q := (h.counts q).trans (k.counts q)

theorem Port.halted_kept (x : Port) : x.halted.partials = x.partials ∧ x.halted.lcfg = x.lcfg ∧
    x.halted.fsm = if x.egress then x.fsm else .idle := by
  unfold Port.halted
  split
  · exact ⟨rfl, rfl, rfl⟩
  · exact ⟨(congrArg Port.partials x.closeOpen_eq :), (congrArg Port.lcfg x.closeOpen_eq :), Port.closeOpen_idle x⟩

/-- A stopped port whose PCTL.EN reads 1 as before. -/
def State.reenabled (t : State) (n : PId) : State := t.modPo n fun x => { x with en := true }

theorem State.reenabled_po (t : State) (n m : PId) :
    (t.reenabled n).po m = if m = n then { t.po n with en := true } else t.po m := by
  split
  next h => rw [h]; exact t.modPo_po n _
  next h => exact t.modPo_po_ne n m _ h

theorem State.gateOff_of_runs {n : PId} (h : ((s.po n).en && !s.isUpper n) = true) :
    s.gateOff n = (s.disablePort n).reenabled n := if_pos h

theorem State.gateOff_of_stands {n : PId} (h : ¬((s.po n).en && !s.isUpper n) = true) : s.gateOff n = s := if_neg h

variable {s} in
theorem State.stops.gated {t : State} {n : PId} (h : s.stops t n) (hen : (s.po n).en = true) : s.gated (t.reenabled n) := by
  obtain ⟨hown, hothers, hframe, hcounts⟩ := h
  have hpo := t.reenabled_po n
  have hstirs : t.stirs (t.reenabled n) := (t.moves_modPo n _).stirs
  have hqu (q : QId) : (t.reenabled n).qu q = t.qu q := rfl
  generalize t.reenabled n = u at hpo hstirs hqu ⊢
  refine ⟨fun m => ?_, hframe.trans hstirs, fun q => by rw [hqu]; exact hcounts q⟩
  rw [hpo]
  by_cases hm : m = n
  · subst hm
    obtain ⟨hpart, hlcfg, -⟩ := (s.po m).halted_kept
    rw [if_pos rfl]
    exact ⟨hen.symm, (congrArg Port.partials hown :).trans hpart, (congrArg Port.lcfg hown :).trans hlcfg⟩
  · rw [if_neg hm]
    have hshell := hothers m hm
    exact ⟨(congrArg Port.en hshell :), (congrArg Port.partials hshell :), (congrArg Port.lcfg hshell :)⟩

theorem State.gateOff_gated (n : PId) : s.gated (s.gateOff n) := by
  by_cases h : ((s.po n).en && !s.isUpper n) = true
  · rw [s.gateOff_of_runs h]
    exact (s.disablePort_stops n).gated (Bool.and_eq_true_iff.1 h).1
  · rw [s.gateOff_of_stands h]
    exact s.gated_refl

theorem State.foldGateOff_gated (l : List PId) : s.gated (l.foldl State.gateOff s) :=
  List.foldlRecOn (motive := fun t => s.gated t) l State.gateOff s.gated_refl fun t ht n _ => ht.trans (t.gateOff_gated n)

theorem State.samePorts.gated {s t : State} (h : s.samePorts t) (hframe : s.stirs t) (hqu : ∀ q, t.qu q = s.qu q) :
    s.gated t :=
  ⟨fun n => ⟨h.en n, (congrArg Port.partials (h n) :), h.lcfg n⟩, hframe, fun q => by rw [hqu]; exact (s.qu q).sheds_refl⟩

theorem State.startAllPins_gated : s.gated s.startAllPins := by
  have hframe := s.startAllPins_frame
  have hsame := s.startAllPins_samePorts
  generalize s.startAllPins = t at hframe hsame ⊢
  have hlift := congrArg (fun v : State => ({ v with queues := t.queues, chans := t.chans, order := t.order } : State)) hframe
  exact hsame.gated hlift fun q => (congrArg (fun v : State => v.qu q) hframe :)

theorem State.scaleAll_gated : s.gated s.scaleAll :=
  ⟨fun n => by rw [State.scaleAll_po]; exact ⟨rfl, rfl, rfl⟩, s.moves_scaleAll.stirs, s.moves_scaleAll.queue⟩

theorem State.bare_at {s t : State} (h : t.bare = s.bare) (ports : Vector Port 4) (k : Nat) :
    ({ t with ports := ports, freeCtr := k } : State).bare = ({ s with ports := ports, freeCtr := k } : State).bare := by
  have hlift := congrArg (fun v : State => ({ v with ports := ports, freeCtr := k } : State)) h
  exact hlift

/-- The words of no port can move on, no port has a segment open, and no mark is pending. -/
structure State.Calm (s : State) : Prop where
  stuck : ∀ m, s.drainOne m = none
  body : ∀ n l k, (s.po n).fsm ≠ .body l k
  marks : ∀ q, (s.qu q).markPend = none

/-- The ports whose framing ends as DP:GCTL.EN goes to 0. -/
def State.endsFraming (s : State) (n : PId) : Bool := (s.po n).en && !s.isUpper n && !(s.po n).egress

variable {s} in
theorem State.stopsQuietly.calm {t : State} {n : PId} (h : s.stopsQuietly t n) (hen : (s.po n).en = true)
    (hup : s.isUpper n = false) (hbody : ∀ l k, (s.po n).fsm ≠ .body l k) :
    (∀ m, ((t.reenabled n).po m).inner = ({ s.po m with
      fsm := if m = n ∧ s.endsFraming n = true then .idle else (s.po m).fsm } : Port).inner) ∧
    (t.reenabled n).bare =
      ({ s with ports := (t.reenabled n).ports, freeCtr := (t.reenabled n).freeCtr } : State).bare := by
  obtain ⟨hown, hothers, hupper, hbare⟩ := h
  have hpo := t.reenabled_po n
  have hframe : t.reenabled n = { t with ports := (t.reenabled n).ports, freeCtr := (t.reenabled n).freeCtr } := rfl
  generalize t.reenabled n = u at hpo hframe ⊢
  refine ⟨fun m => ?_, (congrArg State.bare hframe).trans (State.bare_at hbare _ _)⟩
  rw [hpo]
  by_cases hm : m = n
  · subst hm
    have hends : s.endsFraming m = !(s.po m).egress := by
      rw [State.endsFraming, hen, hup]
      rfl
    have hinner : ({ t.po m with en := true } : Port).inner = ({ (s.po m).halted with en := true } : Port).inner :=
      congrArg (fun x : Port => ({ x with en := true } : Port)) hown
    rw [if_pos rfl, hinner, hends]
    unfold Port.halted
    cases heg : (s.po m).egress with
    | true => simp [hen, Port.inner]
    | false => simp [hen, Port.inner, Port.closeOpen_of_not_body hbody]
  · rw [if_neg hm, if_neg fun e => hm e.1]
    by_cases hu : m = upperPort n ∧ s.paired n = true
    · obtain ⟨rfl, hp⟩ := hu
      exact (hupper hp).1
    · rw [hothers m hm fun e => by simpa using fun hp => hu ⟨e, hp⟩]

theorem State.gateOff_calm (h : s.Calm) (n : PId) :
    (∀ m, ((s.gateOff n).po m).inner = ({ s.po m with
      fsm := if m = n ∧ s.endsFraming n = true then .idle else (s.po m).fsm } : Port).inner) ∧
    (s.gateOff n).bare = ({ s with ports := (s.gateOff n).ports, freeCtr := (s.gateOff n).freeCtr } : State).bare := by
  by_cases hon : ((s.po n).en && !s.isUpper n) = true
  · obtain ⟨hen, hnot⟩ := Bool.and_eq_true_iff.1 hon
    have hup : s.isUpper n = false := by simpa using hnot
    rw [s.gateOff_of_runs hon]
    exact (s.disablePort_stopsQuietly (s.not_upper_iff.1 hup) h.stuck (h.body n) h.marks).calm hen hup (h.body n)
  · rw [s.gateOff_of_stands hon]
    refine ⟨fun m => ?_, rfl⟩
    rw [if_neg]
    rintro ⟨rfl, hends⟩
    refine hon ?_
    simp only [State.endsFraming, Bool.and_eq_true] at hends
    simp [hends]

theorem State.Calm.gateOff {s : State} (h : s.Calm) (n : PId) : (s.gateOff n).Calm := by
  obtain ⟨hinner, hbare⟩ := s.gateOff_calm h n
  refine ⟨fun m => State.stuck_congr (fun k => ?_) (h.stuck m), fun m l k hfsm => ?_, fun q => ?_⟩
  · rw [Port.still_of_inner (hinner k)]
    rfl
  · have hwas := (congrArg Port.fsm (hinner m) :).symm.trans hfsm
    dsimp only at hwas
    split at hwas
    · cases hwas
    · exact h.body m l k hwas
  · exact (congrArg Queue.markPend (State.bare_eq_qu hbare q) :).trans (h.marks q)

theorem State.endsFraming_congr {s t : State} (h : s.gated t) (n : PId) : t.endsFraming n = s.endsFraming n := by
  have hlcfg (m : PId) := (h.kept m).2.2
  rw [State.endsFraming, State.endsFraming, (h.kept n).1, State.isUpper_of_lcfg hlcfg, Port.egress, Port.egress, hlcfg]

theorem State.foldGateOff_calm (h : s.Calm) (l : List PId) (hl : l.Nodup) :
    (∀ m, ((l.foldl State.gateOff s).po m).inner = ({ s.po m with
      fsm := if m ∈ l ∧ s.endsFraming m = true then .idle else (s.po m).fsm } : Port).inner) ∧
    (l.foldl State.gateOff s).bare = ({ s with
      ports := (l.foldl State.gateOff s).ports, freeCtr := (l.foldl State.gateOff s).freeCtr } : State).bare := by
  induction l generalizing s with
  | nil => exact ⟨fun m => by simp, rfl⟩
  | cons n l ih =>
    obtain ⟨hn, hl'⟩ := List.nodup_cons.1 hl
    obtain ⟨hinner, hbare⟩ := s.gateOff_calm h n
    have hends (m : PId) := State.endsFraming_congr (s.gateOff_gated n) m
    obtain ⟨kinner, kbare⟩ := ih (s.gateOff n) (h.gateOff n) hl'
    rw [List.foldl_cons]
    generalize s.gateOff n = t at hinner hbare hends kinner kbare ⊢
    generalize l.foldl State.gateOff t = u at kinner kbare ⊢
    refine ⟨fun m => ?_, ?_⟩
    · have hfsm : (t.po m).fsm = if m = n ∧ s.endsFraming n = true then .idle else (s.po m).fsm :=
        (congrArg Port.fsm (hinner m) :)
      have hlift := congrArg (fun x : Port => ({ x with
        fsm := if m ∈ l ∧ t.endsFraming m = true then .idle else (t.po m).fsm } : Port)) (hinner m)
      refine (kinner m).trans (hlift.trans ?_)
      rw [hfsm, hends]
      by_cases hm : m = n
      · subst hm
        simp [hn, Port.inner]
      · simp [hm, Port.inner]
    · exact kbare.trans (State.bare_at hbare _ _)

theorem allP_nodup : allP.Nodup := List.nodup_finRange 4

/-- The state with EN and HEARTEN as written. -/
def State.geared (s : State) (en heart : Bool) : State :=
  { s with dp := { s.dp with en := en, heartEn := heart, heart := s.dp.heart && heart } }

theorem State.gctlWrite_eq (en heart : Bool) : s.gctlWrite en heart =
    if s.dp.en && !en then (allP.foldl State.gateOff (s.geared en heart)).startAllPins.scaleAll
    else if !s.dp.en && en then (s.geared en heart).startAllPins.scaleAll
    else s.geared en heart := rfl

/-- What a write of DP:GCTL does to the state with EN and HEARTEN as written. -/
theorem State.gctlWrite_gated (en heart : Bool) : (s.geared en heart).gated (s.gctlWrite en heart) := by
  rw [State.gctlWrite_eq]
  generalize s.geared en heart = t
  split
  · exact ((t.foldGateOff_gated allP).trans (State.startAllPins_gated _)).trans (State.scaleAll_gated _)
  · split
    · exact t.startAllPins_gated.trans (State.scaleAll_gated _)
    · exact t.gated_refl

theorem State.startAll_same {t : State} (hbare : t.bare = ({ s with ports := t.ports, freeCtr := t.freeCtr } : State).bare)
    (u : State) (hu : t.startAllPins.scaleAll = u) :
    t.samePorts u ∧ u.bare = ({ s with ports := u.ports, freeCtr := u.freeCtr } : State).bare := by
  subst hu
  have hframe := t.startAllPins_frame
  have hsame := t.startAllPins_samePorts
  generalize t.startAllPins = v at hframe hsame ⊢
  refine ⟨fun n => by rw [State.scaleAll_po, hsame], ?_⟩
  rw [State.scaleAll_bare, State.scaleAll_ports, State.scaleAll_freeCtr]
  exact (congrArg State.bare hframe).trans (State.bare_at hbare _ _)

/-- Where EN does not go from 1 to 0 the pins alone follow. -/
theorem State.gctlWrite_on {en : Bool} (heart : Bool) (h : s.dp.en = false ∨ en = true) (t : State)
    (ht : s.gctlWrite en heart = t) : s.samePorts t ∧
    t.bare = ({ s.geared en heart with ports := t.ports, freeCtr := t.freeCtr } : State).bare := by
  subst ht
  have hgeared : s.samePorts (s.geared en heart) := fun _ => rfl
  rw [s.gctlWrite_eq, if_neg (by rcases h with h | h <;> simp [h])]
  generalize s.geared en heart = g at hgeared ⊢
  split
  · obtain ⟨hsame, hall⟩ := State.startAll_same g rfl _ rfl
    exact ⟨fun n => (hsame n).trans (hgeared n), hall⟩
  · exact ⟨hgeared, rfl⟩

theorem State.gctlWrite_off (heart : Bool) (h : s.dp.en = true) (hcalm : s.Calm) (t : State)
    (ht : s.gctlWrite false heart = t) :
    (∀ n, (t.po n).inner = ({ s.po n with fsm := if s.endsFraming n = true then .idle else (s.po n).fsm } : Port).inner) ∧
    t.bare = ({ s.geared false heart with ports := t.ports, freeCtr := t.freeCtr } : State).bare := by
  subst ht
  have hpo (n : PId) : (s.geared false heart).po n = s.po n := rfl
  have hends (n : PId) : (s.geared false heart).endsFraming n = s.endsFraming n := rfl
  have hg : (s.geared false heart).Calm :=
    ⟨fun m => State.stuck_congr (s := s) (t := s.geared false heart) (fun _ => rfl) (hcalm.stuck m), hcalm.body, hcalm.marks⟩
  rw [s.gctlWrite_eq, if_pos (by simp [h])]
  generalize s.geared false heart = g at hpo hends hg ⊢
  obtain ⟨hinner, hbare⟩ := g.foldGateOff_calm hg allP allP_nodup
  generalize allP.foldl State.gateOff g = u at hinner hbare ⊢
  obtain ⟨hsame, hall⟩ := State.startAll_same g hbare _ rfl
  refine ⟨fun n => ?_, hall⟩
  have hfsm := hinner n
  rw [hpo, hends] at hfsm
  rw [hsame, hfsm]
  simp only [mem_allP, true_and]

/-! ### The host's commands -/

/-- A command whose effect leaves the paths alone keeps the frame of a host command. -/
theorem State.pathFrame.hostFrame_of_bare {s u t : State} {d : Direct} {ports : Vector Port 4} {k : Nat} (hu : s.pathFrame u)
    (h : t.bare = ({ u with dp := d, ports := ports, freeCtr := k } : State).bare) :
    s.hostFrame t { s with dp := d, ports := ports, freeCtr := k } := by
  obtain ⟨⟨x, y, rfl⟩, hcore⟩ := hu
  have hA : t.pathA = x := (congrArg State.pathA h :)
  have hB : t.pathB = y := (congrArg State.pathB h :)
  refine ⟨by rw [hA, hB]; exact h, fun r => ?_⟩
  rw [← hcore r]
  cases r with
  | a => exact congrArg PathSt.core hA
  | b => exact congrArg PathSt.core hB

theorem State.stirs.noReads {s t : State} (h : s.stirs t) (hs : s.noReads) : t.noReads :=
  State.noReads_congr (congrArg State.pathA h :) (congrArg State.pathB h :) hs

theorem State.exec_portDisable {p : Path} {n : PId} (hlands : s.landsNow p (.port n) 0) (hupper : s.isUpper n = false)
    (hreads : s.noReads) (hen : (s.po n).en = true) :
    ∃ u, s.pathFrame u ∧ exec (.portDisable p n) s = .next (u.disablePort n) := by
  obtain ⟨u, hu, hrow⟩ := s.rowPost_of_landsNow hlands (by simp) 0
  have hpo : u.po n = s.po n := by obtain ⟨⟨_, _, rfl⟩, -⟩ := hu; rfl
  have hup : u.isUpper n = false := by obtain ⟨⟨_, _, rfl⟩, -⟩ := hu; exact hupper
  have hwrite : u.pctlWrite n 0 = u.disablePort n := by
    rw [State.pctlWrite, hup, hpo, hen]
    rfl
  refine ⟨u, hu, congrArg Host.Outcome.next (hrow.trans ?_)⟩
  show (u.pctlWrite n 0).answerReads = _
  rw [hwrite]
  exact State.answerReads_of_noReads _ ((u.disablePort_stops n).frame.noReads (hu.noReads hreads))

theorem gctlBits (en heart : Bool) : bit (flagAt en 0 ||| flagAt heart 2) 0 = en ∧
    bit (flagAt en 0 ||| flagAt heart 2) 1 = false ∧ bit (flagAt en 0 ||| flagAt heart 2) 2 = heart := by
  revert en heart
  decide

theorem State.exec_deviceEnable {p : Path} (h : s.hostWrites p) (en heart : Bool) :
    ∃ u, s.pathFrame u ∧ exec (.deviceEnable p en heart) s = .next (u.gctlWrite en heart) := by
  obtain ⟨u, hu, hfatal, heq⟩ := s.rowDirect_of_hostWrites h 0x02 (flagAt en 0 ||| flagAt heart 2) s.boot.badBanks []
  obtain ⟨hbit0, hbit1, hbit2⟩ := gctlBits en heart
  refine ⟨u, hu, congrArg _ (heq.trans ?_)⟩
  simp [State.directWrite, State.gctl, hfatal, hbit0, hbit1, hbit2]

end Sys2Proof.Machine

open Sys2Proof Sys2Proof.Machine

/-- Settles O16: a port starts with PCFG latched or stops, alone or with every other by DP:GCTL. -/
theorem portEnables : Obligations.PortEnables := by
  unfold Obligations.PortEnables
  refine ⟨fun p n s hlands hupper hreads => ⟨fun hen => ?_, fun hen => ?_⟩, fun p en heart s hhost => ?_⟩
  · obtain ⟨u, hu, hexec⟩ := s.exec_portEnable hlands hupper hreads hen
    refine ⟨_, hexec, ?_⟩
    have hfatal : u.dp.fatal = false := by rw [hu.dp]; exact hlands.1.1.2
    have hmaster : u.master n = n := by
      obtain ⟨⟨_, _, rfl⟩, -⟩ := hu
      exact s.not_upper_iff.1 hupper
    have hstarts := u.enablePort_starts hmaster hfatal
    generalize u.enablePort n = t at hstarts ⊢
    have hhost (h : t.bare = ({ u with ports := t.ports, freeCtr := t.freeCtr } : State).bare) :
        s.hostFrame t { s with ports := t.ports, freeCtr := t.freeCtr } := by
      refine hu.hostFrame_of_bare (d := s.dp) (h.trans ?_)
      rw [← hu.dp]
    obtain ⟨⟨_, _, rfl⟩, -⟩ := hu
    obtain ⟨hinner, hheld, hshown, hflags, herr, hdv, hmirror, hformed, hup, hquiet, hothers, hframe, hcounts⟩ := hstarts
    exact ⟨hinner, hshown, hflags.1, hflags.2, herr, hdv, ⟨hheld, hmirror, hformed, fun h => ⟨hup h, hhost (hquiet h)⟩⟩, hothers,
      (congrArg State.events hframe :), fun q => ⟨(hcounts q).w, (hcounts q).wcnt, (hcounts q).rcnt⟩⟩
  · obtain ⟨u, hu, hexec⟩ := s.exec_portDisable hlands hupper hreads hen
    refine ⟨_, hexec, ?_⟩
    have hmaster : u.master n = n := by
      obtain ⟨⟨_, _, rfl⟩, -⟩ := hu
      exact s.not_upper_iff.1 hupper
    have hstops := u.disablePort_stops n
    have hquiet := u.disablePort_stopsQuietly hmaster
    generalize u.disablePort n = t at hstops hquiet ⊢
    have hhost (h : t.bare = ({ u with ports := t.ports, freeCtr := t.freeCtr } : State).bare) :
        s.hostFrame t { s with ports := t.ports, freeCtr := t.freeCtr } := by
      refine hu.hostFrame_of_bare (d := s.dp) (h.trans ?_)
      rw [← hu.dp]
    have hstuck (h : ∀ m, s.drainOne m = none) (m : PId) : u.drainOne m = none := by
      have hpo (k : PId) : u.po k = s.po k := by obtain ⟨⟨_, _, rfl⟩, -⟩ := hu; rfl
      exact State.stuck_congr (fun k => by rw [hpo]) (h m)
    obtain ⟨⟨_, _, rfl⟩, -⟩ := hu
    obtain ⟨hown, -, hframe, hcounts⟩ := hstops
    obtain ⟨hpart, hlcfg, hfsm⟩ := (s.po n).halted_kept
    have kfsm : (t.po n).fsm = if (s.po n).egress then (s.po n).fsm else .idle := (congrArg Port.fsm hown :).trans hfsm
    refine ⟨(congrArg Port.en hown :), (congrArg Port.lcfg hown :).trans hlcfg, (congrArg Port.partials hown :).trans hpart, kfsm,
      (congrArg State.events hframe :), (congrArg State.dp hframe :),
      fun q => ⟨(hcounts q).w, (hcounts q).wcnt, (hcounts q).rcnt⟩, fun hall hbody hmarks => ?_⟩
    obtain ⟨kown, kothers, kupper, kbare⟩ := hquiet (hstuck hall) hbody hmarks
    refine ⟨?_, kothers, kupper, hhost kbare⟩
    rw [kown, kfsm]
    show (s.po n).halted.inner = _
    unfold Port.halted
    cases heg : (s.po n).egress with
    | true => rfl
    | false =>
      rw [Port.closeOpen_of_not_body hbody]
      rfl
  · obtain ⟨u, hu, hexec⟩ := s.exec_deviceEnable hhost en heart
    refine ⟨_, hexec, ?_⟩
    have hgated := u.gctlWrite_gated en heart
    have hon := u.gctlWrite_on (en := en) heart
    have hoff := u.gctlWrite_off heart
    have hhost' (t : State) (h : t.bare = ({ u.geared en heart with ports := t.ports, freeCtr := t.freeCtr } : State).bare) :
        s.hostFrame t { s with dp := t.dp, ports := t.ports, freeCtr := t.freeCtr } := by
      have hdp : t.dp = (u.geared en heart).dp := (congrArg State.dp h :)
      rw [hdp]
      exact hu.hostFrame_of_bare h
    have hcalm (h : s.Calm) : u.Calm := by
      have hpo (k : PId) : u.po k = s.po k := by obtain ⟨⟨_, _, rfl⟩, -⟩ := hu; rfl
      exact ⟨fun m => State.stuck_congr (fun k => by rw [hpo]) (h.stuck m), fun k => by rw [hpo]; exact h.body k,
        fun q => by rw [hu.qu]; exact h.marks q⟩
    obtain ⟨⟨_, _, rfl⟩, -⟩ := hu
    obtain ⟨hkept, hframe, hcounts⟩ := hgated
    refine ⟨(congrArg State.dp hframe :), hkept, (congrArg State.events hframe :), (congrArg State.boot hframe :),
      (congrArg State.time hframe :), fun q => ⟨(hcounts q).w, (hcounts q).wcnt, (hcounts q).rcnt⟩, fun h => ?_,
      fun hwas hclear hstuck hbody hmarks => ?_⟩
    · obtain ⟨hsame, hbare⟩ := hon h _ rfl
      exact ⟨hsame, hhost' _ hbare⟩
    · subst hclear
      obtain ⟨hinner, hbare⟩ := hoff hwas (hcalm ⟨hstuck, hbody, hmarks⟩) _ rfl
      exact ⟨hinner, hhost' _ hbare⟩

end

section
/-!
O17. A PORT reset, its end, and the arming of the diagnostic capture.
-/

-- The theorems one after another: side by side they take more threads than the check allows.
set_option Elab.async false

namespace Sys2Proof.Machine

variable (s : State)

/-! ### What a PORT reset counts (R401, R408) -/

/-- QEVT.DISC of every queue is as it was. -/
def State.sameDisc (s t : State) : Prop := ∀ q, (t.qu q).disc = (s.qu q).disc

theorem State.sameDisc.trans {s t u : State} (h : s.sameDisc t) (k : t.sameDisc u) : s.sameDisc u :=
  fun q => (k q).trans (h q)

theorem State.sameDisc_setQu {q : QId} {x : Queue} (h : x.disc = (s.qu q).disc) : s.sameDisc (s.setQu q x) := by
  intro k
  by_cases hk : k = q
  · rw [hk, State.setQu_qu, h]
  · rw [s.setQu_qu_ne q k x hk]

theorem State.sameDisc_scale (q : QId) : s.sameDisc (s.scale q) := fun k => s.scale_qu_disc q k
theorem State.sameDisc_scaleAll : s.sameDisc s.scaleAll := fun k => s.scaleAll_qu_disc k

theorem State.settle_sameDisc (q : QId) : s.sameDisc (s.settle q) := by
  intro k
  by_cases hk : k = q
  · subst hk
    obtain ⟨x, chans, heq, hpasses⟩ := s.settle_passes k
    rw [heq]
    exact ((congrArg Queue.disc (s.setQu_qu k x) :)).trans (congrArg Queue.disc hpasses.eq :)
  · rw [s.settle_qu_ne hk]

theorem Queue.jump_disc (x : Queue) (t : Nat) : (x.jump t).disc = x.disc := by
  unfold Queue.jump
  dsimp only
  split <;> rfl

theorem State.jumpN_sameDisc (n : Nat) (q : QId) : s.sameDisc (s.jumpN n q) := by
  induction n generalizing s with
  | zero => exact fun _ => rfl
  | succ n ih =>
    rw [State.jumpN]
    split
    · exact fun _ => rfl
    next t _ =>
      exact ((s.sameDisc_setQu ((s.qu q).jump_disc t)).trans (State.settle_sameDisc _ q)).trans (ih _)

theorem Queue.closeSeg_disc (x : Queue) (q : QId) (b : Bark) : (x.closeSeg q b).disc = x.disc := by
  unfold Queue.closeSeg
  split <;> rfl

theorem State.closeNow_sameDisc (q : QId) (b : Bark) : s.sameDisc (s.closeNow q b) := by
  refine (s.sameDisc_setQu ?_).trans ((State.jumpN_sameDisc _ _ q).trans (State.sameDisc_scale _ q))
  dsimp only
  split
  · exact Queue.closeSeg_disc _ q b
  · rfl

theorem State.endSeg_sameDisc (n : PId) (c : CurSeg) (q : QId) (trunc : Bool) : s.sameDisc (s.endSeg n c q trunc) := by
  unfold State.endSeg
  dsimp only
  split
  · split
    · exact fun _ => rfl
    · exact State.closeNow_sameDisc _ q _
  · exact fun _ => rfl

theorem State.drainOne_sameDisc {n : PId} {t : State} (h : s.drainOne n = some t) : s.sameDisc t := by
  unfold State.drainOne at h
  dsimp only at h
  split at h
  · cases h
  · split at h
    · cases h
      exact fun _ => rfl
    · split at h
      · cases h
      · split at h
        · cases h
          exact fun _ => rfl
        · split at h
          · cases h
          · split at h <;> cases h <;> exact fun _ => rfl
      · split at h
        · cases h
          exact fun _ => rfl
        · split at h
          · cases h
            exact fun _ => rfl
          · cases h
            exact State.endSeg_sameDisc _ n _ _ _
    · cases h

theorem State.drainN_sameDisc (k : Nat) (n : PId) : s.sameDisc (s.drainN k n) := by
  induction k generalizing s with
  | zero => exact fun _ => rfl
  | succ k ih =>
    rw [State.drainN]
    split
    · exact fun _ => rfl
    next h => exact (s.drainOne_sameDisc h).trans (ih _)

theorem State.drainAll_sameDisc : s.sameDisc s.drainAll :=
  List.foldlRecOn (motive := fun t => s.sameDisc t) allP State.drain (fun _ => rfl) fun _ ht n _ =>
    ht.trans (State.drainN_sameDisc _ _ n)

theorem State.startPins_sameDisc (n : PId) : s.sameDisc (s.startPins n) := fun q =>
  (congrArg (fun t : State => (t.qu q).disc) (s.startPins_frame n) :)

theorem State.latchPort_sameDisc (n : PId) : s.sameDisc (s.latchPort n) := by
  unfold State.latchPort
  dsimp only
  split
  · split
    · refine State.sameDisc.trans ?_ (State.drainN_sameDisc _ _ _)
      exact fun _ => rfl
    · split
      · refine State.sameDisc.trans ?_ (State.startPins_sameDisc _ _)
        exact fun _ => rfl
      · exact fun _ => rfl
  · exact fun _ => rfl

theorem allQ_nodup : allQ.Nodup := List.nodup_finRange 16

theorem State.countDisc_qu (n : PId) (q : QId) :
    (s.countDisc n).qu q = { s.qu q with disc := satAdd (s.qu q).disc ((s.po n).pend q) } :=
  (s.foldModQu_qu (fun q y => { y with disc := satAdd y.disc ((s.po n).pend q) }) allQ allQ_nodup q).trans
    (if_pos (mem_allQ q))

theorem State.foldModQu_only (f : QId → Queue → Queue) (l : List QId) :
    l.foldl (fun s q => s.modQu q (f q)) s = { s with queues := (l.foldl (fun s q => s.modQu q (f q)) s).queues } := by
  induction l generalizing s with
  | nil => rfl
  | cons k l ih => exact ih (s.modQu k (f k))

theorem State.countDisc_frame (n : PId) : s.countDisc n = { s with queues := (s.countDisc n).queues } :=
  s.foldModQu_only (fun q y => { y with disc := satAdd y.disc ((s.po n).pend q) }) allQ

/-- The segment of a port that is partly committed to one queue closes there (R408). -/
def State.cutSeg (x : Port) (n : PId) (s : State) (q : QId) : State :=
  match x.segPart q, x.barkOf n q, (s.qu q).segs.getLast? with
  | true, some b, some g => s.closeNow q ((s.qu q).cutBark g b)
  | _, _, _ => s

theorem State.cutSegs_eq (n : PId) : s.cutSegs n = allQ.foldl (State.cutSeg (s.po n) n) s := rfl

/-- Slots of ports and counts of queues that a step leaves. -/
structure State.cuts (s t : State) : Prop where
  sheds : s.Sheds t
  disc : s.sameDisc t
  ports : t.ports = s.ports

theorem State.cutSeg_cuts (x : Port) (n : PId) (q : QId) : s.cuts (State.cutSeg x n s q) := by
  unfold State.cutSeg
  split
  · exact ⟨s.sheds_closeNow q _, s.closeNow_sameDisc q _, s.closeNow_ports q _⟩
  · exact ⟨s.sheds_refl, fun _ => rfl, rfl⟩

theorem State.cutSegs_cuts (n : PId) : s.cuts (s.cutSegs n) := by
  rw [s.cutSegs_eq]
  exact List.foldlRecOn (motive := fun t : State => s.cuts t) allQ _ ⟨s.sheds_refl, fun _ => rfl, rfl⟩ fun t ht q _ => by
    obtain ⟨ksheds, kdisc, kports⟩ := t.cutSeg_cuts (s.po n) n q
    exact ⟨ht.sheds.trans ksheds, ht.disc.trans kdisc, kports.trans ht.ports⟩

/-! ### The port itself (R406, R407) -/

variable {s} in
/-- A port that speaks for itself still does where no other port of another pair has changed its configuration. -/
theorem State.master_of_others {t : State} {n : PId} (hn : s.master n = n)
    (h : ∀ m, m ≠ n → m ≠ upperPort n → (t.po m).lcfg = (s.po m).lcfg) : t.master n = n := by
  by_cases hlow : n = lowerPort n
  · unfold State.master
    split
    · exact hlow.symm
    · rfl
  · have hsplit : s.paired n = false := (State.master_iff_lower hn).resolve_right hlow
    refine State.master_of_unpaired _ ?_
    rw [State.paired, h _ (Ne.symm hlow) (upperPort_ne_lowerPort n).symm]
    exact hsplit

/-- PCFG latched anew while the port is enabled. -/
def State.relatched (s : State) (n : PId) : State := if (s.po n).en then s.latchPort n else s

theorem State.relatched_po (n : PId) :
    (∃ held, (s.relatched n).po n =
      { s.po n with lcfg := if (s.po n).en then (s.po n).cfg else (s.po n).lcfg, held := held }) ∧
    ∀ m, m ≠ n → m ≠ upperPort n → (s.relatched n).po m = s.po m := by
  unfold State.relatched
  split
  · obtain ⟨hown, hothers, -⟩ := s.latchPort_latches n
    exact ⟨⟨_, hown⟩, hothers⟩
  · exact ⟨⟨(s.po n).held, rfl⟩, fun _ _ _ => rfl⟩

theorem State.relatched_keeps (n : PId) : s.stirs (s.relatched n) ∧ (∀ q, (s.qu q).Sheds ((s.relatched n).qu q)) ∧
    s.sameDisc (s.relatched n) := by
  unfold State.relatched
  split
  · refine ⟨?_, (s.latchPort_latches n).counts, s.latchPort_sameDisc n⟩
    have hframe := s.latchPort_frame n
    generalize s.latchPort n = t at hframe ⊢
    have hlift := congrArg (fun v : State => ({ v with order := t.order } : State)) hframe
    exact hlift
  · exact ⟨rfl, fun q => (s.qu q).sheds_refl, fun _ => rfl⟩

/-- A port in its reset, with the configuration it has latched. -/
def Port.inReset (x : Port) : Port := { x.cleared with resetting := true }

/-- A port without its diagnostic capture. -/
def Port.uncaptured (x : Port) : Port :=
  { x with capTrig := false, capArmed := false, capDone := false, capWait := false, capt0 := 0, capt1 := 0, capt2 := 0 }

/-- The diagnostic capture of a port. -/
def Port.capture (x : Port) : Bool × Bool × Bool × Bool × Word × Word × Word :=
  (x.capTrig, x.capArmed, x.capDone, x.capWait, x.capt0, x.capt1, x.capt2)

/-- A capture that holds nothing. -/
def noCapture : Bool × Bool × Bool × Bool × Word × Word × Word := (false, false, false, false, 0, 0, 0)

theorem Port.uncaptured_capture (x : Port) : x.uncaptured.capture = noCapture := rfl

/-- The capture of the upper port of a pair cleared with that of the lower one. -/
def State.clearUpper (s : State) (n : PId) : State :=
  if s.paired n && n == lowerPort n then s.modPo (upperPort n) Port.uncaptured else s

theorem State.resetPort_eq (n : PId) : s.resetPort n =
    ((((((s.countDisc n).cutSegs n).relatched n).modPo n Port.inReset).clearUpper n).startPins n).drainAll.scaleAll := rfl

theorem State.clearUpper_po (n : PId) :
    (s.clearUpper n).po n = s.po n ∧ (∀ m, ((s.clearUpper n).po m).lcfg = (s.po m).lcfg) ∧
    (s.paired n = true → n = lowerPort n → (s.clearUpper n).po (upperPort n) = (s.po (upperPort n)).uncaptured) := by
  unfold State.clearUpper
  split
  next h =>
    simp only [Bool.and_eq_true, beq_iff_eq] at h
    have hne : n ≠ upperPort n := fun e => upperPort_ne_lowerPort n (e.symm.trans h.2)
    refine ⟨s.modPo_po_ne _ _ _ hne, fun m => ?_, fun _ _ => s.modPo_po _ _⟩
    by_cases hm : m = upperPort n
    · rw [hm, State.modPo_po]
      rfl
    · rw [State.modPo_po_ne _ _ _ _ hm]
  next h => exact ⟨rfl, fun _ => rfl, fun hp hlow => absurd (by simpa using ⟨hp, hlow⟩) h⟩

theorem State.clearUpper_moves (n : PId) : s.Moves (s.clearUpper n) := by
  unfold State.clearUpper
  split
  · exact s.moves_modPo _ _
  · exact s.moves_refl

theorem State.drainAll_po_of_unstaged {n : PId} (h : (s.po n).staging = []) : s.drainAll.po n = s.po n :=
  List.foldlRecOn (motive := fun t : State => t.po n = s.po n) allP State.drain rfl fun t ht m _ => by
    by_cases hm : n = m
    · subst hm
      rw [t.drain_of_unstaged (by rw [ht, h]), ht]
    · rw [(t.drain_movesAt m).others n hm, ht]

/-- What a PORT reset does at the port, and to the rest. -/
structure State.resets (s t : State) (n : PId) : Prop where
  inner : (t.po n).inner =
    ({ (s.po n).inReset with lcfg := if (s.po n).en then (s.po n).cfg else (s.po n).lcfg } : Port).inner
  flags : (t.po n).pins.fla = .low ∧ (t.po n).pins.flb = .low
  upper : t.paired n = true → n = lowerPort n → (t.po (upperPort n)).capture = noCapture
  disc : ∀ q, (t.qu q).disc = satAdd (s.qu q).disc ((s.po n).pend q)
  frame : s.stirs t
  counts : ∀ q, (s.qu q).Sheds (t.qu q)

/-- The state in which the pins of a port in reset start. -/
def State.inReset (s : State) (n : PId) : State :=
  ((((s.countDisc n).cutSegs n).relatched n).modPo n Port.inReset).clearUpper n

/-- What a PORT reset discards and clears, before its pins start. -/
theorem State.inReset_spec {n : PId} (hn : s.master n = n) (t : State) (ht : s.inReset n = t) :
    (∃ held, t.po n = ({ s.po n with
      lcfg := if (s.po n).en then (s.po n).cfg else (s.po n).lcfg, held := held } : Port).inReset) ∧
    t.master n = n ∧
    (t.paired n = true → n = lowerPort n → (t.po (upperPort n)).capture = noCapture) ∧
    (∀ q, (t.qu q).disc = satAdd (s.qu q).disc ((s.po n).pend q)) ∧ s.stirs t ∧ ∀ q, (s.qu q).Sheds (t.qu q) := by
  unfold State.inReset at ht
  have hcount := s.countDisc_qu n
  have hcountFrame := s.countDisc_frame n
  generalize s.countDisc n = a at hcount hcountFrame ht
  have hcuts := a.cutSegs_cuts n
  generalize a.cutSegs n = b at hcuts ht
  have hpo (m : PId) : b.po m = s.po m := (State.po_of_ports hcuts.ports m).trans (congrArg (fun v : State => v.po m) hcountFrame :)
  obtain ⟨⟨held, hown⟩, hothers⟩ := b.relatched_po n
  obtain ⟨hstirs, hsheds, hdisc⟩ := b.relatched_keeps n
  generalize b.relatched n = l at hown hothers hstirs hsheds hdisc ht
  have kown := l.modPo_po n Port.inReset
  have kothers (m : PId) := l.modPo_po_ne n m Port.inReset
  have kmoves := l.moves_modPo n Port.inReset
  have kdisc : l.sameDisc (l.modPo n Port.inReset) := fun _ => rfl
  generalize l.modPo n Port.inReset = c at kown kothers kmoves kdisc ht
  obtain ⟨jown, jlcfg, jupper⟩ := c.clearUpper_po n
  have jmoves := c.clearUpper_moves n
  have jdisc : c.sameDisc (c.clearUpper n) := fun q => (congrArg (fun v : State => (v.qu q).disc) (by
    unfold State.clearUpper
    split <;> rfl : ({ c with ports := (c.clearUpper n).ports } : State) = c.clearUpper n)).symm
  rw [ht] at jown jlcfg jupper jmoves jdisc
  have ha : s.stirs a := by
    have hlift := congrArg (fun v : State => ({ v with
      ports := a.ports, chans := a.chans, freeCtr := a.freeCtr, order := a.order } : State)) hcountFrame
    exact hlift
  refine ⟨⟨held, ?_⟩, ?_, fun hp hlow => ?_, fun q => ?_, ?_, fun q => ?_⟩
  · rw [jown, kown, hown, hpo]
  · refine State.master_of_others hn fun m hm hu => ?_
    rw [jlcfg, kothers m hm, hothers m hm hu, hpo]
  · have hpaired : t.paired n = c.paired n := State.paired_of_lcfg jlcfg n
    rw [jupper (hpaired.symm.trans hp) hlow, Port.uncaptured_capture]
  · rw [jdisc, kdisc, hdisc, hcuts.disc, hcount]
  · exact (ha.trans hcuts.sheds.moves.stirs).trans (hstirs.trans (kmoves.trans jmoves).stirs)
  · have hfirst : (s.qu q).Sheds (a.qu q) := by
      rw [hcount]
      exact ⟨rfl, rfl, rfl, rfl, fun b hb => ⟨b, hb, rfl, id⟩⟩
    exact (hfirst.trans (hcuts.sheds.queue q)).trans ((hsheds q).trans ((kmoves.trans jmoves).queue q))

theorem State.resetPort_resets {n : PId} (hn : s.master n = n) : s.resets (s.resetPort n) n := by
  obtain ⟨⟨held, hown⟩, hmaster, hupper, hdisc, hstirs, hcounts⟩ := s.inReset_spec hn _ rfl
  rw [s.resetPort_eq]
  show s.resets ((((s.inReset n).startPins n).drainAll).scaleAll) n
  generalize s.inReset n = d at hown hmaster hupper hdisc hstirs hcounts ⊢
  have hsame := d.startPins_samePorts n
  have hlow := d.startPins_low hmaster
  have hframe := d.startPins_stirs n
  have hqu (q : QId) : (d.startPins n).qu q = d.qu q := (congrArg (fun v : State => v.qu q) (d.startPins_frame n) :)
  generalize d.startPins n = e at hsame hlow hframe hqu ⊢
  have hstaging : (e.po n).staging = [] := (congrArg Port.staging (hsame n) :).trans (by rw [hown]; rfl)
  have hkeep := e.drainAll_po_of_unstaged hstaging
  have hmoved := e.drainAll_moved
  have hmoves := e.drainAll_moves
  have hsameDisc := e.drainAll_sameDisc
  generalize e.drainAll = f at hkeep hmoved hmoves hsameDisc ⊢
  have hpo := f.scaleAll_po
  have hlcfg (m : PId) : (f.scaleAll.po m).lcfg = (d.po m).lcfg := by
    rw [hpo]
    exact (congrArg Port.lcfg (hmoved m) :).trans (hsame.lcfg m)
  refine ⟨?_, ?_, fun hp hl => ?_, fun q => ?_, ?_, fun q => ?_⟩
  · rw [hpo, hkeep, hsame, hown]
    rfl
  · rw [hpo, hkeep]
    exact hlow
  · have hpaired : f.scaleAll.paired n = d.paired n := State.paired_of_lcfg hlcfg n
    have hclear := hupper (hpaired.symm.trans hp) hl
    rw [hpo, ← hclear]
    exact (congrArg Port.capture (hmoved (upperPort n)) :).trans (congrArg Port.capture (hsame (upperPort n)) :)
  · rw [State.scaleAll_qu_disc, hsameDisc, hqu, hdisc]
  · exact (hstirs.trans hframe).trans (hmoves.trans f.moves_scaleAll).stirs
  · have hsheds := hcounts q
    rw [← hqu] at hsheds
    exact hsheds.trans ((hmoves.trans f.moves_scaleAll).queue q)

/-! ### The host's commands (R457, R461, R462) -/

/-- PCTL.EN written: a change of it enables or disables the port. -/
def State.pctlEn (s : State) (n : PId) (en : Bool) : State :=
  if en && !(s.po n).en then s.enablePort n else if !en && (s.po n).en then s.disablePort n else s

theorem State.pctlWrite_eq {n : PId} (h : s.isUpper n = false) (v : Word) : s.pctlWrite n v =
    if bit v 1 then (s.pctlEn n (bit v 0)).resetPort n else s.pctlEn n (bit v 0) := by
  unfold State.pctlWrite
  rw [h]
  rfl

/-- What a port in reset keeps and clears, its pins apart. -/
def Port.resetShape (x : Port) : Port :=
  ({ x.inReset with lcfg := if x.en then x.cfg else x.lcfg } : Port).inner

/-- The same of a port that the write sets to EN = `en`. -/
def Port.resetWith (x : Port) (en : Bool) : Port :=
  ({ x.cleared with en := en, lcfg := if en then x.cfg else x.lcfg, resetting := true } : Port).inner

theorem Port.resetShape_shell (x : Port) : x.shell.resetShape = x.resetShape := rfl
theorem Port.resetShape_inner (x : Port) : x.inner.resetShape = x.resetShape := rfl

theorem Port.halted_resetShape (x : Port) : x.halted.resetShape = x.resetWith false := by
  unfold Port.halted
  split
  · rfl
  · rw [Port.closeOpen_eq]
    rfl

theorem Port.enabled_resetShape (x : Port) (v : Vector Nat 16) :
    ({ x with en := true, lcfg := x.cfg, held := v } : Port).resetShape = x.resetWith true := rfl

theorem State.starts.stirs {s t : State} {n : PId} (h : s.starts t n) : s.stirs t := by
  have hlift := congrArg (fun v : State => ({ v with order := t.order } : State)) h.frame
  exact hlift

theorem State.starts.resetShape {s t : State} {n : PId} (h : s.starts t n) :
    (t.po n).resetShape = (s.po n).resetWith true := by
  rw [← Port.resetShape_inner, h.inner, Port.resetShape_inner, Port.enabled_resetShape]

/-- What a write of PCTL.EN leaves for the reset that the same write asks for. -/
structure State.enWritten (s t : State) (n : PId) (en : Bool) : Prop where
  shape : (t.po n).resetShape = (s.po n).resetWith en
  master : t.master n = n
  same : en = (s.po n).en → t = s
  frame : s.stirs t
  counts : ∀ q, (s.qu q).Sheds (t.qu q)

theorem State.pctlEn_enWritten {n : PId} (hn : s.master n = n) (hfatal : s.dp.fatal = false) (en : Bool) :
    s.enWritten (s.pctlEn n en) n en := by
  unfold State.pctlEn
  split
  next h =>
    obtain ⟨rfl, hoff⟩ : en = true ∧ (s.po n).en = false := by simpa using h
    have hstarts := s.enablePort_starts hn hfatal
    generalize s.enablePort n = t at hstarts ⊢
    refine ⟨hstarts.resetShape, State.master_of_others hn fun m hm hu => by rw [hstarts.others m hm hu], fun hen => ?_,
      hstarts.stirs, hstarts.counts⟩
    rw [hoff] at hen
    nomatch hen
  next =>
    split
    next h =>
      obtain ⟨rfl, hon⟩ : en = false ∧ (s.po n).en = true := by simpa using h
      have hstops := s.disablePort_stops n
      generalize s.disablePort n = t at hstops ⊢
      refine ⟨?_, State.master_of_others hn fun m hm _ => (congrArg Port.lcfg (hstops.others m hm) :), fun hen => ?_, hstops.frame,
        hstops.counts⟩
      · rw [← Port.resetShape_shell, hstops.own, Port.resetShape_shell, Port.halted_resetShape]
      · rw [hon] at hen
        nomatch hen
    next hup hdown =>
      have hen : en = (s.po n).en := by
        cases en <;> cases h : (s.po n).en <;> simp [h] at hup hdown ⊢
      subst hen
      exact ⟨rfl, hn, fun _ => rfl, rfl, fun q => (s.qu q).sheds_refl⟩

theorem resetBits (en : Bool) : bit (flagAt en 0 ||| 2) 0 = en ∧ bit (flagAt en 0 ||| 2) 1 = true := by
  revert en
  decide

theorem State.exec_portReset {p : Path} {n : PId} {en : Bool} (hlands : s.landsNow p (.port n) 0)
    (hupper : s.isUpper n = false) (hreads : s.noReads) :
    ∃ u, s.pathFrame u ∧ exec (.portReset p n en) s = .next ((u.pctlEn n en).resetPort n) := by
  obtain ⟨u, hu, hrow⟩ := s.rowPost_of_landsNow hlands (by simp) (flagAt en 0 ||| 2)
  have hup : u.isUpper n = false := by obtain ⟨⟨_, _, rfl⟩, -⟩ := hu; exact hupper
  have hfatal : u.dp.fatal = false := by rw [hu.dp]; exact hlands.1.1.2
  obtain ⟨hbit0, hbit1⟩ := resetBits en
  have hwrite : u.pctlWrite n (flagAt en 0 ||| 2) = (u.pctlEn n en).resetPort n := by
    rw [u.pctlWrite_eq hup, hbit0, hbit1, if_pos rfl]
  have hwritten := u.pctlEn_enWritten (u.not_upper_iff.1 hup) hfatal en
  have hframe := hwritten.frame.trans ((u.pctlEn n en).resetPort_resets hwritten.master).frame
  refine ⟨u, hu, congrArg Host.Outcome.next (hrow.trans ?_)⟩
  show (u.pctlWrite n (flagAt en 0 ||| 2)).answerReads = _
  rw [hwrite]
  exact State.answerReads_of_noReads _ (hframe.noReads (hu.noReads hreads))

/-- A port whose capture is armed (R461). -/
def Port.armedAs (x : Port) (trig : Bool) : Port :=
  { x with capTrig := trig, capArmed := true, capDone := false, capWait := false }

theorem armBits (trig : Bool) : bit (1 ||| flagAt trig 1) 0 = true ∧ bit (1 ||| flagAt trig 1) 1 = trig := by
  revert trig
  decide

theorem State.pcaptWrite_eq (n : PId) (trig : Bool) : s.pcaptWrite n (1 ||| flagAt trig 1) =
    if s.paired n && n == lowerPort n then
      (s.modPo n (Port.armedAs · trig)).modPo (upperPort n) (Port.armedAs · trig)
    else s.modPo n (Port.armedAs · trig) := by
  obtain ⟨hbit0, hbit1⟩ := armBits trig
  have hpaired : (s.modPo n (Port.armedAs · trig)).paired n = s.paired n := by
    refine State.paired_of_lcfg (fun m => ?_) n
    by_cases hm : m = n
    · rw [hm, State.modPo_po]
      rfl
    · rw [State.modPo_po_ne _ _ _ _ hm]
  unfold State.pcaptWrite
  simp only [hbit0, hbit1, if_true]
  rw [← hpaired]
  rfl

theorem State.pcaptWrite_po (n : PId) (trig : Bool) (t : State) (ht : s.pcaptWrite n (1 ||| flagAt trig 1) = t) :
    t.po n = (s.po n).armedAs trig ∧
    (s.paired n = true → n = lowerPort n → t.po (upperPort n) = (s.po (upperPort n)).armedAs trig) ∧
    (∀ m, m ≠ n → (m = upperPort n → s.paired n = true → n ≠ lowerPort n) → t.po m = s.po m) ∧
    t = { s with ports := t.ports } := by
  subst ht
  rw [s.pcaptWrite_eq]
  have hone := s.modPo_po n (Port.armedAs · trig)
  have hother (m : PId) := s.modPo_po_ne n m (Port.armedAs · trig)
  have hframe : s.modPo n (Port.armedAs · trig) = { s with ports := (s.modPo n (Port.armedAs · trig)).ports } := rfl
  generalize s.modPo n (Port.armedAs · trig) = u at hone hother hframe ⊢
  split
  next h =>
    simp only [Bool.and_eq_true, beq_iff_eq] at h
    have hne : upperPort n ≠ n := fun e => upperPort_ne_lowerPort n (e.trans h.2)
    refine ⟨?_, fun _ _ => ?_, fun m hm hup => ?_, ?_⟩
    · rw [State.modPo_po_ne _ _ _ _ hne.symm, hone]
    · rw [State.modPo_po, hother _ hne]
    · rw [State.modPo_po_ne _ _ _ _ fun e => hup e h.1 h.2, hother m hm]
    · have hlift := congrArg (fun v : State => ({ v with
        ports := (u.modPo (upperPort n) (Port.armedAs · trig)).ports } : State)) hframe
      exact hlift
  next h => exact ⟨hone, fun hp hlow => absurd (by simpa using ⟨hp, hlow⟩) h, fun m hm _ => hother m hm, hframe⟩

end Sys2Proof.Machine

open Sys2Proof Sys2Proof.Machine

/-- Settles O17: a PORT reset clears the port, the port starts again at its end, and an ARM arms the capture. -/
theorem portResetAndCapture : Obligations.PortResetAndCapture := by
  unfold Obligations.PortResetAndCapture
  refine ⟨fun p n s hupper hreads => ⟨fun en hlands => ?_, fun hrun hreset => ?_⟩, fun p n trig s hlands hreads => ?_⟩
  · obtain ⟨u, hu, hexec⟩ := s.exec_portReset (en := en) hlands hupper hreads
    refine ⟨_, hexec, ?_⟩
    have hmaster : u.master n = n := by
      obtain ⟨⟨_, _, rfl⟩, -⟩ := hu
      exact s.not_upper_iff.1 hupper
    have hfatal : u.dp.fatal = false := by rw [hu.dp]; exact hlands.1.1.2
    obtain ⟨hshape, kmaster, hsame, hframe, hcounts⟩ := u.pctlEn_enWritten hmaster hfatal en
    obtain ⟨kinner, kflags, kupper, kdisc, kframe, kcounts⟩ := (u.pctlEn n en).resetPort_resets kmaster
    generalize u.pctlEn n en = w at hshape hsame hframe hcounts kinner kflags kupper kdisc kframe kcounts ⊢
    generalize w.resetPort n = t at kinner kflags kupper kdisc kframe kcounts ⊢
    have hall := hframe.trans kframe
    obtain ⟨⟨_, _, rfl⟩, -⟩ := hu
    have hinner : (t.po n).inner = (s.po n).resetWith en := kinner.trans hshape
    refine ⟨hinner, (congrArg Port.staging hinner :), (congrArg Port.done hinner :), (congrArg Port.partials hinner :),
      (congrArg Port.held hinner :), (congrArg Port.spent hinner :), (congrArg Port.perrcnt hinner :),
      (congrArg Port.ptagmiss hinner :), (congrArg Port.capTrig hinner :), (congrArg Port.capArmed hinner :),
      (congrArg Port.capDone hinner :), (congrArg Port.capWait hinner :), (congrArg Port.capt0 hinner :),
      (congrArg Port.capt1 hinner :), (congrArg Port.capt2 hinner :), (congrArg Port.cfg hinner :), kflags.1, kflags.2,
      fun hp hlow => ?_, fun hen q => ?_, (congrArg State.events hall :), fun q => ?_⟩
    · simpa [Port.capture, noCapture] using kupper hp hlow
    · rw [kdisc, hsame hen]
      rfl
    · have hsheds := (hcounts q).trans (kcounts q)
      exact ⟨hsheds.w, hsheds.wcnt, hsheds.rcnt⟩
  · refine ⟨_, congrArg Host.Outcome.next (if_pos (by simp [hrun, hreset])), ?_⟩
    have hset : (s.modPo n fun x => { x with resetting := false }) = s.setPo n { s.po n with resetting := false } := rfl
    rw [hset]
    have hown := s.setPo_po n { s.po n with resetting := false }
    have hother (m : PId) := s.setPo_po_ne n m { s.po n with resetting := false }
    have hframe : s.setPo n { s.po n with resetting := false } =
      { s with ports := (s.setPo n { s.po n with resetting := false }).ports } := rfl
    generalize s.setPo n { s.po n with resetting := false } = u at hown hother hframe ⊢
    have hlcfg (m : PId) : (u.po m).lcfg = (s.po m).lcfg := by
      by_cases hm : m = n
      · rw [hm, hown]
      · rw [hother m hm]
    have hmaster : u.master n = n := (State.master_of_lcfg hlcfg n).trans (s.not_upper_iff.1 hupper)
    have hpaired : u.paired n = s.paired n := State.paired_of_lcfg hlcfg n
    have hsame := u.startPins_samePorts n
    have hlow := u.startPins_low hmaster
    have hstay (m : PId) := u.startPins_other (m := m) hmaster
    have hstart := u.startPins_frame n
    generalize u.startPins n = t at hsame hlow hstay hstart ⊢
    have hpo := t.scaleAll_po
    refine ⟨?_, ?_, ?_, fun m hm => ?_, fun m hm hu => ?_, ?_⟩
    · rw [hpo, hsame, hown]
    · rw [hpo]
      exact hlow.1
    · rw [hpo]
      exact hlow.2
    · rw [hpo, hsame, hother m hm]
    · rw [hpo, hstay m hm fun e => hpaired.trans (hu e), hother m hm]
    · rw [State.scaleAll_bare, State.scaleAll_ports, State.scaleAll_freeCtr]
      have hlift := congrArg (fun v : State => ({ v with ports := t.ports, freeCtr := t.freeCtr } : State)) hframe
      exact congrArg State.bare (hstart.trans hlift)
  · obtain ⟨u, hu, hrow⟩ := s.rowPost_of_landsNow hlands (by simp) (1 ||| flagAt trig 1)
    obtain ⟨hown, hupper, hothers, hframe⟩ := u.pcaptWrite_po n trig _ rfl
    have hnone : (u.pcaptWrite n (1 ||| flagAt trig 1)).noReads :=
      State.noReads_congr (congrArg State.pathA hframe :) (congrArg State.pathB hframe :) (hu.noReads hreads)
    have hanswer : (u.pcaptWrite n (1 ||| flagAt trig 1)).answerReads = u.pcaptWrite n (1 ||| flagAt trig 1) :=
      State.answerReads_of_noReads _ hnone
    refine ⟨u.pcaptWrite n (1 ||| flagAt trig 1), congrArg Host.Outcome.next (hrow.trans hanswer), ?_⟩
    generalize u.pcaptWrite n (1 ||| flagAt trig 1) = t at hown hupper hothers hframe ⊢
    have hhost : s.hostFrame t { s with dp := u.dp, ports := t.ports, freeCtr := u.freeCtr } :=
      hu.hostFrame_of_bare (congrArg State.bare hframe)
    obtain ⟨⟨_, _, rfl⟩, -⟩ := hu
    exact ⟨hown, hupper, hothers, hhost⟩

end

section
/-!
SUPPORT. Words that move on at a port turn on nothing that its edges show or its capture records.
-/

-- The theorems one after another: side by side they take more threads than the check allows.
set_option Elab.async false

namespace Sys2Proof.Machine

variable (s : State)

/-! ### What the moving words read (R99, R112) -/

theorem State.portsOnly.setPo {s t : State} (h : s.portsOnly t) (n : PId) {x y : Port} (hxy : y.load = x.load) :
    (s.setPo n x).portsOnly (t.setPo n y) where
  frame := by
    have hlift := congrArg (fun v : State => ({ v with ports := (t.setPo n y).ports } : State)) h.frame
    exact hlift
  load m := by
    by_cases hm : m = n
    · rw [hm, State.setPo_po, State.setPo_po, hxy]
    · rw [s.setPo_po_ne n m x hm, t.setPo_po_ne n m y hm, h.load]

theorem State.portsOnly_setPo (n : PId) {y : Port} (h : y.load = (s.po n).load) : s.portsOnly (s.setPo n y) where
  frame := rfl
  load m := by
    by_cases hm : m = n
    · rw [hm, State.setPo_po, h]
    · rw [s.setPo_po_ne n m y hm]

theorem State.portsOnly.withQueue {s t : State} (h : s.portsOnly t) (q : QId) (x : Queue) :
    (s.setQu q x).portsOnly (t.setQu q x) where
  frame := congrArg (fun v : State => v.setQu q x) h.frame
  load := h.load

theorem State.portsOnly.modQu {s t : State} (h : s.portsOnly t) (q : QId) (f : Queue → Queue) :
    (s.modQu q f).portsOnly (t.modQu q f) where
  frame := congrArg (fun v : State => v.modQu q f) h.frame
  load := h.load

theorem State.settle_withPorts (p : Vector Port 4) (q : QId) :
    ({ s with ports := p } : State).settle q = { s.settle q with ports := p } := by
  unfold State.settle
  refine Eq.trans ?_ (apply_ite (fun v : State => ({ v with ports := p } : State)) _ _ _).symm
  rfl

theorem State.portsOnly.settle {s t : State} (h : s.portsOnly t) (q : QId) : (s.settle q).portsOnly (t.settle q) := by
  have hs : (s.settle q).ports = s.ports := (congrArg State.ports (s.settle_jumps q).frame :)
  have ht : (t.settle q).ports = t.ports := (congrArg State.ports (t.settle_jumps q).frame :)
  refine ⟨?_, fun m => ?_⟩
  · rw [ht, ← s.settle_withPorts, ← h.frame]
  · rw [State.po_of_ports hs, State.po_of_ports ht]
    exact h.load m

theorem State.portsOnly.jumpN {s t : State} (h : s.portsOnly t) (k : Nat) (q : QId) :
    (s.jumpN k q).portsOnly (t.jumpN k q) := by
  induction k generalizing s t with
  | zero => exact h
  | succ k ih =>
    rw [State.jumpN, State.jumpN, h.qu, h.qSeg]
    split
    · exact h
    · exact ih ((h.modQu q _).settle q)

theorem State.portsOnly.jumpLost {s t : State} (h : s.portsOnly t) (q : QId) : (s.jumpLost q).portsOnly (t.jumpLost q) := by
  rw [State.jumpLost, State.jumpLost, h.qu]
  exact h.jumpN _ q

theorem State.portsOnly.scale {s t : State} (h : s.portsOnly t) (q : QId) : (s.scale q).portsOnly (t.scale q) := by
  have hscaled : t.scale q = t.setQu q ((s.qu q).scale (s.scaleIn q)) := by
    rw [← h.qu, ← h.scaleIn]
    rfl
  rw [hscaled]
  exact h.withQueue q _

theorem State.portsOnly.closeNow {s t : State} (h : s.portsOnly t) (q : QId) (b : Bark) :
    (s.closeNow q b).portsOnly (t.closeNow q b) := ((h.modQu q _).jumpLost q).scale q

/-- Port `x` with what the edges and the capture of `z` show and record. -/
def Port.dress (x z : Port) : Port :=
  { x with
    shown := z.shown, followed := z.followed, crossed := z.crossed, pins := z.pins, errNext := z.errNext, efEdge := z.efEdge
    starved := z.starved, capTrig := z.capTrig, capArmed := z.capArmed, capDone := z.capDone, capWait := z.capWait
    capt0 := z.capt0, capt1 := z.capt1, capt2 := z.capt2 }

theorem Port.dress_creditFor (x z : Port) (q : QId) : (x.dress z).creditFor q = x.creditFor q := rfl

theorem Port.dress_of_load {x y : Port} (h : y.load = x.load) : y = x.dress y := by
  have hlift : y.load.dress y = x.load.dress y := by rw [h]
  exact hlift

theorem State.portsOnly.dress {s t : State} (h : s.portsOnly t) (n : PId) : ∃ z, t.po n = (s.po n).dress z :=
  ⟨_, Port.dress_of_load (h.load n)⟩

theorem State.portsOnly.endSeg {s t : State} (h : s.portsOnly t) (n : PId) (c : CurSeg) (q : QId) (trunc : Bool) :
    (s.endSeg n c q trunc).portsOnly (t.endSeg n c q trunc) := by
  obtain ⟨z, hz⟩ := h.dress n
  unfold State.endSeg
  dsimp only
  rw [hz]
  dsimp only [Port.dress]
  split
  · split
    · exact h.setPo n rfl
    · refine State.portsOnly.closeNow (h.setPo n ?_) q _
      rfl
  · exact h.setPo n rfl

theorem State.portsOnly.stoppedAt {s t : State} (h : s.portsOnly t) (n : PId) : t.stoppedAt n = s.stoppedAt n := by
  rw [State.stoppedAt, State.stoppedAt, State.master_of_lcfg h.lcfg]
  exact (congrArg Port.stopped (h.load _) :)

/-- One step of the moving words, from states that differ in what ports show and record. -/
theorem State.portsOnly.drainOne {s t : State} (h : s.portsOnly t) (n : PId) :
    Option.Rel State.portsOnly (s.drainOne n) (t.drainOne n) := by
  obtain ⟨z, hz⟩ := h.dress n
  unfold State.drainOne
  dsimp only
  rw [h.stoppedAt, hz]
  simp only [h.segBlocks, Port.dress_creditFor]
  dsimp only [Port.dress]
  split
  · exact .none
  · split
    · exact .some (h.setPo n rfl)
    next c tok ts _ _ =>
      cases tok with
      | lead => exact .none
      | pay v par =>
        dsimp only
        cases c.q with
        | none => exact .some (h.setPo n rfl)
        | some q =>
          dsimp only
          split
          · exact .none
          · split
            · exact .some (h.setPo n rfl)
            · exact .some (h.setPo n rfl)
      | fin trunc discard =>
        dsimp only
        cases c.q with
        | none => exact .some (h.setPo n rfl)
        | some q =>
          dsimp only
          split
          · refine .some (State.portsOnly.setPo (h.setPo n ?_) n ?_)
            · rfl
            · rw [State.setPo_po, State.setPo_po]
              rfl
          · refine .some (State.portsOnly.endSeg (h.setPo n ?_) n c q trunc)
            rfl
    · exact .none

theorem State.portsOnly.drainN {s t : State} (h : s.portsOnly t) (k : Nat) (n : PId) :
    (s.drainN k n).portsOnly (t.drainN k n) := by
  induction k generalizing s t with
  | zero => exact h
  | succ k ih =>
    have hone := h.drainOne n
    rw [State.drainN, State.drainN]
    cases hs : s.drainOne n <;> cases ht : t.drainOne n <;> rw [hs, ht] at hone
    · exact h
    · nomatch hone
    · nomatch hone
    · cases hone with
      | some hrel => exact ih hrel

theorem State.portsOnly.drain {s t : State} (h : s.portsOnly t) (n : PId) : (s.drain n).portsOnly (t.drain n) := by
  have hstaging : (t.po n).staging = (s.po n).staging := (congrArg Port.staging (h.load n) :)
  rw [State.drain, State.drain, hstaging]
  exact h.drainN _ n

/-- What leads an open segment of port `n` to accept words turns neither on what the port shows nor on its capture. -/
theorem State.portsOnly.stageRoom {s t : State} (h : s.portsOnly t) (n : PId) : t.stageRoom n = s.stageRoom n := by
  have hseg : (t.po n).segMode = (s.po n).segMode := (congrArg Port.segMode (h.load n) :)
  have hwaiting : (t.po n).waiting = (s.po n).waiting := (congrArg Port.waiting (h.load n) :)
  unfold State.stageRoom State.creditLimit
  simp only [hwaiting, hseg, h.width, State.paired_of_lcfg h.lcfg]

theorem State.portsOnly.admits {s t : State} (h : s.portsOnly t) {n : PId} (hshown : (t.po n).shown = (s.po n).shown)
    (hfla : (t.po n).pins.fla = (s.po n).pins.fla) (q : QId) : t.admits n q = s.admits n q := by
  unfold State.admits
  simp only [hshown, hfla, h.qu, h.fullFor]

theorem State.portsOnly.segAccepts {s t : State} (h : s.portsOnly t) {n : PId} (hshown : (t.po n).shown = (s.po n).shown)
    (hfla : (t.po n).pins.fla = (s.po n).pins.fla) : t.segAccepts n = s.segAccepts n := by
  have hopen : (t.po n).openTo = (s.po n).openTo := (congrArg Port.openTo (h.load n) :)
  unfold State.segAccepts
  simp only [hopen, h.admits hshown hfla, h.stageRoom]

/-! ### An edge with a stopped clock behind it (R122) -/

theorem State.Moves.portsOn {s t : State} (h : s.Moves t) : t.portsOn = s.portsOn := (congrArg State.portsOn h.frame :)

theorem State.edgeCame_moves (n : PId) : s.Moves (s.edgeCame n) := by
  unfold State.edgeCame
  split
  · exact ((s.moves_modPo n _).trans (State.drain_moves _ n)).trans (State.moves_scaleAll _)
  · exact s.moves_refl

theorem State.edgeCame_po (n m : PId) :
    ({ s.po m with stopped := ((s.edgeCame n).po m).stopped } : Port).moved ((s.edgeCame n).po m) ∧
    ((s.edgeCame n).po n).stopped = false := by
  unfold State.edgeCame
  split
  next h =>
    have hown := (s.modPo_po n fun x => { x with stopped := false })
    have hother (m : PId) (hm : m ≠ n) := s.modPo_po_ne n m (fun x => { x with stopped := false }) hm
    generalize (s.modPo n fun x => { x with stopped := false }) = u at hown hother ⊢
    have hat := u.drain_movesAt n
    have hstopped : ((u.drain n).po n).stopped = (u.po n).stopped := (congrArg Port.stopped hat.own :)
    simp only [State.scaleAll_po]
    refine ⟨?_, by rw [hstopped, hown]⟩
    by_cases hm : m = n
    · rw [hm, hstopped, hown]
      have hmoved := hat.own
      rw [hown] at hmoved
      exact hmoved
    · rw [hat.others m hm, hother m hm]
      exact (s.po m).moved_refl
  next h => exact ⟨rfl, by simpa using h⟩

/-- A capturing edge begins with the clock's own: what stood still moves on first. -/
theorem State.ingressWord_edgeCame {n : PId} (hactive : s.portActive n = true) (hegress : (s.po n).egress = false)
    (en : Bool) (d hi : BitVec 36) (qa : BitVec 4) (fr : BitVec 2) :
    s.ingressWord n en d hi qa fr = (s.edgeCame n).ingressWord n en d hi qa fr := by
  have hlcfg (m : PId) : ((s.edgeCame n).po m).lcfg = (s.po m).lcfg := (congrArg Port.lcfg (s.edgeCame_po n m).1 :)
  have hen : ((s.edgeCame n).po n).en = (s.po n).en := (congrArg Port.en (s.edgeCame_po n n).1 :)
  have hreset : ((s.edgeCame n).po n).resetting = (s.po n).resetting := (congrArg Port.resetting (s.edgeCame_po n n).1 :)
  have hegress' : ((s.edgeCame n).po n).egress = (s.po n).egress := (congrArg Port.egress (s.edgeCame_po n n).1 :)
  have hactive' : (s.edgeCame n).portActive n = true := by
    rw [← hactive, State.portActive, State.portActive, (s.edgeCame_moves n).portsOn, hen, hreset, State.isUpper_of_lcfg hlcfg]
  have hagain : (s.edgeCame n).edgeCame n = s.edgeCame n := State.edgeCame_of_running _ (s.edgeCame_po n n).2
  have hgo : ¬(!s.portActive n || (s.po n).egress) = true := by simp [hactive, hegress]
  have hgo' : ¬(!(s.edgeCame n).portActive n || ((s.edgeCame n).po n).egress) = true := by simp [hactive', hegress', hegress]
  unfold State.ingressWord
  rw [if_neg hgo, if_neg hgo', hagain]

/-! ### What an edge launches and records (R96, R461, R462) -/

theorem Port.captureErr_load (x : Port) (e : Bool) : (x.captureErr e).load = x.load := by
  unfold Port.captureErr
  split <;> rfl

theorem Port.captureIn_load (x : Port) (d : BitVec 36) (qa : BitVec 4) (fr : BitVec 2) (acc e : Bool) :
    (x.captureIn d qa fr acc e).load = x.load := by
  unfold Port.captureIn
  split <;> rfl

theorem Port.captureIn_inner (x : Port) (d : BitVec 36) (qa : BitVec 4) (fr : BitVec 2) (acc e : Bool) :
    (x.captureIn d qa fr acc e).inner = x.inner.captureIn d qa fr acc e := by
  unfold Port.captureIn
  split
  next h => exact (if_pos h).symm
  next h => exact (if_neg h).symm

/-- The port records the inputs of an edge and goes on as it was, its pins and what it shows included. -/
theorem Port.captureIn_shows (x : Port) (d : BitVec 36) (qa : BitVec 4) (fr : BitVec 2) (acc e : Bool) :
    (x.captureIn d qa fr acc e).pins = x.pins ∧ (x.captureIn d qa fr acc e).errNext = x.errNext ∧
    (x.captureIn d qa fr acc e).shown = x.shown := by
  unfold Port.captureIn
  split <;> exact ⟨rfl, rfl, rfl⟩

theorem Port.captureErr_eq (x : Port) (e : Bool) : x.captureErr e = { x with
    capWait := false, capDone := x.capWait || x.capDone
    capt2 := if x.capWait then x.capt2 ||| flagAt e 11 else x.capt2 } := by
  unfold Port.captureErr
  cases h : x.capWait with
  | false =>
    rw [if_neg Bool.false_ne_true, if_neg Bool.false_ne_true, Bool.false_or, ← h]
  | true => rfl

/-- The port as PnERR# of the word before is launched. -/
def Port.errLaunched (x : Port) : Port :=
  { (x.captureErr x.errNext) with errNext := false, pins := { x.pins with err := Level.ofFlag x.errNext } }

theorem Port.errLaunched_load (x : Port) : x.errLaunched.load = x.load := x.captureErr_load x.errNext
theorem Port.errLaunched_inner (x : Port) : x.errLaunched.inner = (x.captureErr x.errNext).inner := rfl

theorem Port.errLaunched_shows (x : Port) : x.errLaunched.shown = x.shown ∧ x.errLaunched.pins.fla = x.pins.fla ∧
    x.errLaunched.pins.err = Level.ofFlag x.errNext ∧ x.errLaunched.errNext = false := by
  refine ⟨?_, rfl, rfl, rfl⟩
  show (x.captureErr x.errNext).shown = x.shown
  unfold Port.captureErr
  split <;> rfl

/-- The state as PnERR# of the word before is launched. -/
def State.errOut (s : State) (n : PId) : State :=
  let x := s.po n
  let s := s.setPo n x.errLaunched
  if s.paired n then s.modPo (upperPort n) (Port.captureErr · x.errNext) else s

/-- One port changed, and the upper port of its pair with it. -/
structure State.pairMod (s t : State) (n : PId) (y : Port) (g : Port → Port) : Prop where
  own : t.po n = y
  upper : s.paired n = true → t.po (upperPort n) = g (s.po (upperPort n))
  others : ∀ m, m ≠ n → (m = upperPort n → s.paired n = false) → t.po m = s.po m
  ports : s.portsOnly t

theorem State.modPair_spec {n : PId} (hn : s.master n = n) {y : Port} (hy : y.load = (s.po n).load) {g : Port → Port}
    (hg : ∀ x, (g x).load = x.load) (t : State)
    (ht : (if (s.setPo n y).paired n then (s.setPo n y).modPo (upperPort n) g else s.setPo n y) = t) : s.pairMod t n y g := by
  have hset : s.portsOnly (s.setPo n y) := s.portsOnly_setPo n hy
  have hown : (s.setPo n y).po n = y := s.setPo_po n _
  have hother (m : PId) (hm : m ≠ n) : (s.setPo n y).po m = s.po m := s.setPo_po_ne n m _ hm
  have hpaired : (s.setPo n y).paired n = s.paired n := State.paired_of_lcfg hset.lcfg n
  generalize s.setPo n y = u at hset hown hother hpaired ht
  cases hp : s.paired n with
  | false =>
    rw [if_neg (by simp [hpaired, hp])] at ht
    subst ht
    exact ⟨hown, fun h => (nomatch hp.symm.trans h), fun m hm _ => hother m hm, hset⟩
  | true =>
    have hne : upperPort n ≠ n := fun h => upperPort_ne_lowerPort n (h.trans (State.own_of_paired hn hp))
    rw [if_pos (by simp [hpaired, hp])] at ht
    subst ht
    refine ⟨(u.modPo_po_ne _ n g hne.symm).trans hown, fun _ => ?_, fun m hm hup => ?_, hset.modPo _ hg⟩
    · rw [State.modPo_po, hother _ hne]
    · have hup' : m ≠ upperPort n := fun h => (nomatch hp.symm.trans (hup h))
      rw [u.modPo_po_ne _ m g hup', hother m hm]

theorem State.errOut_spec {n : PId} (hn : s.master n = n) :
    s.pairMod (s.errOut n) n (s.po n).errLaunched (Port.captureErr · (s.po n).errNext) :=
  s.modPair_spec hn (Port.errLaunched_load _) (fun x => x.captureErr_load _) _ rfl

/-- The inputs of an edge recorded at a port and at the upper port of its pair. -/
def State.recordIn (s : State) (n : PId) (d hi : BitVec 36) (qa : BitVec 4) (fr : BitVec 2) (ok err : Bool) : State :=
  let s := s.modPo n (Port.captureIn · d qa fr ok err)
  if s.paired n then s.modPo (upperPort n) (Port.captureIn · hi qa fr ok err) else s

theorem State.recordIn_spec {n : PId} (hn : s.master n = n) (d hi : BitVec 36) (qa : BitVec 4) (fr : BitVec 2) (ok err : Bool) :
    s.pairMod (s.recordIn n d hi qa fr ok err) n ((s.po n).captureIn d qa fr ok err) (Port.captureIn · hi qa fr ok err) :=
  s.modPair_spec hn (Port.captureIn_load _ _ _ _ _ _) (fun x => x.captureIn_load hi qa fr ok err) _ rfl

/-- The flags launched on an edge that shows queue `q`. -/
structure State.showsEdge (s t : State) (n : PId) (q : QId) : Prop where
  own : t.po n = { s.po n with
    shown := q, pins := { (s.po n).pins with fla := (t.flagPins n).1, flb := (t.flagPins n).2 } }
  upper : s.paired n = true → (t.po (upperPort n)).inner = (s.po (upperPort n)).inner
  others : ∀ m, m ≠ n → (m = upperPort n → s.paired n = false) → t.po m = s.po m
  ports : s.portsOnly t

theorem State.showEdge_spec {n : PId} (hn : s.master n = n) (q : QId) : s.showsEdge (s.showEdge n q) n q := by
  have hset : s.portsOnly (s.setPo n { s.po n with shown := q }) := s.portsOnly_setPo n rfl
  have hown : (s.setPo n { s.po n with shown := q }).po n = { s.po n with shown := q } := s.setPo_po n _
  have hother (m : PId) (hm : m ≠ n) : (s.setPo n { s.po n with shown := q }).po m = s.po m := s.setPo_po_ne n m _ hm
  have heq : s.showEdge n q = (s.setPo n { s.po n with shown := q }).showFlags n := rfl
  rw [heq]
  generalize s.setPo n { s.po n with shown := q } = u at hset hown hother ⊢
  have hpaired : u.paired n = s.paired n := State.paired_of_lcfg hset.lcfg n
  have hmaster : u.master n = n := (State.master_of_lcfg hset.lcfg n).trans hn
  have hpins := u.showFlags_pinsOnly n
  have hflags := hpins.flagPins n
  have hshow := u.showFlags_eq n
  obtain ⟨kown, kupper, kothers⟩ := u.repinned_po hmaster { (u.po n).pins with fla := (u.flagPins n).1, flb := (u.flagPins n).2 }
  rw [← hshow, ← hflags] at kown
  rw [← hshow] at kupper kothers
  generalize u.showFlags n = t at hpins hflags kown kupper kothers ⊢
  refine ⟨?_, fun hp => ?_, fun m hm hup => ?_, hset.trans hpins.portsOnly⟩
  · rw [kown, hown]
  · have hne : upperPort n ≠ n := fun h => upperPort_ne_lowerPort n (h.trans (State.own_of_paired hn hp))
    rw [kupper (hpaired.trans hp), ← hother _ hne]
    rfl
  · rw [kothers m hm fun h => hpaired.trans (hup h), hother m hm]

/-- A word recorded: AF# follows the word that makes it true, and the port has followed a word. -/
def State.edgeMarked (s : State) (n : PId) (ok : Bool) (dst : Option QId) : State :=
  let s := match ok, dst with
    | true, some q => s.ownFull n q
    | _, _ => s
  s.modPo n fun x => { x with followed := true }

theorem State.edgeMarked_spec (n : PId) (ok : Bool) (dst : Option QId) : s.portsOnly (s.edgeMarked n ok dst) ∧
    (∃ c, (s.edgeMarked n ok dst).po n = { s.po n with crossed := c, followed := true }) ∧
    ∀ m, m ≠ n → (s.edgeMarked n ok dst).po m = s.po m := by
  have hfollow (u : State) (c : Vector (Bool × Bool) 16) (hu : u = s.setPo n { s.po n with crossed := c }) :
      s.portsOnly (u.modPo n fun x => { x with followed := true }) ∧
      (∃ c, (u.modPo n fun x => { x with followed := true }).po n = { s.po n with crossed := c, followed := true }) ∧
      ∀ m, m ≠ n → (u.modPo n fun x => { x with followed := true }).po m = s.po m := by
    have hset : s.portsOnly u := hu ▸ s.portsOnly_setPo n rfl
    refine ⟨hset.modPo n fun _ => rfl, ⟨c, ?_⟩, fun m hm => ?_⟩
    · rw [State.modPo_po, hu, State.setPo_po]
    · rw [u.modPo_po_ne n m _ hm, hu, s.setPo_po_ne n m _ hm]
  have hsame : s.portsOnly (s.modPo n fun x => { x with followed := true }) ∧
      (∃ c, (s.modPo n fun x => { x with followed := true }).po n = { s.po n with crossed := c, followed := true }) ∧
      ∀ m, m ≠ n → (s.modPo n fun x => { x with followed := true }).po m = s.po m :=
    ⟨s.portsOnly_modPo n fun _ => rfl, ⟨_, State.modPo_po _ _ _⟩, fun m hm => s.modPo_po_ne n m _ hm⟩
  cases ok with
  | false => exact hsame
  | true =>
    cases dst with
    | none => exact hsame
    | some q => exact hfollow (s.ownFull n q) _ rfl

/-- What an edge with a word ends with, once the word is taken or refused; `x` is the port before the edge. -/
def State.edgeEnd (s : State) (n : PId) (x : Port) (d hi : BitVec 36) (qa : BitVec 4) (fr : BitVec 2) (ok : Bool)
    (dst : Option QId) : State :=
  let s := (s.recordIn n d hi qa fr ok (s.po n).errNext).edgeMarked n ok dst
  s.showEdge n (if x.follow && !x.segMode then ⟨qa.toNat, qa.isLt⟩ else s.showNow n x.shown)

/-- The end of an edge with a word, seen from outside. -/
structure State.edgeEnds (s t : State) (n : PId) (x : Port) (d hi : BitVec 36) (qa : BitVec 4) (fr : BitVec 2) (ok : Bool) :
    Prop where
  inner : (t.po n).inner = ((s.po n).captureIn d qa fr ok (s.po n).errNext).inner
  errNext : (t.po n).errNext = (s.po n).errNext
  err : (t.po n).pins.err = (s.po n).pins.err
  flags : ((t.po n).pins.fla, (t.po n).pins.flb) = t.flagPins n
  shown : x.segMode = false → (s.po n).flagq = x.flagq → (t.po n).shown = if x.follow then ⟨qa.toNat, qa.isLt⟩ else x.qsel
  upper : s.paired n = true → (t.po (upperPort n)).inner =
    ((s.po (upperPort n)).captureIn hi qa fr ok (s.po n).errNext).inner
  others : ∀ m, m ≠ n → (m = upperPort n → s.paired n = false) → t.po m = s.po m
  ports : s.portsOnly t

theorem State.edgeEnd_ends {n : PId} (hn : s.master n = n) (x : Port) (d hi : BitVec 36) (qa : BitVec 4) (fr : BitVec 2)
    (ok : Bool) (dst : Option QId) : s.edgeEnds (s.edgeEnd n x d hi qa fr ok dst) n x d hi qa fr ok := by
  have hrec := s.recordIn_spec hn d hi qa fr ok (s.po n).errNext
  unfold State.edgeEnd
  generalize s.recordIn n d hi qa fr ok (s.po n).errNext = u at hrec ⊢
  obtain ⟨kports, ⟨c, kown⟩, kothers⟩ := u.edgeMarked_spec n ok dst
  generalize u.edgeMarked n ok dst = v at kports kown kothers ⊢
  have hports := hrec.ports.trans kports
  have hpaired : v.paired n = s.paired n := State.paired_of_lcfg hports.lcfg n
  have hmaster : v.master n = n := (State.master_of_lcfg hports.lcfg n).trans hn
  have hshows := v.showEdge_spec hmaster (if x.follow && !x.segMode then ⟨qa.toNat, qa.isLt⟩ else v.showNow n x.shown)
  dsimp only
  generalize hq : (if x.follow && !x.segMode then (⟨qa.toNat, qa.isLt⟩ : QId) else v.showNow n x.shown) = q at hshows ⊢
  generalize v.showEdge n q = t at hshows ⊢
  obtain ⟨hpins, herr, -⟩ := (s.po n).captureIn_shows d qa fr ok (s.po n).errNext
  have hown := hshows.own
  rw [kown, hrec.own] at hown
  refine ⟨?_, ?_, ?_, ?_, fun hseg hflagq => ?_, fun hp => ?_, fun m hm hup => ?_, hports.trans hshows.ports⟩
  · rw [hown]
    rfl
  · rw [hown]
    exact herr
  · rw [hown]
    show ((s.po n).captureIn d qa fr ok (s.po n).errNext).pins.err = _
    rw [hpins]
  · rw [hown]
  · have hflag : (v.po n).flagq = x.flagq := Eq.trans (congrArg Port.flagq (hports.load n) :) hflagq
    have hfollow : (v.po n).follow = x.follow := by rw [Port.follow, Port.follow, hflag]
    have hqsel : (v.po n).qsel = x.qsel := by simp only [Port.qsel, hflag]
    rw [hown, ← hq]
    show _ = _
    cases hf : x.follow with
    | true => simp [hseg]
    | false =>
      rw [hf] at hfollow
      simp [State.showNow, hfollow, hqsel]
  · have hne : upperPort n ≠ n := fun h => upperPort_ne_lowerPort n (h.trans (State.own_of_paired hn hp))
    rw [hshows.upper (hpaired.trans hp), kothers _ hne, hrec.upper hp]
  · rw [hshows.others m hm fun h => hpaired.trans (hup h), kothers m hm, hrec.others m hm hup]

/-- The queue that PnQA names. -/
def queueOf (qa : BitVec 4) : QId := ⟨qa.toNat, qa.isLt⟩

/-- An edge with a word at an ingress port that runs. -/
theorem State.ingressWord_eq {n : PId} (hactive : s.portActive n = true) (hegress : (s.po n).egress = false)
    (hstopped : (s.po n).stopped = false) (d hi : BitVec 36) (qa : BitVec 4) (fr : BitVec 2) (ok : Bool)
    (hok : (if (s.po n).segMode then (s.errOut n).segAccepts n else (s.errOut n).admits n (queueOf qa)) = ok)
    (dst : Option QId) (hdst : (if (s.po n).segMode then (s.po n).openQ else some (queueOf qa)) = dst) :
    s.ingressWord n true d hi qa fr =
      (if ok then (s.errOut n).acceptWord n (queueOf qa) fr (wordSlots ((s.errOut n).width n) d hi)
        else (s.errOut n).refuseWord n dst).edgeEnd n (s.po n) d hi qa fr ok dst := by
  subst hok hdst
  unfold State.ingressWord
  rw [s.edgeCame_of_running hstopped, if_neg (by simp [hactive, hegress])]
  rfl

theorem State.ingressWord_idle {n : PId} (hactive : s.portActive n = true) (hegress : (s.po n).egress = false)
    (hstopped : (s.po n).stopped = false) (d hi : BitVec 36) (qa : BitVec 4) (fr : BitVec 2) :
    s.ingressWord n false d hi qa fr = (s.errOut n).showEdge n ((s.errOut n).showNow n (s.po n).shown) := by
  unfold State.ingressWord
  rw [s.edgeCame_of_running hstopped, if_neg (by simp [hactive, hegress])]
  rfl

/-! ### A word taken (R92, R93, R112) -/

theorem State.pressCommit_moved (k : Nat) (n m : PId) : (s.po m).moved ((s.pressCommit k n).po m) := by
  induction k generalizing s with
  | zero => exact (s.po m).moved_refl
  | succ k ih =>
    rw [State.pressCommit]
    split
    · exact (s.po m).moved_refl
    · split
      · exact (s.po m).moved_refl
      next d _ =>
        have hcommit : (s.po m).moved ((s.commitStave n d).po m) := by
          rw [s.commitStave_eq, ((s.setPo n ((s.po n).gone d)).commitDone_commits d).po]
          by_cases hm : m = n
          · rw [hm, State.setPo_po]
            rfl
          · rw [s.setPo_po_ne n m _ hm]
            exact (s.po m).moved_refl
        exact (hcommit.trans ((s.commitStave n d).drainAll_moved m)).trans (ih _)

theorem State.pressCommit_of_room {n : PId} (h : s.stageRoom n = true) (k : Nat) : s.pressCommit k n = s := by
  cases k with
  | zero => rfl
  | succ k => rw [State.pressCommit, if_pos h]

/-- A stream word taken into the port. -/
theorem Port.place_eq (x : Port) (q : QId) (v : List Slot9) : x.place q v = { x with
    partials := x.partials.set q.val
      (if (x.partials[q.val] ++ v).length < 32 then x.partials[q.val] ++ v else (x.partials[q.val] ++ v).drop 32)
    done := if (x.partials[q.val] ++ v).length < 32 then x.done
      else x.done ++ [⟨q, (x.partials[q.val] ++ v).take 32, false, false, none, false⟩]
    held := if (x.partials[q.val] ++ v).length < 32 then x.held else x.held.set q.val (x.held[q.val] - 1)
    spent := if (x.partials[q.val] ++ v).length < 32 then x.spent else x.spent.set q.val (x.spent[q.val] + 1) } := by
  unfold Port.place
  by_cases h : (x.partials[q.val] ++ v).length < 32
  · simp only [if_pos h]
  · simp only [if_neg h]
    rfl

/-- A stream word placed as PnERR# of the word before goes out. -/
theorem Port.place_errLaunched (x : Port) (e : Nat) (q : QId) (v : List Slot9) :
    ((x.errLaunched.countErrs e).place q v).inner = (((x.countErrs e).place q v).captureErr x.errNext).inner := by
  rw [Port.errLaunched, Port.captureErr_eq, Port.captureErr_eq, Port.place_eq, Port.place_eq]
  rfl

end Sys2Proof.Machine

end

section
/-!
O18. What an ingress edge does with a word.
-/

-- The theorems one after another: side by side they take more threads than the check allows.
set_option Elab.async false

namespace Sys2Proof.Machine

variable (s : State)

/-! ### A word refused (R96, R315) -/

theorem State.refuseWord_spec (n : PId) (dst : Option QId) (t : State) (ht : s.refuseWord n dst = t) :
    t.po n = { s.po n with errNext := dst.any (· != (s.po n).shown) } ∧ (∀ m, m ≠ n → t.po m = s.po m) ∧
    t = { s with ports := t.ports, events := t.events } ∧
    t.events = (if s.twin then (s.countN Ev.twinskew 0 1).events else s.events) := by
  unfold State.refuseWord at ht
  have hown := s.modPo_po n fun x => { x with errNext := dst.any (· != x.shown) }
  have hother (m : PId) (hm : m ≠ n) := s.modPo_po_ne n m (fun x => { x with errNext := dst.any (· != x.shown) }) hm
  have hframe : (s.modPo n fun x => { x with errNext := dst.any (· != x.shown) }) =
    { s with ports := (s.modPo n fun x => { x with errNext := dst.any (· != x.shown) }).ports } := rfl
  generalize (s.modPo n fun x => { x with errNext := dst.any (· != x.shown) }) = u at ht hown hother hframe
  have htwin : u.twin = s.twin := (congrArg State.twin hframe :)
  have hevents : u.events = s.events := (congrArg State.events hframe :)
  cases h : s.twin with
  | false =>
    rw [if_neg (by simp [htwin, h])] at ht
    subst ht
    rw [if_neg Bool.false_ne_true, hevents]
    exact ⟨hown, hother, hframe, rfl⟩
  | true =>
    rw [if_pos (by simp [htwin, h])] at ht
    have hcount : u.countN Ev.twinskew 0 1 = t := ht
    have hkeeps := u.countN_frame Ev.twinskew 0 1
    rw [hcount] at hkeeps
    have hports : t.ports = u.ports := (congrArg State.ports hkeeps :)
    refine ⟨(State.po_of_ports hports n).trans hown, fun m hm => (State.po_of_ports hports m).trans (hother m hm), ?_, ?_⟩
    · have hlift := congrArg (fun v : State => ({ v with events := t.events } : State)) hframe
      rw [hports]
      exact hkeeps.trans hlift
    · rw [if_pos rfl, ← hcount]
      exact State.countN_events_congr hevents Ev.twinskew 0 1

/-- A word refused at port `n`, seen from outside. -/
structure State.refuses (s t : State) (n : PId) (d hi : BitVec 36) (qa : BitVec 4) (fr : BitVec 2) (err : Bool) : Prop where
  pinErr : (t.po n).pins.err = Level.ofFlag (s.po n).errNext
  flags : ((t.po n).pins.fla, (t.po n).pins.flb) = t.flagPins n
  inner : (t.po n).inner = (((s.po n).captureErr (s.po n).errNext).captureIn d qa fr false err).inner
  errNext : (t.po n).errNext = err
  others : ∀ m, m ≠ n → (m = upperPort n → s.paired n = false) → t.po m = s.po m
  upper : s.paired n = true → (t.po (upperPort n)).inner =
    (((s.po (upperPort n)).captureErr (s.po n).errNext).captureIn hi qa fr false err).inner
  frame : t = { s with ports := t.ports, events := t.events }
  events : if s.twin then s.eventsWf → s.counted t Ev.twinskew 0 1 else t.events = s.events

theorem Port.captureIn_inner_congr {x y : Port} (h : y.inner = x.inner) (d : BitVec 36) (qa : BitVec 4) (fr : BitVec 2)
    (acc e : Bool) : (y.captureIn d qa fr acc e).inner = (x.captureIn d qa fr acc e).inner := by
  rw [Port.captureIn_inner, Port.captureIn_inner, h]

theorem State.refused_refuses {n : PId} (hn : s.master n = n) (d hi : BitVec 36) (qa : BitVec 4) (fr : BitVec 2)
    (dst : Option QId) :
    s.refuses (((s.errOut n).refuseWord n dst).edgeEnd n (s.po n) d hi qa fr false dst) n d hi qa fr
      (dst.any (· != (s.po n).shown)) := by
  obtain ⟨vown, vupper, vothers, vports⟩ := s.errOut_spec hn
  generalize s.errOut n = v at vown vupper vothers vports ⊢
  obtain ⟨uown, uothers, uframe, uevents⟩ := v.refuseWord_spec n dst _ rfl
  generalize v.refuseWord n dst = u at uown uothers uframe uevents ⊢
  obtain ⟨hshown, -, herr, -⟩ := (s.po n).errLaunched_shows
  have hlcfg (m : PId) : (u.po m).lcfg = (s.po m).lcfg := by
    rw [← vports.lcfg]
    by_cases hm : m = n
    · rw [hm, uown]
    · rw [uothers m hm]
  have hpaired : u.paired n = s.paired n := State.paired_of_lcfg hlcfg n
  have hends := u.edgeEnd_ends ((State.master_of_lcfg hlcfg n).trans hn) (s.po n) d hi qa fr false dst
  generalize u.edgeEnd n (s.po n) d hi qa fr false dst = t at hends ⊢
  rw [vown, hshown] at uown
  have huerr : (u.po n).errNext = dst.any (· != (s.po n).shown) := by rw [uown]
  have hinner : (u.po n).inner = ((s.po n).captureErr (s.po n).errNext).inner := by
    rw [uown, ← Port.errLaunched_inner]
    rfl
  have hevents : t.events = u.events := (congrArg State.events hends.ports.frame :)
  have htwin : v.twin = s.twin := (congrArg State.twin vports.frame :)
  have hveq : v.events = s.events := (congrArg State.events vports.frame :)
  have hinnerEnd := hends.inner
  have hupper := hends.upper
  rw [huerr] at hinnerEnd hupper
  refine ⟨?_, hends.flags, hinnerEnd.trans (Port.captureIn_inner_congr hinner ..), hends.errNext.trans huerr,
    fun m hm hup => ?_, fun hp => ?_, ?_, ?_⟩
  · rw [hends.err, uown]
    exact herr
  · rw [hends.others m hm fun h => hpaired.trans (hup h), uothers m hm, vothers m hm hup]
  · have hne : upperPort n ≠ n := fun h => upperPort_ne_lowerPort n (h.trans (State.own_of_paired hn hp))
    rw [hupper (hpaired.trans hp), uothers _ hne, vupper hp]
  · have hfirst := congrArg (fun w : State => ({ w with ports := u.ports, events := u.events } : State)) vports.frame
    have hsecond := congrArg (fun w : State => ({ w with ports := t.ports } : State)) (uframe.trans hfirst)
    rw [hevents]
    exact hends.ports.frame.trans hsecond
  · rw [htwin, State.countN_events_congr hveq, hveq, ← hevents] at uevents
    split at uevents
    next h =>
      rw [if_pos h]
      exact fun hwf => s.counted_of_events hwf uevents
    next h => rwa [if_neg h]

/-! ### A word taken (R92, R93, R112) -/

/-- A word of `e` errors has entered port `n`: `y` is the port by then, but for PnERR# of the word before, and `b` the
state in which the waiting staves may be pressed into the core. -/
structure State.wordTaken (s b : State) (n : PId) (y : Port) (e : Nat) : Prop where
  inner : (b.po n).inner = (y.captureErr (s.po n).errNext).inner
  pinErr : (b.po n).pins.err = Level.ofFlag (s.po n).errNext
  errNext : (b.po n).errNext = decide (0 < e)
  others : ∀ m, m ≠ n → b.po m = (s.errOut n).po m

/-- What an edge that takes a word leaves. -/
structure State.takes (s b t : State) (n : PId) (y : Port) (d hi : BitVec 36) (qa : BitVec 4) (fr : BitVec 2) (e : Nat) :
    Prop where
  pinErr : (t.po n).pins.err = Level.ofFlag (s.po n).errNext
  flags : ((t.po n).pins.fla, (t.po n).pins.flb) = t.flagPins n
  errNext : (t.po n).errNext = decide (0 < e)
  load : y.load.moved (t.po n).load
  shown : (s.po n).segMode = false → y.flagq = (s.po n).flagq →
    (t.po n).shown = if (s.po n).follow then ⟨qa.toNat, qa.isLt⟩ else (s.po n).qsel
  others : b.stageRoom n = true → ∀ m, m ≠ n → (m = upperPort n → s.paired n = false) → t.po m = s.po m
  upper : b.stageRoom n = true → s.paired n = true → (t.po (upperPort n)).inner =
    (((s.po (upperPort n)).captureErr (s.po n).errNext).captureIn hi qa fr true (decide (0 < e))).inner
  inner : b.stageRoom n = true → (t.po n).inner =
    ((y.captureErr (s.po n).errNext).captureIn d qa fr true (decide (0 < e))).inner
  frame : b.stageRoom n = true → t = { b with ports := t.ports }

theorem Port.load_of_inner {x y : Port} (h : y.inner = x.inner) : y.load = x.load := by
  have hlift := congrArg (fun z : Port => ({ z with
    capTrig := false, capArmed := false, capDone := false, capWait := false, capt0 := 0, capt1 := 0, capt2 := 0 } : Port)) h
  exact hlift

theorem Port.moved.load {x y : Port} (h : x.moved y) : x.load.moved y.load := congrArg Port.load h

theorem State.wordTaken.takes {s b : State} {n : PId} {y : Port} {e : Nat} (h : s.wordTaken b n y e) (hn : s.master n = n)
    (hy : y.lcfg = (s.po n).lcfg) (k : Nat) (d hi : BitVec 36) (qa : BitVec 4) (fr : BitVec 2) (dst : Option QId) :
    s.takes b ((b.pressCommit k n).edgeEnd n (s.po n) d hi qa fr true dst) n y d hi qa fr e := by
  obtain ⟨-, vupper, vothers, vports⟩ := s.errOut_spec hn
  have hload : (b.po n).load = y.load := (Port.load_of_inner h.inner).trans (Port.captureErr_load _ _)
  have hblcfg (m : PId) : (b.po m).lcfg = (s.po m).lcfg := by
    by_cases hm : m = n
    · rw [hm, ← hy]
      exact (congrArg Port.lcfg hload :)
    · rw [h.others m hm, vports.lcfg]
  have hmoved := fun m => b.pressCommit_moved k n m
  have hroom := fun hr => b.pressCommit_of_room (n := n) hr k
  generalize b.pressCommit k n = u at hmoved hroom ⊢
  have hulcfg (m : PId) : (u.po m).lcfg = (s.po m).lcfg := Eq.trans (congrArg Port.lcfg (hmoved m) :) (hblcfg m)
  have hpaired : u.paired n = s.paired n := State.paired_of_lcfg hulcfg n
  have hends := u.edgeEnd_ends ((State.master_of_lcfg hulcfg n).trans hn) (s.po n) d hi qa fr true dst
  generalize u.edgeEnd n (s.po n) d hi qa fr true dst = t at hends ⊢
  have herr : (u.po n).errNext = decide (0 < e) := Eq.trans (congrArg Port.errNext (hmoved n) :) h.errNext
  have hpins : (u.po n).pins = (b.po n).pins := (congrArg Port.pins (hmoved n) :)
  have hflagq : (u.po n).flagq = y.flagq := Eq.trans (congrArg Port.flagq (hmoved n) :) (congrArg Port.flagq hload :)
  have hupper := hends.upper
  have hinner := hends.inner
  rw [herr] at hupper hinner
  refine ⟨?_, hends.flags, hends.errNext.trans herr, ?_, fun hseg hq => hends.shown hseg (hflagq.trans hq),
    fun hr m hm hup => ?_, fun hr hp => ?_, fun hr => ?_, fun hr => ?_⟩
  · rw [hends.err, hpins, h.pinErr]
  · rw [← hload, hends.ports.load]
    exact (hmoved n).load
  · rw [hends.others m hm fun hm' => hpaired.trans (hup hm'), hroom hr, h.others m hm, vothers m hm hup]
  · have hne : upperPort n ≠ n := fun hne => upperPort_ne_lowerPort n (hne.trans (State.own_of_paired hn hp))
    rw [hupper (hpaired.trans hp), hroom hr, h.others _ hne, vupper hp]
  · rw [hinner, hroom hr]
    exact Port.captureIn_inner_congr h.inner ..
  · rw [← hroom hr]
    exact hends.ports.frame

theorem State.bare_withPorts {s t : State} {p : Vector Port 4} (h : t.bare = ({ s with ports := p } : State).bare)
    (p' : Vector Port 4) : ({ t with ports := p' } : State).bare = ({ s with ports := p' } : State).bare :=
  congrArg (fun v : State => ({ v with ports := p' } : State)) h

theorem State.scale_stageRoom (q : QId) (n : PId) : (s.scale q).stageRoom n = s.stageRoom n := rfl

theorem State.stageRoom_of_ports {s t : State} (h : t.ports = s.ports) (n : PId) : t.stageRoom n = s.stageRoom n := by
  have hpo := State.po_of_ports h
  unfold State.stageRoom State.creditLimit State.width State.paired
  simp only [hpo]

/-- The state and the port in which a stream word is taken whole. -/
def State.streamTaken (s : State) (n : PId) (q : QId) (w : List Slot9) : State :=
  (s.setPo n (((s.po n).countErrs (oddErrs (s.po n).mpar w)).place q w)).scale q

theorem State.acceptWord_stream {n : PId} (h : (s.po n).segMode = false) (q : QId) (fr : BitVec 2) (w : List Slot9) :
    ∃ k, s.acceptWord n q fr w = (s.streamTaken n q w).pressCommit k n := by
  refine ⟨((s.streamTaken n q w).po n).done.length, ?_⟩
  unfold State.acceptWord
  dsimp only
  rw [if_neg (by simp [h])]
  rfl

/-- The port by then. -/
def Port.streamed (x : Port) (q : QId) (w : List Slot9) : Port := (x.countErrs (oddErrs x.mpar w)).place q w

theorem Port.place_keeps (x : Port) (q : QId) (w : List Slot9) : (x.place q w).pins = x.pins ∧
    (x.place q w).errNext = x.errNext ∧ (x.place q w).lcfg = x.lcfg ∧ (x.place q w).flagq = x.flagq := by
  rw [Port.place_eq]
  exact ⟨rfl, rfl, rfl, rfl⟩

theorem State.streamTaken_taken {n : PId} (hn : s.master n = n) (q : QId) (w : List Slot9) :
    s.wordTaken ((s.errOut n).streamTaken n q w) n ((s.po n).streamed q w) (oddErrs (s.po n).mpar w) ∧
    ((s.errOut n).streamTaken n q w).stageRoom n = (s.setPo n ((s.po n).streamed q w)).stageRoom n ∧
    ((s.errOut n).streamTaken n q w).bare = ({ s with ports := ((s.errOut n).streamTaken n q w).ports } : State).bare := by
  obtain ⟨vown, -, -, vports⟩ := s.errOut_spec hn
  unfold State.streamTaken
  generalize hv : s.errOut n = v at vown vports ⊢
  have hmpar : (v.po n).mpar = (s.po n).mpar := (congrArg Port.mpar (vports.load n) :)
  rw [hmpar, vown]
  have hinner := (s.po n).place_errLaunched (oddErrs (s.po n).mpar w) q w
  obtain ⟨hpins, herr, -, -⟩ := ((s.po n).errLaunched.countErrs (oddErrs (s.po n).mpar w)).place_keeps q w
  generalize ((s.po n).errLaunched.countErrs (oddErrs (s.po n).mpar w)).place q w = y at hinner hpins herr ⊢
  have hload : y.load = ((s.po n).streamed q w).load := (Port.load_of_inner hinner).trans (Port.captureErr_load _ _)
  have hset := vports.setPo n hload
  refine ⟨⟨?_, ?_, ?_, fun m hm => ?_⟩, ?_, ?_⟩
  · rw [State.scale_po, State.setPo_po]
    exact hinner
  · rw [State.scale_po, State.setPo_po, hpins]
    rfl
  · rw [State.scale_po, State.setPo_po, herr]
    rfl
  · rw [State.scale_po, v.setPo_po_ne n m _ hm, hv]
  · rw [State.scale_stageRoom, hset.stageRoom]
  · rw [State.scale_bare]
    exact congrArg State.bare hset.frame

/-- A segment-mode port that has captured a word, before its tokens move on. -/
def Port.framed (x : Port) (k : Nat) (fr : BitVec 2) (w : List Slot9) : Port :=
  let f := frameWord x.mpar k x.fsm fr w
  { (x.countErrs (f.par + f.framing)) with
    fsm := f.fsm, staging := x.staging ++ (if x.dropping then f.toks.filter (fun t => !t.isPay) else f.toks) }

theorem Port.framed_errLaunched (x : Port) (k : Nat) (fr : BitVec 2) (w : List Slot9) :
    (x.errLaunched.framed k fr w).inner = ((x.framed k fr w).captureErr x.errNext).inner := by
  rw [Port.errLaunched, Port.captureErr_eq, Port.captureErr_eq]
  rfl

theorem State.acceptWord_segment {n : PId} (h : (s.po n).segMode = true) (q : QId) (fr : BitVec 2) (w : List Slot9) :
    ∃ k, s.acceptWord n q fr w =
      ((s.setPo n ((s.po n).framed (s.width n) fr w)).drain n).scaleAll.pressCommit k n := by
  refine ⟨(((s.setPo n ((s.po n).framed (s.width n) fr w)).drain n).scaleAll.po n).done.length, ?_⟩
  unfold State.acceptWord
  dsimp only
  rw [if_pos h]
  rfl

/-- Words move on at a port alike before and after PnERR# of the word before is launched. -/
theorem Port.moved.captureErr {z z' u u' : Port} {e : Bool} (hz : z'.inner = (z.captureErr e).inner) (hu : z.moved u)
    (hu' : z'.moved u') (hload : u'.load = u.load) : u'.inner = (u.captureErr e).inner := by
  have hheld : u'.held = u.held := (congrArg Port.held hload :)
  have hspent : u'.spent = u.spent := (congrArg Port.spent hload :)
  have hdone : u'.done = u.done := (congrArg Port.done hload :)
  have hstaging : u'.staging = u.staging := (congrArg Port.staging hload :)
  have hcur : u'.cur = u.cur := (congrArg Port.cur hload :)
  have hlift := congrArg (fun x : Port => ({ x with
    held := u.held, spent := u.spent, done := u.done, staging := u.staging, cur := u.cur } : Port)) hz
  rw [Port.moved, hheld, hspent, hdone, hstaging, hcur] at hu'
  rw [Port.moved] at hu
  rw [Port.captureErr_eq] at hlift ⊢
  rw [hu', hu]
  exact hlift

theorem State.segmentTaken_taken {n : PId} (hn : s.master n = n) (fr : BitVec 2) (w : List Slot9) (b u : State)
    (hb : (((s.errOut n).setPo n (((s.errOut n).po n).framed ((s.errOut n).width n) fr w)).drain n).scaleAll = b)
    (hu : (s.setPo n ((s.po n).framed (s.width n) fr w)).drain n = u) (e : Nat)
    (he : ((s.po n).framed (s.width n) fr w).errNext = decide (0 < e)) :
    s.wordTaken b n (u.po n) e ∧ b.stageRoom n = u.stageRoom n ∧ b.bare = ({ u with ports := b.ports } : State).bare := by
  obtain ⟨vown, -, -, vports⟩ := s.errOut_spec hn
  generalize hv : s.errOut n = v at vown vports hb
  rw [vports.width, vown] at hb
  have hinner := (s.po n).framed_errLaunched (s.width n) fr w
  have hkept : ((s.po n).errLaunched.framed (s.width n) fr w).pins = (s.po n).errLaunched.pins := rfl
  have herr : ((s.po n).errLaunched.framed (s.width n) fr w).errNext = ((s.po n).framed (s.width n) fr w).errNext := by
    rw [Port.errLaunched, Port.captureErr_eq]
    rfl
  rw [he] at herr
  generalize (s.po n).errLaunched.framed (s.width n) fr w = z at hinner hkept herr hb
  have hload : z.load = ((s.po n).framed (s.width n) fr w).load :=
    (Port.load_of_inner hinner).trans (Port.captureErr_load _ _)
  have hset := vports.setPo n hload
  have hmoves := hset.drain n
  have hat := (v.setPo n z).drain_movesAt n
  have hat' := (s.setPo n ((s.po n).framed (s.width n) fr w)).drain_movesAt n
  rw [hu] at hmoves hat'
  have hown := hat.own
  have hown' := hat'.own
  rw [State.setPo_po] at hown hown'
  have hothers := hat.others
  generalize (v.setPo n z).drain n = y at hb hmoves hown hothers
  subst hb
  refine ⟨⟨?_, ?_, ?_, fun m hm => ?_⟩, ?_, ?_⟩
  · rw [State.scaleAll_po]
    exact Port.moved.captureErr hinner hown' hown (hmoves.load n)
  · rw [State.scaleAll_po, (congrArg Port.pins hown :), hkept]
    rfl
  · rw [State.scaleAll_po, (congrArg Port.errNext hown :), herr]
  · rw [State.scaleAll_po, hothers m hm, v.setPo_po_ne n m _ hm, hv]
  · rw [State.stageRoom_of_ports (State.scaleAll_ports y), hmoves.stageRoom]
  · rw [State.scaleAll_bare, State.scaleAll_ports]
    exact congrArg State.bare hmoves.frame

end Sys2Proof.Machine

open Sys2Proof Sys2Proof.Machine

/-- Settles O18: an edge launches PnERR# of the word before, takes the word or refuses it, records it and launches the flags;
what the word leaves at the port is worked out for a stream word and for a word of a segment. -/
theorem streamWords : Obligations.StreamWords := by
  unfold Obligations.StreamWords
  intro n d hi qa fr s
  extract_lets x q v shows others upper refused p e src y f k toks src' u
  refine ⟨fun h en => ?_, fun hactive hegress hstop en => ?_, fun hactive hegress hstop => ?_⟩
  · exact congrArg Host.Outcome.next (if_pos (by simpa using h))
  · exact congrArg Host.Outcome.next (s.ingressWord_edgeCame hactive hegress en d hi qa fr)
  · have hn := State.master_of_active hactive
    obtain ⟨vown, vupper, vothers, vports⟩ := s.errOut_spec hn
    obtain ⟨hshown, hfla, -, -⟩ := (s.po n).errLaunched_shows
    have hvshown : ((s.errOut n).po n).shown = (s.po n).shown := by rw [vown, hshown]
    have hvfla : ((s.errOut n).po n).pins.fla = (s.po n).pins.fla := by rw [vown, hfla]
    have hvseg : ((s.errOut n).po n).segMode = (s.po n).segMode := (congrArg Port.segMode (vports.load n) :)
    have hadmits := vports.admits hvshown hvfla q
    have haccepts := vports.segAccepts hvshown hvfla
    have hwidth := vports.width n
    have hword := fun ok hok dst hdst => s.ingressWord_eq hactive hegress hstop d hi qa fr ok hok dst hdst
    have hnot (dst : Option QId) (hok : (if (s.po n).segMode then (s.errOut n).segAccepts n
        else (s.errOut n).admits n (queueOf qa)) = false)
        (hdst : (if (s.po n).segMode then (s.po n).openQ else some (queueOf qa)) = dst) : refused dst := by
      have hr := s.refused_refuses hn d hi qa fr dst
      have heq := hword false hok dst hdst
      rw [if_neg Bool.false_ne_true] at heq
      rw [← heq] at hr
      exact ⟨_, rfl, ⟨hr.pinErr, hr.flags⟩, ⟨hr.inner, hr.errNext, hr.others, hr.upper⟩, hr.frame, hr.events⟩
    refine ⟨?_, fun hseg hadm => ?_, fun hseg hadm => ?_, fun hseg hacc => ?_, fun hseg hacc => ?_⟩
    · have hmaster : (s.errOut n).master n = n := (State.master_of_lcfg vports.lcfg n).trans hn
      have hpaired : (s.errOut n).paired n = s.paired n := State.paired_of_lcfg vports.lcfg n
      have hshows := (s.errOut n).showEdge_spec hmaster ((s.errOut n).showNow n (s.po n).shown)
      rw [← s.ingressWord_idle hactive hegress hstop d hi qa fr] at hshows
      have hown := hshows.own
      rw [vown] at hown
      refine ⟨_, rfl, ⟨?_, ?_⟩, fun m hm hup => ?_, ?_, ?_, fun hp => ?_, (vports.trans hshows.ports).frame⟩
      · rw [hown]
        rfl
      · rw [hown]
      · rw [hshows.others m hm fun h => hpaired.trans (hup h), vothers m hm hup]
      · rw [hown]
        exact (s.po n).errLaunched_inner
      · rw [hown]
        rfl
      · rw [hshows.upper (hpaired.trans hp), vupper hp]
    · have heq := hword true (by rw [if_neg (by simpa using hseg)]; exact hadmits.trans hadm) _ rfl
      obtain ⟨j, hj⟩ := (s.errOut n).acceptWord_stream (hvseg.trans hseg) (queueOf qa) fr v
      obtain ⟨htaken, hroom, hbare⟩ := s.streamTaken_taken hn (queueOf qa) v
      obtain ⟨-, -, hlcfg, hflagq⟩ := (x.countErrs (oddErrs x.mpar v)).place_keeps (queueOf qa) v
      have ht := htaken.takes hn hlcfg j d hi qa fr (if (s.po n).segMode then (s.po n).openQ else some (queueOf qa))
      rw [if_pos rfl, hwidth, hj] at heq
      rw [← heq] at ht
      refine ⟨_, rfl, ⟨ht.pinErr, ht.flags⟩, ?_⟩
      have hy : x.streamed (queueOf qa) v = y := Port.place_eq _ _ _
      rw [hy] at ht hroom
      refine ⟨(congrArg Port.partials ht.load :), (congrArg Port.perrcnt ht.load :), ht.errNext, ht.shown hseg ?_, fun hr => ?_⟩
      · rw [← hy]
        exact hflagq
      · rw [← hroom] at hr
        refine ⟨⟨ht.others hr, ht.upper hr⟩, ht.inner hr, ?_⟩
        rw [ht.frame hr]
        exact State.bare_withPorts hbare _
    · refine hnot _ ?_ ?_
      · rw [if_neg (by simpa using hseg)]
        exact hadmits.trans hadm
      · exact if_neg (by simpa using hseg)
    · have heq := hword true (by rw [if_pos hseg, haccepts, hacc]) _ rfl
      obtain ⟨j, hj⟩ := (s.errOut n).acceptWord_segment (hvseg.trans hseg) (queueOf qa) fr v
      have hat := (s.setPo n (x.framed (s.width n) fr v)).drain_movesAt n
      have hkeeps : (x.framed (s.width n) fr v).moved (u.po n) := by
        have hown := hat.own
        rwa [State.setPo_po] at hown
      obtain ⟨htaken, hroom, hbare⟩ := s.segmentTaken_taken hn fr v _ u rfl rfl k rfl
      have ht := htaken.takes hn ((congrArg Port.lcfg hkeeps :)) j d hi qa fr
        (if (s.po n).segMode then (s.po n).openQ else some (queueOf qa))
      rw [if_pos rfl, hwidth, hj] at heq
      rw [← heq] at ht
      have hload : (x.framed (s.width n) fr v).load.moved ((s.ingressWord n true d hi qa fr).po n).load :=
        hkeeps.load.trans ht.load
      refine ⟨_, rfl, ⟨ht.pinErr, ht.flags⟩, (congrArg Port.fsm hload :), (congrArg Port.perrcnt hload :), ht.errNext,
        (congrArg Port.partials hload :), fun hr => ?_⟩
      rw [← hroom] at hr
      refine ⟨⟨ht.others hr, ht.upper hr⟩, ht.inner hr, ?_⟩
      rw [ht.frame hr]
      exact State.bare_withPorts hbare _
    · refine hnot _ ?_ ?_
      · rw [if_pos hseg, haccepts, hacc]
      · exact if_pos hseg
end

section
/-!
SUPPORT. What a host write to a word of a core bank does (R9, R375, R393, R424).
-/

-- The theorems one after another: side by side they take more threads than the check allows.
set_option Elab.async false

namespace Sys2Proof.Machine

variable (s : State)

/-! ### A write of a bank word on the bus -/

theorem sel_of_bankAt : ∀ (v : BitVec 6) (b : Bank), bankAt v.toNat = some b → v.toNat = b.sel := by
  have h : ∀ v : BitVec 6, (bankAt v.toNat).all (fun b => decide (v.toNat = b.sel)) = true := by decide
  intro v b hb
  have hv := h v
  rw [hb] at hv
  exact of_decide_eq_true hv

/-- A word of a core bank other than a port's, written on the bus. -/
theorem State.registerWrite_core {p : Path} {b : Bank} (hw : s.writable p = true) {word : BitVec 7}
    (hword : 64 ≤ word.toNat) (hbank : bankAt (s.path p).bankSel.toNat = some b) (hport : ∀ n, b ≠ .port n)
    (hhas : b.has (word.toNat - 64) = true) (hposted : b.posted (word.toNat - 64) = false) (v : Word) :
    exec (.registerWrite p word v) s = .next ((s.acked p word.toNat).coreWrite ⟨p, word.toNat, b.sel⟩ b (word.toNat - 64) v) := by
  have hu := s.acked_pathFrame p word.toNat
  have hsel : ((s.acked p word.toNat).path p).bankSel = (s.path p).bankSel := hu.bankSel p
  have htarget : (s.acked p word.toNat).target p word.toNat = .banked b (word.toNat - 64) := by
    rw [State.target, if_neg (by omega), hsel, hbank]
  refine congrArg Host.Outcome.next ?_
  simp only [State.busWrite, (hu.writable p).trans hw, Bool.not_true, Bool.false_eq_true, if_false]
  rw [htarget, hsel, sel_of_bankAt _ b hbank]
  show State.bankWrite _ _ b _ v = _
  unfold State.bankWrite
  rw [if_neg (by simp [hposted])]
  cases b with
  | port n => exact absurd rfl (hport n)
  | _ => exact if_pos hhas

/-- What path `p` commits does not turn on the acknowledge of the write. -/
theorem State.acked_commitWords (p : Path) (word : Nat) (b : Bank) (off : Nat) (v : Word) :
    (s.acked p word).commitWords p b off v = s.commitWords p b off v := by
  cases p with
  | a => rfl
  | b =>
    unfold State.acked State.modPath
    dsimp only
    split <;> rfl

/-- A word of a core register that a write commits at once, without a check of its own. -/
def Bank.commits (b : Bank) (off : Nat) : Bool :=
  b.has off && !b.posted off && !b.stages off &&
  (match b with
   | .port _ | .chan _ => false
   | .time => off != 4
   | _ => true)

theorem State.unstage_clears (p : Path) {b : Bank} {off : Nat} (h : (b == .time && off == 4) = false) (r : Path) :
    ((s.unstage p b off false).path r).staging =
      (s.path r).staging.filter (fun e => !(e.bank == b && (b.group e.off).1 == off)) := by
  unfold State.unstage
  dsimp only
  rw [if_neg (by simpa using h)]
  cases p <;> cases r <;> rfl

theorem Staged.left_of_filter {b : Bank} {off : Nat} {l : List Staged} {e : Staged}
    (he : e ∈ l.filter (fun e => !(e.bank == b && (b.group e.off).1 == off))) (hb : e.bank = b) : (b.group e.off).1 ≠ off := by
  have h := (List.mem_filter.1 he).2
  simpa [hb] using h

theorem State.rangeRefused_of_commits {b : Bank} {off : Nat} (h : b.commits off = true) (ws : List Word) :
    s.rangeRefused b off ws = false := by
  cases b with
  | chan c => simp [Bank.commits] at h
  | _ => rfl

theorem Bank.commits_spec {b : Bank} {off : Nat} (h : b.commits off = true) : b.has off = true ∧ b.posted off = false ∧
    b.stages off = false ∧ (∀ n, b ≠ .port n) ∧ (b == .time && off == 4) = false := by
  simp only [Bank.commits, Bool.and_eq_true, Bool.not_eq_true'] at h
  obtain ⟨⟨⟨hhas, hposted⟩, hstages⟩, hlast⟩ := h
  refine ⟨hhas, hposted, hstages, fun n hn => ?_, ?_⟩
  · rw [hn] at hlast
    nomatch hlast
  · cases b with
    | time => simpa using hlast
    | _ => rfl

/-- What the obligation on register access says of a commit. -/
def State.putsWord (s : State) (p : Path) (b : Bank) (off : Nat) (v : Word) (u : State) : Prop :=
  (s.path p).bankSel.toNat = b.sel → s.mayWrite p b off →
    ∃ t, exec (.registerWrite p (BitVec.ofNat 7 (64 + off)) v) s = .next t ∧ s.hostFrame t u ∧
      ∀ r, ∀ e ∈ (t.path r).staging, e.bank = b → (b.group e.off).1 ≠ off

/-- `t` is `u` with the paths of `s`, up to what every host command may change, and no staging but that of `s`. -/
structure State.carriedOut (s u t v : State) : Prop where
  frame : s.hostFrame t v
  staging : ∀ r, (t.path r).staging = (u.path r).staging

/-- A write that commits: what the register's own effect says of any state that differs in the two paths alone. -/
theorem State.putsWord_of {s v' : State} {p : Path} {b : Bank} {off : Nat} {v : Word} (hoff : off < 64)
    (hcommits : b.commits off = true)
    (heffect : ∀ u, s.pathFrame u →
      s.carriedOut u (u.effect ⟨p, 64 + off, b.sel⟩ b off (s.commitWords p b off v)) v') : s.putsWord p b off v v' := by
  intro hsel hmay
  obtain ⟨hhas, hposted, hstages, hport, htime⟩ := Bank.commits_spec hcommits
  have hword : (BitVec.ofNat 7 (64 + off)).toNat = 64 + off := by
    rw [BitVec.toNat_ofNat]
    omega
  have hback : 64 + off - 64 = off := by omega
  have hexec := s.registerWrite_core hmay.1.1 (word := BitVec.ofNat 7 (64 + off)) (by omega) (by rw [hsel, bankAt_sel]) hport
    (by rw [hword, hback, hhas]) (by rw [hword, hback, hposted]) v
  rw [hword, hback] at hexec
  have hu := s.acked_pathFrame p (64 + off)
  have hwords := s.acked_commitWords p (64 + off) b off v
  generalize s.acked p (64 + off) = u at hexec hu hwords
  have hmay' := hu.mayWrite hmay
  have hcore : u.coreWrite ⟨p, 64 + off, b.sel⟩ b off v =
      (u.unstage p b off false).effect ⟨p, 64 + off, b.sel⟩ b off (s.commitWords p b off v) := by
    rw [State.coreWrite, if_neg (by simp [hmay'.1.2]), if_neg (by simp [hstages]), hwords,
      State.commit_of_mayWrite u (acc := ⟨p, 64 + off, b.sel⟩) hmay', u.rangeRefused_of_commits hcommits]
  rw [hcore] at hexec
  have hclears := u.unstage_clears p htime
  have heff := heffect (u.unstage p b off false) (hu.trans (u.unstage_pathFrame p b off false))
  refine ⟨_, hexec, heff.frame, fun r e he hb => ?_⟩
  rw [heff.staging, hclears] at he
  exact Staged.left_of_filter he hb

/-! ### The effects of the general registers (chapters 14, 15) -/

theorem State.carriedOut_rfl {s u : State} (h : s.pathFrame u) (f : State → State)
    (hpaths : ∀ x y, f { s with pathA := x, pathB := y } = { f s with pathA := x, pathB := y }) : s.carriedOut u (f u) (f s) := by
  obtain ⟨⟨x, y, rfl⟩, hcore⟩ := h
  rw [hpaths]
  refine ⟨⟨rfl, fun r => ?_⟩, fun r => ?_⟩
  · rw [← hcore r]
    cases r <;> rfl
  · cases r <;> rfl

theorem State.carriedOut.scale {s u t v : State} (h : s.carriedOut u t v) (q : QId) : s.carriedOut u (t.scale q) v := by
  obtain ⟨⟨hbare, hcore⟩, hstaging⟩ := h
  exact ⟨⟨(t.scale_bare q).trans hbare, hcore⟩, hstaging⟩

/-- A higher word as the commit takes it: as it is staged, or as it stands. -/
def State.higher (s : State) (p : Path) (b : Bank) (off : Nat) : Word := ((s.path p).staged b off).getD (s.heldWord p b off)

theorem State.commitWords_threshold (p : Path) (q : QId) (k : Fin 4) (v : Word) :
    s.commitWords p (.queue q) (8 + 3 * k.val) v =
      [v, s.higher p (.queue q) (9 + 3 * k.val), s.higher p (.queue q) (10 + 3 * k.val)] := by
  fin_cases k <;> rfl

theorem State.effect_threshold (acc : Access) (q : QId) (k : Fin 4) (v w x : Word) :
    s.effect acc (.queue q) (8 + 3 * k.val) [v, w, x] = (s.modQu q fun y => y.setThreshold k.val (x ++ w ++ v)).scale q := by
  fin_cases k <;> rfl

theorem State.putsWord_threshold (p : Path) (q : QId) (k : Fin 4) (v : Word) : s.putsWord p (.queue q) (8 + 3 * k.val) v
    (s.setQu q ((s.qu q).setThreshold k.val
      (s.higher p (.queue q) (10 + 3 * k.val) ++ s.higher p (.queue q) (9 + 3 * k.val) ++ v))) := by
  refine State.putsWord_of (by omega) (by revert q k; decide) fun u hu => ?_
  rw [s.commitWords_threshold, State.effect_threshold]
  exact (State.carriedOut_rfl hu (fun u => u.modQu q fun y => y.setThreshold k.val _) fun _ _ => rfl).scale q

/-- A write that commits into a part of the state that no path is part of. -/
theorem State.putsWord_of_eq {p : Path} {b : Bank} {off : Nat} {v : Word} (f : State → State) (hoff : off < 64)
    (hcommits : b.commits off = true)
    (heff : ∀ u : State, u.effect ⟨p, 64 + off, b.sel⟩ b off (s.commitWords p b off v) = f u)
    (hpaths : ∀ x y, f { s with pathA := x, pathB := y } = { f s with pathA := x, pathB := y }) : s.putsWord p b off v (f s) :=
  State.putsWord_of hoff hcommits fun u hu => heff u ▸ State.carriedOut_rfl hu f hpaths

theorem State.putsWord_queue (p : Path) (q : QId) {off : Nat} (hoff : off < 64) (hcommits : (Bank.queue q).commits off = true)
    {v : Word} (g : Queue → Queue) (heff : ∀ u : State,
      u.effect ⟨p, 64 + off, (Bank.queue q).sel⟩ (.queue q) off (s.commitWords p (.queue q) off v) = u.modQu q g) :
    s.putsWord p (.queue q) off v (s.setQu q (g (s.qu q))) :=
  s.putsWord_of_eq (fun u => u.modQu q g) hoff hcommits heff fun _ _ => rfl

theorem State.putsWord_ffres (p : Path) (q : QId) (v : Word) :
    s.putsWord p (.queue q) 0x14 v (s.setQu q { s.qu q with ffres := v }) :=
  State.putsWord_of (by omega) (by revert q; decide) fun u hu =>
    (State.carriedOut_rfl hu (fun u => u.modQu q fun x => { x with ffres := v }) fun _ _ => rfl).scale q

theorem yardEntry_even (hi : Bool) (k : Fin 32) :
    yardEntry hi (2 * k.val) = ⟨k.val + (if hi then 32 else 0), by split <;> omega⟩ := by
  refine Fin.ext ?_
  have hk := k.isLt
  cases hi
  · show 0 + 2 * k.val / 2 % 32 = k.val + 0
    omega
  · show 32 + 2 * k.val / 2 % 32 = k.val + 32
    omega

theorem State.putsWord_yard (p : Path) (hi : Bool) (k : Fin 32) (v : Word) (e : Fin 64)
    (he : e = ⟨k.val + (if hi then 32 else 0), by split <;> omega⟩) : s.putsWord p (.yard hi) (2 * k.val) v
    ({ s with
      sy := (s.sy.set (2 * e.val) (VWord.of (v &&& 0xBF3F))).set (2 * e.val + 1)
        (VWord.of (s.higher p (.yard hi) (2 * k.val + 1) &&& 0x0F3F)) } : State) := by
  have hcommits : (Bank.yard hi).commits (2 * k.val) = true := by
    clear he
    revert hi k
    decide
  rw [← yardEntry_even] at he
  refine s.putsWord_of_eq (fun u => { u with
    sy := (u.sy.set (2 * e.val) (VWord.of (v &&& 0xBF3F))).set (2 * e.val + 1)
      (VWord.of (s.higher p (.yard hi) (2 * k.val + 1) &&& 0x0F3F)) }) (by omega) hcommits (fun u => ?_)
    fun _ _ => rfl
  subst he
  rfl

/-! ### The time base, the calendar and the governor (chapters 11, 14) -/

theorem State.applyUtc_carriedOut {u : State} (h : s.pathFrame u) : s.carriedOut u u.applyUtc s.applyUtc := by
  have hframe := u.applyUtc_timeFrame.hostFrame_applyUtc h rfl rfl
  rw [h.applyUtc_wins] at hframe
  refine ⟨hframe, fun r => ?_⟩
  cases r with
  | a => exact (congrArg (fun t : State => t.pathA.staging) u.applyUtc_timeFrame :)
  | b => exact (congrArg (fun t : State => t.pathB.staging) u.applyUtc_timeFrame :)

theorem State.carriedOut.modTime {s u t v : State} (h : s.carriedOut u t v) (f : Time → Time) :
    s.carriedOut u { t with time := f t.time } { v with time := f v.time } := by
  obtain ⟨⟨hbare, hcore⟩, hstaging⟩ := h
  exact ⟨⟨congrArg (fun w : State => ({ w with time := f w.time } : State)) hbare, hcore⟩, hstaging⟩

theorem State.putsWord_utcNxt (p : Path) (v : Word) : s.putsWord p .time 0x10 v
    { s.applyUtc with time := { s.applyUtc.time with utcNxt := v } } :=
  State.putsWord_of (by omega) rfl fun _ hu => (s.applyUtc_carriedOut hu).modTime fun x => { x with utcNxt := v }

/-- The governor's words with one of the three that an interval takes over written. -/
theorem State.putsWord_gov (p : Path) {off : Nat} (hoff : off < 64) (hcommits : Bank.gov.commits off = true) {v : Word}
    (g : Gov → Gov) (hf : ({ s with gov := g s.gov } : State).agrees .floor)
    (hc : ({ s with gov := g s.gov } : State).agrees .ceil) (hm : ({ s with gov := g s.gov } : State).agrees .margin)
    (heff : ∀ u : State, u.govWrite off v = ({ u with gov := g u.gov } : State).govNext) : s.putsWord p .gov off v
      { s with gov := if s.govRuns then g s.gov else (g s.gov).renew } := by
  refine State.putsWord_of hoff hcommits fun u hu => ?_
  have hgov : u.effect ⟨p, 64 + off, Bank.gov.sel⟩ .gov off (s.commitWords p .gov off v) =
      { u with gov := if u.govRuns then g u.gov else (g u.gov).renew } := by
    refine (heff u).trans ?_
    obtain ⟨⟨x, y, rfl⟩, -⟩ := hu
    unfold State.govNext
    have hrenew := State.govRenew_of_agrees ({ s with pathA := x, pathB := y, gov := g s.gov } : State) hf hc hm
    split
    next h => exact congrArg (fun z : Gov => ({ s with pathA := x, pathB := y, gov := z } : State)) (if_pos h).symm
    next h =>
      refine hrenew.trans ?_
      exact congrArg (fun z : Gov => ({ s with pathA := x, pathB := y, gov := z } : State)) (if_neg h).symm
  rw [hgov]
  exact State.carriedOut_rfl hu (fun u => { u with gov := if u.govRuns then g u.gov else (g u.gov).renew }) fun _ _ => rfl

end Sys2Proof.Machine

end

section
/-!
O52. What reads of the register window return and latch, and what writes do.
-/

-- The theorems one after another: side by side they take more threads than the check allows.
set_option Elab.async false

namespace Sys2Proof.Machine

variable (s : State)

/-! ### A read that is answered at once (R9, R363, R374) -/

/-- A read of `word` on path `p` that has returned `w` and left `g` in the path's holding register. -/
structure State.readsAs (s t : State) (p : Path) (seq : Bool) (word : BitVec 7) (w : Word) (g : Option Latch) : Prop where
  own : t.path p = { s.path p with
    readData := w, holdGen := g
    ack := if p = .b then true else (s.path p).ack, readSeq := if p = .b then seq else (s.path p).readSeq
    ptr := if p = .b then (if seq then word + 1 else word) else (s.path p).ptr }
  other : t.path (otherPath p) = s.path (otherPath p)
  frame : t.bare = ({ s with pathA := t.pathA, pathB := t.pathB } : State).bare

/-- The state as a read returns `w` and leaves `g` latched. -/
def State.returned (s : State) (p : Path) (w : Word) (g : Option Latch) : State :=
  s.modPath p fun x => { x with readData := w, holdGen := g }

theorem State.registerRead_of {p : Path} {word : BitVec 7} {f : Flips} {w : Word} {g : Option Latch}
    (hw : s.writable p = true) (seq : Bool) (h : s.hostRead p word.toNat f = s.returned p w g) :
    ∃ t, exec (.registerRead p word seq f) s = .next t ∧ s.readsAs t p seq word w g := by
  have hpow := s.powered_of_writable hw
  cases p with
  | a =>
    have hexec : exec (.registerRead .a word seq f) s = .next (s.returned .a w g).scaleAll := by
      rw [← h]
      rfl
    refine ⟨_, hexec, ?_, ?_, ?_⟩
    · exact State.scaleAll_pathA _
    · exact State.scaleAll_pathB _
    · rw [State.scaleAll_bare, State.scaleAll_pathA, State.scaleAll_pathB]
      rfl
  | b =>
    have hexec : exec (.registerRead .b word seq f) s = .next (((s.returned .b w g).modPath .b fun x =>
        { x with ack := true, readSeq := seq, ptr := if seq then word + 1 else word }).scaleAll) := by
      have hpow' : (s.returned .b w g).powered = true := hpow
      refine congrArg (fun v : State => Host.Outcome.next v.scaleAll) ?_
      rw [h, hpow']
      rfl
    refine ⟨_, hexec, ?_, ?_, ?_⟩
    · exact State.scaleAll_pathB _
    · exact State.scaleAll_pathA _
    · rw [State.scaleAll_bare, State.scaleAll_pathA, State.scaleAll_pathB]
      rfl

theorem State.hostRead_of_writable {p : Path} (h : s.writable p = true) (word : Nat) (f : Flips) : s.hostRead p word f =
    match s.target p word with
    | .void => (s.flipRef (s.target p word).vref f).modPath p fun x => { x with readData := 0 }
    | .direct off => (s.flipRef (s.target p word).vref f).readDirect p off
    | .banked b off =>
      if b.posted off then
        ((s.flipRef (s.target p word).vref f).modPath p fun x => { x with readWait := some (b, off) }).answerRead p
      else (s.flipRef (s.target p word).vref f).readBank p b off := by
  simp only [State.writable, Bool.and_eq_true] at h
  unfold State.hostRead
  rw [if_neg (by simp [h.1]), if_neg (by simp [h.2])] <;> rfl

/-- A word of the direct page that is neither voted nor latches returns its live value. -/
theorem State.hostRead_direct {p : Path} (hw : s.writable p = true) {off : Nat} (hoff : off < 64) (h6 : off ≠ 6)
    (h7 : off ≠ 7) (h8 : off ≠ 8) (htime : off ≠ 0x17) (f : Flips) :
    s.hostRead p off f = s.returned p (s.directWord p off) (s.path p).holdGen := by
  have htarget : s.target p off = .direct off := if_pos hoff
  have hvref : (Target.direct off).vref = none := by simp [Target.vref, h6, h7, h8]
  rw [s.hostRead_of_writable hw, htarget]
  show (s.flipRef (Target.direct off).vref f).readDirect p off = _
  rw [hvref]
  show s.readDirect p off = _
  rw [State.readDirect, hvref]
  simp only [Option.toList_none, List.foldl_nil, htime, if_false]
  cases p <;> rfl

/-! ### Words of the banks (R199, R374) -/

/-- A read of a word of bank `b` is answered by the bank: the snapshot view does not stand before it, the word is not voted,
and a read of TIME meets nothing latched of PPSCAP. -/
structure State.plainWord (s : State) (p : Path) (b : Bank) (off : Nat) : Prop where
  view : s.inView p = false
  has : b.has off = true
  posted : b.posted off = false
  vref : b.vref off = none
  pps : b ≠ .time ∨ (s.path p).holdPps = none ∧ off ≠ 9

theorem State.hostRead_bank {p : Path} (hw : s.writable p = true) {word : Nat} (hword : 64 ≤ word) {b : Bank}
    (hbank : bankAt (s.path p).bankSel.toNat = some b) (h : s.plainWord p b (word - 64)) (f : Flips)
    (hrefs : b.readRefs (word - 64) = []) : s.hostRead p word f =
      (s.latch p b (word - 64)).modPath p fun x => { x with readData := (s.latch p b (word - 64)).bankWord p b (word - 64) } := by
  have htarget : s.target p word = .banked b (word - 64) := by
    rw [State.target, if_neg (by omega), hbank]
  have hvref : (Target.banked b (word - 64)).vref = none := by simp [Target.vref, h.vref]
  rw [s.hostRead_of_writable hw, htarget]
  show (if b.posted (word - 64) = true then _ else
    (s.flipRef (Target.banked b (word - 64)).vref f).readBank p b (word - 64)) = _
  rw [if_neg (by simp [h.posted]), hvref]
  show s.readBank p b (word - 64) = _
  rw [State.readBank, if_neg (by simp [h.has]), hrefs]
  rfl

theorem State.plainWord.bankWord {s : State} {p : Path} {b : Bank} {off : Nat} (h : s.plainWord p b off) :
    s.bankWord p b off = (s.latched p b off).getD (s.liveWord p b off) := by
  have hvoid : s.entryVoid b off = false := by
    have hv := h.vref
    unfold State.entryVoid
    split
    · nomatch hv
    · rw [hv]
      rfl
  unfold State.bankWord
  rw [h.view, hvoid]
  simp only [Bool.false_eq_true, if_false]
  split
  next l hl =>
    rcases h.pps with hb | ⟨hnone, -⟩
    · exact absurd rfl hb
    · nomatch hnone.symm.trans hl
  next => rfl

theorem State.liveWord_returned (p q : Path) (g : Option Latch) (b : Bank) (off : Nat) :
    (s.modPath p fun x => { x with holdGen := g }).liveWord q b off = s.liveWord q b off := by
  cases p <;> cases q <;> cases b <;> rfl

/-- A word that stands alone, or a higher word of which nothing is latched, and one of which something is. -/
theorem State.read_unlatched {p : Path} (hw : s.writable p = true) {word : BitVec 7} (hword : 64 ≤ word.toNat) {b : Bank}
    (hbank : bankAt (s.path p).bankSel.toNat = some b) (h : s.plainWord p b (word.toNat - 64)) (seq : Bool) (f : Flips)
    (hbase : (b.group (word.toNat - 64)).1 ≠ word.toNat - 64 ∨ (b.group (word.toNat - 64)).2 = 1) {w : Word}
    (hval : (s.latched p b (word.toNat - 64)).getD (s.liveWord p b (word.toNat - 64)) = w) :
    ∃ t, exec (.registerRead p word seq f) s = .next t ∧ s.readsAs t p seq word w (s.path p).holdGen := by
  have hrefs : b.readRefs (word.toNat - 64) = [] := by
    unfold Bank.readRefs
    dsimp only
    split
    next hoff =>
      have hone := hbase.resolve_left fun hne => hne hoff.symm
      rw [hone, ← hoff]
      simp [h.vref]
    next => rw [h.vref]; rfl
  have hlatch : s.latch p b (word.toNat - 64) = s := by
    unfold State.latch
    rw [if_neg fun hp => ?_]
    · dsimp only
      refine if_neg fun hp => ?_
      rcases hbase with hne | hone
      · exact hne hp.1.symm
      · omega
    · rcases h.pps with hb | ⟨-, hoff⟩
      · exact hb hp.1
      · exact hoff hp.2
  refine s.registerRead_of hw seq ?_
  rw [s.hostRead_bank hw hword hbank h f hrefs, hlatch, h.bankWord, hval]
  cases p <;> rfl

theorem State.latched_of_single {p : Path} {b : Bank} {off : Nat} (h : (b.group off).2 = 1) : s.latched p b off = none :=
  if_pos (Or.inr h.le)

theorem State.latched_of_base {p : Path} {b : Bank} {off : Nat} (h : (b.group off).1 = off) : s.latched p b off = none :=
  if_pos (Or.inl h.symm)

/-- A register of which a word is not the lowest has more than one. -/
theorem Bank.group_of_higher {b : Bank} {off : Nat} (h : (b.group off).1 ≠ off) : 1 < (b.group off).2 := by
  unfold Bank.group at h ⊢
  cases b with
  | yard | win => exact Nat.le_of_ble_eq_true rfl
  | tset | evt | gov => exact absurd rfl h
  | _ =>
    dsimp only at h ⊢
    split_ifs at h ⊢ <;> simp_all

theorem State.latched_of_held {p : Path} {b : Bank} {off : Nat} {ws : List Word} {w : Word} (h : (b.group off).1 ≠ off)
    (hheld : (s.path p).holdGen = some (s.latchOf p b (b.group off).1 ws)) (hw : ws[off - (b.group off).1]? = some w) :
    s.latched p b off = some w := by
  have hmany := Bank.group_of_higher h
  unfold State.latched
  dsimp only
  rw [if_neg (by omega), hheld]
  exact (if_pos rfl).trans hw

/-- A read of the lowest word of a register latches all of its words. -/
theorem State.read_lowest {p : Path} (hw : s.writable p = true) {word : BitVec 7} (hword : 64 ≤ word.toNat) {b : Bank}
    (hbank : bankAt (s.path p).bankSel.toNat = some b) (h : s.plainWord p b (word.toNat - 64)) (seq : Bool) (f : Flips)
    (hbase : (b.group (word.toNat - 64)).1 = word.toNat - 64) (hmany : 1 < (b.group (word.toNat - 64)).2)
    (hrefs : b.readRefs (word.toNat - 64) = []) :
    ∃ t, exec (.registerRead p word seq f) s = .next t ∧ s.readsAs t p seq word (s.liveWord p b (word.toNat - 64))
      (some (s.latchOf p b (word.toNat - 64)
        ((List.range (b.group (word.toNat - 64)).2).map fun i => s.liveWord p b (word.toNat - 64 + i)))) := by
  generalize hg : some (s.latchOf p b (word.toNat - 64)
    ((List.range (b.group (word.toNat - 64)).2).map fun i => s.liveWord p b (word.toNat - 64 + i))) = g
  have hlatch : s.latch p b (word.toNat - 64) = s.modPath p fun x => { x with holdGen := g } := by
    unfold State.latch
    rw [if_neg fun hp => ?_]
    · dsimp only
      rw [if_pos ⟨hbase.symm, hmany⟩, hbase, ← hg]
    · rcases h.pps with hb | ⟨-, hoff⟩
      · exact hb hp.1
      · exact hoff hp.2
  have hplain : (s.modPath p fun x => { x with holdGen := g }).plainWord p b (word.toNat - 64) := by
    obtain ⟨hview, hhas, hposted, hvref, hpps⟩ := h
    refine ⟨?_, hhas, hposted, hvref, ?_⟩
    · rw [← hview]
      cases p <;> rfl
    · refine hpps.imp_right fun hp => ⟨?_, hp.2⟩
      rw [← hp.1]
      cases p <;> rfl
  refine s.registerRead_of hw seq ?_
  rw [s.hostRead_bank hw hword hbank h f hrefs, hlatch, hplain.bankWord, State.latched_of_base _ hbase, Option.getD_none,
    s.liveWord_returned]
  cases p <;> rfl

/-- A word of the calendar's staging written (R343). -/
theorem State.putsWord_cal (p : Path) {off : Nat} (hoff : off < 64) (hcommits : Bank.cal.commits off = true) {v : Word}
    (g : Cal → Cal) (hbad : (g s.cal).bad = s.cal.bad) (heff : ∀ u : State,
      u.effect ⟨p, 64 + off, Bank.cal.sel⟩ .cal off (s.commitWords p .cal off v) = { u with cal := (g u.cal).settle }) :
    s.putsWord p .cal off v { s with cal := { g s.cal with bad := s.cal.bad && (g s.cal).impossible } } := by
  have hputs := s.putsWord_of_eq (fun u => { u with cal := (g u.cal).settle }) hoff hcommits heff fun _ _ => rfl
  rw [← hbad]
  exact hputs

/-! ### Writes of the direct page, and writes that are ignored (R11, R354, R355) -/

theorem State.busWrite_of_writable {p : Path} (hw : s.writable p = true) (word : Nat) (v : Word) :
    (s.acked p word).busWrite p word v =
      (match (s.acked p word).target p word with
       | .direct off => if (Target.direct off).has then
          (s.acked p word).directWrite ⟨p, word, (s.path p).bankSel.toNat⟩ off v s.boot.badBanks [] else s.acked p word
       | .banked b off => (s.acked p word).bankWrite ⟨p, word, (s.path p).bankSel.toNat⟩ b off v
       | .void => s.acked p word) := by
  have hu := s.acked_pathFrame p word
  have hboot : (s.acked p word).boot = s.boot := by
    obtain ⟨⟨x, y, heq⟩, -⟩ := hu
    rw [heq]
  rw [State.busWrite, if_neg (by simp [hu.writable, hw]), hu.bankSel, hboot] <;> rfl

theorem State.registerWrite_direct {p : Path} (hw : s.writable p = true) {word : BitVec 7} (hword : word.toNat ≤ 0x22)
    (v : Word) : exec (.registerWrite p word v) s = .next ((s.acked p word.toNat).directWrite
      ⟨p, word.toNat, (s.path p).bankSel.toNat⟩ word.toNat v s.boot.badBanks []) := by
  refine congrArg Host.Outcome.next ?_
  have htarget : (s.acked p word.toNat).target p word.toNat = .direct word.toNat := if_pos (by omega)
  rw [s.busWrite_of_writable hw, htarget]
  exact if_pos (by simpa [Target.has] using hword)

theorem State.registerWrite_unused {p : Path} (hw : s.writable p = true) {word : BitVec 7} (hlow : 0x22 < word.toNat)
    (hhigh : word.toNat < 64) (v : Word) : exec (.registerWrite p word v) s = .next (s.acked p word.toNat) := by
  refine congrArg Host.Outcome.next ?_
  have htarget : (s.acked p word.toNat).target p word.toNat = .direct word.toNat := if_pos hhigh
  rw [s.busWrite_of_writable hw, htarget]
  exact if_neg (by simpa [Target.has] using hlow)

theorem State.registerWrite_void {p : Path} (hw : s.writable p = true) {word : BitVec 7} (hword : 64 ≤ word.toNat)
    (hbank : bankAt (s.path p).bankSel.toNat = none) (v : Word) :
    exec (.registerWrite p word v) s = .next (s.acked p word.toNat) := by
  refine congrArg Host.Outcome.next ?_
  have htarget : (s.acked p word.toNat).target p word.toNat = .void := by
    rw [State.target, if_neg (by omega), (s.acked_pathFrame p word.toNat).bankSel, hbank]
  rw [s.busWrite_of_writable hw, htarget]

/-! ### Writes that are refused (R393, R397, R424) -/

theorem State.acked_staging (p r : Path) (word : Nat) : ((s.acked p word).path r).staging = (s.path r).staging := by
  cases p with
  | a => rfl
  | b =>
    unfold State.acked
    cases r with
    | a => rfl
    | b =>
      show (if s.powered = true then _ else _ : PathSt).staging = _
      split <;> rfl

/-- A rejected write of path `p`: its staging left as a lock or the seal leaves it, or as it was. -/
theorem State.reject_refused {s u : State} (h : s.pathFrame u) (hwf : s.eventsWf) (acc : Access) (r : Nat) :
    s.rejected (u.reject acc Ev.lockrej 0 r) acc Ev.lockrej 0 r ∧
      s.hostFrame (u.reject acc Ev.lockrej 0 r)
        { s with events := (u.reject acc Ev.lockrej 0 r).events, dp := (u.reject acc Ev.lockrej 0 r).dp } ∧
      ∀ q, ((u.reject acc Ev.lockrej 0 r).path q).staging = (u.path q).staging := by
  obtain ⟨hrejected, hframe⟩ := h.reject hwf acc Ev.lockrej 0 r
  exact ⟨hrejected, hframe, fun q => by cases q <;> rfl⟩

theorem State.unstage_refused (p : Path) (b : Bank) (off : Nat) :
    ((s.unstage p b off true).path p).staging =
      (s.path p).staging.filter (fun e => !(e.bank == b && (b.group e.off).1 == off)) ∧
    ((s.unstage p b off true).path (otherPath p)).staging = (s.path (otherPath p)).staging := by
  cases p <;> exact ⟨rfl, rfl⟩

theorem State.coreWrite_refused {s : State} {acc : Access} {b : Bank} {off r : Nat} (hfatal : s.dp.fatal = false)
    (hstages : b.stages off = false) (hlock : s.lockAgrees b off) (hr : s.writeRefusal acc.p b off = some r) (v : Word) :
    s.coreWrite acc b off v = (s.unstage acc.p b off true).reject acc Ev.lockrej 0 r := by
  rw [State.coreWrite, if_neg (by simp [hfatal]), if_neg (by simp [hstages]), State.commit, s.lockRead_of_agrees hlock]
  rw [if_neg (by simp [hfatal]), hr]

end Sys2Proof.Machine

open Sys2Proof Sys2Proof.Machine

/-- Settles O52: reads by what they latch and return, writes by the target they name, the commits by one rule for every
register and the refusals by the check that stands against them. -/
theorem registerAccess : Obligations.RegisterAccess := by
  unfold Obligations.RegisterAccess
  intro p s hw
  have hacked (word : BitVec 7) := s.acked_pathFrame p word.toNat
  refine ⟨fun v => ?_, ?_, fun word seq f hword h6 h7 h8 htime => ?_, fun word seq f b hword hbank hview hhas hposted hvref hpps =>
    ⟨fun hone => ?_, fun hbase hmany hrefs => ?_, fun ws w hbase hheld hval => ?_, fun hbase hnone => ?_⟩,
    fun word v hword hbank => s.registerWrite_void hw hword hbank v,
    fun word v hlow hhigh => s.registerWrite_unused hw hlow hhigh v,
    fun word v b hfatal hword hbank hhas hposted hstages => ?_, ?_,
    fun word v b r hfatal hwf hword hbank hport hhas hposted hstages hlock hr => ?_,
    fun hfatal hwf word v => ⟨fun hword hok => ?_, fun b hword hbank hport hhas hposted => ?_⟩⟩
  · rw [s.registerWrite_direct hw (word := 0x12) (by decide)]
    refine congrArg Host.Outcome.next (if_neg ?_)
    have hok : fatalOk 0x12 v = true := rfl
    rw [show (0x12 : BitVec 7).toNat = 0x12 from rfl, hok, Bool.not_true, Bool.and_false]
    exact Bool.false_ne_true
  · obtain ⟨t, ht, hown, hother, hframe⟩ := s.registerRead_of (word := 0x12) hw false
      (s.hostRead_direct hw (off := 0x12) (by decide) (by decide) (by decide) (by decide) (by decide) ⟨0, 0, 0⟩)
    exact ⟨t, ht, hown, hother, hframe⟩
  · have hne (v : BitVec 7) (h : word ≠ v) : word.toNat ≠ v.toNat := fun heq => h (BitVec.eq_of_toNat_eq heq)
    obtain ⟨t, ht, hown, hother, hframe⟩ := s.registerRead_of hw seq
      (s.hostRead_direct hw hword (hne 6 h6) (hne 7 h7) (hne 8 h8) (hne 0x17 htime) f)
    exact ⟨t, ht, hown, hother, hframe⟩
  · obtain ⟨t, ht, hown, hother, hframe⟩ := s.read_unlatched hw hword hbank ⟨hview, hhas, hposted, hvref, hpps⟩ seq f (.inr hone)
      (by rw [s.latched_of_single hone, Option.getD_none])
    exact ⟨t, ht, hown, hother, hframe⟩
  · obtain ⟨t, ht, hown, hother, hframe⟩ :=
      s.read_lowest hw hword hbank ⟨hview, hhas, hposted, hvref, hpps⟩ seq f hbase hmany hrefs
    exact ⟨t, ht, hown, hother, hframe⟩
  · obtain ⟨t, ht, hown, hother, hframe⟩ := s.read_unlatched hw hword hbank ⟨hview, hhas, hposted, hvref, hpps⟩ seq f (.inl hbase)
      (by rw [s.latched_of_held hbase hheld hval, Option.getD_some])
    exact ⟨t, ht, hown, hother, hframe⟩
  · obtain ⟨t, ht, hown, hother, hframe⟩ := s.read_unlatched hw hword hbank ⟨hview, hhas, hposted, hvref, hpps⟩ seq f (.inl hbase)
      (by rw [hnone, Option.getD_none])
    exact ⟨t, ht, hown, hother, hframe⟩
  · have hport (n : PId) : b ≠ .port n := fun hb => by
      rw [hb] at hstages
      simp [Bank.stages] at hstages
    rw [s.registerWrite_core hw hword hbank hport hhas hposted, State.coreWrite, (hacked word).dp,
      if_neg (by simp [hfatal]), if_pos hstages]
  · intro puts hi v
    refine ⟨fun q => ?_, fun hi2 k => s.putsWord_yard p hi2 k v _ rfl, fun hf hc hm => ?_, ?_, ?_, ?_, s.putsWord_utcNxt p v, ?_⟩
    · exact ⟨fun k => s.putsWord_threshold p q k v,
        s.putsWord_queue p q (by decide) rfl (fun x => x.putVoted 1 [v &&& 0x37FF, hi (.queue q) 3 &&& 0x77FF]) fun _ => rfl,
        s.putsWord_queue p q (by decide) rfl (fun x => x.putVoted 3 [v, hi (.queue q) 5 &&& 0x1F]) fun _ => rfl,
        s.putsWord_queue p q (by decide) rfl (fun x => x.putVoted 5 [v, hi (.queue q) 7 &&& 0x7F]) fun _ => rfl,
        s.putsWord_ffres p q v,
        s.putsWord_queue p q (by decide) rfl (fun x => { x with afmode := v &&& 3 }) fun _ => rfl,
        s.putsWord_queue p q (by decide) rfl (fun x => { x with afttf := v }) fun _ => rfl,
        s.putsWord_queue p q (by decide) rfl (fun x => { x with afalpha := v &&& 0x1FF }) fun _ => rfl⟩
    · have hof (w : Word) : VWord.of w = VWord.of (VWord.of w).val := by rw [VWord.of_val]
      exact ⟨s.putsWord_gov p (by decide) rfl (fun g => { g with floor := VWord.of (v &&& 0xF) }) (hof _) hc hm fun _ => rfl,
        s.putsWord_gov p (by decide) rfl (fun g => { g with ceil := VWord.of (v &&& 0xF) }) hf (hof _) hm fun _ => rfl,
        s.putsWord_gov p (by decide) rfl (fun g => { g with margin := VWord.of (v &&& 0x3F) }) hf hc (hof _) fun _ => rfl⟩
    · exact s.putsWord_of_eq (fun u => { u with gov := { u.gov with mode := v &&& 0xF3 } }) (by decide) rfl (fun _ => rfl)
        fun _ _ => rfl
    · exact s.putsWord_of_eq (fun u => { u with land := { u.land with rotmin := v &&& 0xFFF } }) (by decide) rfl (fun _ => rfl)
        fun _ _ => rfl
    · exact s.putsWord_of_eq (fun u => { u with time := { u.time with stepth := v } }) (by decide) rfl (fun _ => rfl)
        fun _ _ => rfl
    · exact ⟨s.putsWord_cal p (by decide) rfl (fun c => { c with year := v &&& 0x3FFF }) rfl fun _ => rfl,
        s.putsWord_cal p (by decide) rfl (fun c => { c with mon := v &&& 0xF }) rfl fun _ => rfl,
        s.putsWord_cal p (by decide) rfl (fun c => { c with day := v &&& 0x1F }) rfl fun _ => rfl,
        s.putsWord_cal p (by decide) rfl (fun c => { c with hmsL := v &&& 0x3F3F, hmsH := hi .cal 4 &&& 0x1F }) rfl fun _ => rfl,
        s.putsWord_of_eq (fun u => { u with cal := { u.cal with view := bit v 0 } }) (by decide) rfl (fun _ => rfl)
          fun _ _ => rfl⟩
  · rw [s.registerWrite_core hw hword hbank hport hhas hposted,
      State.coreWrite_refused (by rw [(hacked word).dp, hfatal]) hstages ((hacked word).lockAgrees hlock)
        (((hacked word).writeRefusal p b (word.toNat - 64)).trans hr)]
    obtain ⟨hrejected, hframe, hstaging⟩ := State.reject_refused
      ((hacked word).trans (State.unstage_pathFrame _ p b (word.toNat - 64) true)) hwf ⟨p, word.toNat, b.sel⟩ r
    obtain ⟨hown, hother⟩ := (s.acked p word.toNat).unstage_refused p b (word.toNat - 64)
    refine ⟨_, rfl, hrejected, hframe, ?_, ?_⟩
    · rw [hstaging, hown, s.acked_staging]
    · rw [hstaging, hother, s.acked_staging]
  · rw [s.registerWrite_direct hw hword]
    obtain ⟨hrejected, hframe, hstaging⟩ := State.reject_refused (hacked word) hwf
      ⟨p, word.toNat, (s.path p).bankSel.toNat⟩ Reason.state
    have hdirect : (s.acked p word.toNat).directWrite ⟨p, word.toNat, (s.path p).bankSel.toNat⟩ word.toNat v s.boot.badBanks [] =
        (s.acked p word.toNat).reject ⟨p, word.toNat, (s.path p).bankSel.toNat⟩ Ev.lockrej 0 Reason.state :=
      if_pos (by rw [(hacked word).dp, hfatal, hok]; rfl)
    rw [hdirect]
    exact ⟨_, rfl, hrejected, hframe, fun r => (hstaging r).trans (s.acked_staging p r _)⟩
  · rw [s.registerWrite_core hw hword hbank hport hhas hposted, sel_of_bankAt _ b hbank]
    obtain ⟨hrejected, hframe, hstaging⟩ := State.reject_refused (hacked word) hwf ⟨p, word.toNat, b.sel⟩ Reason.state
    have hcore : (s.acked p word.toNat).coreWrite ⟨p, word.toNat, b.sel⟩ b (word.toNat - 64) v =
        (s.acked p word.toNat).reject ⟨p, word.toNat, b.sel⟩ Ev.lockrej 0 Reason.state :=
      if_pos (by rw [(hacked word).dp, hfatal])
    rw [hcore]
    exact ⟨_, rfl, hrejected, hframe, fun r => (hstaging r).trans (s.acked_staging p r _)⟩
end

section
/-!
O9. A warm device reset: what its three parts do, and the write of DP:GCTL.DEVRST.
-/

-- The theorems one after another: side by side they take more threads than the check allows.
set_option Elab.async false

namespace Sys2Proof.Machine

variable (s : State)

/-! ### Steps 1 to 3 up to the vote (Table 3.2, Table 3.3) -/

/-- What a warm reset begun on a path reports as its cause (R78). -/
def resetCause : Path → Word
  | .a => 2
  | .b => 3

/-- The state with every field of class DEV at its reset value, but for the lookahead and the count of the broken locks. -/
def State.devCleared (s : State) : State :=
  { s with
    boot := { s.boot with warm := true, halted := false, warmed := 0 }
    dp := { Direct.reset with
      sealV := s.dp.sealV, sealDone := s.dp.sealDone, slotId := s.dp.slotId, slotDone := s.dp.slotDone, temp := s.dp.temp }
    pathA := s.pathA.devReset
    pathB := s.pathB.devReset
    events := []
    time := { s.time with arm := false, tsout := 0, tsoutNow := 0, tsoutPend := none, pulse := none }
    cal := Cal.reset
    wins := Vector.replicate 16 Window.reset
    gov := { s.gov.renew with acc8 := 0, tick := s.time.ticks }
    queues := vmap Queue.devReset s.queues
    ports := vmap Port.devReset s.ports
    chans := vmap Chan.devReset s.chans
    azl := { Azl.reset with acfg := s.azl.acfg, ainq := s.azl.ainq, wsync := s.azl.wsync }
    land := { Land.reset with retired := s.land.retired, rest := if s.land.retired = 0 then 16 else 31 }
    sampleTick := s.time.ticks }

/-- The locks that the reset has broken are counted. -/
def State.devCounted (s : State) : State := s.devCleared.countN Ev.lockbrk 0 s.heldLocks

theorem State.devReset_eq : s.devReset = (allQ.foldl State.clearLookahead s.devCounted).scaleAll := rfl

/-- Starting the lookahead afresh in queues that have none moves their last sample alone. -/
theorem State.foldClearLookahead (hq : ∀ q, (s.qu q).rate = 0 ∧ (s.qu q).afla = false) (l : List QId) :
    l.foldl State.clearLookahead s = { s with queues := (l.foldl State.clearLookahead s).queues } ∧
    ∀ q, (l.foldl State.clearLookahead s).qu q = { s.qu q with lastAfl := ((l.foldl State.clearLookahead s).qu q).lastAfl } := by
  refine List.foldlRecOn (motive := fun u : State => u = { s with queues := u.queues } ∧
    ∀ q, u.qu q = { s.qu q with lastAfl := (u.qu q).lastAfl }) l _ ⟨rfl, fun q => rfl⟩ fun u hu k _ => ⟨?_, fun q => ?_⟩
  · have hlift := congrArg (fun v : State => ({ v with queues := (u.clearLookahead k).queues } : State)) hu.1
    exact hlift
  · obtain ⟨hrate, hafla⟩ := hq q
    by_cases h : q = k
    · subst h
      rw [State.clearLookahead, State.modQu_qu, hu.2 q, ← hrate, ← hafla]
    · rw [State.clearLookahead, State.modQu_qu_ne _ _ _ _ h]
      exact hu.2 q

theorem State.queuesOnly_of_bare {s t : State} (h : t.bare = s.bare) : t = { s with queues := t.queues } := by
  have hlift := congrArg (fun v : State => ({ v with queues := t.queues } : State)) h
  exact hlift

theorem State.scaleAll_queuesOnly : s.scaleAll = { s with queues := s.scaleAll.queues } :=
  State.queuesOnly_of_bare s.scaleAll_bare

/-- Before the vote the state is the one cleared, its broken locks counted, but for the lookahead's last samples. -/
theorem State.devReset_frame : s.devReset = { s.devCounted with queues := s.devReset.queues } ∧
    ∀ q, (s.devReset.qu q).bare =
      ({ (s.qu q).devReset with lastAfl := (s.devReset.qu q).lastAfl } : Queue).bare := by
  have hqu (q : QId) : s.devCounted.qu q = (s.qu q).devReset := by
    rw [State.devCounted, State.countN_qu_frame]
    exact State.qu_of_vmap (s := s) rfl
  obtain ⟨hframe, hclear⟩ := s.devCounted.foldClearLookahead (fun q => by rw [hqu]; exact ⟨rfl, rfl⟩) allQ
  rw [s.devReset_eq]
  generalize allQ.foldl State.clearLookahead s.devCounted = u at hframe hclear ⊢
  refine ⟨?_, fun q => ?_⟩
  · have hlift := congrArg (fun v : State => ({ v with queues := u.scaleAll.queues } : State)) hframe
    exact u.scaleAll_queuesOnly.trans hlift
  · rw [State.scaleAll_qu_bare, State.scaleAll_qu_lastAfl, hclear q, hqu]

/-- The state with the cause of its last reset. -/
def State.causedBy (s : State) (p : Path) : State := { s with boot := { s.boot with rstCause := resetCause p } }

theorem State.causedBy_a : s.causedBy .a = { s with boot := { s.boot with rstCause := 2 } } := rfl

theorem State.causedBy_b : s.causedBy .b = { s with boot := { s.boot with rstCause := 3 } } := rfl

/-- The state that a warm reset begun on path `p` comes to before the vote. -/
def State.warmStart (s : State) (p : Path) : State := s.devReset.causedBy p

/-- Everything of the state before the vote but the lookahead's last samples. -/
theorem State.warmStart_frame (p : Path) : s.warmStart p = { s.devCleared with
    boot := { s.boot with warm := true, halted := false, warmed := 0, rstCause := resetCause p }
    events := s.devCounted.events, queues := s.devReset.queues } := by
  have hframe := s.devReset_frame.1
  rw [State.devCounted, State.countN_frame, ← State.devCounted] at hframe
  have hlift := congrArg (fun v : State => v.causedBy p) hframe
  exact hlift

/-! ### Step 5 (R75, R427) -/

/-- Step 5 on a channel: `ref` that REFCLK is present, `moved` that its temperature has moved by 20 °C. -/
def Chan.warmStep (x : Chan) (ref moved : Bool) (tick order : Nat) : Chan :=
  if x.st != .selfref then x
  else if !ref then { x with noRef := true }
  else if moved then { x with waiting := some (some .warm, order) }
  else (x.rouse tick).owe

theorem State.warmChan_frame (c : YId) : s.warmChan c = { s with chans := (s.warmChan c).chans, order := (s.warmChan c).order } := by
  unfold State.warmChan
  dsimp only
  split
  · rfl
  split
  · rfl
  split <;> rfl

theorem State.warmChan_ch (c : YId) :
    (s.warmChan c).ch c = (s.ch c).warmStep s.time.refclk (s.tempMoved c) s.time.ticks s.order := by
  unfold State.warmChan Chan.warmStep
  dsimp only
  split
  · rfl
  split
  · exact s.setCh_ch c _
  split
  · exact s.setCh_ch c _
  · exact s.setCh_ch c _

theorem State.warmChan_ch_ne {c d : YId} (h : d ≠ c) : (s.warmChan c).ch d = s.ch d := by
  unfold State.warmChan
  dsimp only
  split
  · rfl
  split
  · exact s.setCh_ch_ne c _ _ h
  split
  · exact s.setCh_ch_ne c _ _ h
  · exact s.setCh_ch_ne c _ _ h

/-- Step 5 changes the channel's state and its refresh and tracking timers alone. -/
theorem Chan.warmStep_frame (x : Chan) (ref moved : Bool) (tick order : Nat) : x.warmStep ref moved tick order = { x with
    st := (x.warmStep ref moved tick order).st, noRef := (x.warmStep ref moved tick order).noRef
    waiting := (x.warmStep ref moved tick order).waiting, must := (x.warmStep ref moved tick order).must
    owed := (x.warmStep ref moved tick order).owed, gap := (x.warmStep ref moved tick order).gap
    refAt := (x.warmStep ref moved tick order).refAt, trackAt := (x.warmStep ref moved tick order).trackAt
    idleSince := (x.warmStep ref moved tick order).idleSince } := by
  unfold Chan.warmStep
  split
  · rfl
  split
  · rfl
  split <;> rfl

/-- Steps 4 and 5 as far as they run at once. -/
def State.warmSteps (s : State) (bad : BitVec 17) : State := (((s.landTest bad).warmChan 0).warmNext 1).warmOn

/-- Step 5 has begun on Y0. -/
def State.warmFirst (s : State) (bad : BitVec 17) : State := ((s.landTest bad).warmChan 0).warmNext 1

theorem State.warmFirst_frame (bad : BitVec 17) : s.warmFirst bad = { s with
    land := (s.landTest bad).land
    events := (s.countN Ev.lbankfail 0 (bankCount (s.freshBanks bad))).events
    boot := { s.boot with badBanks := bad, halted := decide (2 ≤ bankCount (s.freshBanks bad)), warmed := 1 }
    chans := (s.warmFirst bad).chans, order := (s.warmFirst bad).order } := by
  have hland := s.landTest_frame bad
  have hchan := (s.landTest bad).warmChan_frame 0
  have hlift := congrArg (fun v : State => ({ v with
    chans := ((s.landTest bad).warmChan 0).chans, order := ((s.landTest bad).warmChan 0).order } : State)) hland
  exact congrArg (fun v : State => v.warmNext 1) (hchan.trans hlift)

theorem State.warmOn_eq (hwarm : s.boot.warm = true) (hfatal : s.dp.fatal = false) (hone : s.boot.warmed = 1) :
    s.warmOn = if (s.ch 0).warmed then (s.warmChan 1).warmNext 2 else s := by
  simp [State.warmOn, hwarm, hfatal, hone]

theorem State.warmOn_frame (hwarm : s.boot.warm = true) (hfatal : s.dp.fatal = false) (hone : s.boot.warmed = 1) :
    s.warmOn = { s with
      boot := { s.boot with warmed := if (s.ch 0).warmed then 2 else 1 }, chans := s.warmOn.chans, order := s.warmOn.order } := by
  rw [s.warmOn_eq hwarm hfatal hone]
  by_cases h : (s.ch 0).warmed = true
  · rw [if_pos h, if_pos h]
    exact congrArg (fun v : State => v.warmNext 2) (s.warmChan_frame 1)
  · rw [if_neg h, if_neg h, ← hone]

theorem State.warmOn_ch (hwarm : s.boot.warm = true) (hfatal : s.dp.fatal = false) (hone : s.boot.warmed = 1) :
    s.warmOn.ch 0 = s.ch 0 ∧ s.warmOn.ch 1 = if (s.ch 0).warmed
      then (s.ch 1).warmStep s.time.refclk (s.tempMoved 1) s.time.ticks s.order else s.ch 1 := by
  rw [s.warmOn_eq hwarm hfatal hone]
  by_cases h : (s.ch 0).warmed = true
  · rw [if_pos h, if_pos h]
    exact ⟨s.warmChan_ch_ne (by decide), s.warmChan_ch 1⟩
  · rw [if_neg h, if_neg h]
    exact ⟨rfl, rfl⟩

/-- What steps 4 and 5 change of a state in a warm reset: the Landing, the count of its failing banks and the channels. -/
theorem State.warmSteps_frame (hwarm : s.boot.warm = true) (hfatal : s.dp.fatal = false) (bad : BitVec 17) :
    s.warmSteps bad = { s with
      land := (s.landTest bad).land
      events := (s.countN Ev.lbankfail 0 (bankCount (s.freshBanks bad))).events
      boot := { s.boot with
        badBanks := bad, halted := decide (2 ≤ bankCount (s.freshBanks bad))
        warmed := if ((s.warmSteps bad).ch 0).warmed then 2 else 1 }
      chans := (s.warmSteps bad).chans, order := (s.warmSteps bad).order } := by
  have hfirst := s.warmFirst_frame bad
  have hboot := (congrArg State.boot hfirst :)
  have hdp := (congrArg State.dp hfirst :)
  have hw : (s.warmFirst bad).boot.warm = true := by rw [hboot]; exact hwarm
  have hf : (s.warmFirst bad).dp.fatal = false := by rw [hdp]; exact hfatal
  have hone : (s.warmFirst bad).boot.warmed = 1 := by rw [hboot]
  have hon := (s.warmFirst bad).warmOn_frame hw hf hone
  have hch : (s.warmSteps bad).ch 0 = (s.warmFirst bad).ch 0 := ((s.warmFirst bad).warmOn_ch hw hf hone).1
  rw [hch]
  have hlift := congrArg (fun v : State => ({ v with
    boot := { v.boot with warmed := if ((s.warmFirst bad).ch 0).warmed then 2 else 1 }
    chans := (s.warmSteps bad).chans, order := (s.warmSteps bad).order } : State)) hfirst
  exact hon.trans hlift

/-- Y0 takes its step 5 at once. -/
theorem State.warmFirst_ch (bad : BitVec 17) : (s.warmFirst bad).ch 0 =
    (s.ch 0).warmStep s.time.refclk (s.tempMoved 0) s.time.ticks s.order ∧ (s.warmFirst bad).ch 1 = s.ch 1 := by
  have hland := s.landTest_frame bad
  have htime := (congrArg State.time hland :)
  have hdp := (congrArg State.dp hland :)
  have horder := (congrArg State.order hland :)
  have hch (d : YId) : (s.landTest bad).ch d = s.ch d := (congrArg (fun v : State => v.ch d) hland :)
  have hmoved : (s.landTest bad).tempMoved 0 = s.tempMoved 0 := by rw [State.tempMoved, State.tempMoved, hch, hdp]
  unfold State.warmFirst
  generalize s.landTest bad = u at *
  rw [← htime, ← horder, ← hch 0, ← hch 1, ← hmoved]
  exact ⟨u.warmChan_ch 0, u.warmChan_ch_ne (by decide)⟩

/-- Y1 takes its step 5 where Y0 needs nothing. -/
theorem State.warmSteps_channels (hwarm : s.boot.warm = true) (hfatal : s.dp.fatal = false) (bad : BitVec 17) :
    (s.warmSteps bad).ch 0 = (s.warmFirst bad).ch 0 ∧
    (s.warmSteps bad).ch 1 = if ((s.warmFirst bad).ch 0).warmed
      then (s.ch 1).warmStep s.time.refclk (s.tempMoved 1) s.time.ticks (s.warmFirst bad).order else s.ch 1 := by
  have hfirst := s.warmFirst_frame bad
  have hboot := (congrArg State.boot hfirst :)
  have hdp := (congrArg State.dp hfirst :)
  have htime := (congrArg State.time hfirst :)
  have hstay := (s.warmFirst_ch bad).2
  have hmoved : (s.warmFirst bad).tempMoved 1 = s.tempMoved 1 := by rw [State.tempMoved, State.tempMoved, hstay, hdp]
  have hon := (s.warmFirst bad).warmOn_ch (by rw [hboot]; exact hwarm) (by rw [hdp]; exact hfatal) (by rw [hboot])
  rw [hstay, hmoved, htime] at hon
  exact hon

/-- The channels whose step 5 begins at once, and what it leaves of them. -/
theorem State.warmSteps_ch (hwarm : s.boot.warm = true) (hfatal : s.dp.fatal = false) (bad : BitVec 17) (c : YId) :
    ∃ order, (s.warmSteps bad).ch c = if c = 0 ∨ ((s.warmSteps bad).ch 0).warmed = true
      then (s.ch c).warmStep s.time.refclk (s.tempMoved c) s.time.ticks order else s.ch c := by
  obtain ⟨hzero, hone⟩ := s.warmSteps_channels hwarm hfatal bad
  have hfirst := (s.warmFirst_ch bad).1
  rw [hzero]
  generalize s.warmFirst bad = u at *
  generalize s.warmSteps bad = t at *
  match c with
  | 0 => exact ⟨s.order, by rw [if_pos (.inl rfl), hzero, hfirst]⟩
  | 1 => exact ⟨u.order, by simpa using hone⟩

theorem Chan.warmStep_tsets (x : Chan) (ref moved : Bool) (tick order : Nat) :
    (x.warmStep ref moved tick order).tA = x.tA ∧ (x.warmStep ref moved tick order).tB = x.tB := by
  rw [x.warmStep_frame]
  exact ⟨rfl, rfl⟩

/-- Steps 4 and 5 touch no voted word. -/
theorem State.warmSteps_vget (hwarm : s.boot.warm = true) (hfatal : s.dp.fatal = false) (bad : BitVec 17) (r : VRef) :
    (s.warmSteps bad).vget r = s.vget r := by
  have hframe := s.warmSteps_frame hwarm hfatal bad
  cases r with
  | tset c b i =>
    obtain ⟨order, hch⟩ := s.warmSteps_ch hwarm hfatal bad c
    have htsets : ((s.warmSteps bad).ch c).tA = (s.ch c).tA ∧ ((s.warmSteps bad).ch c).tB = (s.ch c).tB := by
      rw [hch]
      split
      · exact Chan.warmStep_tsets _ _ _ _ _
      · exact ⟨rfl, rfl⟩
    simp only [State.vget, htsets.1, htsets.2]
  | lock l => rw [hframe]; cases l <;> rfl
  | _ => rw [hframe]; rfl

/-! ### What follows the vote (R74, R380, R432) -/

/-- The state whose warm reset has ended. -/
def State.warmOff (s : State) : State := { s with boot := { s.boot with warm := false } }

/-- What follows the vote: FATAL, which ends the reset, or steps 4 and 5. -/
def State.warmEnd (s : State) (bad : BitVec 17) : State :=
  if s.globalFailed || s.tooHot then s.warmOff.enterFatal.scaleAll
  else (s.warmSteps bad).scaleAll

theorem State.warmReset_eq (p : Path) (bad : BitVec 17) (ups : List Upset) :
    s.warmReset p bad ups = ((s.warmStart p).warmVote ups).warmEnd bad := by
  unfold State.warmStart State.warmReset
  dsimp only
  generalize s.devReset = d
  cases p with
  | a =>
    rw [← State.causedBy_a]
    generalize (d.causedBy .a).warmVote ups = w
    rfl
  | b =>
    rw [← State.causedBy_b]
    generalize (d.causedBy .b).warmVote ups = w
    rfl

theorem State.warmEnd_of_fatal (bad : BitVec 17) (h : s.globalFailed = true ∨ s.tooHot = true) :
    s.warmEnd bad = s.warmOff.enterFatal.scaleAll :=
  if_pos (by simpa using h)

theorem State.warmEnd_of_goes (bad : BitVec 17) (hvoted : s.globalFailed = false) (hcool : s.tooHot = false) :
    s.warmEnd bad = (s.warmSteps bad).scaleAll :=
  if_neg (by simp [hvoted, hcool])

theorem State.tooHot_iff : s.tooHot = true ↔ ∃ x ∈ s.gov.tsens.toList, 620 ≤ sint x := by
  rw [State.tooHot, List.any_eq_true]
  simp only [decide_eq_true_eq]

theorem State.tooHot_of_cool (h : ∀ x ∈ s.gov.tsens.toList, sint x < 620) : s.tooHot = false := by
  refine Bool.eq_false_iff.2 fun hhot => ?_
  obtain ⟨x, hx, hge⟩ := s.tooHot_iff.1 hhot
  have := h x hx
  omega

theorem State.globalFailed_of_agrees (h : ∀ r, (∀ q i, r ≠ .queue q i) → s.agrees r) : s.globalFailed = false := by
  refine List.any_eq_false.2 fun r _ => ?_
  cases r with
  | queue q i => simp
  | _ =>
    rw [h _ fun _ _ he => VRef.noConfusion he]
    exact Bool.false_ne_true

theorem State.globalFailed_of_failed {r : VRef} (hr : ∀ q i, r ≠ .queue q i) (h : (s.vget r).failed = true) :
    s.globalFailed = true := by
  refine List.any_eq_true.2 ⟨r, mem_allRefs r, ?_⟩
  cases r with
  | queue q i => exact absurd rfl (hr q i)
  | _ => exact h

/-! ### The vote (R76, R378, R380) -/

theorem mem_porRefs {r : VRef} : r ∈ porRefs ↔ ∀ l, r ≠ .lock l := by
  rw [porRefs, List.mem_filter]
  cases r with
  | lock l => exact ⟨fun h => absurd h.2 (by simp), fun h => absurd rfl (h l)⟩
  | _ => exact ⟨fun _ _ => nofun, fun _ => ⟨mem_allRefs _, rfl⟩⟩

theorem State.warmStart_qu_bare (p : Path) (q : QId) : ((s.warmStart p).qu q).bare =
    ({ (s.qu q).devReset with lastAfl := ((s.warmStart p).qu q).lastAfl } : Queue).bare := s.devReset_frame.2 q

theorem State.warmStart_ch (p : Path) (c : YId) : (s.warmStart p).ch c = (s.ch c).devReset := by
  rw [s.warmStart_frame p]
  exact State.ch_of_vmap (s := s) rfl

theorem Queue.vword_of_bare {x y : Queue} (h : x.bare = y.bare) (i : Fin 7) : x.vword i = y.vword i := by
  have hword := congrArg (fun z : Queue => z.vword i) h
  fin_cases i <;> exact hword

/-- The POR-class voted words are as they were. -/
theorem State.warmStart_vget (p : Path) {r : VRef} (hr : r ∈ porRefs) : (s.warmStart p).vget r = s.vget r := by
  have hframe := s.warmStart_frame p
  cases r with
  | queue q i =>
    refine (Queue.vword_of_bare (s.warmStart_qu_bare p q) i).trans ?_
    fin_cases i <;> rfl
  | tset c b i =>
    rw [State.vget, s.warmStart_ch p]
    rfl
  | lock l => exact absurd rfl (mem_porRefs.1 hr l)
  | _ =>
    rw [hframe]
    rfl

/-- The locks are free. -/
theorem State.warmStart_vget_lock (p : Path) (l : LockId) : (s.warmStart p).vget (.lock l) = VWord.of 0 := by
  rw [s.warmStart_frame p]
  cases l <;> rfl

theorem State.warmStart_agreed (p : Path) (hs : s.agreed) : (s.warmStart p).agreed := fun r => by
  by_cases hr : r ∈ porRefs
  · rw [State.agrees, s.warmStart_vget p hr]
    exact hs r
  · obtain ⟨l, rfl⟩ : ∃ l, r = .lock l := by simpa [mem_porRefs] using hr
    rw [State.agrees, s.warmStart_vget_lock p l]
    rfl

theorem State.warmStart_events (p : Path) : (s.warmStart p).events = s.devCounted.events := by rw [s.warmStart_frame p]

theorem State.devCleared_wf : s.devCleared.eventsWf := rfl

/-- Only the locks broken are counted. -/
theorem State.warmStart_counted (p : Path) : s.devCleared.counted (s.warmStart p) Ev.lockbrk 0 s.heldLocks :=
  s.devCleared.counted_of_events s.devCleared_wf (s.warmStart_events p)

theorem State.warmStart_wf (p : Path) : (s.warmStart p).eventsWf := by
  rw [State.eventsWf, s.warmStart_events p]
  exact State.eventsWf_count s.devCleared_wf _ _ _

theorem State.warmVote_nil (hs : s.agreed) : s.warmVote [] = s := s.compareAll_of_agreed porRefs hs

theorem State.warmVote_upset {r : VRef} (hr : r ∈ porRefs) (f : Flips) :
    s.warmVote [⟨r, f⟩] = porRefs.foldl State.compare (s.upset ⟨r, f⟩) := by
  have hkept : (([⟨r, f⟩] : List Upset).filter fun u => porRefs.contains u.ref) = [⟨r, f⟩] :=
    List.filter_eq_self.2 fun u hu => by
      rw [List.mem_singleton.1 hu]
      exact List.contains_iff_mem.2 hr
  rw [State.warmVote, hkept]
  rfl

/-- One copy off in one place: the word is as it was and counted. -/
theorem State.warmVote_oneOff (hs : s.agreed) (hwf : s.eventsWf) {r : VRef} (hr : r ∈ porRefs) {m : Word} (hm : m ≠ 0)
    {f : Flips} (hf : f = ⟨m, 0, 0⟩ ∨ f = ⟨0, m, 0⟩ ∨ f = ⟨0, 0, m⟩) :
    (∀ r', (s.warmVote [⟨r, f⟩]).vget r' = s.vget r') ∧ s.counted (s.warmVote [⟨r, f⟩]) Ev.votefix 0 1 ∧
    s.warmVote [⟨r, f⟩] = s.recount (s.warmVote [⟨r, f⟩]).events := by
  have hevents : (s.upset ⟨r, f⟩).events = s.events := s.vset_events r _
  have hflip := VWord.flip_oneOff (s.vget r).val hm hf
  rw [← hs r] at hflip
  obtain ⟨hget, hcounted, hrest⟩ := s.foldCompare_oneOff hs porRefs [r] (s.upset ⟨r, f⟩) (List.nodup_singleton r)
    (List.cons_subset.2 ⟨hr, List.nil_subset _⟩) (by rwa [State.eventsWf, hevents])
    (fun r' hr' => by
      rw [List.mem_singleton.1 hr', State.upset, State.vget_vset]
      exact hflip)
    (fun r' hr' => s.vget_vset_ne _ fun h => hr' (List.mem_singleton.2 h))
  rw [s.warmVote_upset hr]
  refine ⟨hget, ?_, State.eq_of_unvoted (hrest.trans ?_) fun r' => (hget r').trans (s.recount_vget _ r').symm⟩
  · simpa only [State.counted, State.ev, hevents, List.length_singleton] using hcounted
  · rw [State.upset, State.vset_unvoted, State.unvoted_recount]

/-- Three different copies: the word is in VOTEFAIL, and what that brings about. -/
theorem State.warmVote_none (hs : s.agreed) {r : VRef} (hr : r ∈ porRefs) (f : Flips) (h01 : f.m0 ≠ f.m1) (h02 : f.m0 ≠ f.m2)
    (h12 : f.m1 ≠ f.m2) :
    s.warmVote [⟨r, f⟩] = (s.vset r { (s.vget r).flip f with failed := true }).voteFail r := by
  have hget : (s.upset ⟨r, f⟩).vget r = (s.vget r).flip f := s.vget_vset r _
  have hcopies : (s.vget r).flip f = (VWord.of (s.vget r).val).flip f := by rw [← hs r]
  have hpass := (s.upset ⟨r, f⟩).foldCompare_of_none (r := r) (by rw [hget, hcopies]; rfl)
    (by rw [hget, hcopies]; exact VWord.flip_majority_none _ h01 h02 h12)
    (fun r' hr' => by
      rw [State.agrees, State.upset, s.vget_vset_ne _ hr']
      exact hs r') porRefs hr
  rw [s.warmVote_upset hr, hpass, hget, State.upset, State.vset_vset]

/-! ### What the end of the vote leaves (R74, R380) -/

theorem State.enterFatal_events : s.enterFatal.events = s.events := by
  unfold State.enterFatal
  split <;> rfl

theorem State.enterFatal_queues : s.enterFatal.queues = s.queues := by
  unfold State.enterFatal
  split <;> rfl

theorem State.enterFatal_ready : s.enterFatal.dp.ready = s.dp.ready := by
  unfold State.enterFatal
  split <;> rfl

theorem State.warmOff_vget (r : VRef) : s.warmOff.vget r = s.vget r := by
  cases r with
  | lock l => cases l <;> rfl
  | _ => rfl

/-- FATAL keeps the POR-class words, the queues and the counts. -/
theorem State.warmFatal_keeps {r : VRef} (hr : r ∈ porRefs) : s.warmOff.enterFatal.scaleAll.vget r = s.vget r := by
  rw [State.scaleAll_vget, ← s.warmOff_vget r]
  exact (s.warmOff.enterFatal_vget r).resolve_right fun h => mem_porRefs.1 hr .dram h.2.1

theorem State.warmFatal_qu (q : QId) : (s.warmOff.enterFatal.scaleAll.qu q).bare = (s.qu q).bare := by
  rw [State.scaleAll_qu_bare, State.qu, State.enterFatal_queues]
  rfl

theorem State.warmFatal_events : s.warmOff.enterFatal.scaleAll.events = s.events := by
  rw [State.scaleAll_events, State.enterFatal_events]
  rfl

theorem State.warmFatal_fatal : s.warmOff.enterFatal.scaleAll.dp.fatal = true ∧
    s.warmOff.enterFatal.scaleAll.boot.warm = false ∧ s.warmOff.enterFatal.scaleAll.dp.ready = s.dp.ready := by
  rw [State.scaleAll_dp, State.scaleAll_boot, State.enterFatal_boot, State.enterFatal_ready]
  exact ⟨State.enterFatal_fatal _, rfl, rfl⟩

/-- A state in a warm reset that is not in FATAL. -/
def State.inWarm (s : State) : Prop := s.boot.warm = true ∧ s.dp.fatal = false

/-- Steps 4 and 5 keep the POR-class words, the queues and every count but that of the failing banks. -/
theorem State.warmSteps_qu (h : s.inWarm) (bad : BitVec 17) (q : QId) :
    ((s.warmSteps bad).scaleAll.qu q).bare = (s.qu q).bare := by
  rw [State.scaleAll_qu_bare, s.warmSteps_frame h.1 h.2 bad]
  rfl

theorem State.warmSteps_counted (h : s.inWarm) (hwf : s.eventsWf) (bad : BitVec 17) :
    s.counted (s.warmSteps bad).scaleAll Ev.lbankfail 0 (bankCount (s.freshBanks bad)) := by
  refine s.counted_of_events hwf ?_
  rw [State.scaleAll_events, s.warmSteps_frame h.1 h.2 bad]

/-- Whatever follows the vote keeps the POR-class words and the queues. -/
theorem State.warmEnd_vget (h : s.globalFailed = false → s.inWarm) (bad : BitVec 17) {r : VRef} (hr : r ∈ porRefs) :
    (s.warmEnd bad).vget r = s.vget r := by
  by_cases hends : s.globalFailed = true ∨ s.tooHot = true
  · rw [s.warmEnd_of_fatal bad hends]
    exact s.warmFatal_keeps hr
  · obtain ⟨hvoted, hcool⟩ : s.globalFailed = false ∧ s.tooHot = false := by simpa using hends
    rw [s.warmEnd_of_goes bad hvoted hcool, State.scaleAll_vget]
    exact s.warmSteps_vget (h hvoted).1 (h hvoted).2 bad r

theorem State.warmEnd_qu (h : s.inWarm) (bad : BitVec 17) (q : QId) : ((s.warmEnd bad).qu q).bare = (s.qu q).bare := by
  by_cases hends : s.globalFailed = true ∨ s.tooHot = true
  · rw [s.warmEnd_of_fatal bad hends]
    exact s.warmFatal_qu q
  · obtain ⟨hvoted, hcool⟩ : s.globalFailed = false ∧ s.tooHot = false := by simpa using hends
    rw [s.warmEnd_of_goes bad hvoted hcool]
    exact s.warmSteps_qu h bad q

theorem State.countN_ev_ne (code inst n : Nat) {c i : Nat} (hne : evKey c i ≠ evKey code inst) :
    (s.countN code inst n).ev c i = s.ev c i := by
  unfold State.countN
  split
  · rfl
  · exact s.ev_setEv_ne code inst _ hne

theorem State.warmEnd_ev (h : s.inWarm) (bad : BitVec 17) {c i : Nat} (hne : evKey c i ≠ evKey Ev.lbankfail 0) :
    (s.warmEnd bad).ev c i = s.ev c i := by
  by_cases hends : s.globalFailed = true ∨ s.tooHot = true
  · rw [s.warmEnd_of_fatal bad hends, State.ev, s.warmFatal_events, State.ev]
  · obtain ⟨hvoted, hcool⟩ : s.globalFailed = false ∧ s.tooHot = false := by simpa using hends
    rw [s.warmEnd_of_goes bad hvoted hcool]
    rw [State.ev, State.scaleAll_events, s.warmSteps_frame h.1 h.2 bad]
    exact s.countN_ev_ne Ev.lbankfail 0 _ hne

/-! ### The command (R73, R74, R425) -/

theorem warmBits (en heart : Bool) : bit (flagAt en 0 ||| 2 ||| flagAt heart 2) 1 = true := by
  revert en heart
  decide

theorem State.exec_warmDeviceReset {p : Path} (h : s.writable p = true) (hstage : s.boot.stage = 8) (en heart : Bool)
    (bad : BitVec 17) (ups : List Upset) : exec (.warmDeviceReset p en heart bad ups) s =
      .next ((((s.acked p 2).warmStart p).warmVote ups).warmEnd bad) := by
  have hu := s.acked_pathFrame p 2
  have hboot : (s.acked p 2).boot.stage = 8 := by
    obtain ⟨⟨x, y, heq⟩, -⟩ := hu
    rw [heq]
    exact hstage
  have hw : (s.acked p 2).writable p = true := (hu.writable p).trans h
  refine congrArg Host.Outcome.next ?_
  rw [← State.warmReset_eq, State.rowDirect]
  have hbit := warmBits en heart
  generalize s.acked p 2 = u at *
  generalize flagAt en 0 ||| 2 ||| flagAt heart 2 = v at hbit ⊢
  simp [hw, State.directWrite, fatalOk, State.gctl, hbit, hboot]

theorem State.warmStart_inWarm (p : Path) : (s.warmStart p).inWarm := by
  rw [s.warmStart_frame p]
  exact ⟨rfl, rfl⟩

theorem State.warmStart_tsens (p : Path) : (s.warmStart p).gov.tsens = s.gov.tsens := by
  rw [s.warmStart_frame p]
  rfl

theorem State.tooHot_congr {s t : State} (h : t.gov.tsens = s.gov.tsens) : t.tooHot = s.tooHot := by
  rw [State.tooHot, h, State.tooHot]

theorem State.warmStart_ready (p : Path) : (s.warmStart p).dp.ready = false := by
  rw [s.warmStart_frame p]
  rfl

/-- A sensor at 155 °C ends the reset in FATAL. -/
theorem State.warmHot (hs : s.agreed) (p : Path) (bad : BitVec 17) (hhot : ∃ x ∈ s.gov.tsens.toList, 620 ≤ sint x) :
    let t := ((s.warmStart p).warmVote []).warmEnd bad
    t.dp.fatal = true ∧ t.boot.warm = false ∧ t.dp.ready = false := by
  have htoo : (s.warmStart p).tooHot = true := (State.tooHot_congr (s.warmStart_tsens p)).trans (s.tooHot_iff.2 hhot)
  have hready := s.warmStart_ready p
  rw [(s.warmStart p).warmVote_nil (s.warmStart_agreed p hs), State.warmEnd_of_fatal _ bad (.inr htoo)]
  generalize s.warmStart p = w at hready ⊢
  obtain ⟨hfatal, hwarm, hkept⟩ := w.warmFatal_fatal
  exact ⟨hfatal, hwarm, hkept.trans hready⟩

/-- The state in which a queue field has failed. -/
theorem State.queueFailed (w : State) (hw : w.inWarm) (q : QId) (i : Fin 7) (v : VWord) :
    ((w.vset (.queue q i) v).voteFail (.queue q i)).inWarm ∧
    ((w.vset (.queue q i) v).voteFail (.queue q i)).gov.tsens = w.gov.tsens ∧
    (((w.vset (.queue q i) v).voteFail (.queue q i)).qu q).vfail = true ∧
    (((w.vset (.queue q i) v).voteFail (.queue q i)).qu q).en = false := by
  refine ⟨hw, rfl, ?_⟩
  simp [State.voteFail]

/-- Three different copies in a word: its failing, and FATAL where it is a global one. -/
theorem State.warmFails (hs : s.agreed) (p : Path) (bad : BitVec 17) {r : VRef} (hr : r ∈ porRefs) (f : Flips)
    (h01 : f.m0 ≠ f.m1) (h02 : f.m0 ≠ f.m2) (h12 : f.m1 ≠ f.m2) :
    let t := ((s.warmStart p).warmVote [⟨r, f⟩]).warmEnd bad
    (t.vget r).failed = true ∧
    ((∀ q i, r ≠ .queue q i) → t.dp.fatal = true ∧ t.boot.warm = false) ∧
    (∀ q i, r = .queue q i → (t.qu q).vfail = true ∧ (t.qu q).en = false ∧
      ((∀ x ∈ s.gov.tsens.toList, sint x < 620) → t.dp.fatal = false ∧ t.boot.warm = true)) := by
  have hagreed := s.warmStart_agreed p hs
  have hwarm := s.warmStart_inWarm p
  have htsens := s.warmStart_tsens p
  generalize s.warmStart p = w at *
  rw [w.warmVote_none hagreed hr f h01 h02 h12]
  have hfailed (v : VWord) (hv : v.failed = true) : (((w.vset r v).voteFail r).vget r).failed = true := by
    rw [State.voteFail_vget_of_failed _ (by rw [State.vget_vset]; exact hv), State.vget_vset]
    exact hv
  have hword := hfailed { (w.vget r).flip f with failed := true } rfl
  by_cases hglobal : ∀ q i, r ≠ .queue q i
  · have hends := State.globalFailed_of_failed _ hglobal hword
    generalize (w.vset r _).voteFail r = v at *
    refine ⟨?_, fun _ => ?_, fun q i he => absurd he (hglobal q i)⟩
    · rw [v.warmEnd_vget (fun hv => by rw [hends] at hv; cases hv) bad hr]
      exact hword
    · rw [v.warmEnd_of_fatal bad (.inl hends)]
      exact ⟨v.warmFatal_fatal.1, v.warmFatal_fatal.2.1⟩
  · obtain ⟨q, i, rfl⟩ : ∃ q i, r = .queue q i := by simpa using hglobal
    obtain ⟨hin, hsens, hvfail, hen⟩ := w.queueFailed hwarm q i { (w.vget (.queue q i)).flip f with failed := true }
    have hothers (r' : VRef) (h : ∀ q i, r' ≠ .queue q i) :
        ((w.vset (.queue q i) { (w.vget (.queue q i)).flip f with failed := true }).voteFail (.queue q i)).agrees r' := by
      rcases State.voteFail_vget _ (.queue q i) r' with hsame | ⟨hfree, -⟩
      · rw [State.agrees, hsame, State.vget_vset_ne _ _ (h q i)]
        exact hagreed r'
      · rw [State.agrees, hfree]
        rfl
    generalize (w.vset (.queue q i) _).voteFail (.queue q i) = v at *
    have hbare := v.warmEnd_qu hin bad q
    refine ⟨?_, fun h => absurd rfl (h q i), fun q' i' he => ?_⟩
    · rw [v.warmEnd_vget (fun _ => hin) bad hr]
      exact hword
    · obtain ⟨rfl, rfl⟩ : q = q' ∧ i = i' := by simpa using he
      refine ⟨(congrArg Queue.vfail hbare :).trans hvfail, (congrArg Queue.en hbare :).trans hen, fun hcool => ?_⟩
      have hgoes : v.tooHot = false := (State.tooHot_congr (hsens.trans htsens)).trans (s.tooHot_of_cool hcool)
      rw [v.warmEnd_of_goes bad (v.globalFailed_of_agrees hothers) hgoes, State.scaleAll_dp, State.scaleAll_boot,
        v.warmSteps_frame hin.1 hin.2 bad]
      exact ⟨hin.2, hin.1⟩

/-- One copy off: the word holds its value, and the rewrite is counted. -/
theorem State.warmFixes (hs : s.agreed) (p : Path) (bad : BitVec 17) {r : VRef} (hr : r ∈ porRefs) {m : Word} (hm : m ≠ 0)
    {f : Flips} (hf : f = ⟨m, 0, 0⟩ ∨ f = ⟨0, m, 0⟩ ∨ f = ⟨0, 0, m⟩) :
    let t := ((s.warmStart p).warmVote [⟨r, f⟩]).warmEnd bad
    t.vget r = VWord.of (s.vget r).val ∧ (t.ev Ev.votefix 0).cnt = 1 := by
  have hword := s.warmStart_vget p hr
  have hnone : (s.warmStart p).ev Ev.votefix 0 = EvCell.zero :=
    (s.warmStart_counted p).2.2 _ _ (by decide)
  have hwarm := s.warmStart_inWarm p
  have hwf := s.warmStart_wf p
  obtain ⟨hget, hcounted, hframe⟩ := (s.warmStart p).warmVote_oneOff (s.warmStart_agreed p hs) hwf hr hm hf
  generalize s.warmStart p = w at *
  generalize w.warmVote [⟨r, f⟩] = v at *
  have hin : v.inWarm := by
    rw [hframe]
    exact hwarm
  refine ⟨?_, ?_⟩
  · rw [v.warmEnd_vget (fun _ => hin) bad hr, hget, hword]
    exact hs r
  · rw [v.warmEnd_ev hin bad (by decide), hcounted.1, hnone]
    rfl

/-! ### A warm reset that goes on to step 5 (Table 3.2, Table 3.3) -/

theorem State.warmStart_retired (p : Path) : (s.warmStart p).land.retired = s.land.retired := by
  rw [s.warmStart_frame p]
  rfl

theorem State.warmStart_freshBanks (p : Path) (bad : BitVec 17) : (s.warmStart p).freshBanks bad = s.freshBanks bad := by
  rw [State.freshBanks, s.warmStart_retired p, State.freshBanks]

/-- The state that a warm reset comes to at once, where neither its vote nor a sensor ends it. -/
def State.warmRuns (s : State) (p : Path) (bad : BitVec 17) : State := ((s.warmStart p).warmSteps bad).scaleAll

theorem State.warmRuns_frame (p : Path) (bad : BitVec 17) : s.warmRuns p bad = { s.devCleared with
    boot := { s.boot with
      warm := true, badBanks := bad, halted := decide (2 ≤ bankCount (s.freshBanks bad))
      warmed := if ((s.warmRuns p bad).ch 0).warmed then 2 else 1, rstCause := resetCause p }
    land := (s.warmRuns p bad).land, events := (s.warmRuns p bad).events, queues := (s.warmRuns p bad).queues
    chans := (s.warmRuns p bad).chans, order := (s.warmRuns p bad).order } := by
  have hin := s.warmStart_inWarm p
  have hstart := s.warmStart_frame p
  have hsteps := (s.warmStart p).warmSteps_frame hin.1 hin.2 bad
  have hscale := ((s.warmStart p).warmSteps bad).scaleAll_queuesOnly
  have hzero : (s.warmRuns p bad).ch 0 = ((s.warmStart p).warmSteps bad).ch 0 := State.scaleAll_ch _ 0
  rw [s.warmStart_freshBanks p bad, ← hzero] at hsteps
  have hruns : s.warmRuns p bad = ((s.warmStart p).warmSteps bad).scaleAll := rfl
  rw [← hruns] at hscale
  generalize s.warmRuns p bad = t at *
  generalize (s.warmStart p).warmSteps bad = u at *
  generalize s.warmStart p = w at *
  have hland : t.land = u.land := (congrArg State.land hscale :)
  have hevents : t.events = u.events := (congrArg State.events hscale :)
  have hchans : t.chans = u.chans := (congrArg State.chans hscale :)
  have horder : t.order = u.order := (congrArg State.order hscale :)
  have hlifted := congrArg (fun v : State => ({ v with queues := t.queues } : State)) hsteps
  have hlift := congrArg (fun v : State => ({ v with
    boot := { v.boot with
      badBanks := bad, halted := decide (2 ≤ bankCount (s.freshBanks bad)), warmed := if (t.ch 0).warmed then 2 else 1 }
    land := u.land, events := u.events, queues := t.queues, chans := u.chans, order := u.order } : State)) hstart
  have huland := (congrArg State.land hsteps :)
  have huevents := (congrArg State.events hsteps :)
  rw [hland, hevents, hchans, horder]
  rw [← huland, ← huevents] at hlifted
  exact hscale.trans (hlifted.trans hlift)

/-- Each lock held counts LOCKBRK and each newly failing bank LBANKFAIL; every other count is 0. -/
theorem State.warmRuns_counts (p : Path) (bad : BitVec 17) :
    ((s.warmRuns p bad).ev Ev.lbankfail 0).cnt = satAdd 0 (bankCount (s.freshBanks bad)) ∧
    ((s.warmRuns p bad).ev Ev.lockbrk 0).cnt = satAdd 0 s.heldLocks ∧
    ∀ c i, evKey c i ≠ evKey Ev.lbankfail 0 → evKey c i ≠ evKey Ev.lockbrk 0 → (s.warmRuns p bad).ev c i = EvCell.zero := by
  obtain ⟨hbreak, -, hstart⟩ := s.warmStart_counted p
  obtain ⟨hfail, -, hsteps⟩ := (s.warmStart p).warmSteps_counted (s.warmStart_inWarm p) (s.warmStart_wf p) bad
  rw [s.warmStart_freshBanks p bad, hstart _ _ (by decide)] at hfail
  refine ⟨hfail, ?_, fun c i hbank hlock => (hsteps c i hbank).trans (hstart c i hlock)⟩
  exact (congrArg EvCell.cnt (hsteps Ev.lockbrk 0 (by decide))).trans hbreak

theorem State.warmRuns_retired (p : Path) (bad : BitVec 17) : (s.warmRuns p bad).land.retired = s.land.retired ||| bad := by
  have hin := s.warmStart_inWarm p
  rw [State.warmRuns, State.scaleAll_land, (s.warmStart p).warmSteps_frame hin.1 hin.2 bad]
  exact ((s.warmStart p).landTest_retired bad).trans (by rw [s.warmStart_retired p])

/-- A queue keeps its seven words and its latched map. -/
theorem State.warmRuns_qu (p : Path) (bad : BitVec 17) (q : QId) : ((s.warmRuns p bad).qu q).bare =
    ({ (s.qu q).devReset with lastAfl := ((s.warmRuns p bad).qu q).lastAfl } : Queue).bare := by
  have hsteps : ((s.warmRuns p bad).qu q).bare = ((s.warmStart p).qu q).bare :=
    (s.warmStart p).warmSteps_qu (s.warmStart_inWarm p) bad q
  have hstart := s.warmStart_qu_bare p q
  generalize (s.warmRuns p bad).qu q = y at *
  generalize (s.warmStart p).qu q = z at *
  have hlast : y.lastAfl = z.lastAfl := (congrArg Queue.lastAfl hsteps :)
  rw [hlast]
  exact hsteps.trans hstart

theorem PathSt.devReset_of_core {x y : PathSt} (h : y.core = x.core) : y.devReset = { PathSt.reset with
    readData := if x.readWait = none then x.readData else 0, ptr := y.ptr, ack := y.ack
    readSeq := x.readSeq, alertByte := x.alertByte, inReset := x.inReset } := by
  have hwait : y.readWait = x.readWait := (congrArg PathSt.readWait h :)
  have hdata : y.readData = x.readData := (congrArg PathSt.readData h :)
  have hseq : y.readSeq = x.readSeq := (congrArg PathSt.readSeq h :)
  have halert : y.alertByte = x.alertByte := (congrArg PathSt.alertByte h :)
  have hreset : y.inReset = x.inReset := (congrArg PathSt.inReset h :)
  rw [PathSt.devReset, hwait, hdata, hseq, halert, hreset]
  cases x.readWait <;> rfl

/-! ### A channel in a warm reset (R75, R242, R465) -/

/-- `y` is `x` after a DEV reset, but for what step 5 changes. -/
def Chan.wiped (x y : Chan) : Prop := y = { x.devReset with
  st := y.st, noRef := y.noRef, waiting := y.waiting, must := y.must, owed := y.owed, gap := y.gap
  refAt := y.refAt, trackAt := y.trackAt, idleSince := y.idleSince }

theorem Chan.warmStep_wiped (x : Chan) (ref moved : Bool) (tick order : Nat) :
    x.wiped (x.devReset.warmStep ref moved tick order) := x.devReset.warmStep_frame ref moved tick order

theorem Chan.devReset_idle {x : Chan} (h : x.st = .untrained ∨ x.st = .absent ∨ x.st = .failed) : x.devReset.st = x.st := by
  show x.rest = x.st
  rcases h with h | h | h <;> rw [Chan.rest, h]

theorem Chan.devReset_served {x : Chan} (h : x.st = .active ∨ x.st = .selfref) : x.devReset.st = .selfref := by
  show x.rest = .selfref
  rcases h with h | h <;> rw [Chan.rest, h]

theorem Chan.warmStep_of_idle {x : Chan} (h : x.st ≠ .selfref) (ref moved : Bool) (tick order : Nat) :
    x.warmStep ref moved tick order = x := by simp [Chan.warmStep, h]

/-- Step 5 on a trained channel: it waits for REFCLK, or for its sweep, or serves with its updates due. -/
theorem Chan.warmStep_of_selfref {x : Chan} (h : x.st = .selfref) (hwait : x.waiting = none) (ref moved : Bool)
    (tick order : Nat) :
    (ref = false → (x.warmStep ref moved tick order).st = .selfref ∧ (x.warmStep ref moved tick order).noRef = true) ∧
    (ref = true → moved = false → (x.warmStep ref moved tick order).st = .active ∧
      (x.warmStep ref moved tick order).must = #v[true, x.ranks] ∧ (x.warmStep ref moved tick order).waiting = none) ∧
    (ref = true → moved = true → (x.warmStep ref moved tick order).st = .selfref ∧
      (x.warmStep ref moved tick order).waiting.map (·.1) = some (some .warm)) := by
  refine ⟨fun hr => ?_, fun hr hm => ?_, fun hr hm => ?_⟩
  · simp [Chan.warmStep, h, hr]
  · have hstep : x.warmStep ref moved tick order = (x.rouse tick).owe := by simp [Chan.warmStep, h, hr, hm]
    rw [hstep]
    exact ⟨rfl, rfl, hwait⟩
  · simp [Chan.warmStep, h, hr, hm]

theorem State.warmRuns_ch (p : Path) (bad : BitVec 17) (c : YId) :
    ∃ order, (s.warmRuns p bad).ch c = if c = 0 ∨ ((s.warmRuns p bad).ch 0).warmed = true
      then (s.ch c).devReset.warmStep s.time.refclk (s.tempMoved c) s.time.ticks order else (s.ch c).devReset := by
  have hstart := s.warmStart_frame p
  have htime := (congrArg State.time hstart :)
  have hdp := (congrArg State.dp hstart :)
  have hin := s.warmStart_inWarm p
  obtain ⟨order, hch⟩ := (s.warmStart p).warmSteps_ch hin.1 hin.2 bad c
  have hmoved : (s.warmStart p).tempMoved c = s.tempMoved c := by
    rw [State.tempMoved, s.warmStart_ch p, hdp, State.tempMoved]
    rfl
  have hruns (d : YId) : (s.warmRuns p bad).ch d = ((s.warmStart p).warmSteps bad).ch d := State.scaleAll_ch _ d
  rw [hmoved, htime, s.warmStart_ch p, ← hruns, ← hruns] at hch
  exact ⟨order, hch⟩

/-- What a warm reset leaves of a channel beside its state (Table 3.3). -/
theorem State.warmRuns_wiped (p : Path) (bad : BitVec 17) (c : YId) : (s.ch c).wiped ((s.warmRuns p bad).ch c) := by
  obtain ⟨order, hch⟩ := s.warmRuns_ch p bad c
  rw [hch]
  split
  · exact Chan.warmStep_wiped _ _ _ _ _
  · rfl

theorem State.warmRuns_idle (p : Path) (bad : BitVec 17) {c : YId}
    (h : (s.ch c).st = .untrained ∨ (s.ch c).st = .absent ∨ (s.ch c).st = .failed) :
    ((s.warmRuns p bad).ch c).st = (s.ch c).st ∧ ((s.warmRuns p bad).ch c).waiting = none := by
  obtain ⟨order, hch⟩ := s.warmRuns_ch p bad c
  have hst := Chan.devReset_idle h
  have hne : (s.ch c).devReset.st ≠ .selfref := by
    rw [hst]
    rcases h with h | h | h <;> rw [h] <;> decide
  rw [Chan.warmStep_of_idle hne, ite_self] at hch
  rw [hch]
  exact ⟨hst, rfl⟩

/-- Y1 rests until Y0's step 5 is complete. -/
theorem State.warmRuns_follows (p : Path) (bad : BitVec 17) {c : YId} (hc : c = 1)
    (hfirst : ((s.warmRuns p bad).ch 0).warmed = false) (h : (s.ch c).st = .active ∨ (s.ch c).st = .selfref) :
    ((s.warmRuns p bad).ch c).st = .selfref ∧ ((s.warmRuns p bad).ch c).must = Vector.replicate 2 false ∧
    ((s.warmRuns p bad).ch c).waiting = none := by
  obtain ⟨order, hch⟩ := s.warmRuns_ch p bad c
  rw [if_neg (by simp [hc, hfirst])] at hch
  rw [hch]
  exact ⟨Chan.devReset_served h, rfl, rfl⟩

/-- A trained channel in its turn. -/
theorem State.warmRuns_served (p : Path) (bad : BitVec 17) {c : YId}
    (hturn : c = 0 ∨ ((s.warmRuns p bad).ch 0).warmed = true) (h : (s.ch c).st = .active ∨ (s.ch c).st = .selfref) :
    (s.time.refclk = false → ((s.warmRuns p bad).ch c).st = .selfref ∧ ((s.warmRuns p bad).ch c).noRef = true) ∧
    (s.time.refclk = true → s.tempMoved c = false → ((s.warmRuns p bad).ch c).st = .active ∧
      ((s.warmRuns p bad).ch c).must = #v[true, (s.ch c).ranks] ∧ ((s.warmRuns p bad).ch c).waiting = none) ∧
    (s.time.refclk = true → s.tempMoved c = true → ((s.warmRuns p bad).ch c).st = .selfref ∧
      ((s.warmRuns p bad).ch c).waiting.map (·.1) = some (some .warm)) := by
  obtain ⟨order, hch⟩ := s.warmRuns_ch p bad c
  rw [if_pos hturn] at hch
  rw [hch]
  exact Chan.warmStep_of_selfref (Chan.devReset_served h) rfl s.time.refclk (s.tempMoved c) s.time.ticks order

/-- A reset whose vote and sensors let it go on. -/
theorem State.warmGoes (hs : s.agreed) (p : Path) (bad : BitVec 17) (hcool : ∀ x ∈ s.gov.tsens.toList, sint x < 620) :
    ((s.warmStart p).warmVote []).warmEnd bad = s.warmRuns p bad := by
  have hagreed := s.warmStart_agreed p hs
  rw [(s.warmStart p).warmVote_nil hagreed]
  refine State.warmEnd_of_goes _ bad (State.globalFailed_of_agrees _ fun r _ => hagreed r) ?_
  exact (State.tooHot_congr (s.warmStart_tsens p)).trans (s.tooHot_of_cool hcool)

/-- What a warm reset leaves of a channel beside what step 5 changes, register by register. -/
theorem Chan.wiped.registers {x y : Chan} (h : x.wiped y) :
    y.reqs = [] ∧ y.hot = [] ∧ y.throttles = [] ∧ y.run = none ∧ y.pend = none ∧
    y.holdReq = none ∧ y.heldHost = false ∧ y.freq = none ∧ y.sweeping = none ∧
    y.resetN = true ∧ y.ctlL = Chan.reset.ctlL ∧ y.ctlH = Chan.reset.ctlH ∧
    y.qos = Chan.reset.qos ∧ y.bucket = Chan.reset.bucket ∧ y.tregBase = 0 ∧ y.tregLen = 16 ∧
    y.hamThresh = 0x2000 ∧ y.hamSpace = 0x01 ∧ y.hamHits = 0 ∧ y.defermax = 0x0A ∧
    y.tA = x.tA ∧ y.tB = x.tB ∧ y.setB = x.setB ∧ y.carryA = x.carryA ∧ y.carryB = x.carryB ∧ y.taps = x.taps ∧
    y.vref = x.vref ∧ y.lfail0 = x.lfail0 ∧ y.lfail1 = x.lfail1 ∧
    y.fstep = x.fstep ∧ y.ttrain = x.ttrain ∧ y.failed = x.failed := by
  rw [Chan.wiped] at h
  rw [h]
  and_intros <;> rfl

theorem State.warmRuns_po (p : Path) (bad : BitVec 17) (n : PId) : (s.warmRuns p bad).po n = (s.po n).devReset := by
  rw [s.warmRuns_frame p bad]
  simp [State.po, State.devCleared]

/-- The two paths after a warm reset started on path `p`. -/
theorem State.warmRuns_path {u : State} (hu : s.pathFrame u) (p : Path) (bad : BitVec 17) (r : Path) :
    (u.warmRuns p bad).path r = { PathSt.reset with
      readData := if (s.path r).readWait = none then (s.path r).readData else 0
      ptr := ((u.warmRuns p bad).path r).ptr, ack := ((u.warmRuns p bad).path r).ack
      readSeq := (s.path r).readSeq, alertByte := (s.path r).alertByte, inReset := (s.path r).inReset } := by
  have hpath : (u.warmRuns p bad).path r = (u.path r).devReset := by
    rw [u.warmRuns_frame p bad]
    cases r <;> rfl
  rw [hpath]
  exact PathSt.devReset_of_core (hu.2 r)

theorem State.acked_pathA (p : Path) (word : Nat) : (s.acked p word).pathA = s.pathA := by cases p <;> rfl

end Sys2Proof.Machine

open Sys2Proof Sys2Proof.Machine

/-- Settles O9: the reset, its vote, and what follows it: steps 4 and 5, or FATAL. -/
theorem warmReset : Obligations.WarmReset := by
  intro p en heart bad s hw hstage hs
  have hexec := s.exec_warmDeviceReset hw hstage en heart bad
  have hu := s.acked_pathFrame p 2
  have hA := s.acked_pathA p 2
  generalize s.acked p 2 = u at hexec hu hA
  have hagreed : u.agreed := fun r => hu.agrees (hs r)
  have htsens : u.gov.tsens = s.gov.tsens := by
    obtain ⟨⟨x, y, rfl⟩, -⟩ := hu
    rfl
  refine ⟨fun hcool => ⟨u.warmRuns p bad, ?_, ?_⟩, fun hhot => ⟨_, hexec [], ?_⟩, fun r f hr h01 h02 h12 => ⟨_, hexec _, ?_⟩,
    fun r m f hr hm hf => ⟨_, hexec _, ?_⟩⟩
  · rw [hexec, u.warmGoes hagreed p bad (by rwa [htsens])]
  · have hframe := u.warmRuns_frame p bad
    have hcounts := u.warmRuns_counts p bad
    have hretired := u.warmRuns_retired p bad
    have hpath := s.warmRuns_path hu p bad
    have hqu := u.warmRuns_qu p bad
    have hwiped := u.warmRuns_wiped p bad
    have hpo := u.warmRuns_po p bad
    have hidle := fun c => u.warmRuns_idle p bad (c := c)
    have hfollows := fun c => u.warmRuns_follows p bad (c := c)
    have hserved := fun c => u.warmRuns_served p bad (c := c)
    have hptr : ((u.warmRuns p bad).path .a).ptr = (s.path .a).ptr ∧ ((u.warmRuns p bad).path .a).ack = (s.path .a).ack := by
      have hown : ((u.warmRuns p bad).path .a) = u.pathA.devReset := (congrArg State.pathA hframe :)
      rw [hown, hA]
      exact ⟨rfl, rfl⟩
    obtain ⟨⟨x, y, rfl⟩, -⟩ := hu
    generalize State.warmRuns _ p bad = t at *
    obtain ⟨hbank, hlock, hzero⟩ := hcounts
    refine ⟨⟨(congrArg State.boot hframe :).trans (by cases p <;> rfl), hretired, hbank⟩, hlock, hzero,
      (congrArg State.dp hframe :), hpath, hptr.1, hptr.2, (congrArg State.sy hframe :), (congrArg State.time hframe :),
      (congrArg State.cal hframe :), (congrArg State.wins hframe :), (congrArg State.gov hframe :),
      (congrArg State.azl hframe :), (congrArg State.sampleTick hframe :), (congrArg State.freeCtr hframe :), hpo, hqu,
      fun c => ?_⟩
    have hchan := And.intro (hwiped c).registers (And.intro (hidle c) (And.intro (hfollows c) (hserved c)))
    simp only [and_assoc] at hchan
    exact hchan
  · have hends := u.warmHot hagreed p bad (by rwa [htsens])
    exact hends
  · have hends := u.warmFails hagreed p bad hr f h01 h02 h12
    rwa [htsens] at hends
  · have hends := u.warmFixes hagreed p bad hr hm hf
    rwa [hu.vget] at hends

end
